-- ==== Sys2Proof/Word.lean ====
section
/-!
DEFINITION. The words of the T5120 and the plainest shapes its tables take.
Register fields the manual numbers by bits are bit vectors; counts, indexes and lengths are natural numbers.
-/

namespace Sys2Proof

/-- One byte of a structure, a frame or a message (R3: structures are little-endian byte strings). -/
abbrev Byte := BitVec 8

/-- A byte string, lowest address first. -/
abbrev Bytes := List Byte

/-- A 32-bit register or structure field. -/
abbrev W32 := BitVec 32

/-- A 64-bit register or structure field. -/
abbrev W64 := BitVec 64

/-- A sparse table: entries by number, kept in rising order of their numbers. -/
abbrev Tab (α : Type) := List (Nat × α)

/-- A byte memory in canonical form: addresses strictly rising, no listed byte equal to 0, which is what an unlisted
address reads as (tun scratch, kiln memory: zero at the start of every routine, R115, R286). -/
abbrev Mem := List (Nat × Byte)

end Sys2Proof
end

