-- ==== Sys2Proof/Syntax.lean ====
section
/-!
DEFINITION. The commands of the T5120: one constructor of Instr for each row of the table of operations and events,
with what the row is given from outside (an address, a value, the data that arrives, what the environment reports).
-/

namespace Sys2Proof

/-- The unit types that have a dispatcher (04, R101); `none` stands for the control and catalogue slips that bypass the
dispatchers and run in fetch order (04, introduction). -/
inductive EngineType where
  | tun | floor | pipe | kiln | none
  deriving DecidableEq, Repr

/-- An IP address of either family (R31). -/
inductive IpAddr where
  | v4 (a : BitVec 32)
  | v6 (a : BitVec 128)
  deriving DecidableEq, Repr

/-- Why a received frame is discarded (R28, R33, R58). -/
inductive FrameDiscard where
  /-- Not ARP, Neighbor Discovery or RoCEv2 for a configured carrel address; fragment, options, extension headers (R28),
  no gateway for an off-link source (R29). -/
  | notForCarrel
  /-- Destination MAC, address or queue pair not the carrel's (R33). -/
  | filtered
  /-- ICRC error, bad UDP checksum, unknown QPN (R58: counted only). -/
  | transport
  deriving DecidableEq, Repr

/-- How a host DMA read ends (R76). -/
inductive DmaResult where
  | data (d : Bytes)
  | unsupportedRequest
  | completerAbort
  | timeout
  deriving DecidableEq, Repr

/-- The fields of a CM REQ that the checks of R39 to R42 read. -/
structure CmReq where
  port : Nat
  vlan : Nat
  dstIp : IpAddr
  rc : Bool                  -- transport service type is RC
  pathMtu : Nat              -- bytes
  respRes : Nat              -- Responder Resources
  rnrRetry : Nat
  retryCnt : Nat
  ackTimeout : Nat           -- t of 4.096 us * 2^t
  clientQpn : Nat
  clientGid : BitVec 128
  clientPsn : BitVec 24
  priv : Bytes               -- the 92 bytes of private data (R39)
  deriving DecidableEq, Repr

/-- The fields of a microword (R143). -/
structure Microword where
  seqOp : BitVec 4 := 0
  next : BitVec 14 := 0
  cond : BitVec 6 := 0
  ctr : BitVec 4 := 0
  safe : Bool := false
  trace : BitVec 8 := 0
  vop : BitVec 7 := 0
  vew : BitVec 2 := 2
  vsrcA : BitVec 5 := 0
  vsrcB : BitVec 5 := 0
  vdst : BitVec 5 := 0
  vmod : BitVec 5 := 0
  vperm : BitVec 6 := 0
  shr : BitVec 4 := 0
  vlop : BitVec 4 := 0
  tag : BitVec 2 := 0
  rnd : BitVec 4 := 0
  mld : BitVec 4 := 0
  mldAddr : BitVec 6 := 0
  mst : BitVec 3 := 0
  mstAddr : BitVec 6 := 0
  hcore : BitVec 6 := 0
  inq : BitVec 3 := 0
  outq : BitVec 3 := 0
  sop : BitVec 5 := 0
  sa : BitVec 4 := 0
  sb : BitVec 4 := 0
  sd : BitVec 4 := 0
  imm : BitVec 32 := 0
  reserved : BitVec 10 := 0
  check : BitVec 16 := 0
  deriving DecidableEq, Repr

/-- A Prija firmware image as far as the device acts on it (R382): versions, measurement, closed-stacks words. -/
structure FwImage where
  version : Nat
  csVersion : Nat
  measure : Bytes
  words : List (BitVec 192) := []
  deriving DecidableEq, Repr

/-- A binding token as it is mirrored (R38, R423). -/
structure PeerToken where
  id : Nat
  value : BitVec 128
  first : Nat
  count : Nat
  mtu : Nat
  expiry : Nat
  deriving DecidableEq, Repr

/-- A hopper as it is mirrored or archived: number, index, state code, its 48-byte block of R376. -/
structure PeerHopper where
  hopper : Nat
  index : Nat
  state : Nat
  block : Bytes
  deriving DecidableEq, Repr

/-- A slot as it is mirrored or archived: shelfmark, slot bytes 0 to 127, extent (R315, R507). -/
structure PeerSlot where
  shelf : Nat
  header : Bytes
  extent : Bytes
  deriving DecidableEq, Repr

/-- A carrel copied between the devices of a pair (R420 step 3): state code, configuration record, hoppers, tokens, slots. -/
structure PeerCarrel where
  carrel : Nat
  state : Nat
  config : Bytes
  hoppers : List PeerHopper := []
  tokens : List PeerToken := []
  slots : List PeerSlot := []
  deriving DecidableEq, Repr

/-- How the exchange of R420 or R432 with the peer ends. -/
inductive PairResult where
  /-- The certificates or the transcript signature do not verify (step 2). -/
  | signatureFailed
  /-- The peer's serial number is not the one named (step 2). -/
  | serialMismatch
  /-- The peer is in a life-cycle state in which it does not pair. -/
  | peerLifeCycle
  /-- The exchange succeeds: the carrels the peer homes, and the values of its ledger counters (R238). -/
  | done (carrels : List PeerCarrel) (counters : List (Nat × Nat))
  deriving DecidableEq, Repr

/-- A hopper's entry in an asynchronous batch (R423, R424). -/
structure BatchHop where
  hopper : Nat
  oc : W32
  ci : W32
  p : W32
  lastSlipSeq : W32
  lastDbSeq : W32
  nextCseq : W32
  fc : W32
  cc : W32
  deriving DecidableEq, Repr

/-- A batch received from the peer: final batches carry exact values, and for a rehomed carrel the held return slips
(R427, R431). -/
structure Batch where
  seq : Nat
  exact : Bool := false
  hops : List BatchHop
  held : List (Nat × W32 × Bytes) := []
  /-- Measurement of the peer's active open-stacks image (R422). -/
  image : Bytes := []
  deriving DecidableEq, Repr

/-- The standby's acknowledgement of the batch with this number (R424). -/
structure BatchAck where
  seq : Nat
  deriving DecidableEq, Repr

/-- What a synchronous record received from the peer changes (R423, R425, R235, R322). -/
inductive SyncRec where
  /-- Creation or attribute change of a mirrored slot, with the memo of R425: hopper and ring entry of the chain. -/
  | slotSet (sl : PeerSlot) (memo : Option (Nat × W32))
  /-- Deaccession or weeding of a mirrored slot: its new generation. -/
  | slotGone (shelf : Nat) (gen : W32) (memo : Option (Nat × W32))
  | carrelSet (c : PeerCarrel)
  | carrelGone (c : Nat)
  | hopperSet (carrel : Nat) (h : PeerHopper)
  | hopperGone (h : Nat)
  | tokenSet (carrel : Nat) (t : PeerToken)
  | tokenRevoked (id : Nat)
  /-- A static binding issued or released; the copy serves nothing until its administrator binds again (R429). -/
  | staticBinding (qpn : Nat)
  /-- A lease: the stateful key's slot and its new ceiling (R235). -/
  | lease (shelf : Nat) (ceiling : Nat)
  /-- A block of uses of a limited mirrored slot, up to this count (R322). -/
  | useBlock (shelf : Nat) (ceiling : Nat)
  deriving DecidableEq, Repr

/-- A journal record read from a cartridge (R507): type, sequence number, object, device seconds, payload, and which of
its two copies is valid. -/
structure FolRaw where
  recType : Nat
  seq : Nat
  key : Nat
  devSec : Nat
  payload : Bytes
  validA : Bool := true
  validB : Bool := true
  deriving DecidableEq, Repr

/-- How the read of the RPMB write counter ends (R502). -/
inductive RpmbRead where
  | keyNotProgrammed | macFails | ok
  deriving DecidableEq, Repr

/-- What mounting a cartridge finds (R497, R498, R502, R503). -/
structure MountInfo where
  /-- Step of R496 that fails; 0 where none does. -/
  idFail : Nat := 0
  rpmb : RpmbRead
  counter : Nat := 0
  ancSlot : Nat := 0
  serial : Bytes := []
  tenure : Nat := 0
  highSeq : Nat := 0
  secCount : W32 := 0
  width : BitVec 2 := 2
  timing : BitVec 2 := 3
  life : W32 := 0
  records : List FolRaw := []
  deriving DecidableEq, Repr

/-- Where a failed slot line is recovered from (R528). -/
inductive RecoverySource where
  | peer | archive
  /-- Neither holds it; whether the header itself failed. -/
  | none (header : Bool)
  deriving DecidableEq, Repr

/-- How the data of a direct-page operation arrives: input and AAD reads, and whether pass 2 sees the same input (R282). -/
structure PageData where
  src : DmaResult
  aad : DmaResult
  unchanged : Bool := true
  deriving DecidableEq, Repr

/-- The writable registers (chapters 2, 4, 9, 11, 13 to 15, 17 to 22); every other one is read-only (R7). -/
inductive RegName where
  | mbxCmd (off width : Nat)
  | mbxGo | mbxSts | mbxEvqBase | mbxEvqCfg | mbxEvqHead
  | dpgIv0 (page : Nat) | dpgIv1 (page : Nat) | dpgCtrl (page : Nat) | dpgSrc (page : Nat) | dpgDst (page : Nat)
  | dpgAad (page : Nat) | dpgLen (page : Nat) | dpgTag0 (page : Nat) | dpgTag1 (page : Nat) | dpgSts (page : Nat)
  | octSts (octet : Nat) | hopDlSts (carrel : Nat) | ledSts | catSts | entSts | mirSts | fltSts | celSts | tmpSts
  | qdrMode | folSlotSts (slot : Nat)
  | readOnly
  deriving DecidableEq, Repr

/-- Boot stage 3 (R542, R543, R496): lock of PLLs 5 and 6, the ROM check, the die temperature, the slots whose cartridge
identifies, with its capacity, and those that fail, with the step. -/
structure Stage3 where
  pllsLocked : Bool := true
  romOk : Bool := true
  dieTemp : BitVec 8 := 25
  identified : List (Nat × W32) := []
  failed : List (Nat × Nat) := []
  deriving DecidableEq, Repr

/-- Boot stage 4: the image of the bank booted, when one is found and verifies (R382, R385). -/
structure Stage4 where
  image : Option FwImage
  deriving DecidableEq, Repr

/-- Boot stage 5: ledger cells whose SECDED decode fails, as counter and position (R222, R223). -/
structure Stage5 where
  badCells : List (Nat × Nat) := []
  deriving DecidableEq, Repr

/-- Boot stage 7: the known-answer tests of the entropy unit; sources that fail their start-up, with the cause of R341. -/
structure Stage7 where
  katOk : Bool := true
  failed : List (Nat × Nat) := []
  deriving DecidableEq, Repr

/-- Boot stage 8: the guard's known-answer test; per channel the narrowest read and write eye in 1/256 UI and whether the
training region verifies (R517). -/
structure Stage8 where
  katOk : Bool := true
  channels : List (Nat × Nat × Bool) := []
  deriving DecidableEq, Repr

/-- Boot stage 9: whether the 600 s without a current cartridge have run out (R508), and the final modes of the slots. -/
structure Stage9 where
  timedOut : Bool := false
  modes : List (Nat × BitVec 2 × BitVec 2) := []
  deriving DecidableEq, Repr

/-- Boot stage 10: physical units whose known-answer test fails (R470). -/
structure Stage10 where
  failed : List (EngineType × Nat) := []
  deriving DecidableEq, Repr

/-- What a checker reports to the fault collector (R443): the source and what it concerns. -/
structure FaultReport where
  source : Nat
  carrel : Nat := 0xFF
  unitType : Nat := 0xFF
  phys : Nat := 0xFFFF
  logical : Nat := 0xFFFF
  hopper : W32 := 0xFFFF_FFFF#32
  detail : W32 := 0
  deriving DecidableEq, Repr


/-- The commands of the T5120, in the order of the table of operations and events. -/
inductive Instr where
  /-- DOORBELL_WRITE (R46). An RDMA WRITE of 1 to 64 doorbell records arrives at a carrel's doorbell region and is
  access-checked, stamped and split into records. -/
  | doorbellWrite (qpn psn : Nat) (ce : Bool) (rkey : W32) (off : Nat) (data : Bytes)
  /-- HOST_DOORBELL (R75). A PCIe write of byte 15 of a doorbell position in BAR 2 stamps and handles a doorbell
  record for a HOST hopper. -/
  | hostDoorbell (fn off : Nat) (data : Bytes)
  /-- REQ (R40). A CM REQ with a binding request is checked and answered with REP or refused with REJ and a reason
  code. -/
  | cmReq (r : CmReq)
  /-- REBIND_DRAIN_DONE (R42). The old queue pair's outstanding READs and WRITEs finish, and REP is sent on the new
  queue pair. -/
  | rebindDrainDone (qpn : Nat)
  /-- REBIND_DRAIN_TIMEOUT (R42). After 1 ms an unanswered READ on the old queue pair is treated as failed and REP
  is sent. -/
  | rebindDrainTimeout (qpn : Nat)
  /-- RTU (R40). A CM RTU binds the hoppers to the new queue pair, after which held return slips and pending status
  blocks are written. -/
  | cmRtu (qpn : Nat)
  /-- DREQ (R57). A DREQ received from the client disconnects the queue pair and unbinds its hoppers. -/
  | cmDreq (qpn : Nat)
  /-- DREP (R35). A DREP received from the client completes a disconnection the device started. -/
  | cmDrep (qpn : Nat)
  /-- RDMA_READ_RESPONSE (R50). An RDMA READ response delivers slip, extension, input or AUX data fetched by the
  hopper engine. -/
  | rdmaReadResponse (qpn rid : Nat) (ce : Bool) (data : Bytes)
  /-- RDMA_WRITE_ACK (R51). An ACK for a posted output or return-slip WRITE arrives, allowing
  acknowledgement-dependent postings and status blocks. -/
  | rdmaWriteAck (qpn rid : Nat) (ce : Bool)
  /-- NAK_REMOTE_ACCESS_ERROR (R58). A NAK Remote Access Error on a READ or WRITE puts the queue pair in error and
  decides the slip outcome. -/
  | nakRemoteAccessError (qpn rid : Nat)
  /-- NAK_PSN_SEQUENCE_ERROR (R58). A NAK PSN Sequence Error makes the device go back and resend. -/
  | nakPsnSequenceError (qpn rid : Nat)
  /-- NAK_INVALID_REQUEST (R58). A NAK Invalid Request received puts the queue pair in error with the ACK-timeout
  outcome. -/
  | nakInvalidRequest (qpn rid : Nat)
  /-- RNR_NAK (R52). An RNR NAK for a WRITE with Immediate starts an RNR retry wait. -/
  | rnrNak (qpn rid : Nat)
  /-- RNR_RETRY (R58). The RNR retry timer expires and the WRITE is resent, or the RNR retry count is exceeded and
  the queue pair fails. -/
  | rnrRetry (qpn rid : Nat)
  /-- ACK_TIMEOUT (R58). The local ACK timeout expires, causing a retransmission or, when the retry count is
  exceeded, queue-pair error. -/
  | ackTimeout (qpn : Nat)
  /-- INVALID_REQUEST_PACKET (R36). A request packet with an unsupported opcode on a bound queue pair is answered
  with NAK Invalid Request. -/
  | invalidRequestPacket (qpn psn : Nat)
  /-- CNP (R54). A received CNP cuts the queue pair's transmit rate and raises alpha. -/
  | cnpReceived (qpn : Nat)
  /-- RATE_PERIOD (R54). A 55 µs period without a CNP decays alpha and raises the queue pair's rate toward its
  target. -/
  | ratePeriod (qpn : Nat)
  /-- FRAME_DISCARDED (R28). A received frame that is not ARP, ND or RoCEv2 for a configured carrel address, or
  fails filtering, is discarded and counted. -/
  | frameDiscarded (port vlan : Nat) (why : FrameDiscard)
  /-- PORT_FEC_UNCORR (R58). An uncorrectable RS(544,514) codeword discards its frame and is counted. -/
  | portFecUncorr (port : Nat)
  /-- ARP_REQUEST (R28). An ARP request for a carrel address is answered. -/
  | arpRequest (port vlan : Nat) (senderMac : BitVec 48) (senderIp targetIp : BitVec 32)
  /-- NEIGHBOR_SOLICITATION (R28). A neighbour solicitation for a carrel address is answered with an advertisement. -/
  | neighborSolicitation (port vlan : Nat) (senderMac : BitVec 48) (senderIp targetIp : BitVec 128)
  /-- NEXT_HOP_RESOLVED (R29). An ARP reply or neighbour advertisement resolves a next hop into the cache. -/
  | nextHopResolved (carrel : Nat) (ip : IpAddr) (mac : BitVec 48)
  /-- RESOLUTION_RETRY (R29). An unanswered next-hop resolution is repeated at 1 s and 2 s and marked unreachable
  at 3 s. -/
  | resolutionRetry (carrel : Nat) (ip : IpAddr)
  /-- NEXT_HOP_CACHE_EXPIRY (R29). A resolved entry is refreshed before, or dropped at, 300 s after its last use. -/
  | nextHopCacheExpiry (carrel : Nat) (ip : IpAddr)
  /-- GRATUITOUS_ARP (R34). Gratuitous ARP or unsolicited advertisements are sent on taking an address and repeated
  at 1 s and 3 s. -/
  | gratuitousArp (carrel : Nat)
  /-- PAUSE_FRAME (R56). A received PFC pause frame pauses transmission on its priority. -/
  | pauseFrame (port prio quanta : Nat)
  /-- PORT_PFC_STORM (R56). A priority paused without a break for more than 100 ms records a PFC storm. -/
  | portPfcStorm (port prio : Nat)
  /-- PFC_IGNORE_RELEASE (R56). A priority set to ignore pause after a storm obeys pause again after 1 s unpaused. -/
  | pfcIgnoreRelease (port prio : Nat)
  /-- LINK_DOWN (R58). A port's link goes down; queue-pair timers run on. -/
  | linkDown (port : Nat)
  /-- LINK_UP (R60). A port's link trains and comes up, moving its octet from DOWN to UP. -/
  | linkUp (port : Nat)
  /-- HOST_DMA_COMPLETION (R76). A host DMA read completes, or fails with UR, CA or timeout, with the remote-access
  outcome. -/
  | hostDmaCompletion (fn rid : Nat) (r : DmaResult)
  /-- HOPPER_FETCH (R96). The hopper engine issues an RDMA READ of slips from an eligible hopper with room in the
  staged limits. -/
  | hopperFetch (hopper n : Nat)
  /-- DISPATCH (R101). On a unit freeing or a slip becoming startable, the dispatcher picks a slip, chooses a unit,
  charges virtual time and assigns it. -/
  | dispatch (e : EngineType)
  /-- WAKE_COMPLETE (R102). A cluster finishes waking from IDLE, NAP or DORMANT and its units accept work. -/
  | wakeComplete (e : EngineType) (cluster : Nat)
  /-- CLUSTER_NAP (R102). A cluster outside the warm pool moves to NAP after 100 µs without work. -/
  | clusterNap (e : EngineType) (cluster : Nat)
  /-- CLUSTER_DORMANT (R102). A cluster moves from NAP to DORMANT after a further 10 ms. -/
  | clusterDormant (e : EngineType) (cluster : Nat)
  /-- LONG_QUANTUM_END (R109). A LONG message reaches the end of a 1 ms quantum and is suspended if another slip of
  its type is startable. -/
  | longQuantumEnd (sid : Nat)
  /-- LONG_SUSPEND (R106). A LONG message reaches a check point with a pending suspension request and saves its
  context. -/
  | longSuspend (sid : Nat)
  /-- EXECUTION_COMPLETE (R86). A unit finishes a slip, and the chain is committed, output and return slips are
  posted, or failure statuses are given. -/
  | executionComplete (sid actualNs : Nat)
  /-- HOPPER_STOPPED (R64). A STOPPING hopper becomes STOPPED when its last fetched slip has completed. -/
  | hopperStopped (hopper : Nat)
  /-- UNIT_FAULT (R17). A checker reports a fault in a tun, floor, pipe or kiln, which is fenced and its slip
  re-run once. -/
  | unitFault (e : EngineType) (phys source : Nat)
  /-- HOPPER_ENGINE_RESET_DONE (R449). A hopper engine block reset completes and fetching resumes. -/
  | hopperEngineResetDone
  /-- RETEST_COMPLETE (R447). A fenced unit's retest ends and the unit returns or stays fenced. -/
  | retestComplete (e : EngineType) (phys : Nat) (fail : Option Nat)
  /-- ERR_N_RELEASE (R444). ERR_N is released once its 1 ms minimum has passed, ERR_LATCH is 0 and neither FAILED
  nor ENTROPY_FAILED holds. -/
  | errNRelease
  /-- TUN_WATCHDOG (R156). The tun watchdog count reaches 65,536 in open stacks or 8,192 in closed stacks without a
  safe point. -/
  | tunWatchdog (t : Nat)
  /-- TUN_SCRUB_DONE (R141). A tun's 640-cycle full scrub completes and the tun accepts work again. -/
  | tunScrubDone (t : Nat)
  /-- MASKGEN_RESEED (R137). A tun mask generator reaches 2^20 blocks and reseeds from the entropy unit. -/
  | maskgenReseed (t : Nat)
  /-- KILN_WIPE_DONE (R288). A kiln's full private-memory wipe completes and it may take its next job. -/
  | kilnWipeDone (k : Nat)
  /-- PASS1_DONE (R272). Pass 1 of a two-pass pipe slip ends with its check value and pass 2 starts or the slip
  fails. -/
  | pass1Done (sid : Nat)
  /-- NOP (R79). Control slip that completes with OK using no engine. -/
  | ctlNop (sid : Nat)
  /-- STATUS (R79). Control slip that writes a hopper status block to OUT_ADDR. -/
  | ctlStatus (sid : Nat)
  /-- RANDOM (R353). Control slip that writes OUT_LEN_MAX random bytes from a CLI DRBG instance, optionally with
  prediction resistance. -/
  | ctlRandom (sid : Nat)
  /-- FENCE (R545). Control slip that acts as NOP with the FENCE ordering barrier. -/
  | ctlFence (sid : Nat)
  /-- KEM_KEYGEN (R175). Generates an ML-KEM key pair into a new slot and writes ek. -/
  | kemKeygen (sid : Nat)
  /-- KEM_ENCAPS (R182). ML-KEM encapsulation to ek, writing c and sending K to a carry or new slot. -/
  | kemEncaps (sid : Nat)
  /-- KEM_DECAPS (R183). ML-KEM decapsulation with implicit rejection, sending K to a carry or new slot. -/
  | kemDecaps (sid : Nat)
  /-- KEM_PUBKEY (R175). Writes the ML-KEM encapsulation key of a private-key slot. -/
  | kemPubkey (sid : Nat)
  /-- DSA_KEYGEN (R176). Generates an ML-DSA key pair into a new slot and writes pk. -/
  | dsaKeygen (sid : Nat)
  /-- DSA_PUBKEY (R176). Writes the ML-DSA public key of a private-key slot. -/
  | dsaPubkey (sid : Nat)
  /-- DSA_SIGN (R188). ML-DSA signing of M with context, hedged or deterministic. -/
  | dsaSign (sid : Nat)
  /-- DSA_SIGN_PH (R185). HashML-DSA signing of M or its supplied digest. -/
  | dsaSignPh (sid : Nat)
  /-- DSA_SIGN_MU (R186). ML-DSA signing of a supplied message representative mu. -/
  | dsaSignMu (sid : Nat)
  /-- DSA_VERIFY (R189). ML-DSA verification giving OK or SIGNATURE_INVALID. -/
  | dsaVerify (sid : Nat)
  /-- DSA_VERIFY_PH (R189). HashML-DSA verification of M or its digest. -/
  | dsaVerifyPh (sid : Nat)
  /-- DSA_VERIFY_MU (R189). ML-DSA verification against a supplied mu. -/
  | dsaVerifyMu (sid : Nat)
  /-- KEM_KEYGEN_KAT (R190). FACTORY known-answer ML-KEM key generation from supplied d and z. -/
  | kemKeygenKat (sid : Nat)
  /-- KEM_ENCAPS_KAT (R190). FACTORY known-answer ML-KEM encapsulation with supplied m. -/
  | kemEncapsKat (sid : Nat)
  /-- KEM_DECAPS_KAT (R190). FACTORY known-answer ML-KEM decapsulation with supplied dk. -/
  | kemDecapsKat (sid : Nat)
  /-- DSA_KEYGEN_KAT (R190). FACTORY known-answer ML-DSA key generation from supplied xi. -/
  | dsaKeygenKat (sid : Nat)
  /-- DSA_SIGN_KAT (R190). FACTORY known-answer ML-DSA signing of M' with supplied sk and rnd. -/
  | dsaSignKat (sid : Nat)
  /-- DSA_VERIFY_KAT (R190). FACTORY known-answer ML-DSA verification of M'. -/
  | dsaVerifyKat (sid : Nat)
  /-- SLH_KEYGEN (R199). Generates an SLH-DSA key pair into a new slot and writes pk. -/
  | slhKeygen (sid : Nat)
  /-- SLH_PUBKEY (R198). Writes the public half of an SLH-DSA private key, on the catalogue. -/
  | slhPubkey (sid : Nat)
  /-- SLH_SIGN (R201). SLH-DSA signing, message preparation on a tun then FORS and hypertree on a floor. -/
  | slhSign (sid : Nat)
  /-- SLH_SIGN_PH (R200). HashSLH-DSA signing of M or its digest. -/
  | slhSignPh (sid : Nat)
  /-- SLH_VERIFY (R201). SLH-DSA verification giving OK or SIGNATURE_INVALID. -/
  | slhVerify (sid : Nat)
  /-- SLH_VERIFY_PH (R200). HashSLH-DSA verification of M or its digest. -/
  | slhVerifyPh (sid : Nat)
  /-- SLH_KEYGEN_KAT (R217). FACTORY known-answer SLH-DSA key generation from supplied seeds. -/
  | slhKeygenKat (sid : Nat)
  /-- SLH_SIGN_KAT (R217). FACTORY known-answer SLH-DSA signing of M'. -/
  | slhSignKat (sid : Nat)
  /-- STF_KEYGEN (R203). Generates an HSS, XMSS or XMSS^MT key, binds its ledger counter and builds its first trees
  in quanta. -/
  | stfKeygen (sid : Nat)
  /-- STF_PUBKEY (R205). Writes the stored public key of a stateful private key. -/
  | stfPubkey (sid : Nat)
  /-- STF_SIGN (R205). Stateful signing taking the next leaf index from the current lease. -/
  | stfSign (sid : Nat)
  /-- STF_VERIFY (R209). Stateful signature verification in HSS or XMSS form. -/
  | stfVerify (sid : Nat)
  /-- STF_REMAIN (R205). Reports the number of indices a stateful key can still issue on this device. -/
  | stfRemain (sid : Nat)
  /-- CKEM_KEYGEN (R212). Generates an HQC or Classic McEliece key pair into a new slot and writes pk. -/
  | ckemKeygen (sid : Nat)
  /-- CKEM_ENCAPS (R214). Code-based encapsulation after a padding check, streaming the McEliece public key. -/
  | ckemEncaps (sid : Nat)
  /-- CKEM_DECAPS (R213). Code-based decapsulation with implicit rejection. -/
  | ckemDecaps (sid : Nat)
  /-- CKEM_PUBKEY (R212). Writes the public key of a code-based private key. -/
  | ckemPubkey (sid : Nat)
  /-- CKEM_KEYGEN_KAT (R217). FACTORY known-answer code-based key generation from a seed. -/
  | ckemKeygenKat (sid : Nat)
  /-- CKEM_ENCAPS_KAT (R217). FACTORY known-answer code-based encapsulation from a seed. -/
  | ckemEncapsKat (sid : Nat)
  /-- CKEM_DECAPS_KAT (R217). FACTORY known-answer code-based decapsulation with a supplied private key. -/
  | ckemDecapsKat (sid : Nat)
  /-- DIG (R250). Digest of key, carries and IN to exactly one permitted destination. -/
  | dig (sid : Nat)
  /-- DIG_START (R251). Starts a digest and writes its 384-byte state record. -/
  | digStart (sid : Nat)
  /-- DIG_UPDATE (R254). Imports a state record, absorbs more input and writes a new record. -/
  | digUpdate (sid : Nat)
  /-- DIG_FINISH (R254). Imports a state record, absorbs the message end and writes the digest. -/
  | digFinish (sid : Nat)
  /-- KDF_HKDF (R260). HKDF extract and expand from key, carries and IN. -/
  | kdfHkdf (sid : Nat)
  /-- KDF_HKDF_EXPAND (R260). HKDF-Expand using the named key as PRK. -/
  | kdfHkdfExpand (sid : Nat)
  /-- KDF_108 (R260). SP 800-108 key derivation with HMAC counter mode or KMAC. -/
  | kdf108 (sid : Nat)
  /-- MAC_GEN (R258). HMAC or KMAC tag generation to OUT. -/
  | macGen (sid : Nat)
  /-- MAC_VERIFY (R260). Constant-time HMAC or KMAC tag verification. -/
  | macVerify (sid : Nat)
  /-- AEAD_ENCRYPT (R269). AES-GCM or ChaCha20-Poly1305 encryption, optionally with a generated IV. -/
  | aeadEncrypt (sid : Nat)
  /-- AEAD_DECRYPT (R272). AES-GCM or ChaCha20-Poly1305 decryption with tag check, two-pass when long. -/
  | aeadDecrypt (sid : Nat)
  /-- CTR_ENCRYPT (R269). AES-CTR encryption. -/
  | ctrEncrypt (sid : Nat)
  /-- CTR_DECRYPT (R269). AES-CTR decryption. -/
  | ctrDecrypt (sid : Nat)
  /-- CBC_ENCRYPT (R270). AES-CBC encryption without padding. -/
  | cbcEncrypt (sid : Nat)
  /-- CBC_DECRYPT (R270). AES-CBC decryption without padding. -/
  | cbcDecrypt (sid : Nat)
  /-- XTS_ENCRYPT (R269). XTS-AES encryption by data units with ciphertext stealing. -/
  | xtsEncrypt (sid : Nat)
  /-- XTS_DECRYPT (R269). XTS-AES decryption by data units. -/
  | xtsDecrypt (sid : Nat)
  /-- CMAC_GEN (R266). AES-CMAC tag generation. -/
  | cmacGen (sid : Nat)
  /-- CMAC_VERIFY (R266). AES-CMAC tag verification. -/
  | cmacVerify (sid : Nat)
  /-- KW_WRAP (R270). AES key wrap of client bytes. -/
  | kwWrap (sid : Nat)
  /-- KW_UNWRAP (R270). AES key unwrap with integrity check. -/
  | kwUnwrap (sid : Nat)
  /-- KWP_WRAP (R270). AES key wrap with padding. -/
  | kwpWrap (sid : Nat)
  /-- KWP_UNWRAP (R270). AES key unwrap with padding and integrity check. -/
  | kwpUnwrap (sid : Nat)
  /-- PK_KEYGEN (R300). Classical key generation into a new slot, writing pk. -/
  | pkKeygen (sid : Nat)
  /-- PK_PUBKEY (R310). Writes the public key of a classical private key. -/
  | pkPubkey (sid : Nat)
  /-- PK_AGREE (R299). ECDH, X25519 or X448 agreement to a carry or new slot. -/
  | pkAgree (sid : Nat)
  /-- PK_SIGN (R293). RSA, ECDSA or EdDSA signing. -/
  | pkSign (sid : Nat)
  /-- PK_VERIFY (R298). RSA, ECDSA or EdDSA verification. -/
  | pkVerify (sid : Nat)
  /-- RSA_ENCRYPT (R293). RSA encryption with OAEP or PKCS#1 v1.5. -/
  | rsaEncrypt (sid : Nat)
  /-- RSA_DECRYPT (R297). RSA decryption with implicit rejection to a carry or new slot. -/
  | rsaDecrypt (sid : Nat)
  /-- CURVE_LOAD (R308). Checks and stores short-Weierstrass curve parameters in a curve slot. -/
  | curveLoad (sid : Nat)
  /-- MODADD (R301). Kiln primitive modular addition. -/
  | modadd (sid : Nat)
  /-- MODSUB (R301). Kiln primitive modular subtraction. -/
  | modsub (sid : Nat)
  /-- MODMUL (R301). Kiln primitive modular multiplication. -/
  | modmul (sid : Nat)
  /-- MODINV (R301). Kiln primitive modular inversion. -/
  | modinv (sid : Nat)
  /-- MODEXP (R301). Kiln primitive modular exponentiation. -/
  | modexp (sid : Nat)
  /-- PADD (R301). Kiln primitive point addition. -/
  | padd (sid : Nat)
  /-- PDBL (R301). Kiln primitive point doubling. -/
  | pdbl (sid : Nat)
  /-- PMUL (R301). Kiln primitive scalar point multiplication. -/
  | pmul (sid : Nat)
  /-- CAT_GENERATE (R327). Generates a key of a Generate class into a new slot. -/
  | catGenerate (sid : Nat)
  /-- CAT_NARROW (R329). Creates a child slot holding a narrowed copy of a key. -/
  | catNarrow (sid : Nat)
  /-- CAT_UNWRAP (R329). Opens a key transfer record under a KEK into a new slot. -/
  | catUnwrap (sid : Nat)
  /-- CAT_WRAP_OUT (R330). Writes a key transfer record of TARGET wrapped under a KEK. -/
  | catWrapOut (sid : Nat)
  /-- CAT_DEACCESSION (R332). Slip that deaccessions a slot at depth 1 or more. -/
  | catDeaccession (sid : Nat)
  /-- CAT_INFO (R327). Writes bytes 0 to 63 of a slot of the carrel. -/
  | catInfo (sid : Nat)
  /-- OPEN_STACKS_INVOKE (R171). A class 0xF slip runs dispatch entry ee of the active open-stacks image. -/
  | openStacksInvoke (sid : Nat)
  /-- CONT (R147). Microword sequencer operation continuing at PC+1. -/
  | seqCont (t : Nat)
  /-- JUMP (R147). Microword sequencer operation jumping to NEXT. -/
  | seqJump (t : Nat)
  /-- BR (R147). Conditional branch to NEXT on COND. -/
  | seqBr (t : Nat)
  /-- CALL (R147). Pushes PC+1 and jumps to NEXT. -/
  | seqCall (t : Nat)
  /-- CALLC (R147). Conditional call on COND. -/
  | seqCallc (t : Nat)
  /-- RET (R147). Pops the return address. -/
  | seqRet (t : Nat)
  /-- LOOP (R147). Decrements a loop counter and branches while non-zero. -/
  | seqLoop (t : Nat)
  /-- EXIT (R157). Ends the routine normally, releasing held output under R140. -/
  | seqExit (t : Nat)
  /-- FAIL (R157). Ends the routine with the status in IMM. -/
  | seqFail (t : Nat)
  /-- SAFE_POINT (R155). At a SAFE microword the tun services pending fault, entropy, abort or suspension requests. -/
  | safePoint (t : Nat)
  /-- VNOP (R121). Vector no-operation. -/
  | vnop (t : Nat) (w : Microword)
  /-- VADD (R121). Vector add. -/
  | vadd (t : Nat) (w : Microword)
  /-- VSUB (R121). Vector subtract. -/
  | vsub (t : Nat) (w : Microword)
  /-- VMULL (R121). Vector multiply, low bits. -/
  | vmull (t : Nat) (w : Microword)
  /-- VMULHU (R121). Vector multiply, high bits unsigned. -/
  | vmulhu (t : Nat) (w : Microword)
  /-- VMULHS (R121). Vector multiply, high bits signed. -/
  | vmulhs (t : Nat) (w : Microword)
  /-- VMINU (R121). Vector unsigned minimum. -/
  | vminu (t : Nat) (w : Microword)
  /-- VMAXU (R121). Vector unsigned maximum. -/
  | vmaxu (t : Nat) (w : Microword)
  /-- VMINS (R121). Vector signed minimum. -/
  | vmins (t : Nat) (w : Microword)
  /-- VMAXS (R121). Vector signed maximum. -/
  | vmaxs (t : Nat) (w : Microword)
  /-- VNEG (R121). Vector negate. -/
  | vneg (t : Nat) (w : Microword)
  /-- VMOV (R121). Vector move. -/
  | vmov (t : Nat) (w : Microword)
  /-- VBCAST (R121). Broadcast IMM to every element. -/
  | vbcast (t : Nat) (w : Microword)
  /-- VBCASTS (R121). Broadcast a scalar register to every element. -/
  | vbcasts (t : Nat) (w : Microword)
  /-- VEXT (R121). Extract an element to a scalar register. -/
  | vext (t : Nat) (w : Microword)
  /-- VAND (R121). Vector AND. -/
  | vand (t : Nat) (w : Microword)
  /-- VOR (R121). Vector OR. -/
  | vor (t : Nat) (w : Microword)
  /-- VXOR (R121). Vector XOR. -/
  | vxor (t : Nat) (w : Microword)
  /-- VNOT (R121). Vector NOT. -/
  | vnot (t : Nat) (w : Microword)
  /-- VANDN (R121). Vector AND NOT. -/
  | vandn (t : Nat) (w : Microword)
  /-- VSELB (R121). Bitwise select by the destination. -/
  | vselb (t : Nat) (w : Microword)
  /-- VSHL (R121). Shift left by IMM. -/
  | vshl (t : Nat) (w : Microword)
  /-- VSHR (R121). Logical shift right by IMM. -/
  | vshr (t : Nat) (w : Microword)
  /-- VSRA (R121). Arithmetic shift right by IMM. -/
  | vsra (t : Nat) (w : Microword)
  /-- VROL (R121). Rotate left by IMM. -/
  | vrol (t : Nat) (w : Microword)
  /-- VSHLV (R121). Shift left by element of b. -/
  | vshlv (t : Nat) (w : Microword)
  /-- VSHRV (R121). Shift right by element of b. -/
  | vshrv (t : Nat) (w : Microword)
  /-- VPOPC (R121). Population count. -/
  | vpopc (t : Nat) (w : Microword)
  /-- VBITREV (R121). Bit reversal within elements. -/
  | vbitrev (t : Nat) (w : Microword)
  /-- VBSWAP (R121). Byte reversal within elements. -/
  | vbswap (t : Nat) (w : Microword)
  /-- VMADD (R122). Modular addition. -/
  | vmadd (t : Nat) (w : Microword)
  /-- VMSUB (R122). Modular subtraction. -/
  | vmsub (t : Nat) (w : Microword)
  /-- VMNEG (R122). Modular negation. -/
  | vmneg (t : Nat) (w : Microword)
  /-- VMMONT (R122). Montgomery multiplication. -/
  | vmmont (t : Nat) (w : Microword)
  /-- VMBAR (R122). Barrett modular multiplication. -/
  | vmbar (t : Nat) (w : Microword)
  /-- VMRED (R122). Modular reduction. -/
  | vmred (t : Nat) (w : Microword)
  /-- VMCSUB (R122). Conditional subtraction of q. -/
  | vmcsub (t : Nat) (w : Microword)
  /-- VMCENT (R122). Centred representative modulo q. -/
  | vmcent (t : Nat) (w : Microword)
  /-- VQADDS (R123). Signed saturating add. -/
  | vqadds (t : Nat) (w : Microword)
  /-- VQSUBS (R123). Signed saturating subtract. -/
  | vqsubs (t : Nat) (w : Microword)
  /-- VQADDU (R123). Unsigned saturating add. -/
  | vqaddu (t : Nat) (w : Microword)
  /-- VQSUBU (R123). Unsigned saturating subtract. -/
  | vqsubu (t : Nat) (w : Microword)
  /-- VRSHRS (R123). Rounding arithmetic shift right. -/
  | vrshrs (t : Nat) (w : Microword)
  /-- VRSHRU (R123). Rounding logical shift right. -/
  | vrshru (t : Nat) (w : Microword)
  /-- VRMULHS (R123). Rounding signed high multiply. -/
  | vrmulhs (t : Nat) (w : Microword)
  /-- VRMULHU (R123). Rounding unsigned high multiply. -/
  | vrmulhu (t : Nat) (w : Microword)
  /-- VCMPEQ (R121). Compare equal. -/
  | vcmpeq (t : Nat) (w : Microword)
  /-- VCMPNE (R121). Compare not equal. -/
  | vcmpne (t : Nat) (w : Microword)
  /-- VCMPLTU (R121). Compare unsigned less than. -/
  | vcmpltu (t : Nat) (w : Microword)
  /-- VCMPLTS (R121). Compare signed less than. -/
  | vcmplts (t : Nat) (w : Microword)
  /-- VCMPLEU (R121). Compare unsigned less or equal. -/
  | vcmpleu (t : Nat) (w : Microword)
  /-- VCMPLES (R121). Compare signed less or equal. -/
  | vcmples (t : Nat) (w : Microword)
  /-- VCOMPRESS (R121). Packs selected elements and writes their count to a scalar. -/
  | vcompress (t : Nat) (w : Microword)
  /-- VREDADD (R121). Sum reduction to a scalar. -/
  | vredadd (t : Nat) (w : Microword)
  /-- VREDOR (R121). OR reduction to a scalar. -/
  | vredor (t : Nat) (w : Microword)
  /-- VBFLY (R124). Cooley-Tukey butterfly layer. -/
  | vbfly (t : Nat) (w : Microword)
  /-- VBFLYI (R124). Gentleman-Sande butterfly layer. -/
  | vbflyi (t : Nat) (w : Microword)
  /-- VPERMF (R125). Fixed-pattern permutation. -/
  | vpermf (t : Nat) (w : Microword)
  /-- VPERMV (R125). Variable permutation by index vector. -/
  | vpermv (t : Nat) (w : Microword)
  /-- VSLIDEUP (R121). Slide elements up with zero fill. -/
  | vslideup (t : Nat) (w : Microword)
  /-- VSLIDEDN (R121). Slide elements down with zero fill. -/
  | vslidedn (t : Nat) (w : Microword)
  /-- VZIP (R121). Interleave low halves. -/
  | vzip (t : Nat) (w : Microword)
  /-- VUNZIP (R121). Inverse of VZIP. -/
  | vunzip (t : Nat) (w : Microword)
  /-- VWIDENU (R121). Zero-extend to double width. -/
  | vwidenu (t : Nat) (w : Microword)
  /-- VWIDENS (R121). Sign-extend to double width. -/
  | vwidens (t : Nat) (w : Microword)
  /-- VNARROW (R121). Truncate to half width. -/
  | vnarrow (t : Nat) (w : Microword)
  /-- VPACKB (R121). Pack low bits of elements into a bit string. -/
  | vpackb (t : Nat) (w : Microword)
  /-- VUNPACKB (R121). Unpack a bit string into elements. -/
  | vunpackb (t : Nat) (w : Microword)
  /-- VCLMULL (R121). Carry-less multiply, low half. -/
  | vclmull (t : Nat) (w : Microword)
  /-- VCLMULH (R121). Carry-less multiply, high half. -/
  | vclmulh (t : Nat) (w : Microword)
  /-- VA2B (R136). Arithmetic to Boolean share conversion. -/
  | va2b (t : Nat) (w : Microword)
  /-- VB2A (R136). Boolean to arithmetic share conversion. -/
  | vb2a (t : Nat) (w : Microword)
  /-- VREFRESH (R136). Fresh shares of the same value. -/
  | vrefresh (t : Nat) (w : Microword)
  /-- SNOP (R130). Scalar no-operation. -/
  | snop (t : Nat) (w : Microword)
  /-- SADD (R130). Scalar add with carry flag. -/
  | sadd (t : Nat) (w : Microword)
  /-- SSUB (R130). Scalar subtract with borrow flag. -/
  | ssub (t : Nat) (w : Microword)
  /-- SAND (R130). Scalar AND. -/
  | sand (t : Nat) (w : Microword)
  /-- SOR (R130). Scalar OR. -/
  | sor (t : Nat) (w : Microword)
  /-- SXOR (R130). Scalar XOR. -/
  | sxor (t : Nat) (w : Microword)
  /-- SSHL (R130). Scalar shift left. -/
  | sshl (t : Nat) (w : Microword)
  /-- SSHR (R130). Scalar logical shift right. -/
  | sshr (t : Nat) (w : Microword)
  /-- SSRA (R130). Scalar arithmetic shift right. -/
  | ssra (t : Nat) (w : Microword)
  /-- SMUL (R130). Scalar multiply, low 64 bits. -/
  | smul (t : Nat) (w : Microword)
  /-- SLI (R130). Load zero-extended IMM. -/
  | sli (t : Nat) (w : Microword)
  /-- SLIH (R130). Load IMM into bits 63:32. -/
  | slih (t : Nat) (w : Microword)
  /-- SCMPLTU (R130). Scalar unsigned less-than compare. -/
  | scmpltu (t : Nat) (w : Microword)
  /-- SCMPEQ (R130). Scalar equality compare. -/
  | scmpeq (t : Nat) (w : Microword)
  /-- SADD8 (R130). Packed 8-bit add. -/
  | sadd8 (t : Nat) (w : Microword)
  /-- SADD16 (R130). Packed 16-bit add. -/
  | sadd16 (t : Nat) (w : Microword)
  /-- SADD32 (R130). Packed 32-bit add. -/
  | sadd32 (t : Nat) (w : Microword)
  /-- SSUB8 (R130). Packed 8-bit subtract. -/
  | ssub8 (t : Nat) (w : Microword)
  /-- SSUB16 (R130). Packed 16-bit subtract. -/
  | ssub16 (t : Nat) (w : Microword)
  /-- SSUB32 (R130). Packed 32-bit subtract. -/
  | ssub32 (t : Nat) (w : Microword)
  /-- SEXTB (R130). Extract a byte of A. -/
  | sextb (t : Nat) (w : Microword)
  /-- SGETVL (R130). Read VL into a scalar. -/
  | sgetvl (t : Nat) (w : Microword)
  /-- SMIN (R130). Unsigned scalar minimum. -/
  | smin (t : Nat) (w : Microword)
  /-- SMAX (R130). Unsigned scalar maximum. -/
  | smax (t : Nat) (w : Microword)
  /-- SMSET (R131). Sets a modulus register from an untagged scalar. -/
  | smset (t : Nat) (w : Microword)
  /-- RESET (R152). Hash-core reset to a rate or SHA mode. -/
  | hcoreReset (t : Nat) (w : Microword)
  /-- ABSORB (R132). XORs bytes of a vector register into a Keccak state. -/
  | hcoreAbsorb (t : Nat) (w : Microword)
  /-- PAD (R132). Applies pad10*1 with a domain byte. -/
  | hcorePad (t : Nat) (w : Microword)
  /-- PERMUTE (R132). Runs Keccak-f[1600]. -/
  | hcorePermute (t : Nat) (w : Microword)
  /-- SQUEEZE (R132). Copies state bytes to a vector register. -/
  | hcoreSqueeze (t : Nat) (w : Microword)
  /-- COMPRESS (R132). Runs one SHA compression block. -/
  | hcoreCompress (t : Nat) (w : Microword)
  /-- SAVE (R132). Moves a core state to a vector register. -/
  | hcoreSave (t : Nat) (w : Microword)
  /-- RESTORE (R132). Loads a core state from a vector register. -/
  | hcoreRestore (t : Nat) (w : Microword)
  /-- MLD_LOAD (R126). k-field scratch load into vector registers. -/
  | mldLoad (t : Nat) (w : Microword)
  /-- MLD_BROADCAST (R151). Broadcast scratch load of one element. -/
  | mldBroadcast (t : Nat) (w : Microword)
  /-- MST_STORE (R128). k-field store of vector registers to scratch. -/
  | mstStore (t : Nat) (w : Microword)
  /-- INQ (R153). Transfers bytes from an input queue into a vector register. -/
  | inq (t : Nat) (w : Microword)
  /-- OUTQ (R153). Appends a vector register to OUT, RESULT, HOLD or SLOT. -/
  | outq (t : Nat) (w : Microword)
  /-- VLOP_CONST (R150). Sets VL from IMM. -/
  | vlopConst (t : Nat) (w : Microword)
  /-- VLOP_REG (R150). Sets VL from a scalar register. -/
  | vlopReg (t : Nat) (w : Microword)
  /-- VLOP_STRIP (R150). Strip-mines VL from a scalar register and decrements it. -/
  | vlopStrip (t : Nat) (w : Microword)
  /-- CLASSIFY (R138). Tags the written register and splits it into shares. -/
  | classify (t : Nat) (w : Microword)
  /-- DECLASSIFY (R140). Recombines shares and clears the tag, closed stacks only. -/
  | declassify (t : Nat) (w : Microword)
  /-- RND_REFRESH (R150). Gives the written register or scratch lines fresh shares. -/
  | rndRefresh (t : Nat) (w : Microword)
  /-- CTR_LOAD_IMM (R149). Loads a loop counter from IMM. -/
  | ctrLoadImm (t : Nat) (w : Microword)
  /-- CTR_LOAD_REG (R149). Loads a loop counter from a scalar register. -/
  | ctrLoadReg (t : Nat) (w : Microword)
  /-- TRACE_RECORD (R173). Writes a 16-byte trace record to the tun trace buffer. -/
  | traceRecord (t : Nat) (w : Microword)
  /-- LEDGER_WRITE_DONE (R223). A ledger cell write and read-back complete, or fail and retry on the next cell. -/
  | ledgerWriteDone (counter : Nat) (ok : Bool)
  /-- LEASE_GRANTED (R229). A lease becomes usable once its ceiling write and, when paired, the peer's write are
  complete. -/
  | leaseGranted (slot : Nat)
  /-- LEDGER_REFRESH (R225). Every counter is refreshed within 60 s after READY and every 30 days. -/
  | ledgerRefresh
  /-- TREE_BUILD_QUANTUM (R207). A 1 ms quantum of tree building ends on a floor. -/
  | treeBuildQuantum (slot level : Nat)
  /-- TREE_CACHE_RESTORED (R207). A stateful key's tree cache finishes restoring from folio. -/
  | treeCacheRestored (slot : Nat)
  /-- DEACCESSION_COMMIT (R332). After peer acknowledgement and tombstone, a deaccession commits and orphans
  descendants. -/
  | deaccessionCommit (slot : Nat)
  /-- WEEDING_PASS (R333). A weeding pass starts within 10 ms of a deaccession or every 60 s and zeroises orphans. -/
  | weedingPass
  /-- ARCHIVE_RECORD_DUE (R334). The registrar appends a persistent slot's archive record within 100 ms of a
  change. -/
  | archiveRecordDue (slot : Nat)
  /-- ENT_WINDOW_COMPLETE (R343). A 1,024-sample window ends and is conditioned into a block or discarded. -/
  | entWindowComplete (src : Nat) (samples : List Nat)
  /-- ENT_SRC_FAIL (R341). A health-test cutoff or frequency check latches a noise source out. -/
  | entSrcFail (src cause : Nat)
  /-- DRBG_RESEED (R346). A DRBG instance reaches 2^20 requests or 1 s and reseeds from a block. -/
  | drbgReseed (inst : Nat)
  /-- MBX_NOP (R375). Mailbox no-operation. -/
  | mbxNop (fn : Nat)
  /-- DEV_INFO (R375). Returns serial, versions, function, carrel and base MAC. -/
  | devInfo (fn : Nat)
  /-- ALG_TABLE (R375). Writes the algorithm table to host memory. -/
  | algTable (fn : Nat)
  /-- AUTH_CHALLENGE (R372). Returns a fresh 32-byte login nonce. -/
  | authChallenge (fn : Nat)
  /-- AUTH_LOGIN (R372). Verifies a signed challenge and opens a session. -/
  | authLogin (fn : Nat)
  /-- AUTH_LOGOUT (R373). Ends the function's session. -/
  | authLogout (fn : Nat)
  /-- SESSION_CFG (R373). Sets the session idle timeout. -/
  | sessionCfg (fn : Nat)
  /-- ADM_ENROL (R371). Enrols an administrator key at a position. -/
  | admEnrol (fn : Nat)
  /-- ADM_REMOVE (R371). Removes an enrolled administrator key. -/
  | admRemove (fn : Nat)
  /-- OCT_CONFIG (R62). Sets an OFF octet's mode, medium and flags. -/
  | octConfig (fn : Nat)
  /-- FECTH_ONLY (R62). OCT_CONFIG variant that sets only the FEC_HIGH threshold in any octet state. -/
  | fecthOnly (fn : Nat)
  /-- WARM_MIN_SET (R375). Sets the warm-pool minimum per unit type in HOP_WARM_MIN. -/
  | warmMinSet (fn : Nat)
  /-- DIRECT_CNT_SET (R279). Sets the number of direct-group pipes. -/
  | directCntSet (fn : Nat)
  /-- LED_LOW_TH_SET (R375). Sets the LOW_FREE threshold of free ledger counters. -/
  | ledLowThSet (fn : Nat)
  /-- SET_SOURCE (R450). FLT_CONFIG operation setting source configurations. -/
  | setSource (fn : Nat)
  /-- SET_PROFILE (R450). FLT_CONFIG operation selecting FLAT or COUNTED in FACTORY. -/
  | setProfile (fn : Nat)
  /-- FI_ARM (R451). FLT_CONFIG operation arming a fault injection. -/
  | fiArm (fn : Nat)
  /-- FI_DISARM (R451). FLT_CONFIG operation disarming the injection. -/
  | fiDisarm (fn : Nat)
  /-- RESET_COUNTS (R450). FLT_CONFIG operation clearing fault counts. -/
  | resetCounts (fn : Nat)
  /-- LCS_TRANSITION (R486). Checks margins and starts programming life-cycle OTP groups. -/
  | lcsTransition (fn : Nat) (railsOk : Bool) (vbatMv : BitVec 12) (dieTemp : BitVec 8)
  /-- LCS_GROUP_DONE (R486). An OTP group finishes programming; the next starts or the response and chip reset
  follow. -/
  | lcsGroupDone
  /-- CRL_CREATE (R413). Creates a carrel in CONFIGURED with its first administrator key. -/
  | crlCreate (fn : Nat)
  /-- CRL_CONFIG (R395). Changes marked groups of a carrel's configuration record. -/
  | crlConfig (fn : Nat)
  /-- CRL_ACTIVATE (R397). Brings a carrel to ACTIVE and announces its addresses. -/
  | crlActivate (fn : Nat)
  /-- CRL_QUIESCE (R398). Stops fetching, aborts staged slips and starts draining a carrel. -/
  | crlQuiesce (fn : Nat)
  /-- QUIESCE_COMPLETE (R398). Nothing of a QUIESCING carrel is staged or running and it becomes QUIESCED. -/
  | quiesceComplete (carrel : Nat)
  /-- CRL_FREEZE (R404). Moves a QUIESCED carrel to FROZEN. -/
  | crlFreeze (fn : Nat)
  /-- CRL_SAVE_ACCEPT (R405). Source checks an offer and writes MIG_ACCEPT. -/
  | crlSaveAccept (fn : Nat) (host certs : Bytes)
  /-- CRL_SAVE_EXPORT (R407). Source writes the encrypted carrel image. -/
  | crlSaveExport (fn : Nat) (host certs : Bytes)
  /-- CRL_RESTORE_OFFER (R405). Target writes MIG_OFFER for an ABSENT carrel. -/
  | crlRestoreOffer (fn : Nat)
  /-- CRL_RESTORE_CONFIRM (R405). Target checks the accept and writes MIG_CONFIRM. -/
  | crlRestoreConfirm (fn : Nat) (host certs : Bytes)
  /-- CRL_RESTORE_IMPORT (R409). Target opens and installs a carrel image as FROZEN. -/
  | crlRestoreImport (fn : Nat) (host certs : Bytes)
  /-- MIGRATION_EXPIRY (R405). A migration's secrets are zeroised 60 s after its first step. -/
  | migrationExpiry (carrel : Nat)
  /-- CRL_DESTROY (R402). Destroys a carrel and deaccessions its anchor. -/
  | crlDestroy (fn : Nat)
  /-- CRL_RESET (R401). Returns a QUIESCED carrel to CONFIGURED with reset hoppers. -/
  | crlReset (fn : Nat)
  /-- CRL_STATS (R414). Returns the carrel statistics. -/
  | crlStats (fn : Nat)
  /-- CRL_ANCHOR_RENEW (R403). Regenerates a QUIESCED carrel's anchor, orphaning its slots. -/
  | crlAnchorRenew (fn : Nat)
  /-- HOP_CREATE (R63). Creates a STOPPED hopper with the lowest free index. -/
  | hopCreate (fn : Nat)
  /-- HOP_CONFIG (R66). Changes masked hopper fields subject to state. -/
  | hopConfig (fn : Nat)
  /-- HOP_START (R64). Moves a hopper to ACTIVE. -/
  | hopStart (fn : Nat)
  /-- HOP_STOP (R64). Moves a hopper to STOPPING. -/
  | hopStop (fn : Nat)
  /-- HOP_DELETE (R66). Deletes a STOPPED hopper, revoking tokens and freeing its index. -/
  | hopDelete (fn : Nat)
  /-- HOP_RESET_IDX (R66). Resets a STOPPED hopper's indices to zero. -/
  | hopResetIdx (fn : Nat)
  /-- HOP_QUERY (R375). Returns a hopper's status block and configuration. -/
  | hopQuery (fn : Nat)
  /-- BIND_TOKEN_ISSUE (R38). Issues a binding token for a run of hoppers. -/
  | bindTokenIssue (fn : Nat)
  /-- BIND_TOKEN_REVOKE (R38). Revokes a token, optionally disconnecting its queue pair. -/
  | bindTokenRevoke (fn : Nat)
  /-- BIND_STATIC (R43). Creates a static queue-pair binding. -/
  | bindStatic (fn : Nat)
  /-- BIND_RELEASE (R375). Releases a queue pair with DREQ. -/
  | bindRelease (fn : Nat)
  /-- CAT_IMPORT (R335). Writes clear key material into an empty slot. -/
  | catImport (fn : Nat) (host : Bytes)
  /-- CAT_REPLACE (R335). Replaces a slot's material in one commit, raising OWN_GEN by 2. -/
  | catReplace (fn : Nat) (host : Bytes)
  /-- CAT_DEACCESSION_CMD (R332). Mailbox command deaccessioning a slot. -/
  | catDeaccessionCmd (fn : Nat)
  /-- CAT_SET_ATTR (R335). Narrows a slot's attributes. -/
  | catSetAttr (fn : Nat)
  /-- CAT_QUERY (R335). Returns slot bytes 0 to 63. -/
  | catQuery (fn : Nat)
  /-- CAT_ENROL_SIGNER (R335). Sets or clears OSTK_SIGNER on a carrel 0 slot. -/
  | catEnrolSigner (fn : Nat)
  /-- LED_QUERY (R375). Returns a ledger counter or a stateful key's ceiling and remaining leases. -/
  | ledQuery (fn : Nat)
  /-- LED_RECLAIM (R243). Frees BOUND counters whose keys are absent under a former cellar key. -/
  | ledReclaim (fn : Nat)
  /-- OSTK_STAGE (R167). Reads, checks and stages an open-stacks image. -/
  | ostkStage (fn : Nat) (host : Bytes)
  /-- OSTK_ACTIVATE (R167). Stops class 0xF starts and waits for running routines before activating the staged
  image. -/
  | ostkActivate (fn : Nat)
  /-- OSTK_DRAIN_END (R167). Class 0xF routines end and the image is loaded, or after 100 ms activation is refused. -/
  | ostkDrainEnd
  /-- OSTK_RETIRE (R169). Retires the active open-stacks image. -/
  | ostkRetire (fn : Nat)
  /-- FW_STAGE (R384). Verifies and stages a firmware image. -/
  | fwStage (fn : Nat) (host : Bytes)
  /-- FW_ACTIVATE (R385). Marks the staged bank for a trial boot, optionally resetting now. -/
  | fwActivate (fn : Nat)
  /-- FW_ACTIVATE_WAIT_END (R385). After up to 100 ms for slips in flight, flush and chip reset follow. -/
  | fwActivateWaitEnd
  /-- TRIAL_BOOT_TIMEOUT (R385). A trial image not READY within 10 s is reverted at next reset. -/
  | trialBootTimeout
  /-- MIR_PAIR (R420). Starts pairing with a named peer. -/
  | mirPair (fn : Nat)
  /-- MIR_PAIR_REJOIN (R432). MIR_PAIR with REJOIN resynchronises a repaired pair. -/
  | mirPairRejoin (fn : Nat)
  /-- PAIRING_COMPLETE (R420). Link training, authentication and state copy end and the pair becomes PAIRED. -/
  | pairingComplete (r : PairResult)
  /-- MIR_UNPAIR (R432). Ends mirroring and destroys copies of peer-homed carrels. -/
  | mirUnpair (fn : Nat)
  /-- MIR_ARBITRATE (R430). Applies KEEP and YIELD bitmaps in DEGRADED. -/
  | mirArbitrate (fn : Nat)
  /-- MIR_REHOME (R431). Moves a carrel to its standby without replay. -/
  | mirRehome (fn : Nat)
  /-- MIR_STATUS (R433). Returns the pair state and status. -/
  | mirStatus (fn : Nat)
  /-- ENT_TEST_PATTERN (R355). Substitutes a source's samples with a pattern in FACTORY. -/
  | entTestPattern (fn : Nat)
  /-- ENT_RAW_CAPTURE (R355). Copies raw samples of a source to host memory. -/
  | entRawCapture (fn : Nat) (samples : Bytes)
  /-- ATT_QUOTE (R388). Writes a signed attestation quote. -/
  | attQuote (fn : Nat)
  /-- ATT_CERTS (R389). Writes the four DICE certificates. -/
  | attCerts (fn : Nat)
  /-- DBG_NONCE (R375). Returns a debug nonce. -/
  | dbgNonce (fn : Nat)
  /-- DBG_GRANT (R492). Checks and applies a debug grant, erasing for secret-reaching rights. -/
  | dbgGrant (fn : Nat) (host : Bytes)
  /-- DBG_END (R493). Ends the debug grant in force. -/
  | dbgEnd (fn : Nat)
  /-- GRANT_EXPIRY (R493). A debug grant reaches its expiry and ends. -/
  | grantExpiry
  /-- SESSION_IDLE_TIMEOUT (R373). A session's idle timeout expires and the session ends. -/
  | sessionIdleTimeout (fn : Nat)
  /-- REG_LOCKSTEP (R357). A lockstep miscompare fences the active registrar pair and switches, or makes the device
  FAILED. -/
  | regLockstep
  /-- REGISTRAR_SWITCH_DONE (R357). The spare pair completes the journal and resumes mailbox service. -/
  | registrarSwitchDone
  /-- START (R282). DPG_GO START begins a direct-page operation. -/
  | dpgStart (fn page : Nat)
  /-- ABORT (R282). DPG_GO ABORT ends a page operation at its next 4 KiB check. -/
  | dpgAbort (fn page : Nat)
  /-- CLEAR_KEY (R283). DPG_GO CLEAR_KEY zeroises the page key when not busy. -/
  | dpgClearKey (fn page : Nat)
  /-- DPG_KEY (R283). A write to a write-only page key register loads key bytes when a session is open. -/
  | dpgKey (fn page idx : Nat) (value : W64)
  /-- DONE (R282). A direct-page operation ends and sets DONE, STATUS and its interrupt. -/
  | dpgDone (fn page : Nat) (r : PageData)
  /-- HOST_ACCESS (R6). A misaligned or partial-width register access reads all ones, discards the write and
  records an error. -/
  | hostAccess (fn : Nat) (write : Bool) (width : Nat)
  /-- REGISTER_WRITE (R8). A write to a register without its own row acts by its access code, including W1C clears. -/
  | registerWrite (fn : Nat) (reg : RegName) (value hwSet : W64)
  /-- PRT_OCT_EVT (R10). RC read of octet event counters, clearing them. -/
  | prtOctEvt (octet : Nat) (hw : W32)
  /-- HOP_DL_EVT (R10). RC read of a carrel's deadline event counters. -/
  | hopDlEvt (carrel : Nat) (hw : W32)
  /-- LED_EVT (R10). RC read of ledger event counters. -/
  | ledEvt (hw : W32)
  /-- LED_EVT2 (R10). RC read of the LOW_FREE event counter. -/
  | ledEvt2 (hw : W32)
  /-- DPG_EVT (R10). RC read of a page's event counters. -/
  | dpgEvt (fn page : Nat) (hw : W32)
  /-- CAT_EVT (R10). RC read of catalogue event counters. -/
  | catEvt (hw : W32)
  /-- ENT_EVT (R10). RC read of entropy event counters. -/
  | entEvt (hw : W32)
  /-- MBX_EVT (R10). RC read of mailbox event counters. -/
  | mbxEvt (fn : Nat) (hw : W32)
  /-- MIR_EVT (R10). RC read of mirror event counters. -/
  | mirEvt (hw : W32)
  /-- FLT_EVT (R10). RC read of fault event counters. -/
  | fltEvt (hw : W32)
  /-- CEL_EVT (R10). RC read of cellar event counters, also resetting ON_VBAT tracking. -/
  | celEvt (hw : W32)
  /-- TMP_EVT (R10). RC read of the UNEXPLAINED event counter. -/
  | tmpEvt (hw : W32)
  /-- QDR_EVT (R10). RC read of QDR event counters. -/
  | qdrEvt (hw : W32)
  /-- FOL_SLOT_EVT (R10). RC read of a folio slot's event counters. -/
  | folSlotEvt (slot : Nat) (hw : W32)
  /-- FLR (R392). A function-level reset ends its session, stops its HOST hoppers and resets its mailbox. -/
  | flr (fn : Nat)
  /-- VF_DISABLE (R392). Disabling VFs acts as a function-level reset of each. -/
  | vfDisable (fns : List Nat)
  /-- PERST_N (R541). PERST_N low resets the PCIe controller and every function. -/
  | perstN
  /-- POR_N (R541). POR_N low performs a power-on reset; release samples the strap and starts boot. -/
  | porN (release paired : Bool)
  /-- BOOT_STAGE_3 (R542). Registrar ROM locks PLLs, checks ROM and identifies folio slots. -/
  | bootStage3 (r : Stage3)
  /-- BOOT_STAGE_4 (R382). Firmware is read, verified and measured into DRES, or RECOVERY follows. -/
  | bootStage4 (r : Stage4)
  /-- BOOT_STAGE_5 (R227). OTP, life cycle and ledger are read and mailboxes are served. -/
  | bootStage5 (r : Stage5)
  /-- BOOT_STAGE_6 (R481). Tamper evidence is reconciled and TAMPER_OUT_N released. -/
  | bootStage6
  /-- BOOT_STAGE_7 (R348). Entropy known-answer and start-up tests run and DRBGs are instantiated. -/
  | bootStage7 (r : Stage7)
  /-- BOOT_STAGE_8 (R517). Guard test, QDR training and guard keys. -/
  | bootStage8 (r : Stage8)
  /-- BOOT_STAGE_9 (R508). Archive restore of catalogue, carrels, fault configuration and open stacks. -/
  | bootStage9 (r : Stage9)
  /-- BOOT_STAGE_10 (R446). Closed stacks loaded, unit known-answer tests, logical indices assigned. -/
  | bootStage10 (r : Stage10)
  /-- BOOT_STAGE_11 (R542). Mirror pairing with the configured peer. -/
  | bootStage11
  /-- BOOT_STAGE_12 (R13). Octets brought to DOWN and doorbells received. -/
  | bootStage12
  /-- BOOT_STAGE_13 (R542). The device reaches READY and a trial image is committed. -/
  | bootStage13
  /-- BOOT_HOLD_END (R543). A boot held by a shed condition restarts by chip reset after 100 ms clear. -/
  | bootHoldEnd
  /-- SHED_S1 (R461). Shed stage S1 entry stops background work. -/
  | shedS1 (cause : Nat)
  /-- SHED_S2 (R461). Shed stage S2 entry halves engine clocks and restricts admission. -/
  | shedS2 (cause : Nat)
  /-- SHED_S3 (R461). Shed stage S3 entry forces octets down and narrows units. -/
  | shedS3 (cause : Nat)
  /-- SHED_S4 (R462). Shed stage S4 entry stops fetching and sheds staged slips. -/
  | shedS4 (cause : Nat)
  /-- SHED_STAGE_EXIT (R460). A stage S1 to S3 is left after its condition is false for 100 ms. -/
  | shedStageExit
  /-- S4_ABANDON (R462). 1 ms into S4 every running slip is abandoned with ABORTED. -/
  | s4Abandon
  /-- S4_FLUSH_DONE (R462). The journal and mirror flush ends and guard keys are zeroised. -/
  | s4FlushDone
  /-- S4_RESTART (R464). After S4 with power good for 100 ms, the cellar performs a chip reset. -/
  | s4Restart
  /-- MAIN_POWER_LOSS (R463). Main power is lost and the cellar runs alone on VBAT. -/
  | mainPowerLoss (warned : Bool)
  /-- VDD_CELLAR_LOSS (R452). VDD_CELLAR leaves tolerance and the cellar switches to VBAT. -/
  | vddCellarLoss
  /-- CEL_VBAT_LOW (R453). VBAT falls below 2.6 V while main power is good. -/
  | celVbatLow
  /-- CEL_XTAL_FAIL (R454). The crystal stops and the cellar runs on its internal oscillator. -/
  | celXtalFail
  /-- CRYSTAL_RESTART (R454). The crystal restarts and is used again. -/
  | crystalRestart
  /-- PLL_UNLOCK (R457). A PLL loses lock; engine work is re-run or a chip reset follows. -/
  | pllUnlock (pll : Nat)
  /-- REFCLK_LOSS (R457). A reference clock is lost. -/
  | refclkLoss (ref : Nat)
  /-- PLL_RELOCK (R457). A PLL relocks and held clocks resume. -/
  | pllRelock (pll : Nat)
  /-- TMP_SHIELD (R472). A shield pair mismatch is detected. -/
  | tmpShield (detail : Nat)
  /-- TMP_LOOP (R474). An armed enclosure loop differs on two consecutive checks. -/
  | tmpLoop (loop : Nat)
  /-- TMP_RAIL (R472). A rail over- or under-voltage is detected. -/
  | tmpRail (detail : Nat)
  /-- TMP_TEMP (R472). Die temperature leaves its tamper window. -/
  | tmpTemp (detail : Nat)
  /-- TMP_CLOCK (R472). A clock frequency outside its window is detected. -/
  | tmpClock (detail : Nat)
  /-- TMP_GLITCH (R472). A supply or clock glitch is detected. -/
  | tmpGlitch (detail : Nat)
  /-- SHIELD_RESEED (R473). Shield LFSR streams are reseeded every 100 ms on main power. -/
  | shieldReseed
  /-- TAMPER_OUT_RELEASE (R476). TAMPER_OUT_N is released after stage 6 and at least 100 ms. -/
  | tamperOutRelease
  /-- LINK_LOST (R418). No valid Hexlek record for 100 µs declares the mirror link lost. -/
  | linkLost
  /-- HEARTBEAT_LOST (R418). No PAIR_HB_IN edge for 5 ms declares the heartbeat lost. -/
  | heartbeatLost
  /-- RESIGN (R426). A RESIGN from the peer triggers takeover. -/
  | mirResign
  /-- MIRROR_LINK_UP (R430). The Hexlek link returns; DEGRADED devices enter REJOINING. -/
  | mirrorLinkUp
  /-- MIR_LINK_AUTH (R416). A Hexlek record fails its GCM check and is retransmitted. -/
  | mirLinkAuth
  /-- LINK_KEY_RENEWAL (R416). Link keys are renewed every 2^32 records or 1 h. -/
  | linkKeyRenewal
  /-- MIRROR_BATCH (R423). Every 10 µs the home sends an asynchronous batch of hopper state and ceilings. -/
  | mirrorBatch
  /-- BATCH_ACK (R424). The standby acknowledges a batch, raising the fetch and completion ceilings. -/
  | batchAck (b : BatchAck)
  /-- BATCH_RECEIVED (R423). The standby receives a batch, stores the state and retires memos. -/
  | batchReceived (b : Batch)
  /-- SYNC_RECORD (R425). The standby applies a synchronous record, keeps a memo and acknowledges. -/
  | syncRecord (r : SyncRec)
  /-- MIRROR_SYNC_ACK (R423). The standby's acknowledgement lets a waiting synchronous change take effect. -/
  | mirrorSyncAck (seq : Nat) (refused : Bool)
  /-- CARTRIDGE_INSERT (R499). A cartridge insertion passes its 50 ms debounce and identification starts. -/
  | cartridgeInsert (slot : Nat)
  /-- CARTRIDGE_REMOVE (R499). A removal edge releases the bus and empties the slot. -/
  | cartridgeRemove (slot : Nat)
  /-- CMD1_POLL (R496). CMD1 is repeated every 10 ms until ready or 1 s. -/
  | cmd1Poll (slot : Nat) (ready : Bool)
  /-- MOUNT (R505). An identified cartridge's anchor is classified against its shadow. -/
  | mount (slot : Nat) (r : MountInfo)
  /-- RECONCILE_COMPLETE (R508). A RECONCILING cartridge is brought up to date, anchored and MOUNTED. -/
  | reconcileComplete (slot : Nat)
  /-- FOL_IO_ERR (R499). A cartridge command times out after 250 ms or fails CRC three times. -/
  | folIoErr (slot : Nat)
  /-- RETUNE (R497). An HS200 slot retunes every 10 min. -/
  | retune (slot : Nat) (ok : Bool)
  /-- RECORD_COPY_A_DONE (R506). Copy A's busy phase ends and copy B is written. -/
  | recordCopyADone (slot : Nat)
  /-- RECORD_ON_FOLIO (R506). Copy B completes and the record is on folio. -/
  | recordOnFolio (slot : Nat)
  /-- ANCHOR_WRITE (R504). An anchor is written at most once per second when ANC_HIGH_SEQ advances. -/
  | anchorWrite (slot : Nat)
  /-- ANCHOR_WRITE_DONE (R504). An anchor RPMB write completes and the shadow counter is written. -/
  | anchorWriteDone (slot : Nat)
  /-- LIFE_CHECK (R498). Every 24 h the cartridge wear fields are read. -/
  | lifeCheck (slot : Nat) (life : W32)
  /-- DEVSEC_MARK (R507). A device-seconds mark record is written every 60 s. -/
  | devsecMark
  /-- FOL_ARCHIVE_ABANDONED (R508). After 600 s without a current cartridge the archive is abandoned. -/
  | folArchiveAbandoned
  /-- QDR_RETRACK (R518). Every 100 ms or 10 °C the capture delays are retracked. -/
  | qdrRetrack
  /-- QDR_CHANNEL_LOST (R529). 16 parity failures in 1 ms or 1 µs without CQ lose a channel. -/
  | qdrChannelLost (ch : Nat)
  /-- SLOT_RECOVERY_DONE (R528). A failed slot is recovered from the peer or folio, or retired. -/
  | slotRecoveryDone (slot : Nat) (r : RecoverySource)
  /-- GROUP_REENCRYPTION_DONE (R522). Re-encryption of a 64-line group ends and waiting writes proceed. -/
  | groupReencryptionDone (group : Nat)
  /-- MAIN_POWER_RETURN (R464). When main power returns after S5, the cellar performs a chip reset and boot starts. -/
  | mainPowerReturn
  /-- VDD_CELLAR_RESTORED (R452). VDD_CELLAR comes back within tolerance and the cellar is supplied from it again
  instead of VBAT. -/
  | vddCellarRestored
  /-- HEARTBEAT_RESTORED (R418). Edges reappear on PAIR_HB_IN and HB_PRESENT becomes 1 again. -/
  | heartbeatRestored
  /-- CHECKER_REPORT (R436). A non-unit checker such as HOP_STATE_ECC, REG_JOURNAL_ECC, PORT_BUF_ECC or
  GUARD_TREE_ECC reports to the fault collector, which counts, logs and applies its reactions. -/
  | checkerReport (events : List FaultReport)
  /-- ENTROPY_WAIT_TIMEOUT (R349). A mailbox command that waited 50 ms for randomness before the entropy unit was
  ready is refused with ENTROPY_NOT_READY. -/
  | entropyWaitTimeout (fn : Nat)
  /-- TOMBSTONE_WAIT_TIMEOUT (R513). A persistent deaccession that found no writable cartridge completes with
  STATE_REJECTED, object 0x08, at its 20 ms limit. -/
  | tombstoneWaitTimeout (slot : Nat)
  /-- BOOT_DIE_TEMP_REACHED (R543). A boot waiting at stage 3 for a cold die continues once the die reaches 0 °C. -/
  | bootDieTempReached
  /-- REHOME_TAKEOVER (R431). The standby receives the carrel passed by MIR_REHOME and takes it over with the exact
  values. -/
  | rehomeTakeover (carrel : Nat)
  /-- SLOT_RECOVERY_REQUEST (R528). A device receives its peer's request for a mirrored slot that failed in the
  peer's QDR and sends the slot back. -/
  | slotRecoveryRequest (slot : Nat)
  deriving DecidableEq, Repr

end Sys2Proof
end

