-- ==== Sys2Proof/WellFormed.lean ====
section
/-!
DEFINITION. Which commands are well formed: every number an operand carries names something the T5120 has (R12, R16, R22,
R37, R63, R221, R316). A command that is not well formed names nothing, and its meaning leaves the state as it is or acts on
nothing that exists.
-/

namespace Sys2Proof

/-- Physical units of a type (R12). -/
def unitCount : EngineType → Nat
  | .tun => 136
  | .floor => 17
  | .pipe => 272
  | .kiln => 34
  | .none => 0

/-- The command is well formed. -/
def Instr.wf : Instr → Bool
  | .doorbellWrite qpn psn _ _ _ _ => decide (0x100 ≤ qpn) && decide (qpn < 0x40100) && decide (psn < 16777216)
  | .hostDoorbell fn _ _ => decide (fn < 256)
  | .cmReq _ => true
  | .rebindDrainDone qpn => decide (0x100 ≤ qpn) && decide (qpn < 0x40100)
  | .rebindDrainTimeout qpn => decide (0x100 ≤ qpn) && decide (qpn < 0x40100)
  | .cmRtu qpn => decide (0x100 ≤ qpn) && decide (qpn < 0x40100)
  | .cmDreq qpn => decide (0x100 ≤ qpn) && decide (qpn < 0x40100)
  | .cmDrep qpn => decide (0x100 ≤ qpn) && decide (qpn < 0x40100)
  | .rdmaReadResponse qpn _ _ _ => decide (0x100 ≤ qpn) && decide (qpn < 0x40100)
  | .rdmaWriteAck qpn _ _ => decide (0x100 ≤ qpn) && decide (qpn < 0x40100)
  | .nakRemoteAccessError qpn _ => decide (0x100 ≤ qpn) && decide (qpn < 0x40100)
  | .nakPsnSequenceError qpn _ => decide (0x100 ≤ qpn) && decide (qpn < 0x40100)
  | .nakInvalidRequest qpn _ => decide (0x100 ≤ qpn) && decide (qpn < 0x40100)
  | .rnrNak qpn _ => decide (0x100 ≤ qpn) && decide (qpn < 0x40100)
  | .rnrRetry qpn _ => decide (0x100 ≤ qpn) && decide (qpn < 0x40100)
  | .ackTimeout qpn => decide (0x100 ≤ qpn) && decide (qpn < 0x40100)
  | .invalidRequestPacket qpn psn => decide (0x100 ≤ qpn) && decide (qpn < 0x40100) && decide (psn < 16777216)
  | .cnpReceived qpn => decide (0x100 ≤ qpn) && decide (qpn < 0x40100)
  | .ratePeriod qpn => decide (0x100 ≤ qpn) && decide (qpn < 0x40100)
  | .frameDiscarded port vlan _ => decide (port < 512) && decide (vlan < 4096)
  | .portFecUncorr port => decide (port < 512)
  | .arpRequest port vlan _ _ _ => decide (port < 512) && decide (vlan < 4096)
  | .neighborSolicitation port vlan _ _ _ => decide (port < 512) && decide (vlan < 4096)
  | .nextHopResolved carrel _ _ => decide (carrel < 256)
  | .resolutionRetry carrel _ => decide (carrel < 256)
  | .nextHopCacheExpiry carrel _ => decide (carrel < 256)
  | .gratuitousArp carrel => decide (carrel < 256)
  | .pauseFrame port prio quanta => decide (port < 512) && decide (prio < 8) && decide (quanta < 65536)
  | .portPfcStorm port prio => decide (port < 512) && decide (prio < 8)
  | .pfcIgnoreRelease port prio => decide (port < 512) && decide (prio < 8)
  | .linkDown port => decide (port < 512)
  | .linkUp port => decide (port < 512)
  | .hostDmaCompletion fn _ _ => decide (fn < 256)
  | .hopperFetch hopper _ => decide (hopper < 262144)
  | .dispatch _ => true
  | .wakeComplete e cluster => decide (cluster < 17) && e != .none
  | .clusterNap e cluster => decide (cluster < 17) && e != .none
  | .clusterDormant e cluster => decide (cluster < 17) && e != .none
  | .longQuantumEnd _ => true
  | .longSuspend _ => true
  | .executionComplete _ _ => true
  | .hopperStopped hopper => decide (hopper < 262144)
  | .unitFault e phys _ => decide (phys < unitCount e)
  | .hopperEngineResetDone => true
  | .retestComplete e phys _ => decide (phys < unitCount e)
  | .errNRelease => true
  | .tunWatchdog t => decide (t < 136)
  | .tunScrubDone t => decide (t < 136)
  | .maskgenReseed t => decide (t < 136)
  | .kilnWipeDone k => decide (k < 34)
  | .pass1Done _ => true
  | .ctlNop _ => true
  | .ctlStatus _ => true
  | .ctlRandom _ => true
  | .ctlFence _ => true
  | .kemKeygen _ => true
  | .kemEncaps _ => true
  | .kemDecaps _ => true
  | .kemPubkey _ => true
  | .dsaKeygen _ => true
  | .dsaPubkey _ => true
  | .dsaSign _ => true
  | .dsaSignPh _ => true
  | .dsaSignMu _ => true
  | .dsaVerify _ => true
  | .dsaVerifyPh _ => true
  | .dsaVerifyMu _ => true
  | .kemKeygenKat _ => true
  | .kemEncapsKat _ => true
  | .kemDecapsKat _ => true
  | .dsaKeygenKat _ => true
  | .dsaSignKat _ => true
  | .dsaVerifyKat _ => true
  | .slhKeygen _ => true
  | .slhPubkey _ => true
  | .slhSign _ => true
  | .slhSignPh _ => true
  | .slhVerify _ => true
  | .slhVerifyPh _ => true
  | .slhKeygenKat _ => true
  | .slhSignKat _ => true
  | .stfKeygen _ => true
  | .stfPubkey _ => true
  | .stfSign _ => true
  | .stfVerify _ => true
  | .stfRemain _ => true
  | .ckemKeygen _ => true
  | .ckemEncaps _ => true
  | .ckemDecaps _ => true
  | .ckemPubkey _ => true
  | .ckemKeygenKat _ => true
  | .ckemEncapsKat _ => true
  | .ckemDecapsKat _ => true
  | .dig _ => true
  | .digStart _ => true
  | .digUpdate _ => true
  | .digFinish _ => true
  | .kdfHkdf _ => true
  | .kdfHkdfExpand _ => true
  | .kdf108 _ => true
  | .macGen _ => true
  | .macVerify _ => true
  | .aeadEncrypt _ => true
  | .aeadDecrypt _ => true
  | .ctrEncrypt _ => true
  | .ctrDecrypt _ => true
  | .cbcEncrypt _ => true
  | .cbcDecrypt _ => true
  | .xtsEncrypt _ => true
  | .xtsDecrypt _ => true
  | .cmacGen _ => true
  | .cmacVerify _ => true
  | .kwWrap _ => true
  | .kwUnwrap _ => true
  | .kwpWrap _ => true
  | .kwpUnwrap _ => true
  | .pkKeygen _ => true
  | .pkPubkey _ => true
  | .pkAgree _ => true
  | .pkSign _ => true
  | .pkVerify _ => true
  | .rsaEncrypt _ => true
  | .rsaDecrypt _ => true
  | .curveLoad _ => true
  | .modadd _ => true
  | .modsub _ => true
  | .modmul _ => true
  | .modinv _ => true
  | .modexp _ => true
  | .padd _ => true
  | .pdbl _ => true
  | .pmul _ => true
  | .catGenerate _ => true
  | .catNarrow _ => true
  | .catUnwrap _ => true
  | .catWrapOut _ => true
  | .catDeaccession _ => true
  | .catInfo _ => true
  | .openStacksInvoke _ => true
  | .seqCont t => decide (t < 136)
  | .seqJump t => decide (t < 136)
  | .seqBr t => decide (t < 136)
  | .seqCall t => decide (t < 136)
  | .seqCallc t => decide (t < 136)
  | .seqRet t => decide (t < 136)
  | .seqLoop t => decide (t < 136)
  | .seqExit t => decide (t < 136)
  | .seqFail t => decide (t < 136)
  | .safePoint t => decide (t < 136)
  | .vnop t w => decide (t < 136) && w.reserved == 0
  | .vadd t w => decide (t < 136) && w.reserved == 0
  | .vsub t w => decide (t < 136) && w.reserved == 0
  | .vmull t w => decide (t < 136) && w.reserved == 0
  | .vmulhu t w => decide (t < 136) && w.reserved == 0
  | .vmulhs t w => decide (t < 136) && w.reserved == 0
  | .vminu t w => decide (t < 136) && w.reserved == 0
  | .vmaxu t w => decide (t < 136) && w.reserved == 0
  | .vmins t w => decide (t < 136) && w.reserved == 0
  | .vmaxs t w => decide (t < 136) && w.reserved == 0
  | .vneg t w => decide (t < 136) && w.reserved == 0
  | .vmov t w => decide (t < 136) && w.reserved == 0
  | .vbcast t w => decide (t < 136) && w.reserved == 0
  | .vbcasts t w => decide (t < 136) && w.reserved == 0
  | .vext t w => decide (t < 136) && w.reserved == 0
  | .vand t w => decide (t < 136) && w.reserved == 0
  | .vor t w => decide (t < 136) && w.reserved == 0
  | .vxor t w => decide (t < 136) && w.reserved == 0
  | .vnot t w => decide (t < 136) && w.reserved == 0
  | .vandn t w => decide (t < 136) && w.reserved == 0
  | .vselb t w => decide (t < 136) && w.reserved == 0
  | .vshl t w => decide (t < 136) && w.reserved == 0
  | .vshr t w => decide (t < 136) && w.reserved == 0
  | .vsra t w => decide (t < 136) && w.reserved == 0
  | .vrol t w => decide (t < 136) && w.reserved == 0
  | .vshlv t w => decide (t < 136) && w.reserved == 0
  | .vshrv t w => decide (t < 136) && w.reserved == 0
  | .vpopc t w => decide (t < 136) && w.reserved == 0
  | .vbitrev t w => decide (t < 136) && w.reserved == 0
  | .vbswap t w => decide (t < 136) && w.reserved == 0
  | .vmadd t w => decide (t < 136) && w.reserved == 0
  | .vmsub t w => decide (t < 136) && w.reserved == 0
  | .vmneg t w => decide (t < 136) && w.reserved == 0
  | .vmmont t w => decide (t < 136) && w.reserved == 0
  | .vmbar t w => decide (t < 136) && w.reserved == 0
  | .vmred t w => decide (t < 136) && w.reserved == 0
  | .vmcsub t w => decide (t < 136) && w.reserved == 0
  | .vmcent t w => decide (t < 136) && w.reserved == 0
  | .vqadds t w => decide (t < 136) && w.reserved == 0
  | .vqsubs t w => decide (t < 136) && w.reserved == 0
  | .vqaddu t w => decide (t < 136) && w.reserved == 0
  | .vqsubu t w => decide (t < 136) && w.reserved == 0
  | .vrshrs t w => decide (t < 136) && w.reserved == 0
  | .vrshru t w => decide (t < 136) && w.reserved == 0
  | .vrmulhs t w => decide (t < 136) && w.reserved == 0
  | .vrmulhu t w => decide (t < 136) && w.reserved == 0
  | .vcmpeq t w => decide (t < 136) && w.reserved == 0
  | .vcmpne t w => decide (t < 136) && w.reserved == 0
  | .vcmpltu t w => decide (t < 136) && w.reserved == 0
  | .vcmplts t w => decide (t < 136) && w.reserved == 0
  | .vcmpleu t w => decide (t < 136) && w.reserved == 0
  | .vcmples t w => decide (t < 136) && w.reserved == 0
  | .vcompress t w => decide (t < 136) && w.reserved == 0
  | .vredadd t w => decide (t < 136) && w.reserved == 0
  | .vredor t w => decide (t < 136) && w.reserved == 0
  | .vbfly t w => decide (t < 136) && w.reserved == 0
  | .vbflyi t w => decide (t < 136) && w.reserved == 0
  | .vpermf t w => decide (t < 136) && w.reserved == 0
  | .vpermv t w => decide (t < 136) && w.reserved == 0
  | .vslideup t w => decide (t < 136) && w.reserved == 0
  | .vslidedn t w => decide (t < 136) && w.reserved == 0
  | .vzip t w => decide (t < 136) && w.reserved == 0
  | .vunzip t w => decide (t < 136) && w.reserved == 0
  | .vwidenu t w => decide (t < 136) && w.reserved == 0
  | .vwidens t w => decide (t < 136) && w.reserved == 0
  | .vnarrow t w => decide (t < 136) && w.reserved == 0
  | .vpackb t w => decide (t < 136) && w.reserved == 0
  | .vunpackb t w => decide (t < 136) && w.reserved == 0
  | .vclmull t w => decide (t < 136) && w.reserved == 0
  | .vclmulh t w => decide (t < 136) && w.reserved == 0
  | .va2b t w => decide (t < 136) && w.reserved == 0
  | .vb2a t w => decide (t < 136) && w.reserved == 0
  | .vrefresh t w => decide (t < 136) && w.reserved == 0
  | .snop t w => decide (t < 136) && w.reserved == 0
  | .sadd t w => decide (t < 136) && w.reserved == 0
  | .ssub t w => decide (t < 136) && w.reserved == 0
  | .sand t w => decide (t < 136) && w.reserved == 0
  | .sor t w => decide (t < 136) && w.reserved == 0
  | .sxor t w => decide (t < 136) && w.reserved == 0
  | .sshl t w => decide (t < 136) && w.reserved == 0
  | .sshr t w => decide (t < 136) && w.reserved == 0
  | .ssra t w => decide (t < 136) && w.reserved == 0
  | .smul t w => decide (t < 136) && w.reserved == 0
  | .sli t w => decide (t < 136) && w.reserved == 0
  | .slih t w => decide (t < 136) && w.reserved == 0
  | .scmpltu t w => decide (t < 136) && w.reserved == 0
  | .scmpeq t w => decide (t < 136) && w.reserved == 0
  | .sadd8 t w => decide (t < 136) && w.reserved == 0
  | .sadd16 t w => decide (t < 136) && w.reserved == 0
  | .sadd32 t w => decide (t < 136) && w.reserved == 0
  | .ssub8 t w => decide (t < 136) && w.reserved == 0
  | .ssub16 t w => decide (t < 136) && w.reserved == 0
  | .ssub32 t w => decide (t < 136) && w.reserved == 0
  | .sextb t w => decide (t < 136) && w.reserved == 0
  | .sgetvl t w => decide (t < 136) && w.reserved == 0
  | .smin t w => decide (t < 136) && w.reserved == 0
  | .smax t w => decide (t < 136) && w.reserved == 0
  | .smset t w => decide (t < 136) && w.reserved == 0
  | .hcoreReset t w => decide (t < 136) && w.reserved == 0
  | .hcoreAbsorb t w => decide (t < 136) && w.reserved == 0
  | .hcorePad t w => decide (t < 136) && w.reserved == 0
  | .hcorePermute t w => decide (t < 136) && w.reserved == 0
  | .hcoreSqueeze t w => decide (t < 136) && w.reserved == 0
  | .hcoreCompress t w => decide (t < 136) && w.reserved == 0
  | .hcoreSave t w => decide (t < 136) && w.reserved == 0
  | .hcoreRestore t w => decide (t < 136) && w.reserved == 0
  | .mldLoad t w => decide (t < 136) && w.reserved == 0
  | .mldBroadcast t w => decide (t < 136) && w.reserved == 0
  | .mstStore t w => decide (t < 136) && w.reserved == 0
  | .inq t w => decide (t < 136) && w.reserved == 0
  | .outq t w => decide (t < 136) && w.reserved == 0
  | .vlopConst t w => decide (t < 136) && w.reserved == 0
  | .vlopReg t w => decide (t < 136) && w.reserved == 0
  | .vlopStrip t w => decide (t < 136) && w.reserved == 0
  | .classify t w => decide (t < 136) && w.reserved == 0
  | .declassify t w => decide (t < 136) && w.reserved == 0
  | .rndRefresh t w => decide (t < 136) && w.reserved == 0
  | .ctrLoadImm t w => decide (t < 136) && w.reserved == 0
  | .ctrLoadReg t w => decide (t < 136) && w.reserved == 0
  | .traceRecord t w => decide (t < 136) && w.reserved == 0
  | .ledgerWriteDone counter _ => decide (counter < 16384)
  | .leaseGranted slot => decide (slot < 2097152)
  | .ledgerRefresh => true
  | .treeBuildQuantum slot level => decide (slot < 2097152) && decide (level < 8)
  | .treeCacheRestored slot => decide (slot < 2097152)
  | .deaccessionCommit slot => decide (slot < 2097152)
  | .weedingPass => true
  | .archiveRecordDue slot => decide (slot < 2097152)
  | .entWindowComplete src _ => decide (src < 8)
  | .entSrcFail src _ => decide (src < 8)
  | .drbgReseed inst => decide (inst < 41)
  | .mbxNop fn => decide (fn < 256)
  | .devInfo fn => decide (fn < 256)
  | .algTable fn => decide (fn < 256)
  | .authChallenge fn => decide (fn < 256)
  | .authLogin fn => decide (fn < 256)
  | .authLogout fn => decide (fn < 256)
  | .sessionCfg fn => decide (fn < 256)
  | .admEnrol fn => decide (fn < 256)
  | .admRemove fn => decide (fn < 256)
  | .octConfig fn => decide (fn < 256)
  | .fecthOnly fn => decide (fn < 256)
  | .warmMinSet fn => decide (fn < 256)
  | .directCntSet fn => decide (fn < 256)
  | .ledLowThSet fn => decide (fn < 256)
  | .setSource fn => decide (fn < 256)
  | .setProfile fn => decide (fn < 256)
  | .fiArm fn => decide (fn < 256)
  | .fiDisarm fn => decide (fn < 256)
  | .resetCounts fn => decide (fn < 256)
  | .lcsTransition fn _ _ _ => decide (fn < 256)
  | .lcsGroupDone => true
  | .crlCreate fn => decide (fn < 256)
  | .crlConfig fn => decide (fn < 256)
  | .crlActivate fn => decide (fn < 256)
  | .crlQuiesce fn => decide (fn < 256)
  | .quiesceComplete carrel => decide (carrel < 256)
  | .crlFreeze fn => decide (fn < 256)
  | .crlSaveAccept fn _ _ => decide (fn < 256)
  | .crlSaveExport fn _ _ => decide (fn < 256)
  | .crlRestoreOffer fn => decide (fn < 256)
  | .crlRestoreConfirm fn _ _ => decide (fn < 256)
  | .crlRestoreImport fn _ _ => decide (fn < 256)
  | .migrationExpiry carrel => decide (carrel < 256)
  | .crlDestroy fn => decide (fn < 256)
  | .crlReset fn => decide (fn < 256)
  | .crlStats fn => decide (fn < 256)
  | .crlAnchorRenew fn => decide (fn < 256)
  | .hopCreate fn => decide (fn < 256)
  | .hopConfig fn => decide (fn < 256)
  | .hopStart fn => decide (fn < 256)
  | .hopStop fn => decide (fn < 256)
  | .hopDelete fn => decide (fn < 256)
  | .hopResetIdx fn => decide (fn < 256)
  | .hopQuery fn => decide (fn < 256)
  | .bindTokenIssue fn => decide (fn < 256)
  | .bindTokenRevoke fn => decide (fn < 256)
  | .bindStatic fn => decide (fn < 256)
  | .bindRelease fn => decide (fn < 256)
  | .catImport fn _ => decide (fn < 256)
  | .catReplace fn _ => decide (fn < 256)
  | .catDeaccessionCmd fn => decide (fn < 256)
  | .catSetAttr fn => decide (fn < 256)
  | .catQuery fn => decide (fn < 256)
  | .catEnrolSigner fn => decide (fn < 256)
  | .ledQuery fn => decide (fn < 256)
  | .ledReclaim fn => decide (fn < 256)
  | .ostkStage fn _ => decide (fn < 256)
  | .ostkActivate fn => decide (fn < 256)
  | .ostkDrainEnd => true
  | .ostkRetire fn => decide (fn < 256)
  | .fwStage fn _ => decide (fn < 256)
  | .fwActivate fn => decide (fn < 256)
  | .fwActivateWaitEnd => true
  | .trialBootTimeout => true
  | .mirPair fn => decide (fn < 256)
  | .mirPairRejoin fn => decide (fn < 256)
  | .pairingComplete _ => true
  | .mirUnpair fn => decide (fn < 256)
  | .mirArbitrate fn => decide (fn < 256)
  | .mirRehome fn => decide (fn < 256)
  | .mirStatus fn => decide (fn < 256)
  | .entTestPattern fn => decide (fn < 256)
  | .entRawCapture fn _ => decide (fn < 256)
  | .attQuote fn => decide (fn < 256)
  | .attCerts fn => decide (fn < 256)
  | .dbgNonce fn => decide (fn < 256)
  | .dbgGrant fn _ => decide (fn < 256)
  | .dbgEnd fn => decide (fn < 256)
  | .grantExpiry => true
  | .sessionIdleTimeout fn => decide (fn < 256)
  | .regLockstep => true
  | .registrarSwitchDone => true
  | .dpgStart fn page => decide (fn < 256) && decide (page < 4)
  | .dpgAbort fn page => decide (fn < 256) && decide (page < 4)
  | .dpgClearKey fn page => decide (fn < 256) && decide (page < 4)
  | .dpgKey fn page idx _ => decide (fn < 256) && decide (page < 4) && decide (idx < 8)
  | .dpgDone fn page _ => decide (fn < 256) && decide (page < 4)
  | .hostAccess fn _ _ => decide (fn < 256)
  | .registerWrite fn _ _ _ => decide (fn < 256)
  | .prtOctEvt octet _ => decide (octet < 64)
  | .hopDlEvt carrel _ => decide (carrel < 256)
  | .ledEvt _ => true
  | .ledEvt2 _ => true
  | .dpgEvt fn page _ => decide (fn < 256) && decide (page < 4)
  | .catEvt _ => true
  | .entEvt _ => true
  | .mbxEvt fn _ => decide (fn < 256)
  | .mirEvt _ => true
  | .fltEvt _ => true
  | .celEvt _ => true
  | .tmpEvt _ => true
  | .qdrEvt _ => true
  | .folSlotEvt slot _ => decide (slot < 4)
  | .flr fn => decide (fn < 256)
  | .vfDisable _ => true
  | .perstN => true
  | .porN _ _ => true
  | .bootStage3 _ => true
  | .bootStage4 _ => true
  | .bootStage5 _ => true
  | .bootStage6 => true
  | .bootStage7 _ => true
  | .bootStage8 r => r.channels.length == 8
  | .bootStage9 _ => true
  | .bootStage10 _ => true
  | .bootStage11 => true
  | .bootStage12 => true
  | .bootStage13 => true
  | .bootHoldEnd => true
  | .shedS1 _ => true
  | .shedS2 _ => true
  | .shedS3 _ => true
  | .shedS4 _ => true
  | .shedStageExit => true
  | .s4Abandon => true
  | .s4FlushDone => true
  | .s4Restart => true
  | .mainPowerLoss _ => true
  | .vddCellarLoss => true
  | .celVbatLow => true
  | .celXtalFail => true
  | .crystalRestart => true
  | .pllUnlock pll => decide (pll < 8)
  | .refclkLoss ref => decide (ref < 10)
  | .pllRelock pll => decide (pll < 8)
  | .tmpShield _ => true
  | .tmpLoop loop => decide (loop < 8)
  | .tmpRail _ => true
  | .tmpTemp _ => true
  | .tmpClock _ => true
  | .tmpGlitch _ => true
  | .shieldReseed => true
  | .tamperOutRelease => true
  | .linkLost => true
  | .heartbeatLost => true
  | .mirResign => true
  | .mirrorLinkUp => true
  | .mirLinkAuth => true
  | .linkKeyRenewal => true
  | .mirrorBatch => true
  | .batchAck _ => true
  | .batchReceived _ => true
  | .syncRecord _ => true
  | .mirrorSyncAck _ _ => true
  | .cartridgeInsert slot => decide (slot < 4)
  | .cartridgeRemove slot => decide (slot < 4)
  | .cmd1Poll slot _ => decide (slot < 4)
  | .mount slot _ => decide (slot < 4)
  | .reconcileComplete slot => decide (slot < 4)
  | .folIoErr slot => decide (slot < 4)
  | .retune slot _ => decide (slot < 4)
  | .recordCopyADone slot => decide (slot < 4)
  | .recordOnFolio slot => decide (slot < 4)
  | .anchorWrite slot => decide (slot < 4)
  | .anchorWriteDone slot => decide (slot < 4)
  | .lifeCheck slot _ => decide (slot < 4)
  | .devsecMark => true
  | .folArchiveAbandoned => true
  | .qdrRetrack => true
  | .qdrChannelLost ch => decide (ch < 8)
  | .slotRecoveryDone slot _ => decide (slot < 2097152)
  | .groupReencryptionDone group => decide (group < 129024)
  | .mainPowerReturn => true
  | .vddCellarRestored => true
  | .heartbeatRestored => true
  | .checkerReport _ => true
  | .entropyWaitTimeout fn => decide (fn < 256)
  | .tombstoneWaitTimeout slot => decide (slot < 2097152)
  | .bootDieTempReached => true
  | .rehomeTakeover carrel => decide (carrel < 256)
  | .slotRecoveryRequest slot => decide (slot < 2097152)

end Sys2Proof
end

