-- ==== Sys2Proof/Config.lean ====
section
/-!
DEFINITION. What the manual leaves free or takes from standards outside it. Every constant here is opaque: no proof can
see a value, so a statement that holds, holds whatever the value is.
-/

namespace Sys2Proof.Config

/-- A fresh byte that nothing constrains: a random byte of the entropy unit, or a byte the manual calls undefined.
The argument is the counter `State.freeCtr`, which every draw advances (log 2). -/
opaque freeByte : Nat → Byte

/-- A value the manual leaves to the implementation, named by a number and the operands it depends on (log 2). -/
opaque freeNat : Nat → List Nat → Nat

/-- The cryptographic functions of the standards the manual cites by number. Their definitions lie in those standards and
not in the manual, so each is an uninterpreted function of its inputs (log 3). -/
inductive Prim where
  | sha2 (bits : Nat) | sha512t256 | sha3 (bits : Nat) | shake (bits : Nat)
  | hmac (func : Nat) | kmac (bits : Nat)
  | mlKemKeyGen (set : Nat) | mlKemEncaps (set : Nat) | mlKemDecaps (set : Nat) | mlKemShared (set : Nat)
  | mlDsaKeyGen (set : Nat) | mlDsaSign (set : Nat) | mlDsaAttempts (set : Nat) | mlDsaSk (set : Nat)
  | slhKeyGen (set : Nat) | slhSign (set : Nat)
  | stfKeyGen | stfSign | stfPublic
  | hqcKeyGen (set : Nat) | hqcEncaps (set : Nat) | hqcDecaps (set : Nat) | hqcShared (set : Nat)
  | mceKeyGen (set : Nat) | mceEncaps (set : Nat) | mceDecaps (set : Nat) | mceShared (set : Nat) | mceAttempts (set : Nat)
  | aesGcmEnc | aesGcmTag | chachaEnc | chachaTag
  | aesCtr | aesCbcEnc | aesCbcDec | aesXtsEnc | aesXtsDec | aesCmac
  | aesKw | aesKwInv | aesKwp | aesKwpInv
  | rsaKeyGen | rsaSign (scheme : Nat) | rsaEnc (scheme : Nat) | rsaDec (scheme : Nat)
  | rsaCandidates (k : Nat) | rsaExponent
  | edPublic (set : Nat) | edSign (set : Nat) | montPublic (set : Nat) | montAgree (set : Nat) | ecNonce | curveConstants
  | hkdf (func : Nat) | hkdfExpand (func : Nat) | kdf108 (func : Nat)
  | digestState (func : Nat)
  | x509 | seal
  /-- The permutation Keccak-f[1600]; one block of a SHA-2 mode of R152; that mode's initial value. -/
  | keccakF | shaBlock (mode : Nat) | shaIv (mode : Nat)
  deriving DecidableEq, Repr

/-- The value of a standard's function on its inputs. -/
opaque compute : Prim → List Bytes → Bytes

/-- A standard's check on its inputs: a signature verifies, a tag matches, a point lies on the curve. -/
opaque holds : Prim → List Bytes → Bool

end Sys2Proof.Config
end

