-- ==== Sys2Proof/Machine/State.lean ====
section
/-!
DEFINITION. The state of the T5120 as plain data, one structure for each block the manual describes, and the state after
a power-on reset. Every field's default is its reset value; where the manual gives none, the assumption log names it.
-/

namespace Sys2Proof.Machine

/-- A W1C bit together with the 8-bit event counter that R10 gives it. -/
structure EvtBit where
  flag : Bool := false
  cnt : BitVec 8 := 0
  deriving DecidableEq, Repr

/-! ## Service ports (chapter 2) -/

/-- Octet power states (R60), with the codes of `PRT_OCT_STS`.`STATE`. -/
inductive OctState where
  | off | down | up | forcedDown
  deriving DecidableEq, Repr

/-- The registers of one octet (R62) and what the port complex keeps beside them. -/
structure Octet where
  mode : BitVec 3 := 0
  media : BitVec 2 := 0
  anEn : Bool := true
  keepAlive : Bool := false
  pfcEn : BitVec 8 := 0
  pfcIgnore : BitVec 8 := 0
  state : OctState := .off
  laneLock : BitVec 8 := 0
  portUp : BitVec 8 := 0
  linkFlap : EvtBit := {}
  fecHigh : EvtBit := {}
  pfcStorm : EvtBit := {}
  fecTh : W32 := 1000
  fecCorr : W64 := 0
  fecUncorr : W64 := 0
  rxDrop : W64 := 0
  cnpTx : W64 := 0
  cnpRx : W64 := 0
  /-- The device second whose uncorrectable codewords `fecInSecond` counts (the threshold of `FEC_HIGH` is a rate). -/
  fecSecond : Nat := 0
  fecInSecond : Nat := 0
  deriving DecidableEq, Repr

/-- PFC state of one priority of one port (R56): when the present pause began, whether pause is ignored. -/
structure PfcState where
  pausedSince : Option Nat := none
  pausedUntil : Nat := 0
  unpausedSince : Nat := 0
  ignoring : Bool := false
  storm : Bool := false
  deriving DecidableEq, Repr

/-- The network identity of a carrel (R31). -/
structure NetId where
  ports : List Nat := []
  vlan : Nat := 0
  mac : BitVec 48 := 0
  v4 : List (BitVec 32 × Nat) := []
  v6 : List (BitVec 128 × Nat) := []
  pcp : BitVec 3 := 0
  dscp : BitVec 6 := 0
  cmService : W64 := 0x0000_0000_0106_128F#64
  gw4 : BitVec 32 := 0
  gw6 : BitVec 128 := 0
  deriving DecidableEq, Repr

/-- Next-hop resolution (R29). -/
inductive NhState where
  | resolving (tries : Nat)
  | resolved (mac : BitVec 48)
  | unreachable
  deriving DecidableEq, Repr

structure NextHop where
  carrel : Nat
  ip : IpAddr
  port : Nat
  st : NhState
  lastUse : Nat
  deriving DecidableEq, Repr

/-- What an outstanding READ or WRITE of the hopper engine is for (R50, R58). -/
inductive ReqKind where
  /-- READ of slip-ring entries: part `part` of the fetch in progress on the hopper. -/
  | ring (hopper part : Nat)
  /-- READ of input or AUX data of a slip, at this byte of it. -/
  | input (sid off : Nat)
  | aux (sid off : Nat)
  /-- WRITE of output data that precedes the return slip with this `COMPLETION_SEQ`. -/
  | output (hopper : Nat) (cseq : W32)
  /-- WRITE of a checked part of a streamed or two-pass slip's output (R273). -/
  | part (sid : Nat)
  | returnSlip (hopper : Nat) (cseq : W32)
  | statusBlock (hopper : Nat)
  deriving DecidableEq, Repr

/-- An outstanding request on a queue pair or, for a `HOST` hopper, on the host link. -/
structure Req where
  id : Nat
  kind : ReqKind
  read : Bool
  addr : W64
  len : Nat
  data : Bytes := []
  imm : Option W32 := none
  rkey : W32 := 0
  /-- An RNR retry wait is running for it (R52, R58). -/
  rnrWait : Bool := false
  /-- It has left the device; a request to an unresolved next hop waits (R29). -/
  sent : Bool := true
  deriving DecidableEq, Repr

/-- Where a queue pair stands (R40, R42, R43, R57). -/
inductive QpPhase where
  /-- Rebind: waiting for the old queue pairs to drain before REP (R42 step 2). -/
  | waitDrain (old : List Nat)
  | repSent
  | rts
  /-- Rebind: DREQ sent on the old queue pair; inbound packets discarded (R42 step 1). -/
  | draining
  /-- Static binding whose carrel is not ACTIVE yet (R43). -/
  | waitActive
  /-- In error or released: DREQ sent, DREP awaited (R57). -/
  | error
  deriving DecidableEq, Repr

/-- A queue pair (R37), with its rate limiter (R54; rates in Gbit/s, exact). -/
structure Qp where
  carrel : Nat
  phase : QpPhase
  token : Option Nat := none
  static : Bool := false
  hopFirst : Nat
  hopCount : Nat
  peerQpn : Nat := 0
  peerGid : BitVec 128 := 0
  port : Nat := 0
  pmtu : Nat := 4096
  readDepth : Nat := 16
  immGranted : Bool := false
  clientRkey : W32 := 0
  dbRkey : W32 := 0
  sendPsn : BitVec 24 := 0
  recvPsn : BitVec 24 := 0
  ackT : Nat := 14
  retryCnt : Nat := 7
  retryLeft : Nat := 7
  rnrCnt : Nat := 6
  rnrLeft : Nat := 6
  srcPort : BitVec 16 := 0xC000#16
  rate : Rat := 0
  target : Rat := 0
  alpha : Rat := 1
  periods : Nat := 0
  lastCnpTx : Option Nat := none
  outstanding : List Req := []
  deriving DecidableEq, Repr

/-- A binding token (R38). -/
structure Token where
  value : BitVec 128
  carrel : Nat
  first : Nat
  count : Nat
  mtu : Nat
  expiry : Nat
  revoked : Bool := false
  deriving DecidableEq, Repr

/-- The port complex. -/
structure PortComplex where
  /-- Octets 0 to 63. -/
  octets : Tab Octet := []
  /-- By 8 * port + priority. -/
  pfc : Tab PfcState := []
  nextHops : List NextHop := []
  /-- By QPN. -/
  qps : Tab Qp := []
  /-- By `TOKEN_ID`. -/
  tokens : Tab Token := []
  nextToken : Nat := 1
  nextReq : Nat := 0
  /-- Address announcements still to repeat, by carrel (R34). -/
  announce : Tab Nat := []
  /-- Requests outstanding on the host link, by function (R76). -/
  hostReqs : Tab (List Req) := []
  /-- The octets as they were configured before the last reset; stage 12 brings them up in these modes (R542). -/
  configured : Tab Octet := []
  deriving DecidableEq, Repr

/-! ## Hoppers and slips (chapter 3) -/

inductive HopState where
  | stopped | active | stopping
  deriving DecidableEq, Repr

inductive Attach where
  | network | host
  deriving DecidableEq, Repr

/-- A return slip ready to be written, with the output WRITEs that precede it (R51, R57, R86). -/
structure HeldRs where
  cseq : W32
  rs : Bytes
  /-- Output WRITEs: `COMPLETION_SEQ` of the slip each belongs to, address, data. -/
  outs : List (W32 × W64 × Bytes) := []
  notify : Bool := false
  deriving DecidableEq, Repr

/-- A READ of ring entries in progress: first entry and the parts that have arrived (R67). -/
structure RingFetch where
  first : W32
  count : Nat
  parts : List (Option Bytes)
  deriving DecidableEq, Repr

/-- A hopper: configuration (R63) and dynamic state (R64, R93). -/
structure Hopper where
  carrel : Nat
  index : Nat
  attach : Attach := .network
  depthLog2 : Nat := 6
  slipRing : W64 := 0
  cplRing : W64 := 0
  statusAddr : W64 := 0
  rkey : W32 := 0
  msix : Nat := 0
  weight : Nat := 1
  classMask : BitVec 16 := 0
  slotPerm : BitVec 4 := 0
  long : Bool := false
  urgent : Bool := false
  state : HopState := .stopped
  ci : W32 := 0
  p : W32 := 0
  nextCseq : W32 := 0
  lastSlipSeq : W32 := 0
  lastAckCseq : W32 := 0xFFFF_FFFF#32
  lastDbSeq : W32 := 0
  fetchFail : Option W32 := none
  dbDiscarded : Bool := false
  sbSeq : W32 := 0
  /-- Status blocks requested and not yet written (R94). -/
  statusPending : Nat := 0
  qpn : Option Nat := none
  held : List HeldRs := []
  fetch : Option RingFetch := none
  /-- Accepted moves of P with their stamps, oldest first, back to the consumer index (R73). -/
  arrivals : List (W32 × Nat) := []
  /-- Sid of the first slip of the chain being fetched, if the last slip taken had `CHAIN` (R84). -/
  openChain : Option Nat := none
  /-- Its state line has failed: it starts again only after HOP_RESET_IDX (R527). -/
  broken : Bool := false
  deriving DecidableEq, Repr

/-- A call slip as laid out by R77. -/
structure CallSlip where
  opcode : BitVec 16 := 0
  flags : BitVec 16 := 0
  slipSeq : W32 := 0
  keyRef : W32 := 0
  dlExt : W32 := 0
  inAddr : W64 := 0
  inLen : Nat := 0
  outMax : Nat := 0
  outAddr : W64 := 0
  auxLen : Nat := 0
  auxAddr : W64 := 0
  dest : W32 := 0
  param : W64 := 0
  deriving DecidableEq, Repr

/-! ## The catalogue (chapter 13) -/

/-- A catalogue slot (R315). The material of an extent is held here whole; `extentLine` is where it lies. -/
structure Slot where
  valid : Bool := false
  persistent : Bool := false
  mirrored : Bool := false
  approvedOnly : Bool := false
  ostkSigner : Bool := false
  extent : Bool := false
  archived : Bool := false
  keyClass : Nat := 0
  usage : BitVec 10 := 0
  owner : Nat := 0
  depth : Nat := 0
  parent : Nat := 0
  parentGen : W32 := 0
  ownGen : W32 := 0
  keyLen : Nat := 0
  useCount : Nat := 0
  useLimit : Nat := 0
  expiry : Nat := 0
  extentLine : Nat := 0
  ledger : Option (Nat × BitVec 6) := none
  ledgerBase : Nat := 0
  material : Bytes := []
  /-- Uses reserved at step 7 and not yet counted (R321). -/
  reserved : Nat := 0
  /-- Reserved as the destination of a running slip (R326). -/
  claimed : Bool := false
  /-- Generation space used up (R325). -/
  retired : Bool := false
  /-- Ceilings of the use blocks reserved from the peer and through the archive (R322, R546). -/
  peerCeil : Nat := 0
  folioCeil : Nat := 0
  /-- Deaccession waiting for the peer's acknowledgement and the tombstone (R332), with the function to answer. -/
  deacPending : Option (Option Nat) := none
  deacPeer : Bool := false
  deacTomb : Bool := false
  deriving DecidableEq, Repr

/-- A change of slots that a slip makes at its commit (R86). -/
inductive SlotOp where
  | create (shelf : Nat) (slot : Slot)
  | deaccession (shelf : Nat)
  /-- Not of a slot: the digest-result registers (R257). -/
  | dres (func : Nat) (digest : Bytes)
  deriving DecidableEq, Repr

/-- The catalogue's registers and passes (R332 to R334, chapter 13 Registers). -/
structure Catalogue where
  slots : Tab Slot := []
  /-- Carrel that each of the 2,048 blocks is assigned to; block 0 is carrel 0's (R316). -/
  blocks : Tab Nat := [(0, 0)]
  /-- Blocks of destroyed carrels not yet released (R402). -/
  releasing : List Nat := []
  weedFound : EvtBit := {}
  extentLow : EvtBit := {}
  archiveLag : EvtBit := {}
  genRetired : EvtBit := {}
  weedPassTot : W64 := 0
  weedZeroTot : W64 := 0
  /-- Slots whose archive record is due, with the time of the change (R334); tombstones queued (R333). -/
  archivePending : Tab Nat := []
  tombstones : List Nat := []
  deriving DecidableEq, Repr

/-- Where a slip stands between its fetch and its return slip (R96, R86). -/
inductive SlipPhase where
  /-- Fetched and accepted; no unit assigned (R96). -/
  | staged
  /-- Assigned to a unit or, for a control or catalogue slip, started; inputs may still be arriving. -/
  | running
  /-- A LONG message whose context is saved (R106, R109). -/
  | suspended
  /-- The operation has produced its result; the unit is not released yet. -/
  | executed
  /-- Unit released; a slip of a chain waiting for the rest of its chain (R86). -/
  | finished
  /-- Waiting for the peer's acknowledgement or a tombstone before its slot changes commit (R86 step 1, R332). -/
  | waitCommit
  /-- Failed; its return slip waits until every WRITE posted for it has ended (R51). -/
  | draining
  deriving DecidableEq, Repr

/-- The hopper's changeable configuration as it stood when a slip was fetched (R66). -/
structure SlipCfg where
  weight : Nat := 1
  classMask : BitVec 16 := 0
  slotPerm : BitVec 4 := 0
  long : Bool := false
  urgent : Bool := false
  deriving DecidableEq, Repr

/-- A slip in flight. -/
structure Slip where
  hopper : Nat
  carrel : Nat
  cs : CallSlip
  cfg : SlipCfg := {}
  exts : List Bytes := []
  /-- Ring entry of the slip (R67). -/
  entry : W32 := 0
  /-- Arrival stamp in fabric cycles (R73). -/
  arrival : Nat := 0
  /-- Sid of the first slip of its chain; its own sid when it stands alone. -/
  head : Nat
  /-- The last slip of the chain has been fetched. -/
  chainComplete : Bool := true
  phase : SlipPhase := .staged
  engine : EngineType := .none
  /-- Which stage of an operation that runs on several units in turn. -/
  stage : Nat := 0
  unit : Option Nat := none
  gang : List Nat := []
  inData : Bytes := []
  auxData : Bytes := []
  /-- READ parts still missing; whether the READs of step 10 have been issued. -/
  readsLeft : Nat := 0
  fetched : Bool := false
  status : Nat := 0
  out : Bytes := []
  outLen : Nat := 0
  inline : W64 := 0
  /-- `STATE_REJECTED` object and state code (R91). -/
  secret : Option Bytes := none
  slotOps : List SlotOp := []
  approved : Bool := false
  retried : Bool := false
  replay : Bool := false
  /-- Slots in which this slip has reserved a use (R321). -/
  uses : List Nat := []
  usesCounted : Bool := false
  /-- Destination slot reserved (R326). -/
  destClaim : Option Nat := none
  /-- Stateful index taken (R205), lease counter claimed (R203). -/
  leaf : Option Nat := none
  counterClaim : Option Nat := none
  est : Nat := 0
  startedAt : Nat := 0
  engineId : BitVec 16 := 0
  drawsRandom : Bool := false
  isLong : Bool := false
  suspendReq : Bool := false
  abortReq : Bool := false
  /-- Waited for a lease (R232). -/
  leaseWait : Bool := false
  /-- Two-pass pipe slip: pass 1 done, its check passed (R272); output already posted (R273). -/
  pass1 : Option Bool := none
  posted : Nat := 0
  /-- Generated IV kept for a re-run (R274). -/
  iv : Option Bytes := none
  /-- WRITEs posted and not yet acknowledged. -/
  writesLeft : Nat := 0
  /-- Waiting for a conditioned block (prediction resistance, R346). -/
  waitBlock : Bool := false
  /-- The checks of steps 1 to 8 have passed (R81). -/
  checked : Bool := false
  /-- The key the slip loaded: the slot as it stood when step 7 passed, or the key of an opened record (R337, R331). -/
  key : Option Slot := none
  /-- Another slot the slip loaded at step 7: `TARGET`, or the KEK of an inline wrapped key. -/
  other : Option Slot := none
  /-- The curve slot it loaded (R309). -/
  curve : Option Slot := none
  /-- Check value of pass 1 (R272). -/
  check1 : Bytes := []
  /-- `KEY_REF` of an inline wrapped key has been opened (R331). -/
  opened : Bool := false
  /-- The present stage is the operation's last. -/
  final : Bool := true
  /-- The sixteenth slip of a run that all has `CHAIN` (R84, R90). -/
  endsChain : Bool := false
  /-- Abandoned when this PLL lost its lock; it waits for the relock (R457). -/
  pllWait : Option Nat := none
  deriving DecidableEq, Repr

/-! ## Scheduling (chapter 4, R16, R446) -/

inductive ClusterState where
  | run | idle | nap | dormant
  /-- Waking, ready at the given fabric cycle. -/
  | waking (readyAt : Nat)
  deriving DecidableEq, Repr

/-- Fence state of a physical unit (R446, R447). -/
inductive FenceState where
  | minor | severe
  deriving DecidableEq, Repr

/-- The units of one type. -/
structure UnitArr where
  /-- Physical unit behind each logical index where it is not the identity; `none` when no unit serves it. -/
  map : Tab (Option Nat) := []
  /-- Fenced physical units. -/
  fenced : Tab FenceState := []
  /-- Carrel of a physical unit's last job (R103, R104). -/
  lastCarrel : Tab Nat := []
  /-- State of each cluster (R16). -/
  clusters : Tab ClusterState := []
  /-- Physical units not accepting work until a scrub or wipe ends (R141, R288). -/
  held : List Nat := []
  /-- Virtual times of the carrels (R101). -/
  vt : Tab Int := []
  /-- Numbers of busy units with the times they began, newest first, back to 1 ms ago (R102). -/
  peaks : List (Nat × Nat) := []
  /-- Carrels and hoppers that had startable work when the dispatcher last looked (R101). -/
  ready : List Nat := []
  hready : List Nat := []
  deriving DecidableEq, Repr

/-- Deadline registers of a carrel (chapter 4 registers). -/
structure DlRegs where
  missed : EvtBit := {}
  shed : EvtBit := {}
  missTot : W64 := 0
  shedTot : W64 := 0
  deriving DecidableEq, Repr

structure Sched where
  tun : UnitArr := {}
  floor : UnitArr := {}
  pipe : UnitArr := {}
  kiln : UnitArr := {}
  warmTun : BitVec 8 := 0
  warmFloor : BitVec 5 := 0
  warmKiln : BitVec 6 := 0
  warmPipe : BitVec 9 := 0
  /-- Virtual times of the hoppers (R96, R101). -/
  hvt : Tab Int := []
  /-- By carrel. -/
  dl : Tab DlRegs := []
  deriving DecidableEq, Repr

structure HopperEngine where
  /-- By hopper number. -/
  hoppers : Tab Hopper := []
  /-- Slips in flight by sid; sids rise in fetch order. -/
  slips : Tab Slip := []
  nextSid : Nat := 0
  /-- Carries of a chain, by the sid of its first slip (R85). -/
  carries : Tab (List Bytes) := []
  /-- Bytes 0-7 written to a host doorbell position, by 65,536 * function + k (R75). -/
  hostLatch : Tab Bytes := []
  /-- The hopper engine is in a block reset (R438, R449). -/
  resetting : Bool := false
  /-- Fetching is stopped: registrar FAILED (R358), FW_ACTIVATE (R385), shed stage S4 (R462). -/
  fetchStopped : Bool := false
  deriving DecidableEq, Repr

/-! ## Tuns (chapters 5 and 6) -/

/-- Share kind of a tagged value (R116). -/
inductive ShareKind where
  | boolean | arith2w | arithM (i : Fin 4)
  deriving DecidableEq, Repr

/-- A Keccak core: 1,600-bit state, rate in 8-byte words, tag (R132, R152). -/
structure KecCore where
  st : BitVec 1600 := 0
  rate : Nat := 21
  tag : Bool := false
  deriving DecidableEq, Repr

/-- A SHA core: mode of R152, chaining words in the external form of R253 (none since its reset: the mode's initial
value), tag. -/
structure ShaCore where
  mode : Nat := 1
  h : Bytes := []
  tag : Bool := false
  deriving DecidableEq, Repr

/-- How a routine ended, for its slip (R157). -/
inductive RoutineEnd where
  | ok | status (code : Nat)
  deriving DecidableEq, Repr

/-- One tun (R115) and its sequencer (R147 to R157). Values are held recombined; tag and share kind stand beside them. -/
structure Tun where
  v : Tab (BitVec 8192) := []
  vtag : List Nat := []
  vkind : Tab ShareKind := []
  s : Tab W64 := []
  stag : List Nat := []
  fz : Bool := false
  fn : Bool := false
  fc : Bool := false
  ftag : Bool := false
  qsat : Bool := false
  qend : Bool := false
  vl : Nat := 0
  vew : BitVec 2 := 2
  m0 : BitVec 31 := 3329
  m1 : BitVec 31 := 8380417
  m2 : BitVec 31 := 0
  m3 : BitVec 31 := 0
  ct0 : BitVec 16 := 0
  ct1 : BitVec 16 := 0
  ct2 : BitVec 16 := 0
  ct3 : BitVec 16 := 0
  scratch : Mem := []
  /-- Tagged scratch lines, their share kinds, and the lines the routine wrote (R128, R141). -/
  ltag : List Nat := []
  lkind : Tab ShareKind := []
  written : List Nat := []
  kec : Tab KecCore := []
  sha : Tab ShaCore := []
  pc : BitVec 14 := 0
  stack : List (BitVec 14) := []
  running : Bool := false
  sid : Option Nat := none
  /-- The routine is an open-stacks routine; its image grants the declassify right. -/
  openRoutine : Bool := false
  declassRight : Bool := false
  shares : Nat := 2
  watchdog : Nat := 0
  cycles : Nat := 0
  inPos : Nat := 0
  auxPos : Nat := 0
  paramPos : Nat := 0
  keyPos : Nat := 0
  carryPos : Nat := 0
  out : Bytes := []
  outCount : Nat := 0
  result : Bytes := []
  hold : Bytes := []
  slot : Bytes := []
  /-- Tagged bytes wait in OUT or RESULT for release (R140). -/
  heldTagged : Bool := false
  ended : Option RoutineEnd := none
  /-- A full scrub is in progress (R141). -/
  scrubbing : Bool := false
  trace : List Bytes := []
  deriving DecidableEq, Repr

/-- A dispatch entry of an open-stacks image (R164). -/
structure OstkEntry where
  addr : BitVec 14
  flags : BitVec 16
  minCycles : Nat
  estBase : Nat
  estPerKib : Nat
  keyUsage : BitVec 10
  deriving DecidableEq, Repr

/-- An open-stacks image (R162, R163). -/
structure OstkImage where
  id : W32
  version : Nat
  entries : List OstkEntry
  declassify : Bool
  minLib : Nat
  signer : Nat
  carrels : BitVec 256
  measure : Bytes
  words : List (BitVec 192)
  /-- The image as it was read, for the checks at reload (R168). -/
  raw : Bytes := []
  deriving DecidableEq, Repr

structure TunArray where
  /-- Control store, the same in every tun (R159, R167). -/
  store : Tab (BitVec 192) := []
  tuns : Tab Tun := []
  /-- Saved contexts of suspended digest routines, by slip (R255). -/
  contexts : Tab Tun := []
  staged : Option OstkImage := none
  active : Option OstkImage := none
  /-- OSTK_ACTIVATE or OSTK_RETIRE is draining class 0xF routines, for a function (R167, R169). -/
  draining : Option (Option Nat × Bool) := none
  deriving DecidableEq, Repr

/-! ## Kilns (chapter 12) -/

/-- Private memory of a kiln (R286): contents, lines holding secrets, full wipe in progress (R288). -/
structure KilnState where
  mem : Mem := []
  secretLines : List Nat := []
  wiping : Bool := false
  deriving DecidableEq, Repr

/-! ## The ledger (chapter 9) -/

inductive CtrState where
  | free | bound | system | retired
  deriving DecidableEq, Repr

/-- One cell of a counter (R221): its fields, its `CHECK` byte and its SECDED decode. -/
structure Cell where
  value : Nat := 0
  state : CtrState := .free
  bindGen : BitVec 6 := 0
  check : BitVec 8 := 0
  eccOk : Bool := true
  deriving DecidableEq, Repr

/-- Why a counter is being written. -/
inductive LedWrite where
  /-- Set to this content. -/
  | set
  /-- Lease number of a stateful key's slot (R229). -/
  | lease (slot : Nat)
  /-- The peer's ceiling for a key homed there; acknowledged when done (R235). -/
  | shadow
  | refresh
  deriving DecidableEq, Repr

/-- A cell write in progress: content, attempts made, purpose (R223). -/
structure LedPending where
  cell : Nat
  value : Nat
  state : CtrState
  bindGen : BitVec 6
  attempts : Nat := 0
  why : LedWrite
  deriving DecidableEq, Repr

/-- A counter that differs from its content at manufacture. -/
structure Counter where
  cells : List Cell
  lost : Bool := false
  /-- Writes in order; the first is in progress (R242: a release follows a lease write). -/
  writing : List LedPending := []
  deriving DecidableEq, Repr

/-- Leases of a stateful key on this device (R229, R230). -/
structure Lease where
  /-- Next index of the usable leases and the index after their last. -/
  next : Nat
  stop : Nat
  deriving DecidableEq, Repr

/-- A stateful key in use here: usable leases, a grant in progress. -/
structure StfKey where
  leases : List Lease := []
  granting : Bool := false
  ownDone : Bool := false
  peerDone : Bool := false
  /-- By level, counted from the top: the number of the tree in use, of the next tree once it is built, and the quanta of
  the background build of the tree after the one in use (R207). -/
  cur : Tab Nat := []
  built : Tab Nat := []
  building : Tab Nat := []
  /-- Last use, for the 64 caches that QDR holds. -/
  usedAt : Nat := 0
  cached : Bool := false
  deriving DecidableEq, Repr

structure Ledger where
  counters : Tab Counter := []
  cellInvalid : EvtBit := {}
  writeRetry : EvtBit := {}
  counterLost : EvtBit := {}
  retired : EvtBit := {}
  lowFree : EvtBit := {}
  lowTh : BitVec 14 := 256
  leaseTot : W64 := 0
  writeTot : W64 := 0
  skipTot : W64 := 0
  /-- By shelfmark of the stateful key. -/
  keys : Tab StfKey := []
  /-- Counters reserved by a slip at step 8 (R228). -/
  reserved : List Nat := []
  /-- Family counter of each `IMAGE_ID` (R226). -/
  families : List (W32 × Nat) := []
  /-- Counters whose binding record lies under a former cellar key (R243). -/
  orphanBound : List Nat := []
  deriving DecidableEq, Repr

/-! ## Entropy (chapter 14) -/

inductive EntState where
  | starting | ready | failed
  deriving DecidableEq, Repr

structure EntSource where
  inService : Bool := false
  cause : BitVec 4 := 0
  /-- Windows drawn since chip reset. -/
  windows : Nat := 0
  pattern : Option Bytes := none
  deriving DecidableEq, Repr

/-- A CTR_DRBG instance (R345). Its state never leaves the unit; what counts here is when it must reseed. -/
structure Drbg where
  live : Bool := false
  requests : Nat := 0
  seededAt : Nat := 0
  reseedDue : Bool := false
  deriving DecidableEq, Repr

structure Entropy where
  state : EntState := .starting
  srcFail : EvtBit := {}
  poolEmpty : EvtBit := {}
  sources : Tab EntSource := []
  pool : Nat := 0
  blockTot : W64 := 0
  reseedTot : W64 := 0
  randBytesTot : W64 := 0
  /-- Instances 0 `SYS`, 1-16 `SVC`, 17-24 `MSK`, 25-40 `CLI`. -/
  drbgs : Tab Drbg := []
  nextCli : Nat := 0
  nextMsk : Nat := 0
  deriving DecidableEq, Repr

/-! ## Floors, pipes and direct pages (chapters 10 and 11) -/

/-- The digest-result registers (R256). -/
structure Dres where
  areaA : Bytes := []
  areaB : Bytes := []
  func : BitVec 8 := 0xFF
  source : BitVec 8 := 0
  lenA : BitVec 8 := 0
  lenB : BitVec 8 := 0
  seq : W32 := 0
  deriving DecidableEq, Repr

/-- A direct register page (R278 to R283). -/
structure Page where
  key : List W64 := []
  iv0 : W64 := 0
  iv1 : W64 := 0
  ctrl : W64 := 0
  src : W64 := 0
  dst : W64 := 0
  aad : W64 := 0
  len : W64 := 0
  tag0 : W64 := 0
  tag1 : W64 := 0
  busy : Bool := false
  done : EvtBit := {}
  wrIgnored : EvtBit := {}
  approved : Bool := false
  keyLoaded : Bool := false
  status : Nat := 0
  outLen : W32 := 0
  abortReq : Bool := false
  /-- Position in the start order while it waits for a direct pipe. -/
  queued : Bool := false
  startedAt : Nat := 0
  /-- Logical pipe it runs on; whether it has been re-run after a fault (R279, R285). -/
  unit : Option Nat := none
  retried : Bool := false
  deriving DecidableEq, Repr

structure Pipes where
  directCnt : BitVec 5 := 0
  /-- Function whose page was served last (R279). -/
  lastFn : Nat := 0
  gangTot : W64 := 0
  twoPassTot : W64 := 0
  suspTot : W64 := 0
  /-- By 4 * function + page. -/
  pages : Tab Page := []
  deriving DecidableEq, Repr

/-! ## The registrar (chapter 15) -/

/-- A session of a function (R373). -/
structure Session where
  id : W32
  key : Nat
  timeout : Nat := 900
  lastAt : Nat
  deriving DecidableEq, Repr

/-- What an accepted mailbox command still waits for before its response. -/
inductive MbxWait where
  | none
  /-- Randomness before the entropy unit is ready (R349), since the given cycle. -/
  | entropy (since : Nat)
  /-- Deaccession commit of a slot (R332). -/
  | deaccession (slot : Nat)
  /-- A synchronous mirror record, by its sequence number (R423). -/
  | mirror (seq : Nat)
  /-- Class 0xF routines to end (R167 step 2). -/
  | ostkDrain
  /-- Slips in flight before FW_ACTIVATE's reset (R385). -/
  | fwReset
  /-- OTP groups to be programmed (R486). -/
  | lcs
  /-- Pairing (R420). -/
  | pairing
  /-- Rehoming of a carrel (R431), and the staged slips discarded. -/
  | rehome (carrel discarded : Nat)
  deriving DecidableEq, Repr

/-- The mailbox of one PCIe function (R359). -/
structure Mbx where
  cmdWin : Bytes := []
  rspWin : Bytes := []
  busy : Bool := false
  rspReady : EvtBit := {}
  wrIgnored : EvtBit := {}
  seqOpen : Bool := true
  evqOverflow : EvtBit := {}
  lastHseq : W32 := 0
  lastDseq : W32 := 0
  evqBase : W64 := 0
  evqCfg : W32 := 2
  evqHead : W32 := 0
  evqTail : W32 := 0
  /-- Last accepted frame and its kept response (R364). -/
  lastFrame : Bytes := []
  lastRsp : Bytes := []
  session : Option Session := none
  /-- Challenge nonce and its time in fabric cycles (R372). -/
  nonce : Option (Bytes × Nat) := none
  fails : Nat := 0
  lockUntil : Nat := 0
  wait : MbxWait := .none
  /-- Host memory read for the waiting command (R363). -/
  host : Bytes := []
  /-- Slot reserved for a key being imported (R326). -/
  claim : Option Nat := none
  restarted : Bool := false
  deriving DecidableEq, Repr

inductive Trial where
  | none | marked | running
  deriving DecidableEq, Repr

/-- Device state (R368) apart from shed stages and degradation. -/
inductive DevState where
  | off | cellarOnly | booting | recovery | ready | failed
  deriving DecidableEq, Repr

structure Registrar where
  /-- Pairs fenced by a miscompare (R357, R358): 0, 1 or 2. -/
  pairsFenced : Nat := 0
  switching : Bool := false
  /-- Mailboxes are served from the end of boot stage 5 (R369). -/
  served : Bool := false
  dev : DevState := .booting
  /-- By function number. -/
  mbx : Tab Mbx := []
  serial : Bytes := []
  baseMac : BitVec 48 := 0
  /-- Firmware running, in the active bank, staged. -/
  running : FwImage := ⟨0, 0, [], []⟩
  activeBank : FwImage := ⟨0, 0, [], []⟩
  staged : Option FwImage := none
  trial : Trial := .none
  trialReverted : Bool := false
  /-- Enrolled administrator keys, by 4 * carrel + position (R371). -/
  admins : Tab Nat := []
  /-- DeviceID and Alias keys present (R387). -/
  aliasKeys : Bool := false
  /-- Functions that were reset while their command waited for its commit, with the mailbox as it stood, `BUSY` cleared: the
  command commits, and its response is discarded (R390). -/
  cutOff : List (Nat × Mbx) := []
  deriving DecidableEq, Repr

/-! ## Carrels (chapter 16) -/

inductive CarrelState where
  | absent | configured | active | quiescing | quiesced | frozen
  deriving DecidableEq, Repr

/-- A migration in progress (R405): its ID, whether this device is the target, steps done, its start. -/
structure Migration where
  id : Bytes
  target : Bool
  step : Nat
  peer : Bytes := []
  prev : Bytes := []
  secrets : Bytes := []
  startedAt : Nat
  deriving DecidableEq, Repr

/-- Statistics of a carrel since its last epoch change (R414). -/
structure CrlStats where
  slips : W64 := 0
  rxDrop : W64 := 0
  dbErr : W64 := 0
  qpErr : W64 := 0
  failed : W64 := 0
  deriving DecidableEq, Repr

structure Carrel where
  st : CarrelState := .absent
  hopperMax : Nat := 1
  slotQuota : Nat := 0
  extentQuota : Nat := 0
  shareTun : Nat := 1
  shareFloor : Nat := 1
  sharePipe : Nat := 1
  shareKiln : Nat := 1
  maskOrder : Nat := 2
  approvedOnly : Bool := false
  forceShed : Bool := false
  requireDeadline : Bool := false
  directPages : Nat := 0
  dlMax : Nat := 0
  /-- Block runs: first block, count (R393). -/
  runs : List (Nat × Nat) := []
  net : NetId := {}
  stats : CrlStats := {}
  /-- An export completed since the freeze (R404). -/
  exported : Bool := false
  migration : Option Migration := none
  deriving DecidableEq, Repr

/-! ## The mirror pair (chapter 17) -/

inductive PairState where
  | unpaired | pairing | paired | degraded | solo | rejoining
  deriving DecidableEq, Repr

/-- State of a hopper as a batch carries it, and as the standby keeps it (R423, R424). -/
structure HopMirror where
  oc : W32 := 0
  ci : W32 := 0
  p : W32 := 0
  lastSlipSeq : W32 := 0
  lastDbSeq : W32 := 0
  nextCseq : W32 := 0
  /-- Ceilings: proposed last, acknowledged highest. -/
  fcProposed : W32 := 0
  ccProposed : W32 := 0
  fc : W32 := 0
  cc : W32 := 0
  deriving DecidableEq, Repr

/-- A memo of a slot change (R425): hopper, ring entry of the chain's first slip, shelfmark, generation. -/
structure Memo where
  hopper : Nat
  entry : W32
  shelf : Nat
  gen : W32
  deriving DecidableEq, Repr

/-- What waits for a synchronous acknowledgement (R423). -/
inductive SyncWait where
  /-- Commit of the chain with this head sid. -/
  | chain (head : Nat)
  /-- Deaccession of a slot. -/
  | deaccession (slot : Nat)
  | lease (slot : Nat)
  /-- A mailbox command of a function. -/
  | mailbox (fn : Nat)
  /-- Weeding of a mirrored slot (R333, R423). -/
  | weed (slot : Nat)
  /-- A block of uses of a limited mirrored slot, up to this count (R322). -/
  | useBlock (slot ceiling : Nat)
  /-- A carrel that has drained becomes QUIESCED (R398 step 5). -/
  | quiesced (carrel : Nat)
  deriving DecidableEq, Repr

/-- Which device homes a carrel. -/
inductive Home where
  | here | peer | neither
  deriving DecidableEq, Repr

structure Mirror where
  state : PairState := .unpaired
  linkUp : Bool := false
  hbPresent : Bool := false
  linkLost : EvtBit := {}
  hbLost : EvtBit := {}
  syncRefused : EvtBit := {}
  takeover : EvtBit := {}
  syncTot : W64 := 0
  batchTot : W64 := 0
  replayTot : W64 := 0
  peerSerial : Bytes := []
  /-- The copies of R420 step 3 are in place; ledger counters are still being raised (R238). -/
  copied : Bool := false
  linkKeys : Bool := false
  keyedAt : Nat := 0
  hbOut : Bool := true
  resigned : Bool := false
  /-- Carrels not homed here by default (R421). -/
  home : Tab Home := []
  lastSyncNs : W32 := 0
  peerImage : Bytes := []
  /-- Batches sent and not acknowledged. -/
  nextSync : Nat := 0
  nextBatch : Nat := 0
  /-- Ceilings proposed in batches not yet acknowledged, by batch number (R424). -/
  batches : Tab (List BatchHop) := []
  waits : Tab SyncWait := []
  sentAt : Tab Nat := []
  /-- Per hopper, ours as last sent and the peer's copy held here. -/
  ours : Tab HopMirror := []
  theirs : Tab HopMirror := []
  memos : List Memo := []
  /-- Carrels whose last batch carried exact values (RESIGN, rehoming). -/
  exact : List Nat := []
  /-- Fetch bounds of replayed entries after a takeover: hopper -> FC (R428). -/
  replayTo : Tab W32 := []
  deriving DecidableEq, Repr

/-! ## Fault collection (chapter 18) -/

/-- `FLT_SRC_CFG_n` (R442). -/
structure SrcCfg where
  minor : BitVec 5 := 0
  severe : BitVec 5 := 0
  thresh : BitVec 8 := 0
  windowMs : BitVec 22 := 0
  locked : Bool := false
  deriving DecidableEq, Repr

/-- An entry of the fault log (R443). -/
structure LogEntry where
  source : Nat
  severe : Bool := false
  injected : Bool := false
  coincident : Bool := false
  fenced : Bool := false
  substituted : Bool := false
  preserved : Bool := false
  applied : BitVec 8 := 0
  stamp : Nat := 0
  carrel : Nat := 0xFF
  unitType : Nat := 0xFF
  phys : Nat := 0xFFFF
  logical : Nat := 0xFFFF
  merged : Nat := 0
  hopper : W32 := 0xFFFF_FFFF#32
  detail : W32 := 0
  seq : W32 := 0
  deriving DecidableEq, Repr

/-- Count and window start of a key (R441), and the stamp of its last entry (R443). -/
structure FltCount where
  c : Nat := 0
  t0 : Nat := 0
  deriving DecidableEq, Repr

structure FiCtrl where
  source : Nat
  phys : Nat
  continuous : Bool
  deriving DecidableEq, Repr

structure Faults where
  counted : Bool := false
  event : EvtBit := {}
  severe : EvtBit := {}
  /-- Held in the cellar. -/
  errLatch : EvtBit := {}
  logWrap : EvtBit := {}
  logSeq : W32 := 0
  fi : Option FiCtrl := none
  fiCount : W32 := 0
  cfg : Tab SrcCfg := []
  /-- By 65,536 * source + physical unit (0xFFFF for none). -/
  counts : Tab FltCount := []
  /-- Newest first, at most 1,024. -/
  log : List LogEntry := []
  errN : Bool := false
  errNSince : Nat := 0
  /-- Octets in a block reset. -/
  octetReset : List Nat := []
  deriving DecidableEq, Repr

/-! ## Cellar, clocks and power (chapter 19) -/

structure Cellar where
  devSec : W64 := 0
  /-- Fabric cycles since the last device second. -/
  subSec : Nat := 0
  cellarKey : Bool := true
  onVbat : Bool := false
  ranVbat : Bool := false
  xtalOk : Bool := true
  vbatMv : BitVec 12 := 3000
  coreSet : BitVec 10 := 750
  warn : Bool := false
  stage : Nat := 0
  cause : Nat := 0
  vbatLow : EvtBit := {}
  xtalFail : EvtBit := {}
  shedEntered : EvtBit := {}
  s4Done : Bool := false
  s4Abandoned : Bool := false
  shedTot1 : BitVec 16 := 0
  shedTot2 : BitVec 16 := 0
  shedTot3 : BitVec 16 := 0
  shedTot4 : BitVec 16 := 0
  mainPower : Bool := true
  /-- PLLs 0 to 7 that are unlocked or stopped. -/
  unlocked : List Nat := []
  stopped : List Nat := []
  deriving DecidableEq, Repr

/-! ## Tamper, life cycle and debug (chapter 20) -/

inductive Lcs where
  | blank | factory | provisioned | service | returned | scrap | invalid
  deriving DecidableEq, Repr

structure Tamper where
  lcs : Lcs := .factory
  busy : Bool := false
  lcsTarget : Option Lcs := none
  /-- OTP groups still to program (R486). -/
  groups : Nat := 0
  lcsFn : Option Nat := none
  /-- No further group is started: power warning, reset or tamper response during the transition (R486, R479, R541). -/
  halted : Bool := false
  /-- Loop enable mask that the transition into SERVICE writes (R474). -/
  loopMask : BitVec 8 := 0
  shieldArmed : Bool := true
  loopEn : BitVec 8 := 0
  loopsArmed : Bool := false
  pendingEv : Bool := false
  evidence : Nat := 0
  unexplained : EvtBit := {}
  cause : W64 := 0
  outN : Bool := false
  outSince : Nat := 0
  reseeds : Nat := 0
  rights : BitVec 9 := 0
  grantActive : Bool := false
  /-- The erasure of R492 was performed since chip reset. -/
  erased : Bool := false
  /-- The cellar's grant-erasure mark (R481, R487, R492). -/
  eraseMark : Bool := false
  /-- A tamper response has taken place and boot stage 6 has not followed yet (R479, R481). -/
  responded : Bool := false
  /-- The identity seed has been programmed to all ones (R487). -/
  seedGone : Bool := false
  expiry : W64 := 0
  nonce : Option (Bytes × Nat) := none
  nonceUsed : Bool := false
  deriving DecidableEq, Repr

/-! ## Folio cartridges (chapter 21) -/

inductive FolState where
  | empty | identifying | reconciling | mounted | readOnly | foreign | unusable
  deriving DecidableEq, Repr

/-- What an archive record on a cartridge holds (R507). -/
inductive RecKind where
  | slot (shelf : Nat) (s : Slot)
  | tombstone (shelf : Nat) (gen : W32)
  | carrel (n : Nat) (c : Carrel) (hops : List PeerHopper) (admins : Tab Nat)
  | lease (shelf : Nat) (ceiling : Nat)
  | treeCache (shelf : Nat)
  | faultCfg (t : Tab SrcCfg)
  | familyMap (m : List (W32 × Nat))
  | devSec (s : W64)
  /-- Cancels the record with this sequence number (R508). -/
  | void (seq : Nat)
  deriving DecidableEq, Repr

/-- A record of the archive: its sequence number, contents, and whether copy A and copy B are written (R506). -/
structure FolRecord where
  seq : Nat
  kind : RecKind
  copyA : Bool := false
  copyB : Bool := false
  /-- When the change it records took place, for `ARCHIVE_LAG` (R334). -/
  due : Nat := 0
  /-- `REC_DEVSEC` (R507). -/
  devSec : Nat := 0
  deriving DecidableEq, Repr

structure FolSlot where
  state : FolState := .empty
  width : BitVec 2 := 0
  timing : BitVec 2 := 0
  present : Bool := false
  inserted : EvtBit := {}
  removed : EvtBit := {}
  ioErr : EvtBit := {}
  capacity : W32 := 0
  rpmbCnt : W32 := 0
  highSeq : Nat := 0
  life : W32 := 0
  polls : Nat := 0
  insertedAt : Nat := 0
  /-- Records on the cartridge, newest last. -/
  records : List FolRecord := []
  /-- Record whose copy is being written. -/
  writing : Option Nat := none
  anchorHigh : Nat := 0
  anchorAt : Option Nat := none
  anchoring : Bool := false
  tenure : Nat := 0
  /-- Its class under R505: stale; whether it takes a new tenure in this slot (R504). -/
  stale : Bool := false
  adopt : Bool := false
  /-- The open-stacks images that its user area holds (R506). -/
  imgStaged : Option OstkImage := none
  imgActive : Option OstkImage := none
  deriving DecidableEq, Repr

structure Folio where
  slots : Tab FolSlot := []
  nextSeq : Nat := 1
  /-- Records waiting for a writable cartridge (R509), with their sequence numbers. -/
  queue : List FolRecord := []
  /-- The archive has been abandoned (R508). -/
  abandoned : Bool := false
  chain : Bytes := []
  deriving DecidableEq, Repr

/-! ## QDR and the memory guard (chapter 22) -/

structure Qdr where
  paired : Bool := false
  trained : Bool := false
  chOk : BitVec 8 := 0
  integrity : EvtBit := {}
  chLost : EvtBit := {}
  integTot : W64 := 0
  repairTot : W64 := 0
  rereadTot : W64 := 0
  reencTot : W64 := 0
  eyes : Tab W32 := []
  guardKeys : Bool := false
  /-- Line counters by group of 64 lines: major; minor by line (R521). -/
  majors : Tab W64 := []
  minors : Tab (BitVec 7) := []
  /-- The bitmap of the groups written since stage 8 (R523), as far as re-encryptions show it. -/
  writtenGroups : List Nat := []
  retracks : Nat := 0
  /-- Slots whose line failed and that wait for recovery (R528). -/
  recovering : List Nat := []
  deriving DecidableEq, Repr

/-! ## Package and start-up (chapter 23) -/

structure Boot where
  stage : Nat := 2
  waiting : Bool := false
  dieTemp : BitVec 8 := 25
  coldWait : Bool := false
  /-- A power warning or a shed condition before READY holds the boot at its stage (R543). -/
  shedHold : Bool := false
  deriving DecidableEq, Repr

/-! ## What leaves the device -/

/-- A message, a write, a signal or a record the device sends out, in the order sent. -/
inductive Out where
  | ack (qpn psn : Nat)
  | nakRemoteAccess (qpn psn : Nat)
  | nakInvalidRequest (qpn psn : Nat)
  | cnp (qpn : Nat)
  | rep (qpn : Nat) (priv : Bytes)
  | rej (port : Nat) (code : Nat)
  | dreq (qpn : Nat)
  | drep (qpn : Nat)
  | read (qpn rid : Nat) (addr : W64) (len : Nat) (rkey : W32)
  | write (qpn rid : Nat) (addr : W64) (data : Bytes) (rkey : W32) (imm : Option W32)
  | resend (qpn rid : Nat)
  | arpReply (port : Nat) (carrel : Nat) (ip : BitVec 32) (mac dst : BitVec 48)
  | neighborAdvert (port : Nat) (carrel : Nat) (ip : BitVec 128) (mac dst : BitVec 48)
  | resolve (port : Nat) (carrel : Nat) (ip : IpAddr) (unicast : Bool)
  | announce (port : Nat) (carrel : Nat) (ip : IpAddr) (mac : BitVec 48)
  | dmaRead (fn rid : Nat) (addr : W64) (len : Nat)
  | dmaWrite (fn : Nat) (addr : W64) (data : Bytes)
  | msix (fn vec : Nat)
  | regRead (value : W64)
  | mirrorBatch (n : Nat) (exact : Bool) (hops : List BatchHop) (held : List (Nat × W32 × Bytes)) (image : Bytes)
  /-- The standby's answer to a synchronous record; refused when it has no `FREE` counter (R235). -/
  | mirrorAck (refused : Bool)
  | batchAck (n : Nat)
  | resign
  | retransmit
  | rpmbWrite (slot : Nat) (high : Nat)
  | folioCmd (slot cmd : Nat)
  | slotSent (slot : Nat)
  /-- An audit entry written in the clear to the mounted cartridges (R510). -/
  | audit (entry : Bytes)
  /-- The synchronous record's contents for the peer (R423, R425). -/
  | syncRec (n : Nat) (r : SyncRec)
  /-- Carrels copied to the peer at pairing or rejoining (R420 step 3, R432). -/
  | carrelCopy (cs : List PeerCarrel) (counters : List (Nat × Nat))
  /-- A failed slot is asked of the peer; the slot sent back to it (R528). -/
  | slotRequest (shelf : Nat)
  | slotSend (sl : PeerSlot)
  deriving DecidableEq, Repr

/-! ## The machine -/

structure State where
  /-- Fabric-clock cycles (R47). -/
  now : Nat := 0
  ports : PortComplex := {}
  hop : HopperEngine := {}
  sched : Sched := {}
  tuns : TunArray := {}
  kilns : Tab KilnState := []
  cat : Catalogue := {}
  ledger : Ledger := {}
  ent : Entropy := {}
  dres : Dres := {}
  pipes : Pipes := {}
  reg : Registrar := {}
  /-- By carrel number; carrel 0 is never ABSENT (R397). -/
  carrels : Tab Carrel := [(0, { st := .configured })]
  mirror : Mirror := {}
  flt : Faults := {}
  cel : Cellar := {}
  tmp : Tamper := {}
  folio : Folio := {}
  qdr : Qdr := {}
  boot : Boot := {}
  /-- The model's own: how many free values have been drawn. -/
  freeCtr : Nat := 0
  /-- The model's own: what the device has sent, oldest first. -/
  out : List Out := []
  /-- The model's own: the commands that are waiting, first in, first out. -/
  pending : List Instr := []
  deriving DecidableEq, Repr

/-- Why the machine stops with a fault. No command of the manual stops this machine: what the manual calls a fault is an
event of the fault collector, and the machine goes on. -/
inductive Fault where
  /-- Raised by nobody; kept so that the type has a member (safe). -/
  | none
  deriving DecidableEq, Repr

/-- Why a command has no meaning. -/
inductive Refusal where
  /-- The command's meaning has not been written (safe: the machine stops). -/
  | notModelled (mnemonic : String)
  deriving DecidableEq, Repr

/-- The machine right after a power-on reset, at the entry of boot stage 3 (R541, R542). -/
def State.reset : State := {}

end Sys2Proof.Machine
end

