-- ==== Sys2Proof/Machine/Bits.lean ====
section
/-!
DEFINITION. Byte strings, sparse tables, byte memories, event bits: the helpers every meaning uses.
-/

namespace Sys2Proof.Machine

/-! ## Byte strings (R3: little-endian) -/

/-- The `n` low bytes of `v`, least significant first. -/
def le : Nat → Nat → Bytes
  | 0, _ => []
  | n + 1, v => BitVec.ofNat 8 v :: le n (v / 256)

/-- The number whose bytes, least significant first, are given. -/
def unle : Bytes → Nat
  | [] => 0
  | b :: bs => b.toNat + 256 * unle bs

/-- `n` bytes, most significant first (the network order of the standards, R4). -/
def be (n v : Nat) : Bytes := (le n v).reverse

def unbe (b : Bytes) : Nat := unle b.reverse

/-- `n` zero bytes. -/
def zeros (n : Nat) : Bytes := List.replicate n 0

/-- Exactly `n` bytes of `b`, filled up with zeros. -/
def fit (n : Nat) (b : Bytes) : Bytes := (b ++ zeros (n - b.length)).take n

/-- `n` bytes of `b` from byte `o`; bytes beyond the end read as zero. -/
def slice (b : Bytes) (o n : Nat) : Bytes := fit n (b.drop o)

/-- The little-endian field of `n` bytes at byte `o`. -/
def field (b : Bytes) (o n : Nat) : Nat := unle (slice b o n)

/-- `b` with `d` written at byte `o`. -/
def splice (b : Bytes) (o : Nat) (d : Bytes) : Bytes := fit o b ++ d ++ b.drop (o + d.length)

def allZero (b : Bytes) : Bool := b.all (· == 0)

/-- Bit `i` of a number. -/
def bit (v i : Nat) : Bool := v / 2 ^ i % 2 == 1

/-- Bits `[hi:lo]` of a number. -/
def bits (v hi lo : Nat) : Nat := v / 2 ^ lo % 2 ^ (hi + 1 - lo)

def b2n (b : Bool) : Nat := if b then 1 else 0

/-! ## Sparse tables -/

namespace Tab

variable {α : Type}

def get? : Tab α → Nat → Option α
  | [], _ => none
  | (k', v) :: t, k => if k = k' then some v else get? t k

def getD (t : Tab α) (k : Nat) (d : α) : α := (get? t k).getD d

def set : Tab α → Nat → α → Tab α
  | [], k, v => [(k, v)]
  | (k', v') :: t, k, v =>
    if k < k' then (k, v) :: (k', v') :: t
    else if k = k' then (k, v) :: t
    else (k', v') :: set t k v

def erase : Tab α → Nat → Tab α
  | [], _ => []
  | (k', v) :: t, k => if k = k' then erase t k else (k', v) :: erase t k

/-- Change an entry that is present. -/
def mod (t : Tab α) (k : Nat) (f : α → α) : Tab α :=
  match get? t k with
  | some v => set t k (f v)
  | none => t

/-- Change every entry. -/
def mapVals (t : Tab α) (f : Nat → α → α) : Tab α := t.map fun p => (p.1, f p.1 p.2)

def keys (t : Tab α) : List Nat := t.map (·.1)

def has (t : Tab α) (k : Nat) : Bool := (get? t k).isSome

end Tab

/-- The least number below `n` that is not in `used`, from `k` on. -/
def lowestFreeFrom (used : List Nat) : Nat → Nat → Option Nat
  | 0, _ => none
  | n + 1, k => if used.contains k then lowestFreeFrom used n (k + 1) else some k

/-! ## Byte memories -/

namespace Mem

/-- One byte; an address that is not listed reads as 0. -/
def read (m : Mem) (a : Nat) : Byte := Tab.getD m a 0

/-- Write one byte; writing 0 removes the entry, so the canonical form is kept. -/
def write (m : Mem) (a : Nat) (b : Byte) : Mem := if b = 0 then Tab.erase m a else Tab.set m a b

def readN (m : Mem) (a : Nat) : Nat → Bytes
  | 0 => []
  | n + 1 => read m a :: readN m (a + 1) n

def writeN (m : Mem) (a : Nat) : Bytes → Mem
  | [] => m
  | b :: bs => writeN (write m a b) (a + 1) bs

/-- Every listed address is at least `lo`, addresses rise strictly, no listed byte is 0. -/
def wfFrom : Nat → Mem → Bool
  | _, [] => true
  | lo, (a, b) :: m => decide (lo ≤ a) && b != 0 && wfFrom (a + 1) m

/-- The canonical form of a byte memory. -/
def wf (m : Mem) : Bool := wfFrom 0 m

end Mem

/-! ## Event bits (R8 to R10) -/

namespace EvtBit

/-- Hardware sets the bit: the flag is set and the event counted, saturating at 255 (R10). -/
def hit (e : EvtBit) : EvtBit :=
  { flag := true, cnt := if e.cnt = 255 then 255 else e.cnt + 1 }

/-- `n` set events. -/
def hits (e : EvtBit) : Nat → EvtBit
  | 0 => e
  | n + 1 => hits (hit e) n

/-- Software writes `w` while hardware sets the bit if `hw`: a 1 clears it, and the set wins (R8, R9, R10). -/
def w1c (e : EvtBit) (w hw : Bool) : EvtBit :=
  let e1 := if w then { e with flag := false } else e
  if hw then hit e1 else e1

/-- A read of the counter clears it; an event in the same cycle counts toward the next read (R10). -/
def rc (e : EvtBit) (hw : Bool) : EvtBit :=
  let e1 := { e with cnt := 0 }
  if hw then hit e1 else e1

end EvtBit

/-! ## Check codes -/

/-- One byte of a CRC-16 with polynomial 0x1021, most significant bit first. -/
def crc16Bits : Nat → BitVec 16 → BitVec 16
  | 0, c => c
  | n + 1, c => crc16Bits n (if c.msb then (c <<< 1) ^^^ 0x1021#16 else c <<< 1)

def crc16Byte (c : BitVec 16) (b : Byte) : BitVec 16 := crc16Bits 8 (c ^^^ (b.zeroExtend 16 <<< 8))

/-- The check of R144: initial value 0xFFFF, bytes in order. -/
def crc16 (b : Bytes) : BitVec 16 := b.foldl crc16Byte 0xFFFF#16

/-- CRC-8 with polynomial 0x07 over a bit string given most significant bit first, initial value 0 (R221). -/
def crc8Bits (c : BitVec 8) : List Bool → BitVec 8
  | [] => c
  | b :: bs =>
    let top := c.msb != b
    crc8Bits (if top then (c <<< 1) ^^^ 0x07#8 else c <<< 1) bs

end Sys2Proof.Machine
end

