-- ==== Sys2Proof/Machine/Ops.lean ====
section
/-!
DEFINITION. The named operations over the state that every family uses: messages out, random draws, access to the tables,
device state codes, event bits with their events, mailbox events, the fault collector's counting and logging, chip reset.
-/

namespace Sys2Proof.Machine

/-- The outcome of a command. -/
abbrev Res := Host.Outcome State Fault Refusal

namespace State

/-! ## Messages, random bytes, time -/

def send (s : State) (o : Out) : State := { s with out := s.out ++ [o] }

def sendAll (s : State) (os : List Out) : State := { s with out := s.out ++ os }

/-- The next `n` free bytes (log 2). -/
def freeBytes (s : State) (n : Nat) : Bytes := (List.range n).map fun i => Config.freeByte (s.freeCtr + i)

/-- Draw `n` bytes: the counter moves on, so that no byte is drawn twice. -/
def drawn (s : State) (n : Nat) : State := { s with freeCtr := s.freeCtr + n }

/-- Device seconds (R454). -/
def sec (s : State) : Nat := s.cel.devSec.toNat

/-! ## Table access -/

def octet (s : State) (n : Nat) : Octet := Tab.getD s.ports.octets n {}
def setOctet (s : State) (n : Nat) (o : Octet) : State :=
  { s with ports := { s.ports with octets := Tab.set s.ports.octets n o } }
def qp? (s : State) (q : Nat) : Option Qp := Tab.get? s.ports.qps q
def setQp (s : State) (q : Nat) (x : Qp) : State :=
  { s with ports := { s.ports with qps := Tab.set s.ports.qps q x } }
def delQp (s : State) (q : Nat) : State :=
  { s with ports := { s.ports with qps := Tab.erase s.ports.qps q } }
def hopper? (s : State) (h : Nat) : Option Hopper := Tab.get? s.hop.hoppers h
def setHopper (s : State) (h : Nat) (x : Hopper) : State :=
  { s with hop := { s.hop with hoppers := Tab.set s.hop.hoppers h x } }
def modHopper (s : State) (h : Nat) (f : Hopper → Hopper) : State :=
  { s with hop := { s.hop with hoppers := Tab.mod s.hop.hoppers h f } }
def slip? (s : State) (i : Nat) : Option Slip := Tab.get? s.hop.slips i
def setSlip (s : State) (i : Nat) (x : Slip) : State :=
  { s with hop := { s.hop with slips := Tab.set s.hop.slips i x } }
def modSlip (s : State) (i : Nat) (f : Slip → Slip) : State :=
  { s with hop := { s.hop with slips := Tab.mod s.hop.slips i f } }
def delSlip (s : State) (i : Nat) : State :=
  { s with hop := { s.hop with slips := Tab.erase s.hop.slips i } }
def slot (s : State) (n : Nat) : Slot := Tab.getD s.cat.slots n {}
def setSlot (s : State) (n : Nat) (x : Slot) : State :=
  { s with cat := { s.cat with slots := Tab.set s.cat.slots n x } }
def carrel (s : State) (c : Nat) : Carrel := Tab.getD s.carrels c {}
def setCarrel (s : State) (c : Nat) (x : Carrel) : State := { s with carrels := Tab.set s.carrels c x }
def mbx (s : State) (f : Nat) : Mbx := Tab.getD s.reg.mbx f {}
def setMbx (s : State) (f : Nat) (m : Mbx) : State := { s with reg := { s.reg with mbx := Tab.set s.reg.mbx f m } }
def tun (s : State) (t : Nat) : Tun := Tab.getD s.tuns.tuns t {}
def setTun (s : State) (t : Nat) (x : Tun) : State := { s with tuns := { s.tuns with tuns := Tab.set s.tuns.tuns t x } }
def kiln (s : State) (k : Nat) : KilnState := Tab.getD s.kilns k {}
def setKiln (s : State) (k : Nat) (x : KilnState) : State := { s with kilns := Tab.set s.kilns k x }
def page (s : State) (fn p : Nat) : Page := Tab.getD s.pipes.pages (4 * fn + p) {}
def setPage (s : State) (fn p : Nat) (x : Page) : State :=
  { s with pipes := { s.pipes with pages := Tab.set s.pipes.pages (4 * fn + p) x } }
def dl (s : State) (c : Nat) : DlRegs := Tab.getD s.sched.dl c {}
def setDl (s : State) (c : Nat) (x : DlRegs) : State := { s with sched := { s.sched with dl := Tab.set s.sched.dl c x } }
def src (s : State) (i : Nat) : EntSource := Tab.getD s.ent.sources i {}
def setSrc (s : State) (i : Nat) (x : EntSource) : State :=
  { s with ent := { s.ent with sources := Tab.set s.ent.sources i x } }
def folSlot (s : State) (n : Nat) : FolSlot := Tab.getD s.folio.slots n {}
def setFolSlot (s : State) (n : Nat) (x : FolSlot) : State :=
  { s with folio := { s.folio with slots := Tab.set s.folio.slots n x } }

/-- The carrel that a function serves: the PF serves carrel 0 and VF n carrel n (R392). -/
def fnCarrel (fn : Nat) : Nat := fn

/-! ## Units (R12, R16) -/

def units (s : State) : EngineType → UnitArr
  | .tun => s.sched.tun
  | .floor => s.sched.floor
  | .pipe => s.sched.pipe
  | .kiln => s.sched.kiln
  | .none => {}

def setUnits (s : State) (e : EngineType) (u : UnitArr) : State :=
  match e with
  | .tun => { s with sched := { s.sched with tun := u } }
  | .floor => { s with sched := { s.sched with floor := u } }
  | .pipe => { s with sched := { s.sched with pipe := u } }
  | .kiln => { s with sched := { s.sched with kiln := u } }
  | .none => s

end State

/-- Active logical units of a type (R12). -/
def activeUnits : EngineType → Nat
  | .tun => 128
  | .floor => 16
  | .pipe => 256
  | .kiln => 32
  | .none => 0

/-- Physical units of a type, spares included (R12). -/
def physUnits : EngineType → Nat
  | .tun => 136
  | .floor => 17
  | .pipe => 272
  | .kiln => 34
  | .none => 0

/-- Units in a cluster (R16). -/
def clusterSize : EngineType → Nat
  | .tun => 8
  | .floor => 1
  | .pipe => 16
  | .kiln => 2
  | .none => 1

/-- `ENGINE_ID` unit type (R90). -/
def unitTypeCode : EngineType → Nat
  | .none => 0
  | .tun => 1
  | .floor => 2
  | .pipe => 3
  | .kiln => 4

/-- Physical unit behind a logical index (R12, R446). -/
def physOf (u : UnitArr) (l : Nat) : Option Nat :=
  match Tab.get? u.map l with
  | some p => p
  | none => some l

def clusterOf (e : EngineType) (phys : Nat) : Nat := phys / clusterSize e

/-- State of a cluster; a cluster nothing is recorded of is DORMANT (log 4). -/
def clusterState (u : UnitArr) (c : Nat) : ClusterState := Tab.getD u.clusters c .dormant

/-- Logical indices of a type that no physical unit serves. -/
def vacant (e : EngineType) (u : UnitArr) : List Nat :=
  (List.range (activeUnits e)).filter fun l => (physOf u l).isNone

/-- Some logical index is vacant: fewer units than the active count (R20). -/
def hasVacant (u : UnitArr) : Bool := u.map.any fun p => p.2.isNone

/-- Physical units that serve a logical index. -/
def mapped (e : EngineType) (u : UnitArr) : List Nat := (List.range (activeUnits e)).filterMap (physOf u)

/-- Spares of a type: neither fenced nor serving a logical index (R446). -/
def spares (e : EngineType) (u : UnitArr) : List Nat :=
  let m := mapped e u
  (List.range (physUnits e)).filter fun p => !m.contains p && !Tab.has u.fenced p

/-! ## Device state (R20, R368) -/

/-- Entropy sources in service. -/
def srcCount (s : State) : Nat := ((List.range 8).filter fun i => (s.src i).inService).length

/-- DEGRADED (R20): an engine class short of units, no warm spare registrar, fewer than 8 sources once the unit is ready,
or a QDR channel served only by its partner. -/
def degraded (s : State) : Bool :=
  hasVacant s.sched.tun || hasVacant s.sched.floor || hasVacant s.sched.pipe || hasVacant s.sched.kiln
    || s.reg.pairsFenced != 0 || (s.ent.state == .ready && srcCount s < 8)
    || (s.qdr.trained && s.qdr.paired && s.qdr.chOk != 0xFF#8)

/-- Device state code of R368. -/
def devCode (s : State) : Nat :=
  match s.reg.dev with
  | .off => 0
  | .cellarOnly => 1
  | .booting => 2
  | .recovery => 3
  | .failed => 0x0A
  | .ready => if s.cel.stage = 0 then (if degraded s then 5 else 4) else 5 + s.cel.stage

/-- Life-cycle code (R484). -/
def lcsCode : Lcs → Nat
  | .blank => 0
  | .factory => 1
  | .provisioned => 2
  | .service => 3
  | .returned => 4
  | .scrap => 5
  | .invalid => 0x0F

/-- Carrel state code (R396). -/
def carrelCode : CarrelState → Nat
  | .absent => 0
  | .configured => 1
  | .active => 2
  | .quiescing => 3
  | .quiesced => 4
  | .frozen => 5

def hopCode : HopState → Nat
  | .stopped => 0
  | .active => 1
  | .stopping => 2

def pairCode : PairState → Nat
  | .unpaired => 0
  | .pairing => 1
  | .paired => 2
  | .degraded => 3
  | .solo => 4
  | .rejoining => 5

/-- The octet is held in `FORCED_DOWN`: by shed stage S3, unless it is kept alive (R61), or by a debug grant with
`BOUNDARY_SCAN` (R491). -/
def octForced (s : State) (o : Octet) : Bool :=
  (decide (3 ≤ s.cel.stage) && !o.keepAlive) || (s.tmp.grantActive && s.tmp.rights.getLsbD 3)

/-! ## Mailbox events (R365, R379, R380) -/

/-- Queue one event on one function: it takes the next DSEQ; with `ENABLE` set it is written to the ring while the ring
has room and the vector raised, otherwise it is lost and `EVQ_OVERFLOW` set. -/
def eventTo (s : State) (fn code : Nat) (data : Bytes) : State :=
  let m := s.mbx fn
  let m := { m with lastDseq := m.lastDseq + 1 }
  if !m.evqCfg.getLsbD 0 then s.setMbx fn m
  else if (m.evqTail - m.evqHead).toNat < 64 then
    let rec64 := le 2 code ++ zeros 2 ++ le 4 m.lastDseq.toNat ++ le 8 s.now ++ fit 48 data
    let s := s.setMbx fn { m with evqTail := m.evqTail + 1 }
    (s.send (.dmaWrite fn (m.evqBase + BitVec.ofNat 64 (64 * (m.evqTail.toNat % 64))) rec64)).send
      (.msix fn (m.evqCfg.extractLsb' 1 6).toNat)
  else s.setMbx fn { m with evqOverflow := m.evqOverflow.hit }

/-- Queue an event: the PF receives every event, VF n those marked V about carrel n (R380). -/
def queueEvent (s : State) (code : Nat) (data : Bytes) (vf : Option Nat := none) : State :=
  let s := eventTo s 0 code data
  match vf with
  | some c => if c = 0 ∨ c ≥ 256 then s else eventTo s c code data
  | none => s

/-- `EVT_DEV_STATE` when the device state code or `DEGRADED` differs from before (R547). -/
def noteDev (old : State) (s : State) : State :=
  if devCode old = devCode s ∧ degraded old = degraded s then s
  else queueEvent s 1 ([BitVec.ofNat 8 (devCode old), BitVec.ofNat 8 (devCode s), BitVec.ofNat 8 (b2n (degraded s))])

/-- The keys of a function's pages are zeroised; a busy page's goes when its operation ends (R283, R285). -/
def clearPageKeys (s : State) (fn : Nat) : State :=
  { s with pipes := { s.pipes with pages := Tab.mapVals s.pipes.pages fun k p =>
    if k / 4 = fn ∧ !p.busy then { p with key := [], keyLoaded := false } else p } }

/-- Set a carrel's state and queue `EVT_CARREL_STATE` on a change (R547); a carrel that leaves ACTIVE loses its page keys
(R283). -/
def setCarrelState (s : State) (c : Nat) (st : CarrelState) : State :=
  let old := s.carrel c
  let s := s.setCarrel c { old with st := st }
  let s := if old.st = .active ∧ st ≠ .active then clearPageKeys s c else s
  if old.st = st then s
  else queueEvent s 3 [BitVec.ofNat 8 c, BitVec.ofNat 8 (carrelCode old.st), BitVec.ofNat 8 (carrelCode st)] (some c)

/-- `SB_FLAGS` of a hopper (R93). -/
def sbFlags (s : State) (h : Hopper) : Nat :=
  b2n h.fetchFail.isSome + 2 * b2n (h.attach = .network && h.qpn.isNone) + 4 * b2n h.dbDiscarded
    + 8 * b2n ((s.carrel h.carrel).st != .active)

/-- `EVT_HOPPER` (R380): on a state change, a binding, an unbinding, a failed slip fetch (R547). -/
def hopperEvent (s : State) (n : Nat) : State :=
  match s.hopper? n with
  | none => s
  | some h => queueEvent s 4 (le 4 n ++ [BitVec.ofNat 8 (sbFlags s h), BitVec.ofNat 8 (hopCode h.state)]) (some h.carrel)

def setHopState (s : State) (n : Nat) (st : HopState) : State :=
  match s.hopper? n with
  | none => s
  | some h => if h.state = st then s else hopperEvent (s.setHopper n { h with state := st }) n

/-! ## Status registers of the catalogue and the ledger, with their events (R547) -/

def catSts (s : State) : Nat :=
  2 * b2n s.cat.weedFound.flag + 4 * b2n s.cat.extentLow.flag + 8 * b2n s.cat.archiveLag.flag
    + 16 * b2n s.cat.genRetired.flag

def ledSts (s : State) : Nat :=
  b2n s.ledger.cellInvalid.flag + 2 * b2n s.ledger.writeRetry.flag + 4 * b2n s.ledger.counterLost.flag
    + 8 * b2n s.ledger.retired.flag + 16 * b2n s.ledger.lowFree.flag

/-- Events of a register whose bits `was` have become those of the new state. -/
def catEvent (old s : State) : State :=
  if catSts old ||| catSts s = catSts old then s else queueEvent s 0x0C (le 4 (catSts s))

def ledEvent (old s : State) : State :=
  if ledSts old ||| ledSts s = ledSts old then s else queueEvent s 0x0B (le 4 (ledSts s))

def catHitGenRetired (s : State) : State :=
  catEvent s { s with cat := { s.cat with genRetired := s.cat.genRetired.hit } }
def catHitWeedFound (s : State) : State :=
  catEvent s { s with cat := { s.cat with weedFound := s.cat.weedFound.hit } }
def catHitExtentLow (s : State) : State :=
  catEvent s { s with cat := { s.cat with extentLow := s.cat.extentLow.hit } }
def catHitArchiveLag (s : State) : State :=
  catEvent s { s with cat := { s.cat with archiveLag := s.cat.archiveLag.hit } }
def ledHitInvalid (s : State) : State :=
  ledEvent s { s with ledger := { s.ledger with cellInvalid := s.ledger.cellInvalid.hit } }
def ledHitRetry (s : State) : State :=
  ledEvent s { s with ledger := { s.ledger with writeRetry := s.ledger.writeRetry.hit } }
def ledHitLost (s : State) : State :=
  ledEvent s { s with ledger := { s.ledger with counterLost := s.ledger.counterLost.hit } }
def ledHitRetired (s : State) : State :=
  ledEvent s { s with ledger := { s.ledger with retired := s.ledger.retired.hit } }
def ledHitLowFree (s : State) : State :=
  ledEvent s { s with ledger := { s.ledger with lowFree := s.ledger.lowFree.hit } }

/-! ## The audit log (R510) -/

/-- Append an audit entry: the chain value takes it in, and it is written to every MOUNTED cartridge in one copy; audit
copies stop at shed stage S1 (R461). -/
def auditAppend (s : State) (e : Bytes) : State :=
  if s.cel.stage ≠ 0 ∨ !(s.folio.slots.any fun p => p.2.state == .mounted) then s
  else
    let entry := fit 224 e ++ fit 32 s.folio.chain
    let s := { s with folio := { s.folio with chain := fit 32 (Config.compute (.sha2 256) [entry]) } }
    s.send (.audit entry)

/-! ## The fault collector (R440 to R445) -/

/-- The 32 bytes of a log entry (R443). -/
def logBytes (e : LogEntry) : Bytes :=
  le 2 e.source ++ [BitVec.ofNat 8 (b2n e.severe + 2 * b2n e.injected + 4 * b2n e.coincident + 8 * b2n e.fenced
      + 16 * b2n e.substituted + 32 * b2n e.preserved), e.applied]
    ++ le 8 e.stamp ++ le 1 e.carrel ++ le 1 e.unitType ++ le 2 e.phys ++ le 2 e.logical ++ le 2 e.merged
    ++ le 4 e.hopper.toNat ++ le 4 e.detail.toNat ++ le 4 e.seq.toNat

/-- A unit source (R435). -/
def isUnitSource (n : Nat) : Bool := decide (0x200 ≤ n) && decide (n ≤ 0x2FF)

/-- A tamper source (R435). -/
def isTamperSource (n : Nat) : Bool := decide (0x080 ≤ n) && decide (n ≤ 0x0BF)

/-- COUNTED is in force (R440). -/
def counted (s : State) : Bool :=
  match s.reg.dev with
  | .booting | .recovery => false
  | _ => if s.tmp.lcs = .factory then s.flt.counted else true

/-- Key of R441: the source, with the physical unit for a unit source. -/
def fltKey (r : FaultReport) : Nat := 65536 * r.source + (if isUnitSource r.source then r.phys else 0xFFFF)

def srcCfg (s : State) (n : Nat) : SrcCfg := Tab.getD s.flt.cfg n {}

/-- The count of a key after one more event at the present stamp (R441). -/
def countEvent (s : State) (k : Nat) (windowMs : Nat) : FltCount :=
  let f := Tab.getD s.flt.counts k {}
  let f := if f.c = 0 ∨ s.now - f.t0 ≥ windowMs * 1250000 then { c := 0, t0 := s.now } else f
  { f with c := min (f.c + 1) 255 }

/-- Is the event severe (R440, R441)? -/
def isSevere (s : State) (r : FaultReport) : Bool :=
  if counted s then
    let cfg := srcCfg s r.source
    decide ((countEvent s (fltKey r) cfg.windowMs.toNat).c ≥ cfg.thresh.toNat)
  else true

/-- The mask an event takes, with the reactions fixed by R439. -/
def eventMask (s : State) (r : FaultReport) : BitVec 5 :=
  let cfg := srcCfg s r.source
  let m := if isSevere s r then cfg.severe else cfg.minor
  if r.source = 0x0C2 then m ||| 0x10#5 else m

/-- Of `INT`, `NMI`, `BLOCK_RESET`, `CHIP_RESET` only the strongest; `ERR_PIN` is additive (R445). -/
def strongest (m : BitVec 5) : BitVec 5 :=
  let e := m &&& 0x10#5
  if m.getLsbD 3 then e ||| 8#5
  else if m.getLsbD 2 then e ||| 4#5
  else if m.getLsbD 1 then e ||| 2#5
  else m &&& 0x11#5

/-- An armed injection fires on this report (R451). -/
def fiFires (s : State) (r : FaultReport) : Bool :=
  match s.flt.fi with
  | none => false
  | some f => f.source == r.source && (f.phys == r.phys || f.phys == 0xFFFF)

/-- A new entry of the log (R443). -/
def addLog (s : State) (e : LogEntry) : State :=
  let f := s.flt
  let e := { e with seq := f.logSeq }
  let wrap := decide (f.log.length ≥ 1024)
  auditAppend { s with flt := { f with
      log := (e :: f.log).take 1024
      logSeq := f.logSeq + 1
      event := f.event.hit
      logWrap := if wrap then f.logWrap.hit else f.logWrap } } (logBytes e)

/-- Does the event merge into its key's last entry (R443)? -/
def merges (s : State) (r : FaultReport) (severe : Bool) (mask : BitVec 5) : Bool :=
  mask &&& 0x1E#5 == 0#5 &&
  match s.flt.log.find? fun e => e.source == r.source && (e.phys == r.phys || !isUnitSource r.source) with
  | none => false
  | some e => e.severe == severe && decide (s.now - e.stamp ≤ 1250000) && !e.preserved

/-- Raise `MERGED` of the key's last entry. -/
def bumpMerged (r : FaultReport) : List LogEntry → List LogEntry
  | [] => []
  | e :: es =>
    if e.source = r.source ∧ (e.phys = r.phys ∨ !isUnitSource r.source) then
      { e with merged := min (e.merged + 1) 65535 } :: es
    else e :: bumpMerged r es

/-- Count one event (R441). -/
def countFault (s : State) (r : FaultReport) : State :=
  let k := fltKey r
  if counted s then
    { s with flt := { s.flt with
        counts := Tab.set s.flt.counts k (countEvent s k (srcCfg s r.source).windowMs.toNat) } }
  else s

/-- Stamp, count and log one event whose reactions applied are `applied` (R441, R443); `EVT_FAULT` is queued for `INT` or
a stronger reaction, `CHIP_RESET` apart, unless the event merges (R437, R547). -/
def collect (s : State) (r : FaultReport) (applied : BitVec 8) (coincident fenced subst : Bool) : State :=
  let severe := isSevere s r
  let mask := eventMask s r
  let inj := fiFires s r
  let merge := merges s r severe mask
  let s := countFault s r
  let s := if inj then
      { s with flt := { s.flt with
          fiCount := s.flt.fiCount + 1
          fi := s.flt.fi.bind fun f => if f.continuous then some f else none } }
    else s
  let s := if severe then { s with flt := { s.flt with severe := s.flt.severe.hit } } else s
  if merge then { s with flt := { s.flt with log := bumpMerged r s.flt.log } }
  else
    let s := addLog s { source := r.source, severe := severe, injected := inj, coincident := coincident
                        fenced := fenced, substituted := subst, applied := applied, stamp := s.now
                        carrel := r.carrel, unitType := r.unitType, phys := r.phys, logical := r.logical
                        hopper := r.hopper, detail := r.detail }
    if applied &&& 0x07#8 = 0#8 then s
    else queueEvent s 2 (le 2 r.source ++ [BitVec.ofNat 8 (b2n severe), applied, BitVec.ofNat 8 r.carrel]) (some r.carrel)

/-- ERR_N is asserted (R444). -/
def assertErrN (s : State) : State :=
  if s.flt.errN then s else { s with flt := { s.flt with errN := true, errNSince := s.now } }

/-- An `ERR_PIN` reaction: `ERR_LATCH` set and ERR_N asserted (R444). -/
def errPin (s : State) : State :=
  assertErrN { s with flt := { s.flt with errLatch := s.flt.errLatch.hit } }

/-! ## Ledger cells (R221, R224) -/

/-- Bits `[n-1:0]` of a number, most significant first. -/
def bitsMsb : Nat → Nat → List Bool
  | 0, _ => []
  | n + 1, v => bit v n :: bitsMsb n v

def ctrStateCode : CtrState → Nat
  | .free => 0
  | .bound => 1
  | .system => 2
  | .retired => 3

/-- Bits [55:0] of a cell (R221). -/
def cellBits (value : Nat) (st : CtrState) (gen : BitVec 6) : Nat :=
  value % 2 ^ 48 + 2 ^ 48 * ctrStateCode st + 2 ^ 50 * gen.toNat

/-- `CHECK` (R221): CRC-8 over bits [55:0] followed by the 14-bit counter number, each most significant bit first
(log 21). -/
def cellCheck (n value : Nat) (st : CtrState) (gen : BitVec 6) : BitVec 8 :=
  crc8Bits 0 (bitsMsb 56 (cellBits value st gen) ++ bitsMsb 14 n)

def mkCell (n value : Nat) (st : CtrState) (gen : BitVec 6) : Cell :=
  { value := value, state := st, bindGen := gen, check := cellCheck n value st gen }

/-- A reset or a loss of power comes: the write in progress completes from the cellar supply, those behind it never start
(R224, R244). -/
def landWrite (n : Nat) (c : Counter) : Counter :=
  match c.writing with
  | [] => c
  | p :: _ => { c with cells := c.cells.set p.cell (mkCell n p.value p.state p.bindGen), writing := [] }

/-! ## Chip reset (R541) -/

/-- Chip reset: everything outside the cellar, OTP, the ledger cells and the cartridges returns to its reset value; the
16 newest fault entries are kept and marked, `ERR_LATCH` and `CEL_SHED_TOT` too (R443, R444, R541). The clock, the
messages sent and the waiting commands are the model's own and go on. -/
def chipReset (s : State) : State :=
  let r := State.reset
  { r with
    now := s.now, freeCtr := s.freeCtr, out := s.out, pending := s.pending
    ledger := { r.ledger with
      counters := Tab.mapVals s.ledger.counters landWrite
      families := s.ledger.families, orphanBound := s.ledger.orphanBound }
    reg := { r.reg with
      serial := s.reg.serial, baseMac := s.reg.baseMac, activeBank := s.reg.activeBank, staged := s.reg.staged
      trial := s.reg.trial, trialReverted := s.reg.trialReverted }
    mirror := { r.mirror with peerSerial := s.mirror.peerSerial, home := s.mirror.home }
    flt := { r.flt with
      errLatch := { flag := s.flt.errLatch.flag }
      log := (s.flt.log.take 16).map fun e => { e with preserved := true }
      errN := s.flt.errN, errNSince := s.flt.errNSince }
    cel := { s.cel with
      stage := 0, cause := 0, vbatLow := {}, xtalFail := {}, shedEntered := {}, s4Done := false, s4Abandoned := false
      unlocked := [], stopped := [] }
    ports := { r.ports with configured := if s.boot.stage < 12 then s.ports.configured else s.ports.octets }
    tmp := { r.tmp with
      lcs := s.tmp.lcs, loopEn := s.tmp.loopEn, loopsArmed := s.tmp.loopsArmed, shieldArmed := s.tmp.shieldArmed
      pendingEv := s.tmp.pendingEv
      evidence := s.tmp.evidence, cause := s.tmp.cause, outN := s.tmp.outN, outSince := s.tmp.outSince
      eraseMark := s.tmp.eraseMark, responded := s.tmp.responded, seedGone := s.tmp.seedGone
      halted := s.tmp.busy, loopMask := s.tmp.loopMask
      busy := s.tmp.busy, lcsTarget := s.tmp.lcsTarget, groups := s.tmp.groups }
    folio := { s.folio with
      queue := [], abandoned := false
      slots := Tab.mapVals s.folio.slots fun _ f =>
        { f with state := if f.present then .identifying else .empty, inserted := {}, removed := {}, ioErr := {}
                 writing := none, anchoring := false, polls := 0 } }
    qdr := { r.qdr with paired := s.qdr.paired } }

/-- Count, log and react to one event of a source without a block reset target: `INT`, `NMI`, `CHIP_RESET`, `ERR_PIN`. -/
def faultEvent (s : State) (r : FaultReport) : State :=
  let m := strongest (eventMask s r)
  let s := collect s r (m.zeroExtend 8) false false false
  let s := if m.getLsbD 4 then errPin s else s
  if m.getLsbD 3 then chipReset s else s

end Sys2Proof.Machine
end

