-- ==== Sys2Proof/Machine/LedgerOps.lean ====
section
/-!
DEFINITION. The ledger's counters: cells, validity, target cells, writes, leases (chapter 9).
-/

namespace Sys2Proof.Machine

/-- A cell is valid when its SECDED decode is good and its `CHECK` matches (R222). -/
def cellValid (n : Nat) (c : Cell) : Bool := c.eccOk && c.check == cellCheck n c.value c.state c.bindGen

/-- A counter as manufactured: 0 to 1,023 are SYSTEM, the rest FREE, value 0 in all eight cells (R226, log 5). -/
def freshCounter (n : Nat) : Counter :=
  { cells := List.replicate 8 (mkCell n 0 (if n < 1024 then .system else .free) 0) }

def counter (s : State) (n : Nat) : Counter := (Tab.get? s.ledger.counters n).getD (freshCounter n)

def setCounter (s : State) (n : Nat) (c : Counter) : State :=
  { s with ledger := { s.ledger with counters := Tab.set s.ledger.counters n c } }

/-- The valid cell with the greatest value. -/
def bestCell (n : Nat) : List Cell → Option Cell
  | [] => none
  | c :: cs =>
    match bestCell n cs with
    | none => if cellValid n c then some c else none
    | some b => if cellValid n c ∧ b.value ≤ c.value then some c else some b

/-- Content of a counter: a lost one reads as the maximum, RETIRED (R222, R223). -/
def ctrContent (n : Nat) (c : Counter) : Cell :=
  let gone : Cell := { value := 0xFFFF_FFFF_FFFF, state := .retired }
  if c.lost then gone else (bestCell n c.cells).getD gone

def ctrValue (s : State) (n : Nat) : Nat := (ctrContent n (counter s n)).value
def ctrSt (s : State) (n : Nat) : CtrState := (ctrContent n (counter s n)).state
def ctrGen (s : State) (n : Nat) : BitVec 6 := (ctrContent n (counter s n)).bindGen

def cellAt (c : Counter) (p : Nat) : Cell := c.cells.getD p {}

/-- Position p holds the greatest valid value. -/
def holdsTop (n : Nat) (c : Counter) (p : Nat) : Bool :=
  cellValid n (cellAt c p) && (cellAt c p).value == (ctrContent n c).value

/-- Position p is invalid or holds a lower value. -/
def below (n : Nat) (c : Counter) (p : Nat) : Bool :=
  !cellValid n (cellAt c p) || decide ((cellAt c p).value < (ctrContent n c).value)

/-- The cell a write goes to (R222). -/
def targetCell (n : Nat) (c : Counter) : Nat :=
  let cands := (List.range 8).filter fun p => holdsTop n c p && below n c ((p + 1) % 8)
  match cands with
  | [p] => (p + 1) % 8
  | [] => 0
  | _ => ((List.range 8).find? (below n c)).getD 0

/-- FREE key counters (chapter 9 registers, `LED_FREE`). -/
def ledFree (s : State) : Nat :=
  15360 - (s.ledger.counters.filter fun p => decide (1024 ≤ p.1) && (ctrContent p.1 p.2).state != .free).length

/-- Start a write of a counter, behind any write of it in progress. Nothing is written to a lost counter (R223), nor
without main power, at shed stage S4 (R224), or while a shed condition holds the boot (R543). -/
def ledgerWrite (s : State) (n value : Nat) (st : CtrState) (gen : BitVec 6) (why : LedWrite) : State :=
  let c := counter s n
  if c.lost ∨ s.cel.mainPower = false ∨ s.cel.stage ≥ 4 ∨ s.boot.shedHold = true then s
  else setCounter s n { c with writing := c.writing ++
        [{ cell := targetCell n c, value := value, state := st, bindGen := gen, why := why }] }

/-- Advance a counter to at least `v`: a SYSTEM counter or an epoch (R227). -/
def ledgerRaise (s : State) (n v : Nat) : State :=
  if v ≤ ctrValue s n then s else ledgerWrite s n v (ctrSt s n) (ctrGen s n) .set

/-- Value the counter will have once the writes started are done. -/
def ctrFinal (s : State) (n : Nat) : Nat :=
  match (counter s n).writing.getLast? with
  | some w => max w.value (ctrValue s n)
  | none => ctrValue s n

def ctrFinalState (s : State) (n : Nat) : CtrState :=
  match (counter s n).writing.getLast? with
  | some w => w.state
  | none => ctrSt s n

/-- Free a bound counter: `VALUE` raised by 1, state FREE (R242). -/
def ledgerRelease (s : State) (n : Nat) : State :=
  if ctrFinalState s n = .bound then ledgerWrite s n (ctrFinal s n + 1) .free (ctrGen s n) .set else s

/-- Counter of a carrel's epoch (R226). -/
def epochCounter (c : Nat) : Nat := 32 + c

def epoch (s : State) (c : Nat) : Nat := ctrFinal s (epochCounter c)

/-- Advance the epoch of carrel c (R411) and restart its statistics (R414). -/
def bumpEpoch (s : State) (c : Nat) : State :=
  let s := ledgerWrite s (epochCounter c) (epoch s c + 1) .system (ctrGen s (epochCounter c)) .set
  s.setCarrel c { s.carrel c with stats := {} }

/-- The FREE counter a stateful key takes: least `VALUE`, then lowest number, not reserved (R228). -/
def freeCounter (s : State) : Option Nat :=
  let free (n : Nat) : Bool := ctrFinalState s n == .free && !s.ledger.reserved.contains n
  let touched := (s.ledger.counters.filter fun p => decide (1024 ≤ p.1) && decide (p.1 < 16384) && free p.1).map (·.1)
  let fresh := lowestFreeFrom (Tab.keys s.ledger.counters ++ s.ledger.reserved) 15360 1024
  let cands := (match fresh with | some n => [n] | none => []) ++ touched
  cands.foldl (fun best n =>
    match best with
    | none => some n
    | some b => if ctrFinal s n < ctrFinal s b ∨ (ctrFinal s n = ctrFinal s b ∧ n < b) then some n else some b) none

end Sys2Proof.Machine
end

