-- ==== Sys2Proof/Machine/CatOps.lean ====
section
/-!
DEFINITION. The catalogue's slots: allotments, the checks of each use, allocation, creation, deaccession (chapter 13).
-/

namespace Sys2Proof.Machine

/-! ## Status codes (R92, R367) -/

namespace St

def ok : Nat := 0x0000
def formatInvalid : Nat := 0x0101
def opcodeUnknown : Nat := 0x0102
def opcodeNotPermitted : Nat := 0x0103
def keySlotEmpty : Nat := 0x0201
def keyOrphaned : Nat := 0x0202
def keyUsageDenied : Nat := 0x0203
def keyCarrelMismatch : Nat := 0x0204
def keyExpired : Nat := 0x0205
def keyUseExhausted : Nat := 0x0206
def keyUnwrapFailed : Nat := 0x0207
def slotOccupied : Nat := 0x0208
def lengthLimit : Nat := 0x0301
def lengthMismatch : Nat := 0x0302
def outputTooSmall : Nat := 0x0303
def remoteAccessError : Nat := 0x0304
def operandRange : Nat := 0x0401
def notInvertible : Nat := 0x0402
def pointInvalid : Nat := 0x0403
def zeroSharedSecret : Nat := 0x0404
def signatureInvalid : Nat := 0x0405
def curveRejected : Nat := 0x0406
def paramInvalid : Nat := 0x0407
def inputMalformed : Nat := 0x0408
def ledgerExhausted : Nat := 0x0501
def entropyNotReady : Nat := 0x0502
def entropyFailed : Nat := 0x0503
def deadlineShed : Nat := 0x0504
def powerShed : Nat := 0x0505
def slotQuotaExceeded : Nat := 0x0506
def aborted : Nat := 0x0507
def stateRejected : Nat := 0x0601
def chainBroken : Nat := 0x0602
def mbxSeqInvalid : Nat := 0x0603
def routineFault : Nat := 0x0701
def taintViolation : Nat := 0x0702
def nonApprovedForbidden : Nat := 0x0703
def integrityFault : Nat := 0x0704
def authRequired : Nat := 0x0705
def authFailed : Nat := 0x0706
def authLocked : Nat := 0x0707
def roleDenied : Nat := 0x0708

end St

/-! ## Allotments (R316) -/

/-- A shelfmark lies in the carrel's allotment: its anchor, or a block assigned to it less the other roots. -/
def inAllot (s : State) (c n : Nat) : Bool :=
  n == c || (Tab.get? s.cat.blocks (n / 1024) == some c && !(decide (n < 256) && n != c))

/-- Check 3 of R320: every ancestor valid and of the recorded generation; at most 8 slots are read. -/
def ancestorsOk (s : State) : Nat → Slot → Bool
  | 0, sl => sl.depth == 0
  | fuel + 1, sl =>
    if sl.depth = 0 then true
    else
      let p := s.slot sl.parent
      p.valid && p.ownGen == sl.parentGen && ancestorsOk s fuel p

/-- A valid slot with a broken chain of ancestors: an orphan awaiting weeding. -/
def orphan (s : State) (sl : Slot) : Bool := sl.valid && !ancestorsOk s 8 sl

/-- A use remains (R321). -/
def useLeft (sl : Slot) : Bool := sl.useLimit == 0 || decide (sl.useCount + sl.reserved < sl.useLimit)

/-- Checks 1 to 3 of R320. -/
def slotCheck13 (s : State) (c n : Nat) : Option Nat :=
  if !inAllot s c n then some St.keyCarrelMismatch
  else if !(s.slot n).valid then some St.keySlotEmpty
  else if !ancestorsOk s 8 (s.slot n) then some St.keyOrphaned
  else none

/-- The checks of R320 on the slot named by `KEY_REF`, in order; `none` when all pass. -/
def keyCheck (s : State) (c n : Nat) (classOk : Nat → Bool) (usageOk : BitVec 10 → Bool)
    (approved : Bool) : Option Nat :=
  match slotCheck13 s c n with
  | some st => some st
  | none =>
    let sl := s.slot n
    if !classOk sl.keyClass || !usageOk sl.usage || (sl.approvedOnly && !approved) then some St.keyUsageDenied
    else if !useLeft sl then some St.keyUseExhausted
    else if sl.expiry != 0 && decide (sl.expiry ≤ s.sec) then some St.keyExpired
    else none

/-- Reserve one use at step 7 (R321). -/
def reserveUse (s : State) (n : Nat) : State :=
  s.setSlot n { s.slot n with reserved := (s.slot n).reserved + 1 }

def releaseUse (s : State) (n : Nat) : State :=
  s.setSlot n { s.slot n with reserved := (s.slot n).reserved - 1 }

/-- The reservation becomes a counted use when execution starts (R321). -/
def countUse (s : State) (n : Nat) : State :=
  let sl := s.slot n
  s.setSlot n { sl with reserved := sl.reserved - 1, useCount := sl.useCount + 1 }

/-- Uses of the slot come in blocks reserved from the peer: mirrored, homed here, in a pair that mirrors or has lost its link
(R322, R430). -/
def blocksFromPeer (s : State) (sl : Slot) : Bool :=
  sl.mirrored && sl.owner != 0 && (s.mirror.state == .paired || s.mirror.state == .degraded)
    && Tab.getD s.mirror.home sl.owner .here == .here

/-- The next use lies in a block already reserved from the peer and through the archive (R322, R546). -/
def useBlockReady (s : State) (n : Nat) : Bool :=
  let sl := s.slot n
  sl.useLimit == 0 ||
    ((!sl.persistent || decide (sl.useCount < sl.folioCeil)) && (!blocksFromPeer s sl || decide (sl.useCount < sl.peerCeil)))

/-! ## Extents and quotas (R317, R326) -/

/-- Lines an extent takes: material longer than 64 bytes, rounded up to whole lines. -/
def extentLines (len : Nat) : Nat := if len ≤ 64 then 0 else (len + 63) / 64

/-- Extent runs in use: first line and the line after the last. -/
def extentRuns (s : State) : List (Nat × Nat) :=
  (s.cat.slots.filter fun p => p.2.extent).map fun p => (p.2.extentLine, p.2.extentLine + extentLines p.2.keyLen)

/-- Lines of the extent pool (R317, R525). -/
def extentPool (s : State) : Nat := if s.qdr.paired then 1310720 else 2621440

def extentFree (s : State) : Nat := extentPool s - ((extentRuns s).map fun r => r.2 - r.1).sum

/-- The lowest line at which `need` free lines begin. -/
def extentPlace (s : State) (need : Nat) : Option Nat :=
  let runs := extentRuns s
  let fits (a : Nat) : Bool := decide (a + need ≤ extentPool s) && runs.all fun r => decide (a + need ≤ r.1) || decide (r.2 ≤ a)
  ((0 :: runs.map (·.2)).filter fits).foldl (fun best a => match best with
    | none => some a
    | some b => some (min a b)) none

def slotsHeld (s : State) (c : Nat) : Nat :=
  (s.cat.slots.filter fun p => p.2.owner == c && (p.2.valid || p.2.claimed)).length

def linesHeld (s : State) (c : Nat) : Nat :=
  ((s.cat.slots.filter fun p => p.2.owner == c && p.2.extent).map fun p => extentLines p.2.keyLen).sum

def orphansHeld (s : State) (c : Nat) : Nat :=
  (s.cat.slots.filter fun p => p.2.owner == c && orphan s p.2).length

/-- A slot that can take a new key. -/
def slotOpen (sl : Slot) : Bool := !sl.valid && !sl.claimed && !sl.retired

/-- The lowest open slot among the blocks of a carrel. -/
def allocIn (s : State) : List Nat → Option Nat
  | [] => none
  | b :: bs =>
    let lo := if b = 0 then 256 else 1024 * b
    let used := (s.cat.slots.filter fun p => !slotOpen p.2).map (·.1)
    match lowestFreeFrom used (1024 * b + 1024 - lo) lo with
    | some n => some n
    | none => allocIn s bs

/-- `ALLOCATE` (R326). -/
def allocSlot (s : State) (c : Nat) : Option Nat :=
  allocIn s ((s.cat.blocks.filter fun p => p.2 == c).map (·.1))

/-- Outcome of the destination checks of step 8: the slot and the first extent line, or a status (R326). -/
def destCheck (s : State) (c : Nat) (alloc : Bool) (named keyLen : Nat) : Except Nat (Nat × Nat) :=
  if !alloc && !inAllot s c named then .error St.keyCarrelMismatch
  else if !alloc && !slotOpen (s.slot named) then .error St.slotOccupied
  else
    let k := s.carrel c
    if slotsHeld s c ≥ k.slotQuota then .error St.slotQuotaExceeded
    else
      match (if alloc then allocSlot s c else some named) with
      | none => .error St.slotQuotaExceeded
      | some n =>
        let need := extentLines keyLen
        if need = 0 then .ok (n, 0)
        else if linesHeld s c + need > k.extentQuota then .error St.slotQuotaExceeded
        else match extentPlace s need with
          | none => .error St.slotQuotaExceeded
          | some a => .ok (n, a)

/-- Reserve slot, quota and extent lines for a slip (R326); `EXTENT_LOW` when free lines fall below one sixteenth. -/
def claimSlot (s : State) (c n line keyLen : Nat) : State :=
  let before := extentFree s
  let s := s.setSlot n { s.slot n with claimed := true, owner := c, extent := decide (0 < extentLines keyLen)
                                       extentLine := line, keyLen := keyLen }
  let low := extentPool s / 16
  if before ≥ low ∧ extentFree s < low then catHitExtentLow s else s

def releaseClaim (s : State) (n : Nat) : State :=
  let sl := s.slot n
  if sl.valid then s.setSlot n { sl with claimed := false }
  else s.setSlot n { sl with claimed := false, extent := false, extentLine := 0, keyLen := 0 }

/-! ## Creating (R323 to R325) -/

/-- The slot attribute segment (R323). -/
structure SegAttr where
  cls : Nat
  flags : Nat
  usage : BitVec 10
  parent : Nat
  useLimit : Nat
  expiry : Nat
  deriving DecidableEq, Repr

/-- Segment bytes 0 to 63 (bytes 0 to 3 are the header). -/
def parseSeg (b : Bytes) : SegAttr :=
  { cls := field b 4 1, flags := field b 5 1, usage := BitVec.ofNat 10 (field b 6 2), parent := field b 8 4 % 2 ^ 21
    useLimit := field b 16 8, expiry := field b 24 8 }

/-- Its reserved fields and bits are zero. -/
def segReservedOk (b : Bytes) : Bool :=
  field b 5 1 < 16 && field b 6 2 < 1024 && field b 8 4 < 2 ^ 21 && field b 12 4 == 0 && allZero (slice b 32 32)

/-- Key length that a class fixes, where it fixes one (R319). -/
def classLen (c : Nat) : Option Nat :=
  match c with
  | 0x01 => some 16 | 0x02 => some 24 | 0x03 => some 32 | 0x04 => some 32 | 0x05 => some 64 | 0x06 => some 32
  | 0x08 => some 16 | 0x09 => some 24 | 0x0A => some 32 | 0x0B => some 48 | 0x0C => some 64
  | 0x10 | 0x11 | 0x12 => some 64
  | 0x14 | 0x15 | 0x16 => some 32
  | 0x18 => some 1312 | 0x19 => some 1952 | 0x1A => some 2592
  | 0x50 | 0x51 | 0x52 => some 32
  | 0x68 => some 32 | 0x69 => some 48 | 0x6A => some 66
  | 0x6C => some 65 | 0x6D => some 97 | 0x6E => some 133
  | 0x70 | 0x71 | 0x72 => some 32
  | 0x73 => some 56 | 0x74 => some 57 | 0x75 => some 57
  | c =>
    if 0x20 ≤ c ∧ c ≤ 0x2B then some (4 * slhN (c - 0x20))
    else if 0x30 ≤ c ∧ c ≤ 0x3B then some (2 * slhN (c - 0x30))
    else none
where
  /-- n of SLH-DSA parameter set s (R197). -/
  slhN (s : Nat) : Nat := if s < 4 then 16 else if s < 8 then 24 else 32

/-- Class codes that R319 defines. -/
def classDefined (c : Nat) : Bool :=
  (classLen c).isSome || (decide (0x40 ≤ c) && decide (c ≤ 0x42)) || (decide (0x44 ≤ c) && decide (c ≤ 0x46))
    || (decide (0x53 ≤ c) && decide (c ≤ 0x5C)) || c == 0x60 || c == 0x61 || (decide (0x78 ≤ c) && decide (c ≤ 0x7A))

/-- Classes `CAT_GENERATE` accepts (R319). -/
def classGenerate (c : Nat) : Bool :=
  (decide (1 ≤ c) && decide (c ≤ 6)) || (decide (8 ≤ c) && decide (c ≤ 0x0C)) || (decide (0x10 ≤ c) && decide (c ≤ 0x12))
    || (decide (0x14 ≤ c) && decide (c ≤ 0x16)) || (decide (0x50 ≤ c) && decide (c ≤ 0x52))
    || (decide (0x68 ≤ c) && decide (c ≤ 0x6A)) || c == 0x70 || c == 0x71 || c == 0x73 || c == 0x74

def isAesClass (c : Nat) : Bool := decide (1 ≤ c) && decide (c ≤ 3)
def isSecretClass (c : Nat) : Bool := decide (8 ≤ c) && decide (c ≤ 0x0C)
def isStfPrivate (c : Nat) : Bool := decide (0x40 ≤ c) && decide (c ≤ 0x42)

/-- Classes of non-approved algorithms (R327). -/
def classNonApproved (c : Nat) : Bool :=
  c == 6 || (decide (0x50 ≤ c) && decide (c ≤ 0x5C)) || (decide (0x78 ≤ c) && decide (c ≤ 0x7A))

/-- A new slot's contents from its attributes (R323, R324). Its generation is set when it is committed. -/
def newSlot (s : State) (c parent : Nat) (a : SegAttr) (cls : Nat) (material : Bytes) : Slot :=
  let p := s.slot parent
  { valid := true, persistent := bit a.flags 0, mirrored := bit a.flags 1, approvedOnly := bit a.flags 2
    extent := decide (64 < material.length), keyClass := cls, usage := a.usage, owner := c, depth := p.depth + 1
    parent := parent, parentGen := p.ownGen, keyLen := material.length, useLimit := a.useLimit, expiry := a.expiry
    material := material }

/-- Raise `OWN_GEN` by `n`; a slot whose generation would pass the greatest value is retired (R325, log 22). -/
def raiseGen (sl : Slot) (n : Nat) : Slot :=
  if sl.ownGen.toNat + n > 0xFFFF_FFFF then { sl with ownGen := 0xFFFF_FFFF, retired := true }
  else { sl with ownGen := sl.ownGen + BitVec.ofNat 32 n }

/-- Write a new key into a slot: `OWN_GEN` rises by 1; its archive record falls due if it is persistent (R325, R334). -/
def createSlot (s : State) (n : Nat) (sl : Slot) : State :=
  let old := s.slot n
  let sl := { raiseGen { sl with ownGen := old.ownGen } 1 with extentLine := old.extentLine, claimed := false }
  let s := s.setSlot n sl
  let s := if sl.retired then catHitGenRetired s else s
  if sl.persistent then { s with cat := { s.cat with archivePending := Tab.set s.cat.archivePending n s.now } } else s

/-! ## Deaccession (R332, R169, R371, R242) -/

/-- A session ends: the function's page keys, unless busy, and its response window go (R373, R283, R390). -/
def closeSession (s : State) (fn : Nat) : State :=
  clearPageKeys (s.setMbx fn { s.mbx fn with session := none, rspWin := [] }) fn

/-- `EVT_SESSION_END` with its cause (R380). -/
def sessionEvent (s : State) (fn cause : Nat) : State := queueEvent s 5 [BitVec.ofNat 8 cause] (some fn)

/-- The session of a function ends, if it has one (R373). -/
def endSession (s : State) (fn cause : Nat) : State :=
  match (s.mbx fn).session with
  | none => s
  | some _ => sessionEvent (closeSession s fn) fn cause

/-- Class 0xF routines are running. -/
def openRunning (s : State) : Bool := s.tuns.tuns.any fun p => p.2.running && p.2.openRoutine

/-- Zero 0x2000 to 0x2FFF of the control store (R169). -/
def clearOpenStore (s : State) : State :=
  { s with tuns := { s.tuns with store := s.tuns.store.filter fun p => decide (p.1 < 0x2000) } }

/-- No writable cartridge marks an image as active any more (R169). -/
def unmarkImage (s : State) : State :=
  { s with folio := { s.folio with slots := Tab.mapVals s.folio.slots fun _ f =>
      if f.state = .mounted then { f with imgActive := none } else f } }

/-- The active image is retired because its signer is gone or no longer enrolled (R169, R335). -/
def retireImage (s : State) : State :=
  match s.tuns.active with
  | none => s
  | some img =>
    let s := unmarkImage { s with tuns := { s.tuns with active := none } }
    let s := if openRunning s then { s with tuns := { s.tuns with draining := some (none, true) } } else clearOpenStore s
    queueEvent s 6 (le 4 img.id.toNat ++ [6])

/-- The signer of the active image still stands. -/
def signerOk (s : State) : Bool :=
  match s.tuns.active with
  | none => true
  | some img => (slotCheck13 s 0 img.signer).isNone && (s.slot img.signer).ostkSigner

/-- Empty a slot: `VALID` cleared, `OWN_GEN` raised, material and extent zeroised, a bound ledger counter freed, a
tombstone queued for an archived slot; a recovery of its lines is given up (R332, R333, R532). -/
def emptySlot (s : State) (n : Nat) : State :=
  let old := s.slot n
  let sl := raiseGen { ({} : Slot) with ownGen := old.ownGen, owner := old.owner } 1
  let s := s.setSlot n sl
  let s := if sl.retired then catHitGenRetired s else s
  let s := match old.ledger with
    | some (c, _) => ledgerRelease { s with ledger := { s.ledger with keys := Tab.erase s.ledger.keys n } } c
    | none => s
  { s with
    qdr := { s.qdr with recovering := s.qdr.recovering.filter (· != n) }
    cat := { s.cat with
      archivePending := Tab.erase s.cat.archivePending n
      tombstones := if old.archived then s.cat.tombstones ++ [n] else s.cat.tombstones } }

/-- Positions at which a slot is enrolled as an administrator key. -/
def adminUses (s : State) (n : Nat) : List Nat := (s.reg.admins.filter fun p => p.2 == n).map (·.1)

/-- The deaccession commit (R332): the slot is emptied, its tombstone being on folio already where it needs one; every descendant is orphaned from the next check on; the active
image retires if its signer was the slot or lay below it; enrolment and sessions of the key end. -/
def deaccessionCommit (s : State) (n : Nat) : State :=
  let uses := adminUses s n
  let s := emptySlot (s.setSlot n { s.slot n with archived := false }) n
  let s := { s with reg := { s.reg with admins := s.reg.admins.filter fun p => p.2 != n } }
  let s := uses.foldl (fun s k => match (s.mbx (k / 4)).session with
    | some se => if se.key = n then endSession s (k / 4) 4 else s
    | none => s) s
  if signerOk s then s else retireImage s

/-- Bytes 0 to 63 of a slot (R315). -/
def slotBytes (sl : Slot) : Bytes :=
  le 4 (b2n sl.valid + 2 * b2n sl.persistent + 4 * b2n sl.mirrored + 8 * b2n sl.approvedOnly + 16 * b2n sl.ostkSigner
        + 32 * b2n sl.extent + 64 * b2n sl.archived + 256 * (sl.keyClass % 256) + 65536 * sl.usage.toNat)
    ++ le 4 (sl.owner % 256 + 256 * (sl.depth % 16)) ++ le 4 (if sl.depth = 0 then 0 else sl.parent)
    ++ le 4 sl.parentGen.toNat ++ le 4 sl.ownGen.toNat ++ le 4 sl.keyLen ++ le 8 sl.useCount ++ le 8 sl.useLimit
    ++ le 8 sl.expiry ++ le 4 (if sl.extent then sl.extentLine else 0)
    ++ (match sl.ledger with
        | some (c, g) => le 4 (c % 2 ^ 14 + 2 ^ 14 * g.toNat)
        | none => zeros 4)
    ++ le 8 (if sl.ledger.isSome then sl.ledgerBase else 0)

end Sys2Proof.Machine
end

