-- ==== Sys2Proof/Machine/Slips.lean ====
section
/-!
DEFINITION. Slips in flight: their fields, return slips and status blocks byte by byte, posting and holding, chains,
commits, deadlines (chapters 3 and 4).
-/

namespace Sys2Proof.Machine

/-! ## The call slip (R77, R78) -/

/-- A call slip from its 64 bytes (R77). -/
def parseSlip (b : Bytes) : CallSlip :=
  { opcode := BitVec.ofNat 16 (field b 0 2), flags := BitVec.ofNat 16 (field b 2 2)
    slipSeq := BitVec.ofNat 32 (field b 4 4), keyRef := BitVec.ofNat 32 (field b 8 4)
    dlExt := BitVec.ofNat 32 (field b 12 4), inAddr := BitVec.ofNat 64 (field b 16 8)
    inLen := field b 24 4, outMax := field b 28 4, outAddr := BitVec.ofNat 64 (field b 32 8)
    auxLen := field b 40 4, auxAddr := BitVec.ofNat 64 (field b 44 8)
    dest := BitVec.ofNat 32 (field b 52 4), param := BitVec.ofNat 64 (field b 56 8) }

/-- The 64 bytes of a call slip. -/
def slipBytes (c : CallSlip) : Bytes :=
  le 2 c.opcode.toNat ++ le 2 c.flags.toNat ++ le 4 c.slipSeq.toNat ++ le 4 c.keyRef.toNat ++ le 4 c.dlExt.toNat
    ++ le 8 c.inAddr.toNat ++ le 4 c.inLen ++ le 4 c.outMax ++ le 8 c.outAddr.toNat ++ le 4 c.auxLen
    ++ le 8 c.auxAddr.toNat ++ le 4 c.dest.toNat ++ le 8 c.param.toNat

def csClass (c : CallSlip) : Nat := c.opcode.toNat / 4096
def csSet (c : CallSlip) : Nat := c.opcode.toNat / 256 % 16
def csOp (c : CallSlip) : Nat := c.opcode.toNat % 256
def csChain (c : CallSlip) : Bool := c.flags.getLsbD 0
def csFence (c : CallSlip) : Bool := c.flags.getLsbD 1 || c.opcode == 3#16
def csNotify (c : CallSlip) : Bool := c.flags.getLsbD 2
def csShed (c : CallSlip) : Bool := c.flags.getLsbD 3
def csInline (c : CallSlip) : Bool := c.flags.getLsbD 4
def csHold (c : CallSlip) : Bool := c.flags.getLsbD 5
def csCarry (c : CallSlip) : Nat := c.flags.toNat / 256 % 16
def csKeyUsed (c : CallSlip) : Bool := c.keyRef.getLsbD 31
def csKey (c : CallSlip) : Nat := c.keyRef.toNat % 2 ^ 21
def csDestUsed (c : CallSlip) : Bool := c.dest.getLsbD 31
def csAlloc (c : CallSlip) : Bool := c.dest.getLsbD 30
def csDest (c : CallSlip) : Nat := c.dest.toNat % 2 ^ 21
def csDeadline (c : CallSlip) : Nat := c.dlExt.toNat % 2 ^ 20
def csExt (c : CallSlip) : Nat := c.dlExt.toNat / 2 ^ 20 % 4
def csParam (c : CallSlip) : Nat := c.param.toNat

/-- Entries of the ring a slip occupies (R67). -/
def csEntries (c : CallSlip) : Nat := 1 + csExt c

/-! ## Deadlines (R73, R111, R113, R394) -/

/-- The first slip of a slip's chain. -/
def headOf (s : State) (sl : Slip) : Slip := (s.slip? sl.head).getD sl

/-- Deadline budget in us after the carrel's cap (R394); 0 for none. -/
def budget (s : State) (sl : Slip) : Nat :=
  let d := csDeadline (headOf s sl).cs
  let cap := (s.carrel sl.carrel).dlMax
  if cap ≠ 0 ∧ d > cap then cap else d

/-- Deadline instant in fabric cycles (R111). -/
def deadlineAt (s : State) (sl : Slip) : Option Nat :=
  let d := budget s sl
  if d = 0 then none else some ((headOf s sl).arrival + d * 1250)

/-- `SHED_IF_LATE`, set on the slip or forced by the carrel's policy (R394). -/
def shedIfLate (s : State) (sl : Slip) : Bool :=
  let h := headOf s sl
  csShed h.cs || ((s.carrel sl.carrel).forceShed && csDeadline h.cs != 0)

/-- A return slip first posted now would be late (R113). -/
def isLate (s : State) (sl : Slip) : Bool :=
  budget s sl != 0 && decide (s.now - (headOf s sl).arrival > budget s sl * 1250)

/-- Nanoseconds since arrival, rounded down, saturating (R89). -/
def latencyNs (s : State) (sl : Slip) : Nat := min ((s.now - sl.arrival) * 4 / 5) 0xFFFF_FFFF

/-! ## Return slips (R69, R89, R90) -/

def depth (h : Hopper) : Nat := 2 ^ h.depthLog2

/-- `PHASE` of completion c (R69). -/
def phaseBit (h : Hopper) (cseq : W32) : Bool := cseq.toNat / depth h % 2 == 0

/-- Some source is substituted by a test pattern, so no return slip is approved (R355). -/
def testPattern (s : State) : Bool := s.ent.sources.any fun p => p.2.pattern.isSome

/-- Statuses with which `APPROVED` may be set (R90). -/
def approvable (st : Nat) : Bool := st == St.ok || st == St.signatureInvalid

/-- Last slip of its chain, or a slip that stands alone (R90). -/
def chainEnd (sl : Slip) : Bool := !csChain sl.cs || sl.endsChain

/-- Flags of a return slip (R89). -/
def rsFlags (s : State) (h : Hopper) (sl : Slip) (status : Nat) (cseq : W32) (late : Bool) : Nat :=
  b2n (phaseBit h cseq) + 2 * b2n (sl.approved && approvable status && !testPattern s) + 4 * b2n sl.retried
    + 8 * b2n sl.replay + 16 * b2n (late && status != St.deadlineShed) + 32 * b2n (chainEnd sl)

/-- The 32 bytes of a return slip (R89). -/
def rsBytes (s : State) (h : Hopper) (sl : Slip) (status outLen : Nat) (cseq : W32) (late : Bool) : Bytes :=
  le 4 sl.cs.slipSeq.toNat ++ le 4 cseq.toNat ++ le 2 status ++ le 2 (rsFlags s h sl status cseq late) ++ le 4 outLen
    ++ le 4 (latencyNs s sl) ++ le 2 sl.engineId.toNat ++ zeros 2 ++ le 8 sl.inline.toNat

/-- Address of completion-ring entry c (R69). -/
def cplAddr (h : Hopper) (cseq : W32) : W64 := h.cplRing + BitVec.ofNat 64 (32 * (cseq.toNat % depth h))

/-! ## Posting (R50 to R52, R57, R76, R94) -/

/-- rkey of a hopper's areas: the binding's replacement when there is one (R39). -/
def hopRkey (s : State) (h : Hopper) : W32 :=
  match h.qpn.bind s.qp? with
  | some q => if q.clientRkey = 0 then h.rkey else q.clientRkey
  | none => h.rkey

/-- The address of a client's GID: the IPv4-mapped form stands for an IPv4 address (R31). -/
def gidIp (g : BitVec 128) : IpAddr := if g.toNat / 2 ^ 32 = 0xFFFF then .v4 (g.extractLsb' 0 32) else .v6 g

/-- The next hop of a destination, from the carrel's configuration alone: itself when on-link, else the gateway of its
family; none without a gateway (R29). -/
def nextHopOf (n : NetId) : IpAddr → Option IpAddr
  | .v4 a =>
    if n.v4.any fun p => p.1.toNat / 2 ^ (32 - p.2) == a.toNat / 2 ^ (32 - p.2) then some (.v4 a)
    else if n.gw4 = 0 then none else some (.v4 n.gw4)
  | .v6 a =>
    if n.v6.any fun p => p.1.toNat / 2 ^ (128 - p.2) == a.toNat / 2 ^ (128 - p.2) then some (.v6 a)
    else if n.gw6 = 0 then none else some (.v6 n.gw6)

def isHop (c : Nat) (ip : IpAddr) (h : NextHop) : Bool := h.carrel == c && h.ip == ip

/-- Use a next hop: a resolved entry's last use is now; an unknown one begins to be resolved on the port (R29). -/
def useHop (s : State) (c port : Nat) (ip : IpAddr) : State :=
  if s.ports.nextHops.any (isHop c ip) then
    { s with ports := { s.ports with
        nextHops := s.ports.nextHops.map fun h => if isHop c ip h then { h with lastUse := s.now } else h } }
  else
    let e : NextHop := { carrel := c, ip := ip, port := port, st := .resolving 0, lastUse := s.now }
    ({ s with ports := { s.ports with nextHops := s.ports.nextHops ++ [e] } }).send (.resolve port c ip false)

def hopResolved (s : State) (c : Nat) (ip : IpAddr) : Bool :=
  s.ports.nextHops.any fun h => isHop c ip h && match h.st with
    | .resolved _ => true
    | _ => false

/-- Requests sent in order until one must wait for READ credit (R37, R55); those sent, and the requests after it. -/
def pumpReqs (q readDepth : Nat) : Nat → List Req → List Req × List Out
  | _, [] => ([], [])
  | reads, r :: rs =>
    if r.sent then
      let x := pumpReqs q readDepth (if r.read then reads + 1 else reads) rs
      (r :: x.1, x.2)
    else if r.read = true ∧ readDepth ≤ reads then (r :: rs, [])
    else
      let x := pumpReqs q readDepth (if r.read then reads + 1 else reads) rs
      ({ r with sent := true } :: x.1,
       (if r.read then Out.read q r.id r.addr r.len r.rkey else Out.write q r.id r.addr r.data r.rkey r.imm) :: x.2)

/-- Send what a queue pair has waiting, in order, once its next hop is resolved (R29). -/
def pumpQp (s : State) (q : Nat) : State :=
  match s.qp? q with
  | none => s
  | some qp =>
    if qp.phase != .rts || qp.outstanding.all (·.sent) then s
    else match nextHopOf (s.carrel qp.carrel).net (gidIp qp.peerGid) with
      | none => s
      | some ip =>
        let s := useHop s qp.carrel qp.port ip
        if hopResolved s qp.carrel ip then
          let x := pumpReqs q qp.readDepth 0 qp.outstanding
          (s.setQp q { qp with outstanding := x.1 }).sendAll x.2
        else s

/-- Queue one request on a queue pair. -/
def addReq (s : State) (q : Nat) (r : Req) : State :=
  match s.qp? q with
  | none => s
  | some qp =>
    let rid := s.ports.nextReq
    let s := { s with ports := { s.ports with nextReq := rid + 1 } }
    pumpQp (s.setQp q { qp with outstanding := qp.outstanding ++ [{ r with id := rid, sent := false }] }) q

/-- Post one WRITE for a hopper: on its queue pair, where it stays outstanding until acknowledged, or by DMA. -/
def postWrite (s : State) (h : Hopper) (kind : ReqKind) (addr : W64) (data : Bytes) (imm : Option W32) : State :=
  match h.attach with
  | .host => s.send (.dmaWrite h.carrel addr data)
  | .network =>
    match h.qpn with
    | none => s
    | some q =>
      let r : Req := {
        id := 0, kind := kind, read := false, addr := addr, len := data.length, data := data, imm := imm
        rkey := hopRkey s h }
      addReq s q r

/-- Issue one READ for a hopper: on its queue pair, or by DMA of its function (R50, R74). -/
def postRead (s : State) (h : Hopper) (kind : ReqKind) (addr : W64) (len : Nat) : State :=
  match h.attach with
  | .host =>
    let rid := s.ports.nextReq
    let r : Req := { id := rid, kind := kind, read := true, addr := addr, len := len }
    ({ s with ports := { s.ports with
        nextReq := rid + 1
        hostReqs := Tab.set s.ports.hostReqs h.carrel (Tab.getD s.ports.hostReqs h.carrel [] ++ [r]) } }).send
      (.dmaRead h.carrel rid addr len)
  | .network =>
    match h.qpn with
    | none => s
    | some q => addReq s q { id := 0, kind := kind, read := true, addr := addr, len := len, rkey := hopRkey s h }

/-- A hopper can be written to: attached to the host, or bound to a queue pair that is ready (R57, R65, R94). -/
def canPost (s : State) (h : Hopper) : Bool :=
  match h.attach with
  | .host => true
  | .network => match h.qpn.bind s.qp? with
    | some q => q.phase == .rts
    | none => false

/-- Mirroring of a carrel's hoppers applies: paired, homed here, not carrel 0 (R423). -/
def homeOf (s : State) (c : Nat) : Home := Tab.getD s.mirror.home c .here

def mirrors (s : State) (c : Nat) : Bool := s.mirror.state == .paired && c != 0 && homeOf s c == .here

def hopMirror (s : State) (hn : Nat) : HopMirror := Tab.getD s.mirror.ours hn {}

/-- `a` lies before `b` in a count modulo 2^32. -/
def before (a b : W32) : Bool := a != b && decide ((b - a).toNat < 2 ^ 31)

/-- The completion ceiling admits this `COMPLETION_SEQ` (R424). -/
def ccAdmits (s : State) (hn : Nat) (h : Hopper) (cseq : W32) : Bool :=
  !mirrors s h.carrel || before cseq (hopMirror s hn).cc

/-- Immediate value of a completion event (R52). -/
def immValue (hn : Nat) (cseq : W32) : W32 := BitVec.ofNat 32 (hn % 2 ^ 18 + 2 ^ 18 * (cseq.toNat % 2 ^ 14))

/-- Post one return slip with its output WRITEs before it (R51, R52, R76). -/
def postHeld (s : State) (hn : Nat) (e : HeldRs) : State :=
  match s.hopper? hn with
  | none => s
  | some h =>
    let s := e.outs.foldl (fun s o => postWrite s h (.output hn o.1) o.2.1 o.2.2 none) s
    let imm := match h.qpn.bind s.qp? with
      | some q => if q.immGranted ∧ e.notify then some (immValue hn e.cseq) else none
      | none => none
    let s := postWrite s h (.returnSlip hn e.cseq) (cplAddr h e.cseq) e.rs imm
    match h.attach with
    | .host =>
      let s := s.modHopper hn fun h => { h with lastAckCseq := e.cseq }
      if e.notify then s.send (.msix h.carrel h.msix) else s
    | .network => s

/-- Write the held return slips of a hopper in `COMPLETION_SEQ` order while it can be written to (R57, R90). -/
def flushHeld : Nat → State → Nat → State
  | 0, s, _ => s
  | n + 1, s, hn =>
    match s.hopper? hn with
    | none => s
    | some h =>
      match h.held with
      | [] => s
      | e :: es =>
        if canPost s h && ccAdmits s hn h e.cseq then
          flushHeld n (postHeld (s.setHopper hn { h with held := es }) hn e) hn
        else s

/-- Slips of a hopper fetched and not yet completed (R93). -/
def inFlight (s : State) (hn : Nat) : Nat := (s.hop.slips.filter fun p => p.2.hopper == hn).length

/-- The 64 bytes of a hopper status block (R93). -/
def sbBytes (s : State) (hn : Nat) (h : Hopper) (sbSeq : W32) : Bytes :=
  le 4 (hn % 2 ^ 18 + 2 ^ 24 * hopCode h.state) ++ le 4 h.ci.toNat ++ le 4 h.p.toNat ++ le 4 h.lastSlipSeq.toNat
    ++ le 4 h.lastAckCseq.toNat ++ le 4 h.lastDbSeq.toNat ++ le 4 (inFlight s hn) ++ le 4 h.held.length
    ++ le 4 (match h.fetchFail with
        | some i => i.toNat
        | none => 0)
    ++ le 2 (sbFlags s h) ++ zeros 2 ++ le 8 s.now ++ le 4 sbSeq.toNat ++ zeros 12

/-- A return-slip WRITE of the hopper is still unacknowledged. -/
def rsOutstanding (s : State) (hn : Nat) (h : Hopper) : Bool :=
  match h.qpn.bind s.qp? with
  | some q => q.outstanding.any fun r => match r.kind with
    | .returnSlip n _ => n == hn
    | _ => false
  | none => false

/-- Write the status blocks requested, once every earlier return slip is written and acknowledged (R94). -/
def flushStatus : Nat → State → Nat → State
  | 0, s, _ => s
  | n + 1, s, hn =>
    match s.hopper? hn with
    | none => s
    | some h =>
      if h.statusPending = 0 ∨ !canPost s h ∨ !h.held.isEmpty ∨ rsOutstanding s hn h then s
      else
        let h' := { h with statusPending := h.statusPending - 1, sbSeq := h.sbSeq + 1, dbDiscarded := false }
        let blk := sbBytes s hn h (h.sbSeq + 1)
        flushStatus n (postWrite (s.setHopper hn h') h' (.statusBlock hn) h.statusAddr blk none) hn

/-- Write whatever a hopper has waiting: held return slips first, then status blocks (R57, R94). -/
def flushHopper (s : State) (hn : Nat) : State :=
  match s.hopper? hn with
  | none => s
  | some h => flushStatus h.statusPending (flushHeld h.held.length s hn) hn

/-! ## Units -/

/-- Logical units a slip holds. -/
def heldUnits (sl : Slip) : List Nat :=
  match sl.unit with
  | none => []
  | some l => if sl.gang.isEmpty then [l] else sl.gang

/-- Logical units of a type that some slip or page operation holds. -/
def usedUnits (s : State) (e : EngineType) : List Nat :=
  let direct := if e == .pipe then s.pipes.pages.filterMap (·.2.unit) else []
  (s.hop.slips.flatMap fun p => if p.2.engine = e then heldUnits p.2 else []) ++ direct

/-- Note how many units of a type are busy (R102). -/
def notePeak (s : State) (e : EngineType) : State :=
  let u := s.units e
  let recent := u.peaks.takeWhile fun p => decide (s.now - p.1 < 1250000)
  let older := (u.peaks.drop recent.length).take 1
  s.setUnits e { u with peaks := (s.now, (usedUnits s e).dedup.length) :: recent ++ older }

/-- A running cluster of which no unit is held any more is IDLE. -/
def idleClusters (s : State) (e : EngineType) (cs : List Nat) : State :=
  let u := s.units e
  let used := ((usedUnits s e).filterMap (physOf u)).map (clusterOf e)
  s.setUnits e { u with
    clusters := cs.foldl (fun t c => if clusterState u c = .run ∧ used.contains c = false then Tab.set t c .idle else t) u.clusters }

/-- The wipe at the end of every routine: registers, cores, written scratch and tags are zeroised (R141); the trace buffer
stays. -/
def wipeTun (s : State) (t : Nat) : State :=
  let x := s.tun t
  s.setTun t { ({} : Tun) with scrubbing := x.scrubbing, trace := x.trace }

/-- Release the unit, and gang, of a slip in flight; a tun is wiped (R141); each physical unit's last carrel is remembered (R103, R104). -/
def freeUnit (s : State) (sid : Nat) : State :=
  match s.slip? sid with
  | none => s
  | some sl =>
    let ls := heldUnits sl
    if ls.isEmpty then s
    else
      let u := s.units sl.engine
      let s := s.setUnits sl.engine { u with
        lastCarrel := ls.foldl (fun b k => match physOf u k with
          | some p => Tab.set b p sl.carrel
          | none => b) u.lastCarrel }
      let s := if sl.engine = .tun then (ls.filterMap (physOf u)).foldl wipeTun s else s
      let s := s.setSlip sid { sl with unit := none, gang := [] }
      idleClusters (notePeak s sl.engine) sl.engine ((ls.filterMap (physOf u)).map (clusterOf sl.engine))

/-! ## Completing a slip -/

/-- Release what a slip that ends without commit had reserved (R321, R326, R228). -/
def releaseAll (s : State) (sl : Slip) : State :=
  let s := if sl.usesCounted then s else sl.uses.foldl releaseUse s
  let s := match sl.destClaim with
    | some n => releaseClaim s n
    | none => s
  match sl.counterClaim with
  | some c =>
    ledgerRelease { s with ledger := { s.ledger with reserved := s.ledger.reserved.filter (· != c) } } c
  | none => s

/-- Report a deadline fault: the carrel's registers and the fault collector (R114). -/
def deadlineFault (s : State) (sl : Slip) (shed : Bool) : State :=
  let d := s.dl sl.carrel
  let s := s.setDl sl.carrel (if shed then { d with shed := d.shed.hit, shedTot := d.shedTot + 1 }
                              else { d with missed := d.missed.hit, missTot := d.missTot + 1 })
  faultEvent s { source := if shed then 0x141 else 0x140, carrel := sl.carrel, hopper := BitVec.ofNat 32 sl.hopper }

/-- Count a return slip in the carrel's statistics (R414) and in `MIR_REPLAY_TOT`. -/
def countRs (s : State) (sl : Slip) (status : Nat) : State :=
  let c := s.carrel sl.carrel
  let s := s.setCarrel sl.carrel { c with stats := { c.stats with
      slips := c.stats.slips + 1
      failed := if approvable status then c.stats.failed else c.stats.failed + 1 } }
  if sl.replay then { s with mirror := { s.mirror with replayTot := s.mirror.replayTot + 1 } } else s

/-- Complete one slip with a status: it takes the next `COMPLETION_SEQ`, its return slip is posted or held, it leaves the
machine. `outs` are the WRITEs posted before it; `late` is the deadline test of R113. -/
def completeSlip (s : State) (sid status outLen : Nat) (outs : List (W32 × W64 × Bytes)) (late : Bool) : State :=
  match s.slip? sid with
  | none => s
  | some sl =>
    let s := freeUnit s sid
    match s.hopper? sl.hopper with
    | none => s.delSlip sid
    | some h =>
      let cseq := h.nextCseq
      let e : HeldRs := { cseq := cseq, rs := rsBytes s h sl status outLen cseq late, outs := outs, notify := csNotify sl.cs }
      let s := s.setHopper sl.hopper { h with nextCseq := cseq + 1, held := h.held ++ [e] }
      let s := countRs s sl status
      let s := s.delSlip sid
      let s := if status = St.deadlineShed then deadlineFault s sl true else if late then deadlineFault s sl false else s
      flushHopper s sl.hopper

/-- Remove a slip without a return slip (R110, R385, R527). -/
def dropSlip (s : State) (sid : Nat) : State :=
  match s.slip? sid with
  | none => s
  | some sl => (releaseAll (freeUnit s sid) sl).delSlip sid

/-- Slips of a chain in ring order. -/
def chainOf (s : State) (head : Nat) : List (Nat × Slip) := s.hop.slips.filter fun p => p.2.head == head

/-- Zeroise the carries of a chain (R85). -/
def dropCarries (s : State) (head : Nat) : State :=
  { s with hop := { s.hop with carries := Tab.erase s.hop.carries head } }

/-- A FACTORY slip's digest in area A of the result registers; `DRES_SEQ` rises before and after (R256, R257). -/
def dresFactory (s : State) (func : Nat) (d : Bytes) : State :=
  { s with dres := { s.dres with
      areaA := fit 64 d, func := BitVec.ofNat 8 func, source := 2, lenA := BitVec.ofNat 8 d.length
      seq := s.dres.seq + 2 } }

/-- Make the changes of slots of one slip; its `RESULT_INLINE` then names the slot created and its generation (R86 step 1,
R91). -/
def applySlotOps (s : State) (sid : Nat) (sl : Slip) : State :=
  sl.slotOps.foldl (fun s op => match op with
    | .create n x =>
      let s := createSlot s n x
      s.modSlip sid fun sl => { sl with
        destClaim := none
        counterClaim := none
        inline := BitVec.ofNat 64 (n % 2 ^ 21 + 2 ^ 32 * (s.slot n).ownGen.toNat) }
    | .deaccession n => if (s.slot n).valid then deaccessionCommit s n
                        else s.modSlip sid fun sl => { sl with status := St.keySlotEmpty }
    | .dres f d => dresFactory s f d) s

/-- The output WRITEs of a chain, in slip order, each under the `COMPLETION_SEQ` its slip will take from `c` on. -/
def chainOuts : List (Nat × Slip) → W32 → List (W32 × W64 × Bytes)
  | [], _ => []
  | p :: ps, c =>
    let rest := p.2.out.drop p.2.posted
    (if rest.isEmpty then [] else [(c, p.2.cs.outAddr + BitVec.ofNat 64 p.2.posted, rest)]) ++ chainOuts ps (c + 1)

/-- Complete the slips of a chain in order; the WRITEs go with the first. -/
def completeAll (s : State) (outs : List (W32 × W64 × Bytes)) : List (Nat × Bool) → State
  | [] => s
  | (sid, late) :: rest =>
    let sl := (s.slip? sid).getD { hopper := 0, carrel := 0, cs := {}, head := 0 }
    let s := releaseAll s { sl with usesCounted := true, destClaim := none }
    completeAll (completeSlip s sid sl.status sl.outLen outs late) [] rest

/-- Commit a chain, or a slip that stands alone: slot changes, then the output WRITEs of every slip in slip order, then
the return slips with consecutive `COMPLETION_SEQ` values (R86). -/
def commitNow (s : State) (head : Nat) : State :=
  let m := chainOf s head
  let s := m.foldl (fun s p => applySlotOps s p.1 p.2) s
  let s := dropCarries s head
  match (m.head?.bind fun p => s.hopper? p.2.hopper) with
  | none => m.foldl (fun s p => dropSlip s p.1) s
  | some h => completeAll s (chainOuts m h.nextCseq) (m.map fun p => (p.1, isLate s p.2))

/-- Does a commit wait: a mirrored change in a pair (R423), a persistent deaccession (R332)? -/
def opMirrored (s : State) : SlotOp → Bool
  | .create _ x => x.mirrored
  | .deaccession n => (s.slot n).mirrored
  | .dres _ _ => false

def opPersistentDeac (s : State) : SlotOp → Option Nat
  | .create _ _ | .dres _ _ => none
  | .deaccession n => if (s.slot n).persistent ∧ (s.slot n).valid then some n else none

/-- Slot bytes 0 to 127 (R315, R507). -/
def slotHeader (sl : Slot) : Bytes := slotBytes sl ++ (if sl.extent then zeros 64 else fit 64 sl.material)

def peerSlot (n : Nat) (sl : Slot) : PeerSlot :=
  { shelf := n, header := slotHeader sl, extent := if sl.extent then sl.material else [] }

/-- The synchronous record of a slot change, with its memo (R425). -/
def opRec (s : State) (memo : Option (Nat × W32)) : SlotOp → Option SyncRec
  | .create n x =>
    if x.mirrored then some (.slotSet (peerSlot n (raiseGen { x with ownGen := (s.slot n).ownGen } 1)) memo) else none
  | .deaccession n =>
    if (s.slot n).mirrored then some (.slotGone n (raiseGen (s.slot n) 1).ownGen memo) else none
  | .dres _ _ => none

/-- Send a synchronous record and wait for its acknowledgement (R423). -/
def sendSync (s : State) (recs : List SyncRec) (w : SyncWait) : State :=
  let n := s.mirror.nextSync
  let s := { s with mirror := { s.mirror with
      nextSync := n + 1, waits := Tab.set s.mirror.waits n w, sentAt := Tab.set s.mirror.sentAt n s.now } }
  s.sendAll (recs.map (Out.syncRec n))

/-- Append a record to the archive: it waits in the queue until a writable cartridge takes it (R507, R509). -/
def queueRecord (s : State) (k : RecKind) : State :=
  { s with folio := { s.folio with
      queue := s.folio.queue ++ [{ seq := s.folio.nextSeq, kind := k, due := s.now, devSec := s.sec }], nextSeq := s.folio.nextSeq + 1 } }

/-- Begin the commit of a chain whose every slip has finished with OK. -/
def commitChain (s : State) (head : Nat) : State :=
  let m := chainOf s head
  let ops := m.flatMap (·.2.slotOps)
  let c := (m.map (·.2.carrel)).headD 0
  let deac := ops.filterMap (opPersistentDeac s)
  let sync := mirrors s c && ops.any (opMirrored s)
  if !sync && deac.isEmpty then commitNow s head
  else
    let s := m.foldl (fun s p => s.modSlip p.1 fun sl => { sl with phase := .waitCommit }) s
    let s := deac.foldl (fun s n =>
      let s := s.setSlot n { s.slot n with deacPending := some none, deacPeer := !sync, deacTomb := false }
      queueRecord s (.tombstone n (raiseGen (s.slot n) 1).ownGen)) s
    let memo := m.head?.map fun p => (p.2.hopper, p.2.entry)
    if sync then sendSync s (ops.filterMap (opRec s memo)) (.chain head) else s

/-- Complete one slip of a broken chain: the failed one with its own status, another with `CHAIN_BROKEN` (R86). -/
def breakOne (s : State) (sid : Nat) (late : Bool) : State :=
  match s.slip? sid with
  | none => s
  | some sl =>
    let s := releaseAll s sl
    let st := if sl.status = St.ok then St.chainBroken else sl.status
    let s := s.modSlip sid fun sl => { sl with inline := if st = St.chainBroken then 0 else sl.inline }
    completeSlip s sid st (if st = St.outputTooSmall then sl.outLen else 0) [] late

/-- End a chain in which a slip failed: every slip completes, nothing is written and no slot changes (R86). A chain that is
shed is not also missed (R113). -/
def breakChain (s : State) (head : Nat) : State :=
  let c := chainOf s head
  let shed := c.any fun p => p.2.status == St.deadlineShed
  let m := c.map fun p => (p.1, isLate s p.2 && !shed)
  m.foldl (fun s p => breakOne s p.1 p.2) (dropCarries s head)

/-- Settle a chain: once its last slip is fetched and none of it runs, it breaks if a slip failed and commits if all have
finished (R84, R86). -/
def settleChain (s : State) (head : Nat) : State :=
  let m := chainOf s head
  let busy := m.any fun p => p.2.phase == .running || p.2.phase == .executed || p.2.phase == .suspended
      || p.2.phase == .waitCommit || p.2.phase == .draining
  let failed := m.any fun p => p.2.status != St.ok
  if m.isEmpty || busy || !(m.all fun p => p.2.chainComplete) then s
  else if failed then breakChain s head
  else if m.all fun p => p.2.phase == .finished then commitChain s head
  else s

/-- A slip ends with a failure status: it stops using its unit, waits for WRITEs already posted for it (R51), and its chain
is settled. -/
def failSlip (s : State) (sid status : Nat) (outLen : Nat := 0) (inline : W64 := 0) : State :=
  match s.slip? sid with
  | none => s
  | some sl =>
    let s := freeUnit s sid
    let sl := { sl with status := status, outLen := outLen, inline := inline, out := [], slotOps := [], secret := none, unit := none
                        gang := [] }
    if sl.writesLeft ≠ 0 then s.setSlip sid { sl with phase := .draining }
    else settleChain (s.setSlip sid { sl with phase := .finished }) sl.head

/-- A slip's execution ended with OK: a `HOLD` slip fills the chain's next carry (R85); the chain is settled. -/
def passSlip (s : State) (sid : Nat) : State :=
  match s.slip? sid with
  | none => s
  | some sl =>
    let s := freeUnit s sid
    let s := match sl.secret with
      | some k => if csHold sl.cs then
          { s with hop := { s.hop with carries := Tab.set s.hop.carries sl.head ((Tab.getD s.hop.carries sl.head []) ++ [k]) } }
        else s
      | none => s
    settleChain (s.setSlip sid { sl with phase := .finished, unit := none, gang := [] }) sl.head

/-- `RESULT_INLINE` of `STATE_REJECTED`: object and state code (R91). -/
def stateInline (obj code : Nat) : W64 := BitVec.ofNat 64 (obj + 256 * code)

/-- Complete the fetched slips of a chain that waits for its last slip with `CHAIN_BROKEN` (R87). -/
def breakOpenChain (s : State) (hn : Nat) : State :=
  match s.hopper? hn with
  | none => s
  | some h =>
    match h.openChain with
    | none => s
    | some head =>
      let s := s.setHopper hn { h with openChain := none }
      breakChain s head

/-- Stop a slip with a status without settling its chain yet. -/
def haltSlip (s : State) (status : Nat) (inline : W64) (sid : Nat) : State :=
  match s.slip? sid with
  | none => s
  | some sl =>
    let s := freeUnit s sid
    s.setSlip sid { sl with
      status := status, outLen := 0, inline := inline, out := [], slotOps := [], secret := none, unit := none, gang := []
      phase := if sl.writesLeft ≠ 0 then .draining else .finished }

/-- Slips that `abortSlips` ends: those staged, running, suspended or just executed. -/
def abortable (sl : Slip) : Bool :=
  sl.phase == .staged || sl.phase == .running || sl.phase == .suspended || sl.phase == .executed

/-- End every slip that satisfies `which` with a status; chains that still wait for their last slip end with it. -/
def abortSlips (s : State) (which : Slip → Bool) (status : Nat) (inline : W64 := 0) : State :=
  let hit := s.hop.slips.filter fun p => which p.2 && abortable p.2
  let heads := (hit.map fun p => p.2.head).dedup
  let s := (hit.map (·.1)).foldl (haltSlip · status inline) s
  let s := { s with hop := { s.hop with
      slips := Tab.mapVals s.hop.slips fun _ sl => if heads.contains sl.head then { sl with chainComplete := true } else sl
      hoppers := Tab.mapVals s.hop.hoppers fun _ h => match h.openChain with
        | some x => if heads.contains x then { h with openChain := none } else h
        | none => h } }
  heads.foldl settleChain s

/-- Secret input of a slip: the selected carries, in ascending order (R85). -/
def carryIn (s : State) (sl : Slip) : Bytes :=
  let cs := Tab.getD s.hop.carries sl.head []
  ((List.range 4).filter fun j => bit (csCarry sl.cs) j).flatMap fun j => cs.getD j []

end Sys2Proof.Machine
end

