-- ==== Sys2Proof/Machine/MbxOps.lean ====
section
/-!
DEFINITION. The mailbox of a function: frames, checks in the order of R367, responses (chapter 15).
-/

namespace Sys2Proof.Machine

/-- What a command answers (R361). -/
structure Ans where
  status : Nat := 0
  obj : Nat := 0
  st : Nat := 0
  detail : Nat := 0
  payload : Bytes := []
  deriving DecidableEq, Repr

/-- The outcome of a command's checks and execution: done with an answer, or accepted and waiting (the mailbox stays
BUSY). -/
inductive CmdRes where
  | done (s : State) (a : Ans)
  /-- Answered; something more follows the response. -/
  | doneThen (s : State) (a : Ans) (after : State → State)
  | wait (s : State) (w : MbxWait)

/-- `STATE_REJECTED` with object and state code (R91, R367). -/
def rejected (obj st : Nat) : Ans := { status := St.stateRejected, obj := obj, st := st }

/-- `STATE_REJECTED` for the device's state (object 0x01). -/
def devRejected (s : State) : Ans := rejected 1 (devCode s)
/-- For a carrel's state (object 0x02). -/
def crlRejected (s : State) (c : Nat) : Ans := rejected 2 (carrelCode (s.carrel c).st)
/-- For the life-cycle state (object 0x04). -/
def lcsRejected (s : State) : Ans := rejected 4 (lcsCode s.tmp.lcs)
/-- For the pair state (object 0x05). -/
def pairRejected (s : State) : Ans := rejected 5 (pairCode s.mirror.state)

/-- State code of the open stacks (object 0x07, R367). -/
def ostkCode (s : State) : Nat := b2n s.tuns.staged.isSome + 2 * b2n s.tuns.active.isSome

def folCode : FolState → Nat
  | .empty => 0
  | .identifying => 1
  | .reconciling => 2
  | .mounted => 3
  | .readOnly => 4
  | .foreign => 5
  | .unusable => 6

/-- State of the lowest-numbered occupied cartridge slot (R509); 0x00 when every slot is empty. -/
def folStateCode (s : State) : Nat :=
  match (List.range 4).find? fun n => (s.folSlot n).state != .empty with
  | some n => folCode (s.folSlot n).state
  | none => 0

/-- For the cartridges (object 0x08). -/
def folRejected (s : State) : Ans := rejected 8 (folStateCode s)

def fail (st : Nat) : Ans := { status := st }

/-! ## Frames (R360 to R362) -/

/-- Bytes 0 to 15 + `PAYLOAD_LEN` of the command window. -/
def frameOf (m : Mbx) : Bytes := slice m.cmdWin 0 (16 + field m.cmdWin 2 2)

def framePayload (m : Mbx) : Bytes := slice m.cmdWin 16 (field m.cmdWin 2 2)

def vectorOf (m : Mbx) : Nat := (m.evqCfg.extractLsb' 7 6).toNat

/-- The 32-byte response header and its payload (R361). -/
def rspBytes (s : State) (m : Mbx) (a : Ans) (dseq : W32) : Bytes :=
  le 2 (field m.cmdWin 0 2) ++ le 2 a.payload.length ++ le 4 (field m.cmdWin 4 4) ++ le 4 dseq.toNat ++ le 2 a.status
    ++ [BitVec.ofNat 8 a.obj, BitVec.ofNat 8 a.st] ++ le 4 a.detail ++ le 2 (2 * b2n m.restarted) ++ zeros 2 ++ le 8 s.now
    ++ a.payload

/-- The audit log's mailbox record (R510). -/
def mbxAudit (fn : Nat) (m : Mbx) (a : Ans) (dseq : W32) : Bytes :=
  le 2 (field m.cmdWin 0 2) ++ le 2 fn ++ le 4 (field m.cmdWin 4 4) ++ le 4 dseq.toNat ++ le 2 a.status
    ++ le 4 (match m.session with
        | some se => se.key
        | none => 0xFFFF_FFFF)

/-- The frame's `SESSION_ID` is that of the function's session. -/
def sessionMatch (m : Mbx) : Bool :=
  match m.session with
  | some se => decide (se.id.toNat = field m.cmdWin 8 4)
  | none => false

/-- Place a response, where a command awaits one: the window is written, the command window zeroised, `BUSY` cleared, `RSP_READY` set and `RSP_VEC`
raised (R362); it takes the next DSEQ (R365). `keep` stores it as the kept response (R364). A command of the session restarts its
idle time (R373). -/
def respond (s : State) (fn : Nat) (a : Ans) (keep : Bool := true) : State :=
  let m := s.mbx fn
  if !m.busy then s
  else
  let dseq := m.lastDseq + 1
  let r := rspBytes s m a dseq
  let s := auditAppend s (mbxAudit fn m a dseq)
  let s := s.setMbx fn { m with
    cmdWin := [], rspWin := r, busy := false, rspReady := m.rspReady.hit, lastDseq := dseq, wait := .none, restarted := false
    lastRsp := if keep then r else m.lastRsp
    session := if sessionMatch m then m.session.map fun se => { se with lastAt := s.sec } else m.session }
  s.send (.msix fn (vectorOf m))

/-- Present the kept response again with `REPLAYED` set (R364). -/
def replayRsp (s : State) (fn : Nat) : State :=
  let m := s.mbx fn
  let r := splice m.lastRsp 20 (le 2 (field m.lastRsp 20 2 / 2 * 2 + 1))
  let s := s.setMbx fn { m with cmdWin := [], rspWin := r, busy := false, rspReady := m.rspReady.hit, restarted := false }
  s.send (.msix fn (vectorOf m))

/-! ## The checks of R367 -/

inductive Role where
  /-- Every function, no session. -/
  | any
  /-- The Operator on the PF or a carrel administrator on its VF, with a session. -/
  | oa
  /-- The Operator on the PF, with a session. -/
  | o
  /-- A carrel administrator on its VF, with a session. -/
  | a
  /-- Vendor Debug on the PF, no session. -/
  | d
  /-- Vendor Debug on the PF without a session, or the Operator with one. -/
  | od
  deriving DecidableEq, Repr

/-- What distinguishes one command (R375). -/
structure CmdSpec where
  code : Nat
  role : Role
  /-- Step 2: the payload length is the request's. -/
  lenOk : Nat → Bool
  /-- Step 2: its reserved fields are zero (R5). -/
  rsvOk : Bytes → Bool := fun _ => true
  /-- Step 4: the named objects belong to the function's carrel. -/
  owns : State → Nat → Bytes → Bool := fun _ _ _ => true
  /-- Step 6, device states (R369): admitted while BOOTING; in RECOVERY; at S1; at S2 and S3; at S4. -/
  booting : Bool := false
  recovery : Bool := false
  s1 : Bool := true
  s23 : Bool := true
  s4 : Bool := false
  /-- Step 6, life-cycle states (R484): admitted in RETURNED; in SCRAP and INVALID. -/
  returned : Bool := false
  scrap : Bool := false
  /-- Step 6: writes a record to folio (R509). -/
  folio : Bool := false

/-- Exactly `n` bytes of payload. -/
def lenIs (n : Nat) : Nat → Bool := fun l => l == n

/-- The mailboxes are dead (R358, R369): the device is FAILED, and not through its entropy unit alone, which leaves the
registrar answering and refusing what draws randomness (R351 step 5, log 154). DEDUCED. -/
def mbxDead (s : State) : Bool := s.reg.dev == .failed && !(s.ent.state == .failed && decide (s.reg.pairsFenced < 2))

/-- The shed stage in force admits the command (R369). -/
def stageAdmits (s : State) (c : CmdSpec) : Bool :=
  match s.cel.stage with
  | 0 => true
  | 1 => c.s1
  | 2 | 3 => c.s23
  | _ => c.s4

/-- The device state admits the command (R369, R386); with the entropy unit failed, what the state before it admitted
(R351, log 154). -/
def devAdmits (s : State) (c : CmdSpec) : Bool :=
  match s.reg.dev with
  | .booting => c.booting
  | .recovery => c.recovery
  | .ready => stageAdmits s c
  | .failed => !mbxDead s && (if s.boot.stage < 13 then c.booting else stageAdmits s c)
  | _ => false

/-- The life-cycle state admits the command (R484). -/
def lcsAdmits (s : State) (fn : Nat) (c : CmdSpec) : Bool :=
  match s.tmp.lcs with
  | .returned => c.returned && fn == 0
  | .scrap | .invalid | .blank => c.scrap
  | .factory | .provisioned | .service => true

/-- `ADM_ENROL` on the PF needs no session while carrel 0 holds no enrolled key in PROVISIONED or SERVICE (R482). -/
def enrolOpen (s : State) (fn : Nat) (c : CmdSpec) : Bool :=
  c.code == 0x0014 && fn == 0 && (s.tmp.lcs == .provisioned || s.tmp.lcs == .service)
    && !s.reg.admins.any fun p => p.1 / 4 == 0

/-- A command of this function has a session that matches, or needs none (R370, R371, R386, R482, R484). -/
def sessionOk (s : State) (fn : Nat) (c : CmdSpec) : Bool :=
  let m := s.mbx fn
  let free := fn == 0 && (s.tmp.lcs == .factory || (s.tmp.lcs == .returned && c.returned) || (s.reg.dev == .recovery && c.recovery))
  match c.role with
  | .any | .d => true
  | .o | .oa | .a => free || enrolOpen s fn c || sessionMatch m
  | .od => field m.cmdWin 8 4 == 0 || sessionMatch m

/-- The role of the function permits the command (R370): a VF whose carrel is ABSENT admits only session-free commands. -/
def roleOk (s : State) (fn : Nat) (c : CmdSpec) : Bool :=
  match c.role with
  | .any => true
  | .d | .o | .od => fn == 0
  | .oa => fn == 0 || (s.carrel fn).st != .absent
  | .a => fn != 0 && (s.carrel fn).st != .absent

/-- Bytes waiting for folio, in KiB, of the pending queue (R509); a record takes its 48-byte header, payload and tag,
padded to 512 bytes. -/
def recKib : RecKind → Nat
  | .slot _ sl => (48 + 128 + extentLines sl.keyLen * 64 + 16 + 511) / 512
  | .treeCache _ => 512
  | .carrel _ _ hs _ => (48 + 512 + 64 * hs.length + 16 + 511) / 512
  | .faultCfg t => (48 + 8 * t.length + 16 + 511) / 512
  | _ => 1

/-- Half-KiB units of the pending queue. -/
def queueHalfKib (s : State) : Nat := (s.folio.queue.map fun r => recKib r.kind).sum

/-- The pending queue is full: 8 MiB (R509). -/
def queueFull (s : State) : Bool := decide (queueHalfKib s ≥ 16384)

/-- The first failing check of steps 2 and 4 to 6; steps 1 and 3 are `serve`'s and `MBX_NOP`'s. -/
def checkCmd (s : State) (fn : Nat) (c : CmdSpec) (p : Bytes) : Option Ans :=
  let m := s.mbx fn
  if !(decide (field m.cmdWin 2 2 ≤ 4080) && c.lenOk p.length && field m.cmdWin 12 4 == 0 && c.rsvOk p
        && ((c.role != .any && c.role != .d) || field m.cmdWin 8 4 == 0)) then
    some (fail St.formatInvalid)
  else if !(roleOk s fn c && c.owns s fn p) then some (fail St.roleDenied)
  else if !sessionOk s fn c then some (fail St.authRequired)
  else if !devAdmits s c then some (devRejected s)
  else if !lcsAdmits s fn c then some (lcsRejected s)
  else if c.folio && queueFull s then some (folRejected s)
  else none

/-- HSEQ is accepted (R364). -/
def hseqOk (m : Mbx) : Bool := m.seqOpen || field m.cmdWin 4 4 == (m.lastHseq + 1).toNat

/-- The frame is the last accepted one, byte for byte (R364). -/
def isReplay (m : Mbx) : Bool :=
  !m.seqOpen && field m.cmdWin 4 4 == m.lastHseq.toNat && frameOf m == m.lastFrame && !m.lastFrame.isEmpty

/-- The command waits for randomness (R346, R349). -/
def waitsRandom (m : Mbx) : Bool :=
  match m.wait with
  | .entropy _ => true
  | _ => false

/-- The command is run again: after a registrar switch (R357), or because randomness has come. -/
def again (m : Mbx) : Bool := m.restarted || waitsRandom m

/-- A function's mailbox has a command to serve; in RECOVERY the virtual functions are disabled (R386). -/
def canServe (s : State) (fn : Nat) : Bool :=
  let m := s.mbx fn
  m.busy && (m.wait == .none || waitsRandom m) && s.reg.served && !s.reg.switching && !mbxDead s
    && (s.reg.dev != .recovery || fn == 0)

/-- HSEQ is taken and the frame kept, whatever the outcome (R364). -/
def accept (s : State) (fn : Nat) : State :=
  let m := s.mbx fn
  s.setMbx fn { m with lastHseq := BitVec.ofNat 32 (field m.cmdWin 4 4), seqOpen := false, lastFrame := frameOf m }

/-- Serve the command in a function's window when it is the one named: the sequence check, the checks of R367 in order,
then the command itself, whose outcome is answered. -/
def serve (s : State) (fn : Nat) (c : CmdSpec) (body : State → Bytes → CmdRes) : State :=
  let m := s.mbx fn
  if !canServe s fn || field m.cmdWin 0 2 != c.code then s
  else if isReplay m && !again m then replayRsp s fn
  else if !hseqOk m && !again m then
    respond s fn { status := St.mbxSeqInvalid, detail := (m.lastHseq + 1).toNat } false
  else
    let s := accept s fn
    let p := framePayload m
    match checkCmd s fn c p with
    | some a => respond s fn a
    | none =>
      match body s p with
      | .done s a => respond s fn a
      | .doneThen s a after => after (respond s fn a)
      | .wait s w => s.setMbx fn { s.mbx fn with wait := w }

/-- Answer a command that was waiting, if it still waits. -/
def answerWait (s : State) (fn : Nat) (w : MbxWait) (a : Ans) : State :=
  if (s.mbx fn).wait = w then respond s fn a else s

/-- Commit the command of a function that waits for `w`; one whose function has been reset commits without a response (R390). -/
def underMbx (s : State) (fn : Nat) (w : MbxWait) (k : State → State) : State :=
  if (s.mbx fn).wait = w then k s
  else match s.reg.cutOff.find? fun p => p.1 == fn && p.2.wait == w with
    | none => s
    | some (_, m) =>
      let cur := s.mbx fn
      let s := { s with reg := { s.reg with cutOff := s.reg.cutOff.filter fun p => p.2.wait != w } }
      let s := k (s.setMbx fn { m with session := cur.session })
      s.setMbx fn { cur with session := (s.mbx fn).session }

/-- Functions that wait for `w`. -/
def waiting (s : State) (w : MbxWait) : List Nat := (s.reg.mbx.filter fun p => p.2.wait == w).map (·.1)

/-- Answer every function that waits for `w`. -/
def answerAll (s : State) (w : MbxWait) (a : Ans) : State := (waiting s w).foldl (fun s fn => answerWait s fn w a) s

end Sys2Proof.Machine
end

