-- ==== Sys2Proof/Machine/MirrorOps.lean ====
section
/-!
DEFINITION. The mirror pair's shared operations: pair states, synchronous changes, their refusal, the loss of the link
(chapter 17).
-/

namespace Sys2Proof.Machine

/-- Change the pair state; `EVT_MIRROR` on a change (R547). -/
def setPair (s : State) (st : PairState) : State :=
  if s.mirror.state = st then s
  else queueEvent { s with mirror := { s.mirror with state := st } } 9 [BitVec.ofNat 8 (pairCode st)]

/-- `SYNC_REFUSED` (R430). -/
def syncRefused (s : State) : State :=
  { s with mirror := { s.mirror with syncRefused := s.mirror.syncRefused.hit } }

/-- The answer to a refused synchronous change: object 0x05, state 0x03 (R430). -/
def syncRejected : Ans := rejected 5 3

/-- A synchronous change of this carrel is refused: the pair is DEGRADED and the carrel homed here and mirrored (R430). -/
def syncBlocked (s : State) (c : Nat) : Bool :=
  s.mirror.state == .degraded && c != 0 && homeOf s c == .here

/-- A deaccession that waits is given up: a void record cancels its tombstone (R509, R513). -/
def cancelDeac (s : State) (n : Nat) : State :=
  let s := s.setSlot n { s.slot n with deacPending := none, deacPeer := false, deacTomb := false }
  match s.folio.queue.find? fun r => match r.kind with
      | .tombstone m _ => m == n
      | _ => false with
  | some r => { s with folio := { s.folio with queue := s.folio.queue.filter fun q => q.seq != r.seq } }
  | none => queueRecord s (.void (s.folio.nextSeq - 1))

/-- The slips of a chain that wait for a commit which is refused: the slip whose change it is takes the status, the others
`CHAIN_BROKEN` (R430, R86). -/
def refuseChain (s : State) (head : Nat) (a : Ans) : State :=
  let m := chainOf s head
  let s := m.foldl (fun s p =>
    let s := p.2.slotOps.foldl (fun s op => match op with
      | .deaccession n => if (s.slot n).deacPending.isSome then cancelDeac s n else s
      | .create _ _ | .dres _ _ => s) s
    if p.2.slotOps.isEmpty then s.modSlip p.1 fun sl => { sl with phase := .finished }
    else haltSlip s a.status (stateInline a.obj a.st) p.1) s
  settleChain s head

/-- Staged slips that wait for a use of a slot which the peer can no longer grant (R322, R430). -/
def refuseBlock (s : State) (n : Nat) : State :=
  let hit := s.hop.slips.filter fun p => p.2.phase == .staged && !p.2.usesCounted && p.2.uses.contains n && !useBlockReady s n
  hit.foldl (fun s p => settleChain (haltSlip s St.stateRejected (stateInline 5 3) p.1) p.2.head) s

/-- Ask for the next block of 64 uses where the uses reserved go beyond the present block: through the archive for a persistent
slot, from the peer for a mirrored one (R322, R546). -/
def requestBlock (s : State) (n : Nat) : State :=
  let sl := s.slot n
  let need := sl.useCount + sl.reserved
  if sl.useLimit = 0 then s
  else
    let queued := Tab.has s.cat.archivePending n || s.folio.queue.any fun r => match r.kind with
      | .slot m _ => m == n
      | _ => false
    let s := if sl.persistent && decide (sl.folioCeil < need) && !queued then
        { s with cat := { s.cat with archivePending := Tab.set s.cat.archivePending n s.now } } else s
    let asked := s.mirror.waits.any fun w => match w.2 with
      | .useBlock m _ => m == n
      | _ => false
    if sl.mirrored && mirrors s sl.owner && decide (sl.peerCeil < need) && !asked then
      let ceil := min sl.useLimit (sl.peerCeil + 64)
      sendSync s [.useBlock n ceil] (.useBlock n ceil)
    else s

/-- Release the slot that a function's waiting import has reserved (R326). -/
def dropClaim (s : State) (fn : Nat) : State :=
  match (s.mbx fn).claim with
  | none => s
  | some n => (releaseClaim s n).setMbx fn { s.mbx fn with claim := none }

/-- Commands cut off by their function's reset that wait for `w` are given up (R390). -/
def dropCut (s : State) (w : MbxWait) : State :=
  let hit := s.reg.cutOff.filter fun p => p.2.wait == w
  let s := { s with reg := { s.reg with cutOff := s.reg.cutOff.filter fun p => p.2.wait != w } }
  hit.foldl (fun s p => match p.2.claim with
    | some k => releaseClaim s k
    | none => s) s

/-- What waits for one synchronous acknowledgement gets none: it ends with this answer. -/
def endWait (s : State) (n : Nat) (w : SyncWait) (a : Ans) : State :=
  match w with
  | .chain head => refuseChain s head a
  | .deaccession slot =>
    match (s.slot slot).deacPending with
    | some (some fn) => answerWait (dropCut (cancelDeac s slot) (.deaccession slot)) fn (.deaccession slot) a
    | _ => cancelDeac s slot
  | .lease slot =>
    { s with ledger := { s.ledger with keys := Tab.mod s.ledger.keys slot fun k => { k with granting := false } } }
  | .mailbox fn =>
    if (s.mbx fn).wait = .mirror n then answerWait (dropClaim s fn) fn (.mirror n) a else dropCut s (.mirror n)
  | .weed _ => s
  | .useBlock slot _ => refuseBlock s slot
  | .quiesced c => if (s.carrel c).st = .quiescing then setCarrelState s c .quiesced else s

/-- Refuse what waits for one synchronous acknowledgement (R430). -/
def refuseWait (s : State) (n : Nat) (w : SyncWait) : State := endWait (syncRefused s) n w syncRejected

/-- The link is declared lost: PAIRED becomes DEGRADED, and every unacknowledged synchronous change is refused (R430). -/
def linkDown (s : State) : State :=
  let ws := s.mirror.waits
  let s := { s with mirror := { s.mirror with
      linkUp := false, linkLost := s.mirror.linkLost.hit, waits := [], sentAt := [], batches := [] } }
  let s := if s.mirror.state = .paired ∨ s.mirror.state = .rejoining then setPair s .degraded else s
  ws.foldl (fun s w => refuseWait s w.1 w.2) s

/-! ## Mailbox commands whose change is mirrored (R423) -/

/-- A mailbox command that changes mirrored state: the change takes effect when the standby has acknowledged it. -/
structure SyncCmd where
  spec : CmdSpec
  /-- The checks of steps 6 and 7. -/
  check : State → Nat → Bytes → Option Ans
  /-- The carrel changed. -/
  carrel : State → Nat → Bytes → Nat
  /-- What the record carries; nothing when nothing mirrored changes. -/
  recs : State → Nat → Bytes → List SyncRec
  commit : State → Nat → Bytes → State × Ans

/-- Such a command after steps 1 to 5: refused while DEGRADED, sent to the standby while PAIRED, committed at once
otherwise. -/
def syncBody (c : SyncCmd) (s : State) (fn : Nat) (p : Bytes) : CmdRes :=
  match c.check s fn p with
  | some a => .done s a
  | none =>
    let k := c.carrel s fn p
    if (c.recs s fn p).isEmpty then .done (c.commit s fn p).1 (c.commit s fn p).2
    else if syncBlocked s k then .done (syncRefused s) syncRejected
    else if mirrors s k then .wait (sendSync s (c.recs s fn p) (.mailbox fn)) (.mirror s.mirror.nextSync)
    else .done (c.commit s fn p).1 (c.commit s fn p).2

/-- A command waits for the standby; the registrar commits commands one at a time, so the next of this kind waits (R363). -/
def syncBusy (s : State) : Bool := s.mirror.waits.any fun w => match w.2 with
  | .mailbox _ => true
  | _ => false

/-- Serve such a command. -/
def serveSync (s : State) (fn : Nat) (c : SyncCmd) : State :=
  if syncBusy s then s else serve s fn c.spec fun s p => syncBody c s fn p

/-- The standby has acknowledged: the command is checked against the present state and commits (R363, R423). -/
def commitSync (s : State) (fn : Nat) (c : SyncCmd) : State :=
  let p := framePayload (s.mbx fn)
  match c.check s fn p with
  | some a => respond s fn a
  | none => respond (c.commit s fn p).1 fn (c.commit s fn p).2

end Sys2Proof.Machine
end

