-- ==== Sys2Proof/Machine/SchedOps.lean ====
section
/-!
DEFINITION. What the dispatchers share: shed admission, charges, clusters and waking, stopping and re-running work
(chapter 4, R16 to R19, R112).
-/

namespace Sys2Proof.Machine

/-- Classic McEliece key generation, which shed stage S1 does not admit (R216). -/
def isMceKeygen (c : CallSlip) : Bool :=
  csClass c == 3 && (csOp c == 0x01 || csOp c == 0x81) && decide (3 ≤ csSet c) && decide (csSet c ≤ 12)

/-- The slip is admitted at the shed stage in force (R97, R461). -/
def admitted (s : State) (sl : Slip) : Bool :=
  match s.cel.stage with
  | 0 => true
  | 1 => !isMceKeygen sl.cs
  | 2 | 3 => !isMceKeygen sl.cs &&
(sl.cfg.urgent || csDeadline (headOf s sl).cs != 0)
  | _ => false

/-- Share weight of a carrel for a unit type (R98). -/
def shareOf (c : Carrel) : EngineType → Nat
  | .tun => c.shareTun
  | .floor => c.shareFloor
  | .pipe => c.sharePipe
  | .kiln => c.shareKiln
  | .none => 1

def gangSize (sl : Slip) : Nat := if sl.gang.isEmpty then 1 else sl.gang.length

/-- Add `k` ticks (30 to the ns) of unit time to the virtual times of a slip's carrel and hopper (R101); quotients round
down. -/
def charge (s : State) (sl : Slip) (k : Int) : State :=
  let u := s.units sl.engine
  let w : Int := shareOf (s.carrel sl.carrel) sl.engine
  let hw : Int := sl.cfg.weight
  let s := s.setUnits sl.engine { u with vt := Tab.set u.vt sl.carrel (Tab.getD u.vt sl.carrel 0 + k * 65536 / (30 * w)) }
  { s with sched := { s.sched with
      hvt := Tab.set s.sched.hvt sl.hopper (Tab.getD s.sched.hvt sl.hopper 0 + k * 256 / (30 * hw)) } }

/-- A full scrub or wipe begins: the unit's contents are gone and it accepts no work until the scrub ends (R141, R288). -/
def scrubUnit (s : State) (e : EngineType) (phys : Nat) : State :=
  let hold (s : State) : State :=
    let u := s.units e
    s.setUnits e { u with held := if u.held.contains phys then u.held else u.held ++ [phys] }
  match e with
  | .tun => hold (s.setTun phys { ({} : Tun) with scrubbing := true, trace := (s.tun phys).trace })
  | .kiln => hold (s.setKiln phys { wiping := true })
  | _ => s

/-- Physical units a slip runs on. -/
def physUnitsOf (s : State) (sl : Slip) : List Nat :=
  (heldUnits sl).filterMap (physOf (s.units sl.engine))

/-- Stop the units of a slip; each is wiped (R141, R288). -/
def stopUnits (s : State) (sid : Nat) (sl : Slip) : State :=
  let ps := physUnitsOf s sl
  ps.foldl (fun s p => scrubUnit s sl.engine p) (freeUnit s sid)

/-- Put a faulted slip back for its one re-run: nothing of the attempt remains but what R18 keeps (R112). -/
def resetForRerun (sl : Slip) : Slip :=
  { sl with phase := .staged, unit := none, gang := [], retried := true, status := 0, out := [], outLen := 0, inline := 0
            secret := none, slotOps := [], leaf := none, pass1 := none, check1 := [], waitBlock := false
            stage := 0, suspendReq := false }

/-- A slip's unit has faulted: it is re-run once on another unit (R17); a second fault ends it with `ABORTED` (R19); at a
shed stage that does not admit it, it ends with `POWER_SHED` (R21). The charge of the attempt is reversed (R112). -/
def rerun (s : State) (sid : Nat) : State :=
  match s.slip? sid with
  | none => s
  | some sl =>
    let s := charge s sl (-(sl.est * gangSize sl : Int))
    let s := freeUnit s sid
    if sl.retried then
      settleChain (haltSlip (s.setSlip sid { sl with unit := none, gang := [] }) St.aborted 0 sid) sl.head
    else if s.cel.stage ≥ 4 || !admitted s sl then
      settleChain (haltSlip (s.setSlip sid { sl with unit := none, gang := [], retried := true }) St.powerShed 0 sid) sl.head
    else s.setSlip sid (resetForRerun sl)

/-- The PLL that feeds a physical unit (R455). -/
def pllOf (e : EngineType) (phys : Nat) : Nat :=
  match e with
  | .tun => if phys < 72 then 0 else 1
  | .floor => 2
  | .pipe => 3
  | .kiln => 4
  | .none => 5

/-- The unit's clock is not held (R457). -/
def clockLive (s : State) (e : EngineType) (phys : Nat) : Bool :=
  !s.cel.unlocked.contains (pllOf e phys) && !s.cel.stopped.contains (pllOf e phys)

/-! ## Clusters (R16, R102, R103) -/

def setCluster (s : State) (e : EngineType) (c : Nat) (st : ClusterState) : State :=
  let u := s.units e
  s.setUnits e { u with clusters := Tab.set u.clusters c st }

/-- Wake latency of a cluster in fabric cycles: 20 ns, 2 us, 40 us (R458), or what remains of a wake. -/
def wakeLatency (s : State) (u : UnitArr) (c : Nat) : Nat :=
  match clusterState u c with
  | .run => 0
  | .idle => 25
  | .nap => 2500
  | .dormant => 50000
  | .waking at' => at' - s.now

/-- Kilns of a cluster, whose memory is wiped whole when it leaves DORMANT (R288). -/
def wipeCluster (s : State) (c : Nat) : State :=
  [2 * c, 2 * c + 1].foldl (fun s k => s.setKiln k {}) s

/-- Begin to wake a cluster. -/
def wake (s : State) (e : EngineType) (c : Nat) : State :=
  let u := s.units e
  match clusterState u c with
  | .idle | .nap => setCluster s e c (.waking (s.now + wakeLatency s u c))
  | .dormant =>
    let s := setCluster s e c (.waking (s.now + wakeLatency s u c))
    if e = .kiln then wipeCluster s c else s
  | .run | .waking _ => s

/-- Logical units in service at the stage in force (R461): all, or at S3 the retained ones. -/
def retained (s : State) (e : EngineType) (l : Nat) : Bool :=
  if s.cel.stage < 3 then true
  else match e with
    | .tun => decide (l < 16)
    | .floor => decide (l < 2)
    | .kiln => decide (l < 4)
    | .pipe =>
      let d := min s.pipes.directCnt.toNat 2
      decide (l < 32 - d) || decide (l ≥ 256 - d)
    | .none => true

/-! ## The direct group (R279, R282, R285) -/

/-- A page operation ends: `DONE`, the status, the interrupt it asks for; its pipe is free; a key whose session or ACTIVE
carrel is gone goes with it (R282, R283, R285). -/
def endPage (s : State) (fn p status : Nat) : State :=
  let x := s.page fn p
  let keep := (s.mbx fn).session.isSome && (s.carrel fn).st == .active
  let s := s.setPage fn p { x with
    busy := false, queued := false, unit := none, abortReq := false, done := x.done.hit, status := status
    key := if keep then x.key else [], keyLoaded := keep && x.keyLoaded }
  let s := if x.ctrl.getLsbD 33 then s.send (.msix fn (x.ctrl.extractLsb' 34 6).toNat) else s
  match x.unit.bind (physOf (s.units .pipe)) with
  | none => s
  | some q =>
    let u := s.units .pipe
    idleClusters (s.setUnits .pipe { u with lastCarrel := Tab.set u.lastCarrel q fn }) .pipe [clusterOf .pipe q]

/-- Pipes of the direct group that can take a page operation. -/
def directFree (s : State) : List Nat :=
  let u := s.units .pipe
  let used := usedUnits s .pipe
  ((List.range s.pipes.directCnt.toNat).map (255 - ·)).filter fun l => retained s .pipe l && !used.contains l
    && (match physOf u l with
        | some p => !Tab.has u.fenced p && !u.held.contains p && clockLive s .pipe p
        | none => false)

/-- Functions in turn after the one served last, each one's pages in the order of their `START` writes (R279). -/
def pageRank (s : State) (x : Nat × Page) : Nat × Nat := ((x.1 / 4 + 255 - s.pipes.lastFn) % 256, x.2.startedAt)

def nextPage (s : State) : Option (Nat × Page) :=
  (s.pipes.pages.filter fun x => x.2.queued).foldl (fun b x => match b with
    | none => some x
    | some y =>
      let a := pageRank s x
      let c := pageRank s y
      if a.1 < c.1 ∨ (a.1 = c.1 ∧ a.2 < c.2) then some x else b) none

/-- Start the next page operation on a direct pipe. -/
def startPage (s : State) (l : Nat) : State :=
  match nextPage s, physOf (s.units .pipe) l with
  | some (k, x), some p =>
    let s := s.setPage (k / 4) (k % 4) { x with queued := false, unit := some l }
    wake { s with pipes := { s.pipes with lastFn := k / 4 } } .pipe (clusterOf .pipe p)
  | _, _ => s

/-- Serve the page operations that wait (R279). -/
def servePages (s : State) : State := if s.cel.stage ≥ 4 then s else (directFree s).foldl startPage s

/-- The pipe of a page operation has failed: it runs once more, then ends with `ABORTED` (R285, R19). -/
def rerunPage (s : State) (k : Nat) : State :=
  let x := s.page (k / 4) (k % 4)
  if x.retried then endPage s (k / 4) (k % 4) St.aborted
  else s.setPage (k / 4) (k % 4) { x with queued := true, unit := none, retried := true }

/-- The page operations on a logical pipe. -/
def pagesOn (s : State) (l : Nat) : List Nat := (s.pipes.pages.filter fun x => x.2.unit == some l).map (·.1)

/-- `ABORT` of a page operation: one that waits ends at once, one that runs at its next check (R282). -/
def abortPage (s : State) (fn p : Nat) : State :=
  let x := s.page fn p
  if x.busy then
    if x.queued then endPage s fn p St.aborted else s.setPage fn p { x with abortReq := true }
  else s

/-- Every page operation that these functions have under way. -/
def busyPages (s : State) (fn : Nat → Bool) : List Nat :=
  (s.pipes.pages.filter fun x => x.2.busy && fn (x.1 / 4)).map (·.1)

end Sys2Proof.Machine
end

