-- ==== Sys2Proof/Machine/Faults.lean ====
section
/-!
DEFINITION. The fault collector's reactions: block resets, coincident events, fencing and sparing (R437, R438, R445 to
R448).
-/

namespace Sys2Proof.Machine

/-! ## Block resets (R438) -/

/-- An octet goes to `DOWN` and retrains; its queue pairs' timers run on (R438, R58). -/
def octetReset (s : State) (n : Nat) : State :=
  let o := s.octet n
  if o.state = .off then s
  else
    let s := s.setOctet n { o with
      state := .down, portUp := 0, laneLock := 0, linkFlap := if o.portUp = 0 then o.linkFlap else o.linkFlap.hit }
    { s with flt := { s.flt with octetReset := if s.flt.octetReset.contains n then s.flt.octetReset
                                               else s.flt.octetReset ++ [n] } }

/-- Indices left in the leases of a key. -/
def leasedLeft (k : StfKey) : Nat := (k.leases.map fun l => l.stop - l.next).sum

/-- Every lease is dropped (R231); a block reset counts the indices skipped. -/
def dropLeases (s : State) : State :=
  let n := (s.ledger.keys.map fun p => leasedLeft p.2).sum
  { s with ledger := { s.ledger with
      skipTot := s.ledger.skipTot + BitVec.ofNat 64 n
      keys := Tab.mapVals s.ledger.keys fun _ k =>
        { k with leases := [], granting := false, ownDone := false, peerDone := false } } }

/-- Block reset of the hopper engine: staged and running slips complete with `ABORTED`, their units are stopped and wiped,
leases are dropped; fetching stops until the reset ends (R438). -/
def hopperEngineReset (s : State) : State :=
  if s.hop.resetting then s
  else
    let s := (s.hop.slips.filter fun p => p.2.unit.isSome).foldl (fun s p => stopUnits s p.1 p.2) s
    let s := { s with hop := { s.hop with resetting := true, slips := Tab.mapVals s.hop.slips fun _ sl =>
      { sl with unit := none, gang := [] } } }
    dropLeases (abortSlips s (fun _ => true) St.aborted)

/-- Block reset of a cartridge slot: it is identified again and kept in RECONCILING (R499). -/
def folioReset (s : State) (n : Nat) : State :=
  let f := s.folSlot n
  if f.present then s.setFolSlot n { f with state := .reconciling, writing := none, anchoring := false } else s

/-- What a source's block reset acts on (R435). A report of the port or folio group names its octet or slot in `DETAIL`. -/
def blockReset (s : State) (r : FaultReport) : State :=
  if 0x100 ≤ r.source ∧ r.source ≤ 0x13F then octetReset s (r.detail.toNat % 64)
  else if r.source = 0x142 then hopperEngineReset s
  else if 0x1E0 ≤ r.source ∧ r.source ≤ 0x1EF then linkDown s
  else if 0x1F0 ≤ r.source ∧ r.source ≤ 0x1FF then folioReset s (r.detail.toNat % 4)
  else s

/-! ## One event (R441, R437) -/

/-- One event of a source that is not a unit source. -/
def report (s : State) (r : FaultReport) : State :=
  let m := strongest (eventMask s r)
  let s := collect s r (m.zeroExtend 8) false false false
  let s := if m.getLsbD 4 then errPin s else s
  if m.getLsbD 3 then chipReset s
  else if m.getLsbD 2 then blockReset s r
  else s

/-- A report of a source alone. -/
def reportSrc (s : State) (src : Nat) (carrel : Nat := 0xFF) (detail : W32 := 0) : State :=
  report s { source := src, carrel := carrel, detail := detail }

/-- An event of this source resets the chip. -/
def resets (s : State) (src : Nat) : Bool := (strongest (eventMask s { source := src })).getLsbD 3

/-- A report about a hopper. -/
def reportHop (s : State) (src carrel hopper : Nat) (octet : Nat := 0) : State :=
  report s { source := src, carrel := carrel, hopper := BitVec.ofNat 32 hopper, detail := BitVec.ofNat 32 octet }

/-! ## Fencing and sparing (R446) -/

/-- Logical index served by a physical unit. -/
def logicalOf (e : EngineType) (u : UnitArr) (phys : Nat) : Option Nat :=
  (List.range (activeUnits e)).find? fun l => physOf u l == some phys

/-- The spare to take: lowest in the same cluster, then lowest in an awake cluster, then lowest of all. -/
def chooseSpare (e : EngineType) (u : UnitArr) (phys : Nat) : Option Nat :=
  let sp := spares e u
  let awake (p : Nat) : Bool := match clusterState u (clusterOf e p) with
    | .run | .idle => true
    | _ => false
  match sp.find? fun p => clusterOf e p == clusterOf e phys with
  | some p => some p
  | none => match sp.find? awake with
    | some p => some p
    | none => sp.head?

/-- Fence a unit: it is stopped; a logical index it served stays with it until a spare is chosen. -/
def fenceUnit (s : State) (e : EngineType) (phys : Nat) (st : FenceState) : State :=
  let u := s.units e
  s.setUnits e { u with fenced := Tab.set u.fenced phys st }

/-- A spare takes the logical index, or it stays vacant; `SPR_SUBST` or `SPR_EXHAUSTED` is reported. -/
def substitute (s : State) (e : EngineType) (phys l : Nat) : State :=
  let u := s.units e
  let r : FaultReport := { source := 0, unitType := unitTypeCode e, phys := phys, logical := l }
  match chooseSpare e u phys with
  | some p =>
    let s := s.setUnits e { u with map := Tab.set u.map l (some p) }
    report (wake s e (clusterOf e p)) { r with source := 0x300 }
  | none => report (s.setUnits e { u with map := Tab.set u.map l none }) { r with source := 0x301 }

/-- A pipe of the direct group: the highest `DIRECT_CNT` logical indices (R279). -/
def isDirectPipe (s : State) (l : Nat) : Bool := decide (l ≥ 256 - s.pipes.directCnt.toNat)

/-- A unit fault (R446): logged with `FENCED` and `SUBSTITUTED`; the unit is fenced, a spare takes its index, and the slip
it ran is re-run. With a chip reset in the mask nothing is fenced (R445). A fault of a unit already fenced fails its retest
(R445, R447). `cap` holds the reactions that coincident events leave to it. -/
def unitFault (s : State) (e : EngineType) (phys src : Nat) (detail : W32 := 0) (coincident : Bool := false)
    (cap : BitVec 5 := 0x1F#5) : State :=
  let old := s
  let u := s.units e
  let l := logicalOf e u phys
  let hit := s.hop.slips.filter fun p => p.2.engine == e && (match l with
    | some l => (heldUnits p.2).contains l
    | none => false)
  let pages := if e = .pipe then (l.map (pagesOn s)).getD [] else []
  let sl := hit.head?.map (·.2)
  let r : FaultReport :=
    { source := src, unitType := unitTypeCode e, phys := phys, logical := l.getD 0xFFFF
      carrel := (sl.map (·.carrel)).getD ((pages.head?.map (· / 4)).getD 0xFF), hopper := (sl.map fun x => BitVec.ofNat 32 x.hopper).getD 0xFFFF_FFFF#32
      detail := detail }
  let m := strongest (eventMask s r)
  let severe := isSevere s r
  let retest := Tab.has u.fenced phys
  let s := collect s r ((m &&& cap).zeroExtend 8) coincident (!m.getLsbD 3) (!m.getLsbD 3 && l.isSome && (chooseSpare e u phys).isSome)
  let s := if m.getLsbD 4 then errPin s else s
  if m.getLsbD 3 then chipReset s
  else if retest then
    report (fenceUnit s e phys .severe) { source := 0x302, unitType := unitTypeCode e, phys := phys }
  else
    let s := fenceUnit s e phys (if severe then .severe else .minor)
    let s := scrubUnit s e phys
    let others := if e = .tun then (hit.flatMap fun p => physUnitsOf s p.2).filter (· != phys) else []
    let s := others.foldl (fun s p => scrubUnit s .tun p) s
    let s := hit.foldl (fun s p => rerun s p.1) s
    let s := match l with
      | some l => substitute s e phys l
      | none => s
    let s := pages.foldl rerunPage s
    noteDev old (if e = .pipe then servePages s else s)

/-! ## Coincident events (R445) -/

/-- The unit type of a unit source (R435). -/
def sourceEngine (n : Nat) : EngineType :=
  if n < 0x200 ∨ 0x2FF < n then .none
  else if n < 0x240 then .tun
  else if n < 0x280 then .floor
  else if n < 0x2C0 then .pipe
  else .kiln

/-- One event of any source. -/
def reportOne (s : State) (r : FaultReport) : State :=
  if isUnitSource r.source then unitFault s (sourceEngine r.source) r.phys r.source r.detail else report s r

/-- Events that reach the collector in one cycle: each takes its own severity and is logged `COINCIDENT`; of the union only
the strongest of `INT` to `CHIP_RESET` is applied, `ERR_PIN` besides; block resets of different targets all apply; every
unit source fences its unit unless the chip resets. -/
def reportAll (s : State) (rs : List FaultReport) : State :=
  match rs with
  | [] => s
  | [r] => reportOne s r
  | _ =>
    let m := strongest (rs.foldl (fun m r => m ||| eventMask s r) 0)
    let cap := m ||| 0x10#5
    let gone := m.getLsbD 3
    let s := rs.foldl (fun s r =>
      if isUnitSource r.source && !gone then unitFault s (sourceEngine r.source) r.phys r.source r.detail true cap
      else collect s r ((strongest (eventMask s r) &&& cap).zeroExtend 8) true false false) s
    let s := if m.getLsbD 4 then errPin s else s
    if gone then chipReset s
    else rs.foldl (fun s r => if (eventMask s r).getLsbD 2 then blockReset s r else s) s

end Sys2Proof.Machine
end

