-- ==== Sys2Proof/Machine/OpSpec.lean ====
section
/-!
DEFINITION. What distinguishes one operation of a call slip, and the checks of R81, steps 1 to 8, over it. Each family's
file gives its operations' descriptions; the checks are said once, here.
-/

namespace Sys2Proof.Machine

/-- Does the operation take a key, or a destination: never, always, or at the slip's choice (R77)? -/
inductive Need where
  | no | yes | opt
  deriving DecidableEq, Repr

/-- One unit's part of an operation: its type, its estimate and its minimum in thirtieths of a ns at full clocks, and the
same for each unit of a group of four, where the operation can take one (R275, R216). -/
structure Stage where
  engine : EngineType
  est : Nat
  min : Nat
  /-- 1: one unit. 4: a group of four where one is free. -/
  group : Nat := 1
  estG : Nat := 0
  /-- The group is needed, not only preferred (R135, R216). -/
  must : Bool := false
  deriving DecidableEq, Repr

/-- Ticks in a cycle of each clock: tuns and kilns 2.0 GHz, pipes 1.25 GHz, floors 1.5 GHz, fabric 1.25 GHz. -/
def tunCy (n : Nat) : Nat := 15 * n
def pipeCy (n : Nat) : Nat := 24 * n
def floorCy (n : Nat) : Nat := 20 * n
def fabricCy (n : Nat) : Nat := 24 * n

/-- One stage of fixed cost. -/
def stage1 (e : EngineType) (ticks : Nat) : List Stage := [{ engine := e, est := ticks, min := ticks }]

def mib : Nat := 1048576

/-- The new-slot field group in `OP_PARAM` (R249). -/
def groupAttr (p : Nat) : SegAttr :=
  { cls := bits p 39 32, flags := bits p 52 50, usage := BitVec.ofNat 10 (bits p 49 40), parent := 0, useLimit := 0, expiry := 0 }

/-- Attributes of the new slot: extension segment 1, or the field group of a slip without one (R323, R249). -/
def slipAttr (cs : CallSlip) (exts : List Bytes) : SegAttr :=
  match exts with
  | e :: _ => parseSeg e
  | [] => groupAttr (csParam cs)

/-- What the checks know of a slip. -/
structure Cx where
  s : State
  hop : Hopper
  cs : CallSlip
  exts : List Bytes := []
  /-- The key that the slip uses: the slot `KEY_REF` names, or the record it carries once that is opened. -/
  key : Option Slot := none
  /-- Secret sizes of the `HOLD` slips before it in its chain (R267). -/
  held : List (Option Nat) := []
  /-- The slip stands alone. -/
  alone : Bool := true
  /-- Bytes of `AUX` that a key transfer record takes, once opened (R331). -/
  recLen : Nat := 0
  /-- The curve slot as the slip loaded it, once it has (R309). -/
  curve : Option Slot := none

namespace Cx

def crl (c : Cx) : Nat := c.hop.carrel
def carrel (c : Cx) : Carrel := c.s.carrel c.crl
def ext (c : Cx) (n : Nat) : Bytes := c.exts.getD n []
def seg (c : Cx) : SegAttr := slipAttr c.cs c.exts
def set (c : Cx) : Nat := csSet c.cs
def op (c : Cx) : Nat := csOp c.cs
def param (c : Cx) : Nat := csParam c.cs
def keyUsed (c : Cx) : Bool := csKeyUsed c.cs
def inline? (c : Cx) : Bool := csInline c.cs
def destUsed (c : Cx) : Bool := csDestUsed c.cs
def hold (c : Cx) : Bool := csHold c.cs
/-- 64-bit lengths are in segment 1 (R271). -/
def len64 (c : Cx) : Bool := csClass c.cs == 4 && bit c.param 32 && !c.exts.isEmpty
def inLen (c : Cx) : Nat := if c.len64 then field (c.ext 0) 8 8 else c.cs.inLen
def outMax (c : Cx) : Nat := if c.len64 then field (c.ext 0) 16 8 else c.cs.outMax
/-- The operation's own `AUX` (R331). -/
def auxLen (c : Cx) : Nat := c.cs.auxLen - c.recLen
/-- The length of `AUX` is the operation's own only once the record is opened (R331). -/
def auxKnown (c : Cx) : Bool := !c.inline? || c.key.isSome
/-- Masking at 3 shares (R394). -/
def three (c : Cx) : Bool := c.carrel.maskOrder == 3
/-- Total length of the carries selected, where every one is known (R267). -/
def carryLen (c : Cx) : Option Nat :=
  ((List.range 4).filter fun j => bit (csCarry c.cs) j).foldl (fun acc j =>
    match acc, (c.held.getD j none) with
    | some n, some k => some (n + k)
    | _, _ => none) (some 0)
def carried (c : Cx) : Bool := csCarry c.cs != 0
/-- Key material takes part: a key or a carry. -/
def keyed (c : Cx) : Bool := c.keyUsed || c.carried
def keyClass (c : Cx) : Nat := (c.key.map (·.keyClass)).getD 0
def keyLen (c : Cx) : Nat := (c.key.map (·.keyLen)).getD 0

end Cx

/-- The description of one operation on one slip. -/
structure OpSpec where
  key : Need := .no
  dest : Need := .no
  /-- Exactly one of `HOLD` and `DEST_USED` (R181). -/
  xor : Bool := false
  holdOk : Bool := false
  carryOk : Bool := false
  /-- Extension segments the operation defines (R80). -/
  ext : Nat := 0
  /-- Step 1, the operation's own conditions. -/
  fmt : Bool := true
  /-- Step 3: the `SLOT_PERM` bit needed. -/
  perm : Option Nat := none
  step3 : Bool := true
  /-- Step 4: approved, not approved, or known only at step 11 (R320). -/
  approved : Option Bool := some true
  /-- Step 5: `STATE_REJECTED` with this object and state. -/
  state5 : Option (Nat × Nat) := none
  /-- Step 6: limits on a LONG hopper, and on another. -/
  inMax : Nat := 16 * mib
  outMax : Nat := 16 * mib
  inShort : Nat := 16 * mib
  len6 : Bool := true
  /-- Step 7. -/
  keyOk : Nat → Bool := fun _ => true
  usageOk : BitVec 10 → Bool := fun _ => true
  /-- Only checks 1 and 2 of R320 (CAT_INFO, R327). -/
  keyBare : Bool := false
  step7 : Option Nat := none
  /-- Another slot the slip names, of which it counts a use. -/
  other : Option Nat := none
  /-- Step 8: class and length of the new key; the parent of rule 3 of R324. -/
  newLen : Nat := 0
  parent : Option Nat := none
  outSize : Option Nat := none
  fixed : Bool := true
  param8 : Bool := true
  /-- Length of the secret result, where the parameters fix it (R84, R267). -/
  secretLen : Option Nat := none
  random : Bool := false
  /-- It needs a free ledger counter (R203). -/
  ledger : Bool := false
  /-- It may be suspended as a LONG message (R106). -/
  long : Bool := false
  /-- `ENGINE_ID` of an operation that uses no unit; its time in ticks. -/
  engineId : Nat := 0
  bare : Nat := 0
  stages : List Stage := []

/-- A refusal. -/
structure Bad where
  status : Nat
  outLen : Nat := 0
  inline : W64 := 0
  deriving DecidableEq, Repr

/-- A slip's place in its chain. -/
structure Pos where
  first : Bool
  last : Bool
  /-- Carries filled before it. -/
  filled : Nat := 0
  /-- Sum of `OUT_LEN_MAX` before it. -/
  outSum : Nat := 0
  /-- The chain is 16 slips that all have `CHAIN` (R84). -/
  full : Bool := false

def Pos.alone (p : Pos) : Bool := p.first && p.last && !p.full

/-- A usage is granted (R318). -/
def uses (b : Nat) : BitVec 10 → Bool := fun u => u.getLsbD b

/-- Every carry selected has been filled (R84). -/
def carriesFilled (c : Cx) (p : Pos) : Bool := decide (csCarry c.cs < 2 ^ p.filled)

/-- Step 1, the conditions that hold for every operation (R77, R78, R80, R84, R331, R394). -/
def step1Ok (c : Cx) (p : Pos) : Bool :=
  let cs := c.cs
  !p.full
    && cs.keyRef &&& 0x7FE0_0000#32 == 0 && cs.dlExt &&& 0xFFC0_0000#32 == 0 && cs.dest &&& 0x3FE0_0000#32 == 0
    && cs.flags &&& 0xF0C0#16 == 0
    && (csKeyUsed cs || cs.keyRef == 0) && (csDestUsed cs || cs.dest == 0) && (!csAlloc cs || csDest cs == 0)
    && (List.range (csExt cs)).all (fun j =>
        field (c.ext j) 0 4 == (j + 1) + 65536 * (cs.slipSeq.toNat % 65536))
    && (p.first || (!csFence cs && !csShed cs && csDeadline cs == 0))
    && (!c.carried || (!p.first && carriesFilled c p))
    && (!csHold cs || !p.last)
    && (p.alone || (decide (cs.inLen ≤ 16 * mib) && decide (cs.outMax ≤ 16 * mib)))
    && (!csInline cs || (csKeyUsed cs && csClass cs != 0 && csClass cs != 7 && csClass cs != 8))
    && (!(c.carrel.requireDeadline && p.first && csClass cs != 0) || csDeadline cs != 0)

def needOk (n : Need) (present : Bool) : Bool :=
  match n with
  | .no => !present
  | .yes => present
  | .opt => true

/-- The slip creates a slot. -/
def creates (c : Cx) : Bool := c.destUsed

/-- Step 1, the operation's conditions: presence of key and destination, flags, segments, reserved fields. -/
def step1Op (c : Cx) (sp : OpSpec) : Bool :=
  needOk sp.key c.keyUsed && needOk sp.dest c.destUsed
    && (!sp.xor || (c.hold != c.destUsed)) && (!c.hold || (sp.holdOk && decide (sp.secretLen.getD 0 ≤ 64)))
    && (!c.carried || sp.carryOk) && csExt c.cs == sp.ext && sp.fmt
    && (!creates c || (segReservedOk (c.ext 0)
          && !(bit c.seg.flags 3 && (c.keyUsed || sp.parent.isSome))))

/-- The parent of the new slot (R324). -/
def parentOf (c : Cx) (sp : OpSpec) : Nat :=
  if c.keyUsed then csKey c.cs
  else match sp.parent with
    | some p => p
    | none => if bit c.seg.flags 3 then c.seg.parent else c.crl

/-- A KEK for inline wrapped keys (R331). -/
def kekOk (cls : Nat) : Bool := isAesClass cls

/-- Step 7 (R320, R331, R324). -/
def step7 (c : Cx) (sp : OpSpec) : Option Nat :=
  let k := csKey c.cs
  let keyed := if !c.keyUsed then none
    else if c.inline? then keyCheck c.s c.crl k kekOk (uses 8) true
    else if sp.keyBare then
      (if !inAllot c.s c.crl k then some St.keyCarrelMismatch
       else if (c.s.slot k).valid then none else some St.keySlotEmpty)
    else keyCheck c.s c.crl k sp.keyOk sp.usageOk (sp.approved != some false)
  match keyed with
  | some st => some st
  | none => match sp.step7 with
    | some st => some st
    | none =>
      if creates c && !c.keyUsed && sp.parent.isNone && bit c.seg.flags 3 then slotCheck13 c.s c.crl c.seg.parent
      else none

/-- The new slot's depth and persistence suit its parent (R324). -/
def parentFits (c : Cx) (sp : OpSpec) : Bool :=
  let p := c.s.slot (parentOf c sp)
  decide (p.depth + 1 ≤ 8) && (!bit c.seg.flags 0 || p.persistent)

/-- Step 8, in the order destination, output size, fixed sizes, parameters, ledger counter. -/
def step8 (c : Cx) (sp : OpSpec) : Option Bad :=
  let dest : Option Nat := if creates c then
      (match destCheck c.s c.crl (csAlloc c.cs) (csDest c.cs) sp.newLen with
       | .error st => some st
       | .ok _ => none)
    else none
  match dest with
  | some st => some { status := st }
  | none =>
    if decide (c.outMax < sp.outSize.getD 0) then some { status := St.outputTooSmall, outLen := sp.outSize.getD 0 }
    else if !sp.fixed then some { status := St.lengthMismatch }
    else if !sp.param8 || (creates c && !parentFits c sp) then some { status := St.paramInvalid }
    else if sp.ledger && (freeCounter c.s).isNone then some { status := St.ledgerExhausted }
    else none

/-- Life-cycle states that admit slips (R484). -/
def lcsLive (l : Lcs) : Bool := l == .factory || l == .provisioned || l == .service

/-- The first check of steps 1 to 8 that fails (R81). -/
def checkSlip (c : Cx) (p : Pos) (osp : Option OpSpec) : Option Bad :=
  if !step1Ok c p then some { status := St.formatInvalid }
  else match osp with
    | none => some { status := St.opcodeUnknown }
    | some sp =>
      if !step1Op c sp then some { status := St.formatInvalid }
      else if !(c.hop.classMask.getLsbD (csClass c.cs)
          && (match sp.perm with
              | some b => c.hop.slotPerm.getLsbD b
              | none => true) && sp.step3) then some { status := St.opcodeNotPermitted }
      else if c.carrel.approvedOnly && sp.approved == some false then some { status := St.nonApprovedForbidden }
      else if !lcsLive c.s.tmp.lcs then
        some { status := St.stateRejected, inline := stateInline 4 (lcsCode c.s.tmp.lcs) }
      else match sp.state5 with
        | some (o, x) => some { status := St.stateRejected, inline := stateInline o x }
        | none =>
          if c.cs.auxLen > mib || !sp.len6
              || (!c.hop.long && (decide (c.inLen > sp.inShort) || decide (c.outMax > 16 * mib)))
              || (c.hop.long && (decide (c.inLen > sp.inMax) || decide (c.outMax > sp.outMax)))
              || (!p.alone && decide (p.outSum ≤ mib) && decide (p.outSum + c.cs.outMax > mib)) then
            some { status := St.lengthLimit }
          else match step7 c sp with
            | some st => some { status := st }
            | none => step8 c sp

/-- The checks of steps 7 and 8 that an inline wrapped key puts off to step 11 (R331), with the key known. -/
def checkOpened (c : Cx) (sp : OpSpec) : Option Bad :=
  match c.key with
  | none => none
  | some k =>
    if !sp.fmt then some { status := St.formatInvalid }
    else if !sp.keyOk k.keyClass || !sp.usageOk k.usage || k.useLimit != 0 || (k.approvedOnly && sp.approved == some false) then
      some { status := St.keyUsageDenied }
    else if k.expiry != 0 && decide (k.expiry ≤ c.s.sec) then some { status := St.keyExpired }
    else match sp.step7 with
      | some st => some { status := st }
      | none =>
        if decide (c.outMax < sp.outSize.getD 0) then some { status := St.outputTooSmall, outLen := sp.outSize.getD 0 }
        else if !sp.fixed then some { status := St.lengthMismatch }
        else if !sp.param8 then some { status := St.paramInvalid }
        else none

end Sys2Proof.Machine
end

