-- ==== Sys2Proof/Machine/OpRun.lean ====
section
/-!
DEFINITION. Running one operation on its unit (R81 step 11): when it can run, the count of its key uses, what it leaves in
the slip. What it leaves is committed, or dropped, at `EXECUTION_COMPLETE` (R86).
-/

namespace Sys2Proof.Machine

/-- What an operation produces. -/
structure OpOut where
  status : Nat := 0
  out : Bytes := []
  /-- `OUT_LEN`, where it is not the length of `out`. -/
  outLen : Option Nat := none
  inline : W64 := 0
  /-- A secret result for the chain's next carry. -/
  secret : Option Bytes := none
  slotOps : List SlotOp := []
  approved : Bool := true
  deriving DecidableEq, Repr

/-- A failure at step 11 (R81). -/
def OpOut.fail (st : Nat) (approved : Bool := true) : OpOut := { status := st, approved := approved }

/-- A verification's answer (R189). -/
def OpOut.verdict (ok : Bool) (approved : Bool := true) : OpOut :=
  { status := if ok then St.ok else St.signatureInvalid, approved := approved }

/-- The slip's hopper with the configuration it had when the slip was fetched (R66). -/
def hopOf (s : State) (sl : Slip) : Hopper :=
  let h := (s.hopper? sl.hopper).getD { carrel := sl.carrel, index := 0 }
  { h with weight := sl.cfg.weight, classMask := sl.cfg.classMask, slotPerm := sl.cfg.slotPerm, long := sl.cfg.long
           urgent := sl.cfg.urgent }

/-- The slip stands alone in its chain (R84). -/
def standsAlone (s : State) (sl : Slip) : Bool := !csChain sl.cs && !csChain (headOf s sl).cs

/-- What the checks of step 11 know of a running slip. -/
def cxOf (s : State) (sl : Slip) : Cx :=
  { s := s, hop := hopOf s sl, cs := sl.cs, exts := sl.exts, key := sl.key, curve := sl.curve
    held := (Tab.getD s.hop.carries sl.head []).map fun b => some b.length
    alone := standsAlone s sl
    recLen := if csInline sl.cs then 16 + field sl.auxData 8 4 else 0 }

/-- The operation's own `AUX` (R331). -/
def ownAux (sl : Slip) : Bytes :=
  if csInline sl.cs then sl.auxData.drop (16 + field sl.auxData 8 4) else sl.auxData

/-- Material of the key the slip uses. -/
def keyMat (sl : Slip) : Bytes := (sl.key.map (·.material)).getD []

/-- No cluster of the slip's unit is still waking, and no kiln of it is being wiped (R104). -/
def unitAwake (s : State) (sl : Slip) : Bool :=
  (physUnitsOf s sl).all fun p => (match clusterState (s.units sl.engine) (clusterOf sl.engine p) with
    | .waking _ => false
    | _ => true) && !(sl.engine == .kiln && (s.kiln p).wiping)

/-- The slip runs its last stage, its data has arrived, and its opcode is of this class and satisfies `ok`. -/
def opReady (s : State) (sid cls : Nat) (ok : Slip → Bool) : Option Slip :=
  match s.slip? sid with
  | none => none
  | some sl =>
    if sl.phase = .running ∧ sl.final = true ∧ sl.readsLeft = 0 ∧ unitAwake s sl = true ∧ csClass sl.cs = cls ∧ ok sl = true
    then some sl else none

/-- Execution starts: the uses reserved become counted, once (R321). -/
def startUses (s : State) (sid : Nat) : State :=
  match s.slip? sid with
  | none => s
  | some sl =>
    if sl.usesCounted then s
    else (sl.uses.foldl countUse s).modSlip sid fun sl => { sl with usesCounted := true }

/-- Leave an operation's result in its slip. An output larger than the area is dropped, and the size needed is reported
(R83). -/
def finishOp (s : State) (sid : Nat) (o : OpOut) : State :=
  s.modSlip sid fun sl =>
    let big := o.status = St.ok && decide (o.out.length > (cxOf s sl).outMax)
    let ok := o.status = St.ok && !big
    { sl with
      phase := .executed
      status := if big then St.outputTooSmall else o.status
      outLen := if big then o.out.length else if ok then o.outLen.getD o.out.length else 0
      out := if ok then o.out else []
      inline := if big then 0 else o.inline
      secret := if ok then o.secret else none
      slotOps := if ok then o.slotOps else []
      approved := o.approved }

/-- A service found not approved only at step 11 is refused there by the carrel's policy or the key's attribute (R320). -/
def judged (s : State) (sl : Slip) (o : OpOut) : OpOut :=
  if o.approved || !approvable o.status then o
  else if (s.carrel sl.carrel).approvedOnly then .fail St.nonApprovedForbidden false
  else if (sl.key.map (·.approvedOnly)).getD false then .fail St.keyUsageDenied false
  else o

/-- Run an operation on a slip that is ready for it; any other slip is left alone. -/
def runOp (s : State) (sid cls : Nat) (ok : Slip → Bool) (f : Slip → State → State × OpOut) : State :=
  match opReady s sid cls ok with
  | none => s
  | some sl =>
    let s := startUses s sid
    let r := f sl s
    finishOp r.1 sid (judged r.1 sl r.2)

/-- Parent of the slip's new slot by rules 2, 4 and 5 of R324. -/
def slipParent (sl : Slip) : Nat :=
  if csKeyUsed sl.cs then csKey sl.cs
  else
    let a := slipAttr sl.cs sl.exts
    if bit a.flags 3 then a.parent else sl.carrel

/-- The parent slot: where `KEY_REF` names it, as the slip loaded it (R263, R337). -/
def parentSlot (s : State) (sl : Slip) (parent : Nat) : Slot :=
  if csKeyUsed sl.cs then ((if csInline sl.cs then sl.other else sl.key).getD (s.slot parent)) else s.slot parent

/-- The new slot of a slip (R323, R324). -/
def slipSlot (s : State) (sl : Slip) (parent cls : Nat) (material : Bytes) : Slot :=
  let p := parentSlot s sl parent
  { newSlot s sl.carrel parent (slipAttr sl.cs sl.exts) cls material with depth := p.depth + 1, parentGen := p.ownGen }

/-- The change of slots that puts a new key into the destination the slip reserved (R86, R323, R324). -/
def newKeyOp (s : State) (sl : Slip) (parent cls : Nat) (material : Bytes) : List SlotOp :=
  match sl.destClaim with
  | none => []
  | some n => [.create n (slipSlot s sl parent cls material)]

/-- A secret result goes to the next carry with `HOLD`, else to the new slot, of the class the segment names (R181). -/
def toSecret (s : State) (sl : Slip) (k : Bytes) (o : OpOut) : OpOut :=
  if csHold sl.cs then { o with secret := some k }
  else { o with slotOps := newKeyOp s sl (slipParent sl) (slipAttr sl.cs sl.exts).cls k }

/-- Draw `n` random bytes of the RNG queue (R353). -/
def draw (s : State) (n : Nat) (k : State → Bytes → State × OpOut) : State × OpOut := k (s.drawn n) (s.freeBytes n)

/-- READs of at most 64 KiB that cover `len` bytes (R50): offset and length of each. -/
def readParts (len : Nat) : List (Nat × Nat) :=
  (List.range ((len + 65535) / 65536)).map fun i => (65536 * i, min 65536 (len - 65536 * i))

/-- Issue the READs of step 10 for a slip: its input and, if `aux`, its AUX. -/
def issueReads (s : State) (sid : Nat) (aux : Bool) : State :=
  match s.slip? sid with
  | none => s
  | some sl => match s.hopper? sl.hopper with
    | none => s
    | some h =>
      let ins := readParts (cxOf s sl).inLen
      let auxs := if aux then readParts sl.cs.auxLen else []
      let s := s.setSlip sid { sl with
        fetched := true, readsLeft := ins.length + auxs.length, inData := [], auxData := if aux then [] else sl.auxData }
      let s := ins.foldl (fun s p => postRead s h (.input sid p.1) (sl.cs.inAddr + BitVec.ofNat 64 p.1) p.2) s
      auxs.foldl (fun s p => postRead s h (.aux sid p.1) (sl.cs.auxAddr + BitVec.ofNat 64 p.1) p.2) s

/-- The service is admitted only in FACTORY or under the grant's right 5, `KAT_OPS` (R190, R14). -/
def katState (s : State) : Option (Nat × Nat) :=
  if s.tmp.lcs = .factory ∨ (s.tmp.grantActive = true ∧ s.tmp.rights.getLsbD 5 = true) then none
  else some (4, lcsCode s.tmp.lcs)

end Sys2Proof.Machine
end

