-- ==== Sys2Proof/Machine/Lattice.lean ====
section
/-!
DEFINITION. ML-KEM and ML-DSA, opcode class 0x1 (chapter 7).
-/

namespace Sys2Proof.Machine

open Config (compute holds)

def ceilDiv (a b : Nat) : Nat := (a + b - 1) / b

/-- Cost at 3 shares: 1.8 times the 2-share count (R191). -/
def shares (three : Bool) (n : Nat) : Nat := if three then n * 9 / 5 else n

/-- No more `AUX` than the operation's own, where its length is known (R331). -/
def auxIs (c : Cx) (n : Nat) : Bool := !c.auxKnown || c.auxLen == n

/-! ## Sizes (R174, R190) -/

def kemEk (set : Nat) : Nat := [800, 1184, 1568].getD set 0
def kemCt (set : Nat) : Nat := [768, 1088, 1568].getD set 0
def kemDk (set : Nat) : Nat := [1632, 2400, 3168].getD set 0
def dsaPk (set : Nat) : Nat := [1312, 1952, 2592].getD (set - 4) 0
def dsaSig (set : Nat) : Nat := [2420, 3309, 4627].getD (set - 4) 0
def dsaSk (set : Nat) : Nat := [2560, 4032, 4896].getD (set - 4) 0

/-! ## Pre-hash functions (R185), shared with SLH-DSA (R200) -/

structure PreHash where
  arc : Nat
  len : Nat
  perKib : Nat
  prim : Config.Prim

def preHash (code : Nat) : Option PreHash :=
  match code with
  | 0x01 => some ⟨4, 28, 256, .sha2 224⟩
  | 0x02 => some ⟨1, 32, 256, .sha2 256⟩
  | 0x03 => some ⟨2, 48, 160, .sha2 384⟩
  | 0x04 => some ⟨3, 64, 160, .sha2 512⟩
  | 0x05 => some ⟨6, 32, 160, .sha512t256⟩
  | 0x06 => some ⟨7, 28, 16, .sha3 224⟩
  | 0x07 => some ⟨8, 32, 16, .sha3 256⟩
  | 0x08 => some ⟨9, 48, 20, .sha3 384⟩
  | 0x09 => some ⟨10, 64, 30, .sha3 512⟩
  | 0x0A => some ⟨11, 32, 14, .shake 128⟩
  | 0x0B => some ⟨12, 64, 16, .shake 256⟩
  | _ => none

/-- DER encoding of a pre-hash function's identifier (R186). -/
def oidBytes (arc : Nat) : Bytes :=
  [0x06, 0x09, 0x60, 0x86, 0x48, 0x01, 0x65, 0x03, 0x04, 0x02, BitVec.ofNat 8 arc]

/-- `OP_PARAM` of a signature operation (R184). -/
def spDet (p : Nat) : Bool := bit p 0
def spSupplied (p : Nat) : Bool := bit p 1
def spPh (p : Nat) : Nat := bits p 15 8
def spCtx (p : Nat) : Nat := bits p 23 16

/-- M' of a signature, from `IN` and ctx (R186). -/
def mPrime (ph : Bool) (param : Nat) (ctx m : Bytes) : Bytes :=
  if ph then
    match preHash (spPh param) with
    | none => []
    | some f =>
      let dig := if spSupplied param then m else fit f.len (compute f.prim [m])
      [1, BitVec.ofNat 8 (spCtx param)] ++ ctx ++ oidBytes f.arc ++ dig
  else [0, BitVec.ofNat 8 (spCtx param)] ++ ctx ++ m

/-! ## Cycles (R191 to R193, R471) -/

/-- Key generation, encapsulation, decapsulation. -/
def kemCycles (set i : Nat) : Nat :=
  ([[1400, 1600, 2000], [2000, 2300, 2900], [2700, 3100, 3900]].getD set []).getD i 0

/-- Key generation, signing average, verification, signing base, per attempt. -/
def dsaCycles (set i : Nat) : Nat :=
  ([[3000, 7500, 2200, 2400, 1200], [4500, 11000, 3200, 3350, 1500], [6800, 14500, 5000, 4490, 2600]].getD (set - 4) []).getD i 0

/-- Additions for M' beyond 256 bytes and for device hashing. -/
def dsaAdds (mLen : Nat) (hash inLen : Nat) : Nat :=
  16 * ceilDiv (mLen - 256) 1024 + hash * ceilDiv inLen 1024

def tunStage (est min : Nat) : List Stage := [{ engine := .tun, est := tunCy est, min := tunCy min }]

/-! ## Descriptions -/

def kemSpec (c : Cx) : Option OpSpec :=
  let set := c.set
  let p0 := c.param == 0
  let cy (i : Nat) := shares c.three (kemCycles set i)
  match c.op with
  | 0x01 =>
    some { dest := .yes, ext := 1, fmt := p0 && c.inLen == 0 && auxIs c 0, perm := some 0, newLen := 64
           outSize := some (kemEk set), param8 := c.seg.cls == 0x10 + set, random := true
           stages := tunStage (cy 0 + cy 1 + cy 2) (cy 0 + cy 1 + cy 2) }
  | 0x02 =>
    some { dest := .opt, xor := true, holdOk := true, secretLen := some 32, ext := b2n c.destUsed, fmt := p0 && auxIs c 0
           perm := if c.destUsed then some 0 else none, newLen := 32, outSize := some (kemCt set)
           fixed := c.inLen == kemEk set, param8 := !c.destUsed || classLen c.seg.cls == some 32, random := true
           stages := tunStage (cy 1) (cy 1) }
  | 0x03 =>
    some { key := .yes, dest := .opt, xor := true, holdOk := true, secretLen := some 32, ext := b2n c.destUsed
           fmt := p0 && c.outMax == 0 && auxIs c 0, perm := if c.destUsed then some 1 else none, newLen := 32
           keyOk := (· == 0x10 + set), usageOk := uses 5
           fixed := c.inLen == kemCt set, param8 := !c.destUsed || classLen c.seg.cls == some 32
           stages := tunStage (cy 2) (cy 2) }
  | 0x04 =>
    some { key := .yes, fmt := p0 && c.inLen == 0 && auxIs c 0, keyOk := (· == 0x10 + set), usageOk := uses 5
           outSize := some (kemEk set), stages := tunStage (cy 0) (cy 0) }
  | 0x81 =>
    some { fmt := p0, approved := some false, state5 := katState c.s, outSize := some (kemEk set + kemDk set)
           fixed := c.inLen == 0 && c.auxLen == 64, stages := tunStage (cy 0) (cy 0) }
  | 0x82 =>
    some { fmt := p0, approved := some false, state5 := katState c.s, outSize := some (kemCt set + 32)
           fixed := c.inLen == kemEk set && c.auxLen == 32, stages := tunStage (cy 1) (cy 1) }
  | 0x83 =>
    some { fmt := p0, approved := some false, state5 := katState c.s, outSize := some 32
           fixed := c.inLen == kemCt set && c.auxLen == kemDk set, stages := tunStage (cy 2) (cy 2) }
  | _ => none

/-- A signing stage: the average as estimate, base and one attempt as minimum (R192, R193). -/
def signStage (three : Bool) (set adds : Nat) : List Stage :=
  tunStage (shares three (dsaCycles set 1) + adds) (shares three (dsaCycles set 3 + dsaCycles set 4) + adds)

/-- Digest floor of an approved pre-hash: 32, 48, 64 bytes (R185). -/
def dsaPhOk (set ph : Nat) : Bool :=
  match preHash ph with
  | none => true
  | some f => decide ([32, 48, 64].getD (set - 4) 0 ≤ f.len)

def dsaSpec (c : Cx) : Option OpSpec :=
  let set := c.set
  let p := c.param
  let kg := shares c.three (dsaCycles set 0)
  let ver := dsaCycles set 2
  let hash := (preHash (spPh p)).map (·.perKib)
  let dig := ((preHash (spPh p)).map (·.len)).getD 0
  let phAdds := dsaAdds (13 + spCtx p + dig) (if spSupplied p then 0 else hash.getD 0) c.inLen
  let mAdds := dsaAdds (2 + spCtx p + c.inLen) 0 0
  let pkPart := if c.keyUsed then 0 else dsaPk set
  let phFixed := !spSupplied p || hash.isNone || c.inLen == dig
  -- fields in use: bit 0, bit 1 and PH_ALG, CTX_LEN
  let used (det ph ctx : Bool) : Bool :=
    bits p 63 24 == 0 && bits p 7 2 == 0 && (det || !bit p 0) && (ph || (!bit p 1 && spPh p == 0)) && (ctx || spCtx p == 0)
  match c.op with
  | 0x01 =>
    some { dest := .yes, ext := 1, fmt := p == 0 && c.inLen == 0 && auxIs c 0, perm := some 0, newLen := 32
           outSize := some (dsaPk set), param8 := c.seg.cls == 0x14 + (set - 4), random := true
           stages := tunStage (kg + shares c.three (dsaCycles set 1) + ver)
             (kg + shares c.three (dsaCycles set 3 + dsaCycles set 4) + ver) }
  | 0x02 =>
    some { key := .yes, fmt := p == 0 && c.inLen == 0 && auxIs c 0, keyOk := (· == 0x14 + (set - 4)), usageOk := uses 2
           outSize := some (dsaPk set), stages := tunStage kg kg }
  | 0x10 =>
    some { key := .yes, fmt := used true false true, keyOk := (· == 0x14 + (set - 4)), usageOk := uses 2
           outSize := some (dsaSig set), fixed := auxIs c (spCtx p), random := !spDet p
           stages := signStage c.three set mAdds }
  | 0x11 =>
    some { key := .yes, fmt := used true true true, keyOk := (· == 0x14 + (set - 4)), usageOk := uses 2
           approved := some (dsaPhOk set (spPh p)), outSize := some (dsaSig set)
           fixed := auxIs c (spCtx p) && phFixed, param8 := hash.isSome, random := !spDet p
           stages := signStage c.three set phAdds }
  | 0x12 =>
    some { key := .yes, fmt := used true false false && auxIs c 0, keyOk := (· == 0x14 + (set - 4)), usageOk := uses 2
           outSize := some (dsaSig set), fixed := c.inLen == 64, random := !spDet p
           stages := signStage c.three set 0 }
  | 0x20 =>
    some { key := .opt, fmt := used false false true && c.outMax == 0, keyOk := (· == 0x18 + (set - 4)), usageOk := uses 3
           fixed := auxIs c (pkPart + dsaSig set + spCtx p), stages := tunStage (ver + mAdds) (ver + mAdds) }
  | 0x21 =>
    some { key := .opt, fmt := used false true true && c.outMax == 0, keyOk := (· == 0x18 + (set - 4)), usageOk := uses 3
           approved := some (dsaPhOk set (spPh p)), fixed := auxIs c (pkPart + dsaSig set + spCtx p) && phFixed
           param8 := hash.isSome, stages := tunStage (ver + phAdds) (ver + phAdds) }
  | 0x22 =>
    some { key := .opt, fmt := used false false false && c.outMax == 0, keyOk := (· == 0x18 + (set - 4)), usageOk := uses 3
           fixed := auxIs c (pkPart + dsaSig set) && c.inLen == 64, stages := tunStage ver ver }
  | 0x81 =>
    some { fmt := p == 0, approved := some false, state5 := katState c.s, outSize := some (dsaPk set + dsaSk set)
           fixed := c.inLen == 0 && c.auxLen == 32, stages := tunStage kg kg }
  | 0x90 =>
    some { fmt := p == 0, approved := some false, state5 := katState c.s, outSize := some (dsaSig set)
           fixed := c.auxLen == dsaSk set + 32, stages := signStage c.three set (dsaAdds c.inLen 0 0) }
  | 0xA0 =>
    some { fmt := p == 0 && c.outMax == 0, approved := some false, state5 := katState c.s
           fixed := c.auxLen == dsaPk set + dsaSig set
           stages := tunStage (ver + dsaAdds c.inLen 0 0) (ver + dsaAdds c.inLen 0 0) }
  | _ => none

/-- Class 0x1 (R174 to R177). -/
def latticeSpec (c : Cx) : Option OpSpec :=
  if c.set ≤ 2 then kemSpec c else if 4 ≤ c.set ∧ c.set ≤ 6 then dsaSpec c else none

/-! ## ML-KEM -/

def isKem (op : Nat) (sl : Slip) : Bool := csOp sl.cs == op && decide (csSet sl.cs ≤ 2)
def isDsa (op : Nat) (sl : Slip) : Bool := csOp sl.cs == op && decide (4 ≤ csSet sl.cs) && decide (csSet sl.cs ≤ 6)

/-- ek and the expanded dk of a seed d ‖ z. -/
def kemPair (set : Nat) (seed : Bytes) : Bytes × Bytes :=
  let b := fit (kemEk set + kemDk set) (compute (.mlKemKeyGen set) [seed])
  (b.take (kemEk set), b.drop (kemEk set))

/-- Every decoded 12-bit coefficient is below 3,329 (R182). -/
def coeffsOk : Bytes → Bool
  | a :: b :: c :: r =>
    decide (a.toNat + 256 * (b.toNat % 16) < 3329) && decide (b.toNat / 16 + 16 * c.toNat < 3329) && coeffsOk r
  | _ => true

def ekOk (set : Nat) (ek : Bytes) : Bool := coeffsOk (ek.take (384 * (set + 2)))

def kemEnc (set : Nat) (ek m : Bytes) : Bytes × Bytes :=
  (fit (kemCt set) (compute (.mlKemEncaps set) [ek, m]), fit 32 (compute (.mlKemShared set) [ek, m]))

/-- K, or the rejection key: one function of dk and c (R183). -/
def kemDec (set : Nat) (dk ct : Bytes) : Bytes := fit 32 (compute (.mlKemDecaps set) [dk, ct])

def kemKeygen (sl : Slip) (s : State) : State × OpOut :=
  draw s 64 fun s seed =>
    (s, { out := (kemPair (csSet sl.cs) seed).1, slotOps := newKeyOp s sl (slipParent sl) (0x10 + csSet sl.cs) seed })

def kemEncaps (sl : Slip) (s : State) : State × OpOut :=
  if !ekOk (csSet sl.cs) sl.inData then (s, .fail St.inputMalformed)
  else draw s 32 fun s m =>
    let r := kemEnc (csSet sl.cs) sl.inData m
    (s, toSecret s sl r.2 { out := r.1 })

def kemDecaps (sl : Slip) (s : State) : State × OpOut :=
  (s, toSecret s sl (kemDec (csSet sl.cs) (kemPair (csSet sl.cs) (keyMat sl)).2 sl.inData) {})

def kemPubkey (sl : Slip) (s : State) : State × OpOut := (s, { out := (kemPair (csSet sl.cs) (keyMat sl)).1 })

def kemKeygenKat (sl : Slip) (s : State) : State × OpOut :=
  let r := kemPair (csSet sl.cs) sl.auxData
  (s, { out := r.1 ++ r.2, approved := false })

def kemEncapsKat (sl : Slip) (s : State) : State × OpOut :=
  if !ekOk (csSet sl.cs) sl.inData then (s, .fail St.inputMalformed false)
  else
    let r := kemEnc (csSet sl.cs) sl.inData sl.auxData
    (s, { out := r.1 ++ r.2, approved := false })

/-- The hash check on dk: its H(ek) field is SHA3-256 of its ek (R190). -/
def dkOk (set : Nat) (dk : Bytes) : Bool :=
  let k := 384 * (set + 2)
  slice dk (2 * k + 32) 32 == fit 32 (compute (.sha3 256) [slice dk k (k + 32)])

def kemDecapsKat (sl : Slip) (s : State) : State × OpOut :=
  if !dkOk (csSet sl.cs) sl.auxData then (s, .fail St.inputMalformed false)
  else (s, { out := kemDec (csSet sl.cs) sl.auxData sl.inData, approved := false })

def execKemKeygen (sid : Nat) (s : State) : Res := .next (runOp s sid 1 (isKem 0x01) kemKeygen)
def execKemEncaps (sid : Nat) (s : State) : Res := .next (runOp s sid 1 (isKem 0x02) kemEncaps)
def execKemDecaps (sid : Nat) (s : State) : Res := .next (runOp s sid 1 (isKem 0x03) kemDecaps)
def execKemPubkey (sid : Nat) (s : State) : Res := .next (runOp s sid 1 (isKem 0x04) kemPubkey)
def execKemKeygenKat (sid : Nat) (s : State) : Res := .next (runOp s sid 1 (isKem 0x81) kemKeygenKat)
def execKemEncapsKat (sid : Nat) (s : State) : Res := .next (runOp s sid 1 (isKem 0x82) kemEncapsKat)
def execKemDecapsKat (sid : Nat) (s : State) : Res := .next (runOp s sid 1 (isKem 0x83) kemDecapsKat)

/-! ## ML-DSA -/

/-- pk and the expanded sk of a seed. -/
def dsaPair (set : Nat) (seed : Bytes) : Bytes × Bytes :=
  let b := fit (dsaPk set + dsaSk set) (compute (.mlDsaKeyGen set) [seed])
  (b.take (dsaPk set), b.drop (dsaPk set))

/-- SHAKE256(tr ‖ M', 64) (R186). -/
def dsaMu (tr m : Bytes) : Bytes := fit 64 (compute (.shake 256) [tr ++ m])
def dsaTr (pk : Bytes) : Bytes := fit 64 (compute (.shake 256) [pk])

/-- Sign μ: the attempts made are in `RESULT_INLINE`; after 256 rejections the slip is `ABORTED` (R188). -/
def dsaSignMu (set : Nat) (sk mu rnd : Bytes) (approved : Bool) : OpOut :=
  let n := unle (compute (.mlDsaAttempts set) [sk, mu, rnd]) % 257
  if n = 0 then .fail St.aborted approved
  else { out := fit (dsaSig set) (compute (.mlDsaSign set) [sk, mu, rnd]), inline := BitVec.ofNat 64 n, approved := approved }

/-- rnd: 32 random bytes, or zeros for deterministic signing (R187). -/
def withRnd (sl : Slip) (n : Nat) (s : State) (k : State → Bytes → State × OpOut) : State × OpOut :=
  if spDet (csParam sl.cs) then k s (zeros n) else draw s n k

def dsaSigner (sl : Slip) (s : State) (ph : Bool) (approved : Bool) : State × OpOut :=
  let set := csSet sl.cs
  let kp := dsaPair set (keyMat sl)
  withRnd sl 32 s fun s rnd =>
    (s, dsaSignMu set kp.2 (dsaMu (dsaTr kp.1) (mPrime ph (csParam sl.cs) (ownAux sl) sl.inData)) rnd approved)

def dsaKeygen (sl : Slip) (s : State) : State × OpOut :=
  draw s 32 fun s seed =>
    (s, { out := (dsaPair (csSet sl.cs) seed).1, slotOps := newKeyOp s sl (slipParent sl) (0x10 + csSet sl.cs) seed })

def dsaPubkey (sl : Slip) (s : State) : State × OpOut := (s, { out := (dsaPair (csSet sl.cs) (keyMat sl)).1 })

def dsaSign (sl : Slip) (s : State) : State × OpOut := dsaSigner sl s false true

def dsaSignPh (sl : Slip) (s : State) : State × OpOut :=
  dsaSigner sl s true (dsaPhOk (csSet sl.cs) (spPh (csParam sl.cs)))

def dsaSignMuOp (sl : Slip) (s : State) : State × OpOut :=
  withRnd sl 32 s fun s rnd => (s, dsaSignMu (csSet sl.cs) (dsaPair (csSet sl.cs) (keyMat sl)).2 sl.inData rnd true)

/-- pk of a verification and the rest of `AUX` (R176). -/
def verKey (sl : Slip) (pkLen : Nat) : Bytes × Bytes :=
  if csKeyUsed sl.cs then (keyMat sl, ownAux sl) else ((ownAux sl).take pkLen, (ownAux sl).drop pkLen)

def dsaVerifier (sl : Slip) (s : State) (ph : Bool) (approved : Bool) : State × OpOut :=
  let set := csSet sl.cs
  let k := verKey sl (dsaPk set)
  let mu := dsaMu (dsaTr k.1) (mPrime ph (csParam sl.cs) (k.2.drop (dsaSig set)) sl.inData)
  (s, .verdict (holds (.mlDsaSign set) [k.1, mu, k.2.take (dsaSig set)]) approved)

def dsaVerify (sl : Slip) (s : State) : State × OpOut := dsaVerifier sl s false true

def dsaVerifyPh (sl : Slip) (s : State) : State × OpOut :=
  dsaVerifier sl s true (dsaPhOk (csSet sl.cs) (spPh (csParam sl.cs)))

def dsaVerifyMu (sl : Slip) (s : State) : State × OpOut :=
  let set := csSet sl.cs
  let k := verKey sl (dsaPk set)
  (s, .verdict (holds (.mlDsaSign set) [k.1, sl.inData, k.2.take (dsaSig set)]))

def dsaKeygenKat (sl : Slip) (s : State) : State × OpOut :=
  let r := dsaPair (csSet sl.cs) sl.auxData
  (s, { out := r.1 ++ r.2, approved := false })

/-- sk carries tr at bytes 64 to 127 (FIPS 204). -/
def dsaSignKat (sl : Slip) (s : State) : State × OpOut :=
  let set := csSet sl.cs
  let sk := sl.auxData.take (dsaSk set)
  (s, dsaSignMu set sk (dsaMu (slice sk 64 64) sl.inData) (sl.auxData.drop (dsaSk set)) false)

def dsaVerifyKat (sl : Slip) (s : State) : State × OpOut :=
  let set := csSet sl.cs
  let pk := sl.auxData.take (dsaPk set)
  (s, .verdict (holds (.mlDsaSign set) [pk, dsaMu (dsaTr pk) sl.inData, sl.auxData.drop (dsaPk set)]) false)

def execDsaKeygen (sid : Nat) (s : State) : Res := .next (runOp s sid 1 (isDsa 0x01) dsaKeygen)
def execDsaPubkey (sid : Nat) (s : State) : Res := .next (runOp s sid 1 (isDsa 0x02) dsaPubkey)
def execDsaSign (sid : Nat) (s : State) : Res := .next (runOp s sid 1 (isDsa 0x10) dsaSign)
def execDsaSignPh (sid : Nat) (s : State) : Res := .next (runOp s sid 1 (isDsa 0x11) dsaSignPh)
def execDsaSignMu (sid : Nat) (s : State) : Res := .next (runOp s sid 1 (isDsa 0x12) dsaSignMuOp)
def execDsaVerify (sid : Nat) (s : State) : Res := .next (runOp s sid 1 (isDsa 0x20) dsaVerify)
def execDsaVerifyPh (sid : Nat) (s : State) : Res := .next (runOp s sid 1 (isDsa 0x21) dsaVerifyPh)
def execDsaVerifyMu (sid : Nat) (s : State) : Res := .next (runOp s sid 1 (isDsa 0x22) dsaVerifyMu)
def execDsaKeygenKat (sid : Nat) (s : State) : Res := .next (runOp s sid 1 (isDsa 0x81) dsaKeygenKat)
def execDsaSignKat (sid : Nat) (s : State) : Res := .next (runOp s sid 1 (isDsa 0x90) dsaSignKat)
def execDsaVerifyKat (sid : Nat) (s : State) : Res := .next (runOp s sid 1 (isDsa 0xA0) dsaVerifyKat)

end Sys2Proof.Machine
end

