-- ==== Sys2Proof/Machine/CodeKem.lean ====
section
/-!
DEFINITION. HQC and Classic McEliece, opcode class 0x3 (chapter 8, R210 to R217).
-/

namespace Sys2Proof.Machine

open Config (compute holds)

/-- pk, private key in the slot, ciphertext; HQC sets 0 to 2, Classic McEliece sets 3 to 12 (R211). -/
def ckRow (set : Nat) : Nat × Nat × Nat :=
  [(2241, 32, 4433), (4514, 32, 8978), (7237, 32, 14421),
   (261120, 6492, 96), (261120, 6492, 96), (524160, 13608, 156), (524160, 13608, 156), (1044992, 13932, 208),
   (1044992, 13932, 208), (1047319, 13948, 194), (1047319, 13948, 194), (1357824, 14120, 208),
   (1357824, 14120, 208)].getD set (0, 0, 0)

def ckPk (set : Nat) : Nat := (ckRow set).1
def ckSk (set : Nat) : Nat := (ckRow set).2.1
def ckCt (set : Nat) : Nat := (ckRow set).2.2
def isHqcSet (set : Nat) : Bool := decide (set ≤ 2)

/-- Length of the full private key of a known-answer operation: for HQC the manual does not state it (log 42). -/
def ckFull (set : Nat) : Nat := if isHqcSet set then Config.freeNat 2 [set] % 16385 else ckSk set

/-- HQC: key generation, encapsulation, decapsulation, in tun cycles. -/
def hqcCycles (set i : Nat) : Nat :=
  ([[9000, 14000, 26000], [19000, 30000, 55000], [32000, 50000, 92000]].getD set []).getD i 0

/-- Classic McEliece key generation, average and minimum in us; encapsulation and decapsulation in tun cycles. -/
def mceRow (set : Nat) : Nat × Nat × Nat × Nat :=
  [(6000, 1760, 9500, 38000), (1900, 1900, 9500, 38000), (18700, 5500, 17800, 62000), (5900, 5900, 17800, 62000),
   (51000, 15000, 34300, 105000), (16200, 16200, 34300, 105000), (47600, 14000, 34300, 100000),
   (15100, 15100, 34300, 100000), (54400, 16000, 43800, 120000), (17300, 17300, 43800, 120000)].getD (set - 3) (0, 0, 0, 0)

def ckEnc (set : Nat) (three : Bool) : Nat :=
  if isHqcSet set then shares three (hqcCycles set 1) else (mceRow set).2.2.1
def ckDec (set : Nat) (three : Bool) : Nat :=
  shares three (if isHqcSet set then hqcCycles set 2 else (mceRow set).2.2.2)

/-- A Classic McEliece key generation on a gang of four tuns (R216); an HQC one on a tun. `extra` cycles follow it. -/
def ckKgStage (set : Nat) (three : Bool) (avg : Nat) (extra : Nat) : List Stage :=
  if isHqcSet set then tunStage (shares three (hqcCycles set 0) + extra) (shares three (hqcCycles set 0) + extra)
  else
    let e := 30000 * shares three avg + tunCy extra
    let m := 30000 * shares three (mceRow set).2.1 + tunCy extra
    [{ engine := .tun, est := e, min := m, group := 4, estG := e, must := true }]

def codeSpec (c : Cx) : Option OpSpec :=
  let set := c.set
  let p0 := c.param == 0
  let cls := 0x50 + set
  let enc := ckEnc set c.three
  let dec := ckDec set c.three
  if set > 12 then none
  else match c.op with
    | 0x01 =>
      some { dest := .yes, ext := 1, fmt := p0 && c.inLen == 0 && auxIs c 0, perm := some 0, approved := some false
             newLen := ckSk set, outSize := some (ckPk set), param8 := c.seg.cls == cls, random := true
             stages := ckKgStage set c.three (mceRow set).1 (enc + dec) }
    | 0x02 =>
      some { dest := .opt, xor := true, holdOk := true, secretLen := some 32, ext := b2n c.destUsed, fmt := p0 && auxIs c 0
             perm := if c.destUsed then some 0 else none, approved := some false, newLen := 32, outSize := some (ckCt set)
             fixed := c.inLen == ckPk set, param8 := !c.destUsed || classLen c.seg.cls == some 32, random := true
             stages := tunStage enc enc }
    | 0x03 =>
      some { key := .yes, dest := .opt, xor := true, holdOk := true, secretLen := some 32, ext := b2n c.destUsed
             fmt := p0 && c.outMax == 0 && auxIs c 0, perm := if c.destUsed then some 1 else none, approved := some false
             newLen := 32, keyOk := (· == cls), usageOk := uses 5, fixed := c.inLen == ckCt set
             param8 := !c.destUsed || classLen c.seg.cls == some 32, stages := tunStage dec dec }
    | 0x04 =>
      some { key := .yes, fmt := p0 && c.inLen == 0 && auxIs c 0, approved := some false, keyOk := (· == cls)
             usageOk := uses 5, outSize := some (ckPk set), stages := ckKgStage set c.three (mceRow set).2.1 0 }
    | 0x81 =>
      some { fmt := p0, approved := some false, state5 := katState c.s, outSize := some (ckPk set + ckFull set)
             fixed := c.inLen == 0 && c.auxLen == 32, stages := ckKgStage set c.three (mceRow set).1 0 }
    | 0x82 =>
      some { fmt := p0, approved := some false, state5 := katState c.s, outSize := some (ckCt set + 32)
             fixed := c.inLen == ckPk set && c.auxLen == 32, stages := tunStage enc enc }
    | 0x83 =>
      some { fmt := p0, approved := some false, state5 := katState c.s, outSize := some 32
             fixed := c.inLen == ckCt set && c.auxLen == ckFull set, stages := tunStage dec dec }
    | _ => none

def isCk (op : Nat) (sl : Slip) : Bool := csOp sl.cs == op && decide (csSet sl.cs ≤ 12)

/-- pk and the full private key of a seed. -/
def ckPair (set : Nat) (seed : Bytes) : Bytes × Bytes :=
  let b := fit (ckPk set + ckFull set) (compute (if isHqcSet set then .hqcKeyGen set else .mceKeyGen set) [seed])
  (b.take (ckPk set), b.drop (ckPk set))

/-- The padding bits that R214 checks are zero; the sets without any pass. -/
def ckPadOk (set : Nat) (pk : Bytes) : Bool :=
  if isHqcSet set then holds (.hqcEncaps set) [pk]
  else if set = 9 ∨ set = 10 then holds (.mceEncaps set) [pk]
  else true

def ckEncaps (set : Nat) (pk m : Bytes) : Bytes × Bytes :=
  if isHqcSet set then (fit (ckCt set) (compute (.hqcEncaps set) [pk, m]), fit 32 (compute (.hqcShared set) [pk, m]))
  else (fit (ckCt set) (compute (.mceEncaps set) [pk, m]), fit 32 (compute (.mceShared set) [pk, m]))

/-- K or the rejection key (R213). -/
def ckDecaps (set : Nat) (sk ct : Bytes) : Bytes :=
  fit 32 (compute (if isHqcSet set then .hqcDecaps set else .mceDecaps set) [sk, ct])

/-- The private key a slot holds in full form: HQC expands its seed, Classic McEliece is held whole (R211). -/
def ckFullKey (set : Nat) (mat : Bytes) : Bytes := if isHqcSet set then (ckPair set mat).2 else mat

/-- Attempts of a Classic McEliece key generation (R216). -/
def mceTries (set : Nat) (seed : Bytes) : Nat := 1 + unle (compute (.mceAttempts set) [seed]) % (2 ^ 32 - 1)

def ckemKeygen (sl : Slip) (s : State) : State × OpOut :=
  let set := csSet sl.cs
  draw s 32 fun s seed =>
    let r := ckPair set seed
    (s, { out := r.1, approved := false
          slotOps := newKeyOp s sl (slipParent sl) (0x50 + set) (if isHqcSet set then seed else r.2) })

def ckemEncaps (sl : Slip) (s : State) : State × OpOut :=
  let set := csSet sl.cs
  if !ckPadOk set sl.inData then (s, .fail St.inputMalformed false)
  else draw s 32 fun s m =>
    let r := ckEncaps set sl.inData m
    (s, toSecret s sl r.2 { out := r.1, approved := false })

def ckemDecaps (sl : Slip) (s : State) : State × OpOut :=
  let set := csSet sl.cs
  (s, toSecret s sl (ckDecaps set (ckFullKey set (keyMat sl)) sl.inData) { approved := false })

/-- The public key: from the HQC seed, or from the seed that a Classic McEliece private key begins with. -/
def ckemPubkey (sl : Slip) (s : State) : State × OpOut :=
  (s, { out := (ckPair (csSet sl.cs) ((keyMat sl).take 32)).1, approved := false })

def ckemKeygenKat (sl : Slip) (s : State) : State × OpOut :=
  let set := csSet sl.cs
  let r := ckPair set sl.auxData
  (s, { out := r.1 ++ r.2, approved := false
        inline := if isHqcSet set then 0 else BitVec.ofNat 64 (mceTries set sl.auxData) })

def ckemEncapsKat (sl : Slip) (s : State) : State × OpOut :=
  let set := csSet sl.cs
  if !ckPadOk set sl.inData then (s, .fail St.inputMalformed false)
  else
    let r := ckEncaps set sl.inData sl.auxData
    (s, { out := r.1 ++ r.2, approved := false })

def ckemDecapsKat (sl : Slip) (s : State) : State × OpOut :=
  (s, { out := ckDecaps (csSet sl.cs) sl.auxData sl.inData, approved := false })

def execCkemKeygen (sid : Nat) (s : State) : Res := .next (runOp s sid 3 (isCk 0x01) ckemKeygen)
def execCkemEncaps (sid : Nat) (s : State) : Res := .next (runOp s sid 3 (isCk 0x02) ckemEncaps)
def execCkemDecaps (sid : Nat) (s : State) : Res := .next (runOp s sid 3 (isCk 0x03) ckemDecaps)
def execCkemPubkey (sid : Nat) (s : State) : Res := .next (runOp s sid 3 (isCk 0x04) ckemPubkey)
def execCkemKeygenKat (sid : Nat) (s : State) : Res := .next (runOp s sid 3 (isCk 0x81) ckemKeygenKat)
def execCkemEncapsKat (sid : Nat) (s : State) : Res := .next (runOp s sid 3 (isCk 0x82) ckemEncapsKat)
def execCkemDecapsKat (sid : Nat) (s : State) : Res := .next (runOp s sid 3 (isCk 0x83) ckemDecapsKat)

end Sys2Proof.Machine
end

