-- ==== Sys2Proof/Machine/EntOps.lean ====
section
/-!
DEFINITION. The block pool and the DRBG instances as consumers see them (R343 to R346).
-/

namespace Sys2Proof.Machine

def drbg (s : State) (i : Nat) : Drbg := Tab.getD s.ent.drbgs i {}

def setDrbg (s : State) (i : Nat) (d : Drbg) : State := { s with ent := { s.ent with drbgs := Tab.set s.ent.drbgs i d } }

/-- `ENT_STS` (chapter 14 registers). -/
def entSts (s : State) : Nat :=
  (match s.ent.state with
   | .starting => 0
   | .ready => 1
   | .failed => 2)
  + 4 * b2n s.ent.srcFail.flag + 8 * b2n s.ent.poolEmpty.flag + 16 * b2n (testPattern s)
  + ((List.range 8).map fun i => 2 ^ (8 + i) * b2n (s.src i).inService).sum

/-- `SRC_OK`. -/
def srcOk (s : State) : Nat := ((List.range 8).map fun i => 2 ^ i * b2n (s.src i).inService).sum

/-- `EVT_ENTROPY`: on a latch-out and on a change of state (R547). -/
def entEvent (s : State) : State := queueEvent s 8 [BitVec.ofNat 8 (entSts s % 4), BitVec.ofNat 8 (srcOk s)]

/-- A consumer found the pool empty. -/
def poolEmpty (s : State) : State := { s with ent := { s.ent with poolEmpty := s.ent.poolEmpty.hit } }

/-- Take a block, if there is one (R344). -/
def takeBlock (s : State) : Option State :=
  if s.ent.pool = 0 then none else some { s with ent := { s.ent with pool := s.ent.pool - 1 } }

/-- An instance takes a block as its new seed (R346); with the pool empty it waits, and serves nothing meanwhile. -/
def reseed (s : State) (i : Nat) : State :=
  match takeBlock s with
  | some s =>
    let s := setDrbg s i { live := true, requests := 0, seededAt := s.now, reseedDue := false }
    { s with ent := { s.ent with reseedTot := s.ent.reseedTot + 1 } }
  | none => poolEmpty (setDrbg s i { drbg s i with reseedDue := true })

/-- A reseed falls due before the instance's next request: it was marked, or 2^20 requests or 1 s have passed (R346). -/
def reseedDue (s : State) (i : Nat) : Bool :=
  let d := drbg s i
  d.reseedDue || decide (2 ^ 20 ≤ d.requests) || decide (1250000000 ≤ s.now - d.seededAt)

/-- The `CLI` instance whose turn it is (R346). -/
def cliInst (s : State) : Nat := 25 + s.ent.nextCli % 16

/-- One generate request of `n` bytes on the `CLI` group (R353): reseeded first if due or asked for; `none` while it must wait
for a block. -/
def cliRequest (s : State) (n : Nat) (predRes : Bool) : Option (State × Bytes) :=
  let i := cliInst s
  if !(drbg s i).live then none
  else
    let s := if reseedDue s i || predRes then reseed s i else s
    if (drbg s i).reseedDue then none
    else
      let d := drbg s i
      let s := setDrbg s i { d with requests := d.requests + 1 }
      let b := s.freeBytes n
      let s := s.drawn n
      some ({ s with ent := { s.ent with nextCli := s.ent.nextCli + 1, randBytesTot := s.ent.randBytesTot + BitVec.ofNat 64 n } }, b)

end Sys2Proof.Machine
end

