-- ==== Sys2Proof/Machine/StfOps.lean ====
section
/-!
DEFINITION. Stateful keys: their parameters (R202 to R208), their leases and indices (R229 to R233), their trees (R207).
-/

namespace Sys2Proof.Machine

/-! ## Parameters (R202, R206, R208) -/

/-- A supported parameter set: opcode set, hash (0 SHA-256, 1 SHAKE256), n, and per level, top first, height and
Winternitz parameter (0 for XMSS). -/
structure StfSet where
  fam : Nat
  hash : Nat
  n : Nat
  levels : List (Nat × Nat)
  deriving DecidableEq, Repr

def StfSet.height (d : StfSet) : Nat := (d.levels.map (·.1)).sum

/-- Hash and n behind index i of R202's four rows. -/
def famOf (i : Nat) : Nat × Nat := (i / 2, if i % 2 = 0 then 32 else 24)

/-- One HSS level from its typecodes: row, height, w. -/
def lmsLevel (lms ots : Nat) : Option (Nat × Nat × Nat) :=
  if 0x05 ≤ lms ∧ lms ≤ 0x18 ∧ 0x01 ≤ ots ∧ ots ≤ 0x10 ∧ (lms - 5) / 5 = (ots - 1) / 4 then
    some ((lms - 5) / 5, [5, 10, 15, 20, 25].getD ((lms - 5) % 5) 0, [1, 2, 4, 8].getD ((ots - 1) % 4) 0)
  else none

/-- An HSS set from its levels' typecodes: one hash and one n, heights at most 64 in all (R203). -/
def hssSet (codes : List (Nat × Nat)) : Option StfSet :=
  match codes.mapM fun p => lmsLevel p.1 p.2 with
  | some (l :: ls) =>
    let d : StfSet := { fam := 0xC, hash := (famOf l.1).1, n := (famOf l.1).2, levels := (l :: ls).map (·.2) }
    if (ls.all fun x => x.1 == l.1) && decide (ls.length < 8) && decide (d.height ≤ 64) then some d else none
  | _ => none

/-- The row of an OID and its place in it, from the rows' first codes. -/
def oidRow (bases : List Nat) (cnt oid : Nat) : Option (Nat × Nat) :=
  ((List.range bases.length).find? fun i => decide (bases.getD i 0 ≤ oid) && decide (oid < bases.getD i 0 + cnt)).map
    fun i => (i, oid - bases.getD i 0)

def xmssSet (oid : Nat) : Option StfSet :=
  (oidRow [0x01, 0x0D, 0x10, 0x13] 3 oid).map fun p =>
    { fam := 0xD, hash := (famOf p.1).1, n := (famOf p.1).2, levels := [([10, 16, 20].getD p.2 0, 0)] }

def xmssMtSet (oid : Nat) : Option StfSet :=
  (oidRow [0x01, 0x21, 0x29, 0x31] 8 oid).map fun p =>
    let hd := [(20, 2), (20, 4), (40, 2), (40, 4), (40, 8), (60, 3), (60, 6), (60, 12)].getD p.2 (0, 1)
    { fam := 0xE, hash := (famOf p.1).1, n := (famOf p.1).2, levels := List.replicate hd.2 (hd.1 / hd.2, 0) }

def stfPkLen (d : StfSet) : Nat := if d.fam = 0xC then 28 + d.n else 4 + 2 * d.n

def lmsP (n w : Nat) : Nat :=
  match n, w with
  | 32, 1 => 265 | 32, 2 => 133 | 32, 4 => 67 | 32, _ => 34
  | _, 1 => 200 | _, 2 => 101 | _, 4 => 51 | _, _ => 26

def lmsSigLen (n h w : Nat) : Nat := 12 + n * (lmsP n w + 1) + h * n
def wotsLen (n : Nat) : Nat := if n = 32 then 67 else 51

/-- Signature size (R206). -/
def stfSigLen (d : StfSet) : Nat :=
  if d.fam = 0xC then
    4 + (d.levels.map fun l => lmsSigLen d.n l.1 l.2).sum + (d.levels.length - 1) * (24 + d.n)
  else
    (if d.fam = 0xD then 4 else ceilDiv8 d.height) + d.n + d.levels.length * wotsLen d.n * d.n + d.height * d.n
where
  ceilDiv8 (n : Nat) : Nat := (n + 7) / 8

/-- Units at n = 32 of R208: per leaf built, per signing, per verified level. -/
def unitsOf (l : Nat × Nat) : Nat × Nat × Nat :=
  match l.2 with
  | 1 => (664, 400, 266 + l.1)
  | 2 => (600, 340, 267 + l.1)
  | 4 => (1107, 570, 537 + l.1)
  | 8 => (8723, 4370, 4353 + l.1)
  | _ => (3350, 1580, 1772 + 4 * l.1)

/-- Ticks of `u` units charged at 32 to a floor cycle; for n = 24 three quarters and one hundredth of them (R208). -/
def unitTicks (n u : Nat) : Nat := if n = 32 then (u * 5 + 7) / 8 else (u * 76 * 5 + 799) / 800

/-- Floor latency of a signing by the level that signs (R208). -/
def otsLatency (l : Nat × Nat) : Nat := floorCy (if l.2 = 0 then 768 else 2 ^ l.2 * 16)

def lastLevel (d : StfSet) : Nat × Nat := d.levels.getLast?.getD (0, 0)

/-- Build of one tree, in ticks. -/
def treeTicks (d : StfSet) (l : Nat × Nat) : Nat := unitTicks d.n (2 ^ l.1 * (unitsOf l).1)

/-- Quanta of 1 ms a tree's build takes (R207). -/
def treeQuanta (d : StfSet) (l : Nat × Nat) : Nat := (treeTicks d l + 29999999) / 30000000

/-- Message hash on the tun: 400 cycles and the rate of the set's hash (R208). -/
def stfHash (hash inLen : Nat) : Nat := 400 + (if hash = 0 then 256 else 16) * ((inLen + 1023) / 1024)

/-! ## A stateful private key in its slot

The manual leaves the layout of the material to the device; the model puts the parameters first, then the public key, then
secret bytes (log 40). -/

def stfHeader (fam : Nat) (params : Bytes) : Bytes := fit 20 (BitVec.ofNat 8 fam :: params)

/-- Parameters from the first 20 bytes of the material. -/
def stfOfMat (m : Bytes) : Option StfSet :=
  match field m 0 1 with
  | 0xC => hssSet ((List.range (field m 1 1)).map fun i => (field m (2 + 2 * i) 1, field m (3 + 2 * i) 1))
  | 0xD => xmssSet (field m 2 4)
  | 0xE => xmssMtSet (field m 2 4)
  | _ => none

def stfSetOf (sl : Slot) : Option StfSet := stfOfMat sl.material

/-- The public key stored with a stateful private key (R205). -/
def stfPkOf (sl : Slot) : Bytes :=
  match stfSetOf sl with
  | some d => slice sl.material 20 (stfPkLen d)
  | none => []

/-! ## Leases (R229 to R233) -/

def stfKey (s : State) (shelf : Nat) : StfKey := Tab.getD s.ledger.keys shelf {}

def setStfKey (s : State) (shelf : Nat) (k : StfKey) : State :=
  { s with ledger := { s.ledger with keys := Tab.set s.ledger.keys shelf k } }

/-- The counter of a slot is BOUND with its generation and not lost (R233). -/
def boundOk (s : State) (sl : Slot) : Bool :=
  match sl.ledger with
  | none => false
  | some (c, g) => !(counter s c).lost && ctrSt s c == .bound && ctrGen s c == g

/-- Number of the next lease (R229). -/
def nextLease (s : State) (sl : Slot) : Nat :=
  match sl.ledger with
  | none => 0
  | some (c, _) => ctrValue s c - sl.ledgerBase

def stfTotal (sl : Slot) : Nat := 2 ^ ((stfSetOf sl).map (·.height)).getD 0

/-- A further lease can be granted (R233). -/
def canGrant (s : State) (shelf : Nat) : Bool :=
  let sl := s.slot shelf
  boundOk s sl && decide (256 * nextLease s sl < stfTotal sl)

/-- The next unconsumed index of a usable lease. -/
def nextIndex (k : StfKey) : Option Nat := (k.leases.find? fun l => decide (l.next < l.stop)).map (·.next)

/-- No index is left and none can come (R233). -/
def stfExhausted (s : State) (shelf : Nat) : Bool :=
  let k := stfKey s shelf
  (nextIndex k).isNone && !k.granting && !canGrant s shelf

/-- Start granting the next lease (R229, R230, R235): the own counter is written and, in a pair, the ceiling sent to the
peer. At the wear limit the counter is retired instead (R233); no lease is granted for a mirrored key while the pair is
DEGRADED (R237). -/
def startLease (s : State) (shelf : Nat) : State :=
  let sl := s.slot shelf
  let k := stfKey s shelf
  match sl.ledger with
  | none => s
  | some (c, g) =>
    let v := ctrValue s c
    if k.granting || !canGrant s shelf || (sl.mirrored && syncBlocked s sl.owner) || s.cel.mainPower == false
        || decide (s.cel.stage ≥ 4) then s
    else if v + 1 > 750000000 then
      reportSrc (ledHitRetired (ledgerWrite s c (v + 1) .retired g .set)) 0x1C3
    else
      let sync := sl.mirrored && mirrors s sl.owner
      let s := ledgerWrite s c (v + 1) .bound g (.lease shelf)
      let s := setStfKey s shelf { k with granting := true, ownDone := false, peerDone := !sync }
      if sync then sendSync s [.lease shelf (nextLease s sl + 1)] (.lease shelf) else s

/-- The lease becomes usable when every write it needs is complete (R229, R235). -/
def leaseReady (s : State) (shelf : Nat) : State :=
  let sl := s.slot shelf
  let k := stfKey s shelf
  if !(k.granting && k.ownDone && k.peerDone) then s
  else
    let j := nextLease s sl - 1
    let l : Lease := { next := 256 * j, stop := min (256 * j + 256) (stfTotal sl) }
    let s := setStfKey s shelf { k with granting := false, leases := (k.leases.filter fun l => decide (l.next < l.stop)) ++ [l] }
    let s := { s with ledger := { s.ledger with leaseTot := s.ledger.leaseTot + 1 } }
    queueRecord s (.lease shelf (j + 1))

/-! ## Trees (R207) -/

/-- Indices under one tree of level l. -/
def treeSpan (d : StfSet) (l : Nat) : Nat := 2 ^ ((d.levels.drop l).map (·.1)).sum

/-- Ticks to finish every tree that index i needs and that is not built. -/
def pendingBuild (d : StfSet) (k : StfKey) (i : Nat) : Nat :=
  ((List.range d.levels.length).map fun l =>
    let t := i / treeSpan d l
    let cur := Tab.getD k.cur l 0
    if l = 0 ∨ t = cur ∨ Tab.get? k.built l = some t then 0
    else
      let done := if t = cur + 1 then Tab.getD k.building l 0 * 30000000 else 0
      treeTicks d (d.levels.getD l (0, 0)) - done).sum

/-- After index i is taken: its trees are in use, and a level that has used half of its leaves begins its next tree. -/
def advanceTrees (d : StfSet) (k : StfKey) (i : Nat) : StfKey :=
  (List.range d.levels.length).foldl (fun k l =>
    if l = 0 then k
    else
      let t := i / treeSpan d l
      let k := if t = Tab.getD k.cur l 0 then k
        else { k with cur := Tab.set k.cur l t, built := Tab.erase k.built l, building := Tab.erase k.building l }
      let half := decide (2 * ((i + 1) % treeSpan d l) ≥ treeSpan d l)
      let more := decide ((t + 1) * treeSpan d l < 2 ^ d.height)
      if half ∧ more = true ∧ Tab.get? k.built l = none ∧ Tab.get? k.building l = none then
        { k with building := Tab.set k.building l 0 }
      else k) k

/-- Take the next index of the key for a signing (R205, R229, R230): the next lease begins at the 128th index of a lease. -/
def takeIndex (s : State) (shelf : Nat) : State × Option Nat :=
  let k := stfKey s shelf
  match nextIndex k, stfSetOf (s.slot shelf) with
  | some i, some d =>
    let k := { k with leases := k.leases.map fun l => if l.next = i ∧ i < l.stop then { l with next := i + 1 } else l }
    let k := { advanceTrees d k i with usedAt := s.now }
    let s := setStfKey s shelf k
    let ahead := k.leases.any fun l => decide (l.next > i + 1) && decide (l.next < l.stop)
    (if decide (i % 256 ≥ 127) && !ahead then startLease s shelf else s, some i)
  | _, _ => (s, none)

/-- Indices the key can still issue here (R205). -/
def stfRemain (s : State) (shelf : Nat) : Nat :=
  let sl := s.slot shelf
  let k := stfKey s shelf
  if boundOk s sl then
    stfTotal sl - min (stfTotal sl) ((nextIndex k).getD (256 * (nextLease s sl - b2n (k.granting && k.ownDone))))
  else leasedLeft k

end Sys2Proof.Machine
end

