-- ==== Sys2Proof/Machine/Hash.lean ====
section
/-!
DEFINITION. Hash-based signatures, opcode class 0x2: SLH-DSA and the stateful schemes (chapter 8, R196 to R209).
-/

namespace Sys2Proof.Machine

open Config (compute holds)

/-! ## SLH-DSA (R197 to R201, R217) -/

def slhN (set : Nat) : Nat := classLen.slhN set

/-- Signature bytes; key generation and signing in hundredths of a us; verification units (R197). -/
def slhRow (set : Nat) : Nat × Nat × Nat × Nat :=
  [(7856, 610, 4560, 2200), (7856, 610, 4560, 2200), (17088, 10, 246, 6300), (17088, 10, 246, 6300),
   (16224, 890, 8100, 3100), (16224, 890, 7940, 3100), (35664, 14, 361, 9100), (35664, 14, 356, 9100),
   (29792, 580, 7130, 4600), (29792, 580, 6920, 4600), (49856, 37, 744, 9300), (49856, 37, 731, 9300)].getD set (0, 0, 0, 0)

def slhSig (set : Nat) : Nat := (slhRow set).1

/-- Ticks of key generation, signing, verification on one floor. -/
def slhKg (set : Nat) : Nat := 300 * (slhRow set).2.1
def slhSignT (set : Nat) : Nat := 300 * (slhRow set).2.2.1
def slhVer (set : Nat) : Nat := (slhRow set).2.2.2 * 5 / 8

/-- Per-KiB count of the set's hash: SHAKE256 in the odd sets, SHA-256 for SHA2-128, SHA-512 above (R201). -/
def slhHash (set : Nat) : Nat := if set % 2 = 1 then 16 else if set < 4 then 256 else 160

/-- The tun part (R201). -/
def slhTun (set mLen hash inLen : Nat) (sign : Bool) : Nat :=
  600 + ceilDiv (mLen - 1024) 1024 * slhHash set * (if sign then 2 else 1) + hash * ceilDiv inLen 1024

def slhStages (tun floor : Nat) : List Stage :=
  [{ engine := .tun, est := tunCy tun, min := tunCy tun }, { engine := .floor, est := floor, min := floor }]

def slhPhOk (set ph : Nat) : Bool :=
  match preHash ph with
  | none => true
  | some f => decide (2 * slhN set ≤ f.len)

/-- Key-transfer time of a slot's material (R198, R336). -/
def transferTicks (len : Nat) : Nat := if len ≤ 64 then 900 else max 900 (36000 * (64 * extentLines len) / 16384)

def slhSpec (c : Cx) : Option OpSpec :=
  let set := c.set
  let n := slhN set
  let p := c.param
  let ph := preHash (spPh p)
  let hash := if spSupplied p then 0 else (ph.map (·.perKib)).getD 0
  let dig := (ph.map (·.len)).getD 0
  let pkPart := if c.keyUsed then 0 else 2 * n
  let phFixed := !spSupplied p || ph.isNone || c.inLen == dig
  let mLen := 2 + spCtx p + c.inLen
  let phLen := 13 + spCtx p + dig
  let used (det ph : Bool) : Bool :=
    bits p 63 24 == 0 && bits p 7 2 == 0 && (det || !bit p 0) && (ph || (!bit p 1 && spPh p == 0))
  match c.op with
  | 0x01 =>
    some { dest := .yes, ext := 1, fmt := p == 0 && c.inLen == 0 && auxIs c 0, perm := some 0, newLen := 4 * n
           outSize := some (2 * n), param8 := c.seg.cls == 0x20 + set, random := true
           stages := stage1 .floor (slhKg set + slhSignT set + slhVer set) }
  | 0x02 =>
    some { key := .yes, fmt := p == 0 && c.inLen == 0 && auxIs c 0, keyOk := (· == 0x20 + set), usageOk := uses 2
           outSize := some (2 * n), engineId := 0x5000, bare := transferTicks (4 * n) }
  | 0x10 =>
    some { key := .yes, fmt := used true false, keyOk := (· == 0x20 + set), usageOk := uses 2, outSize := some (slhSig set)
           fixed := auxIs c (spCtx p), random := !spDet p, stages := slhStages (slhTun set mLen 0 0 true) (slhSignT set) }
  | 0x11 =>
    some { key := .yes, fmt := used true true, keyOk := (· == 0x20 + set), usageOk := uses 2
           approved := some (slhPhOk set (spPh p)), outSize := some (slhSig set), fixed := auxIs c (spCtx p) && phFixed
           param8 := ph.isSome, random := !spDet p
           stages := slhStages (slhTun set phLen hash c.inLen true) (slhSignT set) }
  | 0x20 =>
    some { key := .opt, fmt := used false false && c.outMax == 0, keyOk := (· == 0x30 + set), usageOk := uses 3
           fixed := auxIs c (pkPart + slhSig set + spCtx p)
           stages := slhStages (slhTun set mLen 0 0 false) (slhVer set) }
  | 0x21 =>
    some { key := .opt, fmt := used false true && c.outMax == 0, keyOk := (· == 0x30 + set), usageOk := uses 3
           approved := some (slhPhOk set (spPh p)), fixed := auxIs c (pkPart + slhSig set + spCtx p) && phFixed
           param8 := ph.isSome, stages := slhStages (slhTun set phLen hash c.inLen false) (slhVer set) }
  | 0x81 =>
    some { fmt := p == 0, approved := some false, state5 := katState c.s, outSize := some (6 * n)
           fixed := c.inLen == 0 && c.auxLen == 3 * n, stages := stage1 .floor (slhKg set) }
  | 0x90 =>
    some { fmt := p == 0, approved := some false, state5 := katState c.s, outSize := some (slhSig set)
           fixed := c.auxLen == 5 * n, stages := slhStages (slhTun set c.inLen 0 0 true) (slhSignT set) }
  | _ => none

def isSlh (op : Nat) (sl : Slip) : Bool := csOp sl.cs == op && decide (csSet sl.cs ≤ 11)

/-- The whole private key of the seeds SK.seed ‖ SK.prf ‖ PK.seed: the seeds, then PK.root (R198). -/
def slhKey (set : Nat) (seeds : Bytes) : Bytes := seeds ++ fit (slhN set) (compute (.slhKeyGen set) [seeds])

def slhSignOut (set : Nat) (sk m opt : Bytes) (approved : Bool) : OpOut :=
  { out := fit (slhSig set) (compute (.slhSign set) [sk, m, opt]), approved := approved }

def slhKeygen (sl : Slip) (s : State) : State × OpOut :=
  let set := csSet sl.cs
  draw s (3 * slhN set) fun s seeds =>
    let sk := slhKey set seeds
    (s, { out := sk.drop (2 * slhN set), slotOps := newKeyOp s sl (slipParent sl) (0x20 + set) sk })

def slhPubkey (sl : Slip) (s : State) : State × OpOut :=
  (s, { out := slice (keyMat sl) (2 * slhN (csSet sl.cs)) (2 * slhN (csSet sl.cs)) })

/-- opt_rand: PK.seed for deterministic signing, else n random bytes (R200). -/
def slhSigner (sl : Slip) (s : State) (ph approved : Bool) : State × OpOut :=
  let set := csSet sl.cs
  let m := mPrime ph (csParam sl.cs) (ownAux sl) sl.inData
  if spDet (csParam sl.cs) then
    (s, slhSignOut set (keyMat sl) m (slice (keyMat sl) (2 * slhN set) (slhN set)) approved)
  else draw s (slhN set) fun s opt => (s, slhSignOut set (keyMat sl) m opt approved)

def slhSign (sl : Slip) (s : State) : State × OpOut := slhSigner sl s false true
def slhSignPh (sl : Slip) (s : State) : State × OpOut := slhSigner sl s true (slhPhOk (csSet sl.cs) (spPh (csParam sl.cs)))

def slhVerifier (sl : Slip) (s : State) (ph approved : Bool) : State × OpOut :=
  let set := csSet sl.cs
  let k := verKey sl (2 * slhN set)
  let m := mPrime ph (csParam sl.cs) (k.2.drop (slhSig set)) sl.inData
  (s, .verdict (holds (.slhSign set) [k.1, m, k.2.take (slhSig set)]) approved)

def slhVerify (sl : Slip) (s : State) : State × OpOut := slhVerifier sl s false true
def slhVerifyPh (sl : Slip) (s : State) : State × OpOut :=
  slhVerifier sl s true (slhPhOk (csSet sl.cs) (spPh (csParam sl.cs)))

def slhKeygenKat (sl : Slip) (s : State) : State × OpOut :=
  let sk := slhKey (csSet sl.cs) sl.auxData
  (s, { out := sk.drop (2 * slhN (csSet sl.cs)) ++ sk, approved := false })

def slhSignKat (sl : Slip) (s : State) : State × OpOut :=
  let n := slhN (csSet sl.cs)
  (s, slhSignOut (csSet sl.cs) (sl.auxData.take (4 * n)) sl.inData (sl.auxData.drop (4 * n)) false)

def execSlhKeygen (sid : Nat) (s : State) : Res := .next (runOp s sid 2 (isSlh 0x01) slhKeygen)
def execSlhPubkey (sid : Nat) (s : State) : Res := .next (runOp s sid 2 (isSlh 0x02) slhPubkey)
def execSlhSign (sid : Nat) (s : State) : Res := .next (runOp s sid 2 (isSlh 0x10) slhSign)
def execSlhSignPh (sid : Nat) (s : State) : Res := .next (runOp s sid 2 (isSlh 0x11) slhSignPh)
def execSlhVerify (sid : Nat) (s : State) : Res := .next (runOp s sid 2 (isSlh 0x20) slhVerify)
def execSlhVerifyPh (sid : Nat) (s : State) : Res := .next (runOp s sid 2 (isSlh 0x21) slhVerifyPh)
def execSlhKeygenKat (sid : Nat) (s : State) : Res := .next (runOp s sid 2 (isSlh 0x81) slhKeygenKat)
def execSlhSignKat (sid : Nat) (s : State) : Res := .next (runOp s sid 2 (isSlh 0x90) slhSignKat)

/-! ## Stateful schemes (R202 to R209) -/

/-- The set an `STF_KEYGEN` asks for (R203). -/
def stfAsked (set param : Nat) (seg2 : Bytes) : Option StfSet :=
  match set with
  | 0xC => if 1 ≤ param % 16 ∧ param % 16 ≤ 8 then
      hssSet ((List.range (param % 16)).map fun i => (field seg2 (4 + 2 * i) 1, field seg2 (5 + 2 * i) 1)) else none
  | 0xD => xmssSet (param % 2 ^ 32)
  | _ => xmssMtSet (param % 2 ^ 32)

/-- The header the new key's material begins with. -/
def stfAskedHeader (set param : Nat) (seg2 : Bytes) : Bytes :=
  if set = 0xC then stfHeader set (BitVec.ofNat 8 (param % 16) :: slice seg2 4 (2 * (param % 16)))
  else stfHeader set (0 :: le 4 param)

/-- Length of the key's material: by its parameters, at most 16 KiB, and not stated further (R319, log 41). -/
def stfKeyLen (d : StfSet) : Nat :=
  let least := 20 + stfPkLen d + 32
  least + Config.freeNat 1 [d.fam, d.hash, d.n, d.height] % (16385 - least)

/-- Set of an inline or stored public key (R209): HSS form for 0xC, with its top level's typecodes at every level. -/
def stfPkSet (set : Nat) (pk : Bytes) : Option StfSet :=
  let d : Option StfSet := match set with
    | 0xC =>
      let l := unbe (slice pk 0 4)
      if 1 ≤ l ∧ l ≤ 8 then
        (hssSet [(unbe (slice pk 4 4), unbe (slice pk 8 4))]).map fun d => { d with levels := List.replicate l (lastLevel d) }
      else none
    | 0xD => xmssSet (unbe (slice pk 0 4))
    | _ => xmssMtSet (unbe (slice pk 0 4))
  match d with
  | some d => if stfPkLen d ≤ pk.length then some d else none
  | none => none

/-- The cheapest set of each family (R209). -/
def stfCheapest (set : Nat) : StfSet :=
  match set with
  | 0xC => { fam := 0xC, hash := 1, n := 24, levels := [(5, 1)] }
  | 0xD => { fam := 0xD, hash := 1, n := 24, levels := [(10, 0)] }
  | _ => { fam := 0xE, hash := 1, n := 24, levels := [(10, 0), (10, 0)] }

def verUnits (d : StfSet) : Nat := (d.levels.map fun l => (unitsOf l).2.2).sum

def stfVerStages (d : StfSet) (inLen : Nat) : List Stage := slhStages (stfHash d.hash inLen) (unitTicks d.n (verUnits d))

/-- Trees built, lower trees signed and those signatures verified (R207, R471). -/
def stfKgTicks (d : StfSet) : Nat :=
  (d.levels.map (treeTicks d)).sum
    + (d.levels.dropLast.map fun l => unitTicks d.n ((unitsOf l).2.1 + (unitsOf l).2.2)).sum

def stfSignStages (d : StfSet) (inLen pending : Nat) : List Stage :=
  let h := tunCy (stfHash d.hash inLen)
  [{ engine := .tun, est := h, min := h },
   { engine := .floor, est := unitTicks d.n (unitsOf (lastLevel d)).2.1 + pending, min := otsLatency (lastLevel d) + pending }]

/-- The stateful key the slip names. -/
def stfKeySet (c : Cx) : Option StfSet := c.key.bind stfSetOf

def stfPending (c : Cx) (d : StfSet) : Nat :=
  let k := stfKey c.s (csKey c.cs)
  pendingBuild d k ((nextIndex k).getD (256 * nextLease c.s (c.s.slot (csKey c.cs))))

def stfSpec (c : Cx) : Option OpSpec :=
  let set := c.set
  let fi := set - 0xC
  let p := c.param
  let seg2 := c.ext 1
  let d := stfKeySet c
  match c.op with
  | 0x01 =>
    let ask := stfAsked set p seg2
    let a := c.seg
    some { dest := .yes, ext := if set = 0xC then 2 else 1
           fmt := c.inLen == 0 && auxIs c 0 && (if set = 0xC then bits p 63 4 == 0
               && allZero (slice seg2 (4 + 2 * min 8 (p % 16)) (60 - 2 * min 8 (p % 16))) else bits p 63 32 == 0)
           perm := some 0, newLen := (ask.map stfKeyLen).getD 0, outSize := ask.map stfPkLen
           param8 := a.cls == 0x40 + fi && ask.isSome && bit a.flags 0 && (c.s.mirror.state == .unpaired || bit a.flags 1)
               && !a.usage.getLsbD 9
           random := true, ledger := true, long := true
           stages := stage1 .floor ((ask.map stfKgTicks).getD 0) }
  | 0x02 =>
    some { key := .yes, fmt := p == 0 && c.inLen == 0 && auxIs c 0, keyOk := (· == 0x40 + fi), usageOk := uses 2
           outSize := d.map stfPkLen, engineId := 0x5000, bare := transferTicks c.keyLen }
  | 0x10 =>
    some { key := .yes, fmt := p == 0 && auxIs c 0 && !c.inline?, keyOk := (· == 0x40 + fi), usageOk := uses 2
           outSize := d.map stfSigLen
           stages := match d with
             | some d => stfSignStages d c.inLen (stfPending c d)
             | none => [] }
  | 0x20 =>
    some { key := .opt, fmt := p == 0 && c.outMax == 0, keyOk := (· == 0x44 + fi), usageOk := uses 3
           stages := stfVerStages ((c.key.bind fun k => stfPkSet set k.material).getD (stfCheapest set)) c.inLen }
  | 0x30 =>
    some { key := .yes, fmt := p == 0 && c.inLen == 0 && auxIs c 0 && c.outMax == 0, keyOk := (· == 0x40 + fi)
           usageOk := uses 2, engineId := 0, bare := 900 }
  | _ => none

/-- Class 0x2 (R196). -/
def hashSpec (c : Cx) : Option OpSpec :=
  if c.set ≤ 11 then slhSpec c else if c.set ≤ 14 then stfSpec c else none

def isStf (op : Nat) (sl : Slip) : Bool := csOp sl.cs == op && decide (12 ≤ csSet sl.cs) && decide (csSet sl.cs ≤ 14)

/-- The counter reserved at step 8 is bound when execution starts (R228); a re-run keeps the one bound (R219). -/
def bindCounter (s : State) (sid : Nat) : State :=
  match s.slip? sid with
  | none => s
  | some sl => match sl.counterClaim with
    | none => s
    | some n =>
      if s.ledger.reserved.contains n then
        let s := { s with ledger := { s.ledger with reserved := s.ledger.reserved.filter (· != n) } }
        ledgerWrite s n (ctrFinal s n + 1) .bound (ctrGen s n + 1) .set
      else s

/-- The new key: its slot records the counter, `BIND_GEN` and base (R228); the public key goes to `OUT`. The trees are one
function of the parameters and the seed. -/
def stfKeygen (sl : Slip) (s : State) : State × OpOut :=
  let set := csSet sl.cs
  let seg2 := sl.exts.getD 1 []
  match stfAsked set (csParam sl.cs) seg2, sl.counterClaim, sl.destClaim with
  | some d, some n, some dst =>
    draw s 96 fun s seed =>
      let hdr := stfAskedHeader set (csParam sl.cs) seg2
      let pk := fit (stfPkLen d) (compute .stfKeyGen [hdr, seed])
      let mat := fit (stfKeyLen d) (hdr ++ pk ++ compute .stfPublic [hdr, seed])
      let x := slipSlot s sl (slipParent sl) (0x40 + (set - 0xC)) mat
      let x := { x with ledger := some (n, ((counter s n).writing.getLast?.map (·.bindGen)).getD (ctrGen s n))
                        ledgerBase := ctrFinal s n }
      let s := setStfKey s dst { cached := true, usedAt := s.now }
      (s, { out := pk, slotOps := [.create dst x] })
  | _, _, _ => (s, .fail St.ledgerExhausted)

def stfPubkey (sl : Slip) (s : State) : State × OpOut := (s, { out := (sl.key.map stfPkOf).getD [] })

/-- Sign with the index taken at the start (R205); the index is in `RESULT_INLINE`. -/
def stfSign (sl : Slip) (s : State) : State × OpOut :=
  match sl.leaf, sl.key.bind stfSetOf with
  | some i, some d =>
    (s, { out := fit (stfSigLen d) (compute .stfSign [keyMat sl, be 8 i, sl.inData]), inline := BitVec.ofNat 64 i })
  | _, _ => (s, .fail St.ledgerExhausted)

/-- Parse a signature by its own typecodes against its key's: the index is in range and the length exact (R209). -/
def hssSigOk (n hash : Nat) (top : Bool) (topCodes : Nat × Nat) : Nat → Bytes → Bool
  | 0, _ => false
  | left + 1, b =>
    let ots := unbe (slice b 4 4)
    let p (w : Nat) := 8 + n * (lmsP n w + 1)
    let w := [1, 2, 4, 8].getD ((ots - 1) % 4) 0
    let lms := unbe (slice b (p w) 4)
    match lmsLevel lms ots with
    | none => false
    | some (row, h, w) =>
      let len := lmsSigLen n h w
      let rest := b.drop len
      decide (len ≤ b.length) && famOf row == (hash, n) && (!top || (lms, ots) == topCodes)
        && decide (unbe (slice b 0 4) < 2 ^ h)
        && (if left = 0 then rest.isEmpty
            else decide (24 + n ≤ rest.length)
              && hssSigOk n hash true (unbe (slice rest 0 4), unbe (slice rest 4 4)) left (rest.drop (24 + n)))

def stfSigOk (d : StfSet) (pk sig : Bytes) : Bool :=
  if d.fam = 0xC then
    decide (unbe (slice sig 0 4) + 1 = d.levels.length) && decide (4 ≤ sig.length)
      && hssSigOk d.n d.hash true (unbe (slice pk 4 4), unbe (slice pk 8 4)) d.levels.length (sig.drop 4)
  else
    let il := if d.fam = 0xD then 4 else (d.height + 7) / 8
    sig.length == stfSigLen d && decide (unbe (sig.take il) < 2 ^ d.height)

def stfVerify (sl : Slip) (s : State) : State × OpOut :=
  let aux := ownAux sl
  match stfPkSet (csSet sl.cs) (if csKeyUsed sl.cs then keyMat sl else aux) with
  | none => (s, .fail St.inputMalformed)
  | some d =>
    let k := verKey sl (stfPkLen d)
    (s, .verdict (stfSigOk d k.1 k.2 && holds .stfSign [k.1, sl.inData, k.2]))

def stfRemainOp (sl : Slip) (s : State) : State × OpOut :=
  (s, { inline := BitVec.ofNat 64 (stfRemain s (csKey sl.cs)) })

/-- Take a signing's index when its execution starts, once (R205). -/
def takeLeaf (s : State) (sid : Nat) : State :=
  match s.slip? sid with
  | none => s
  | some sl =>
    if sl.leaf.isSome || !(csClass sl.cs == 2 && isStf 0x10 sl) then s
    else
      let r := takeIndex s (csKey sl.cs)
      r.1.modSlip sid fun sl => { sl with leaf := r.2 }

def execStfKeygen (sid : Nat) (s : State) : Res :=
  match opReady s sid 2 (isStf 0x01) with
  | none => .next s
  | some _ => .next (runOp (bindCounter s sid) sid 2 (isStf 0x01) stfKeygen)
def execStfPubkey (sid : Nat) (s : State) : Res := .next (runOp s sid 2 (isStf 0x02) stfPubkey)
/-- The key's tree cache must be in QDR; restoring it is `TREE_CACHE_RESTORED` (R207). -/
def execStfSign (sid : Nat) (s : State) : Res :=
  match opReady s sid 2 (isStf 0x10) with
  | none => .next s
  | some sl =>
    if (stfKey s (csKey sl.cs)).cached then .next (runOp (takeLeaf s sid) sid 2 (isStf 0x10) stfSign) else .next s
def execStfVerify (sid : Nat) (s : State) : Res := .next (runOp s sid 2 (isStf 0x20) stfVerify)
def execStfRemain (sid : Nat) (s : State) : Res := .next (runOp s sid 2 (isStf 0x30) stfRemainOp)

end Sys2Proof.Machine
end

