-- ==== Sys2Proof/Machine/Curves.lean ====
section
/-!
DEFINITION. Modular arithmetic and short-Weierstrass points, which the kilns compute (chapter 12).
-/

namespace Sys2Proof.Machine

/-! ## Modular arithmetic -/

/-- a^x mod m, the exponent's bits from the least, at most `fuel` of them. -/
def powMod (m : Nat) : Nat → Nat → Nat → Nat
  | 0, _, _ => 1 % m
  | fuel + 1, a, x =>
    if x = 0 then 1 % m
    else
      let r := powMod m fuel (a * a % m) (x / 2)
      if x % 2 = 1 then a * r % m else r

/-- Euclid's algorithm: from (r0, t0), (r1, t1) with t·a ≡ r, the last pair with r non-zero. -/
def euclid : Nat → Int → Int → Int → Int → Int × Int
  | 0, r0, t0, _, _ => (r0, t0)
  | fuel + 1, r0, t0, r1, t1 =>
    if r1 = 0 then (r0, t0) else euclid fuel r1 t1 (r0 % r1) (t0 - r0 / r1 * t1)

/-- a^−1 mod m, where a is coprime to m. Numbers of up to 8,192 bits need fewer than 12,288 steps. -/
def invMod (a m : Nat) : Option Nat :=
  let r := euclid 12288 m 0 (a % m) 1
  if r.1 = 1 then some (r.2 % (m : Int)).toNat else none

/-- d and s with n = d·2^s, d odd. -/
def twos : Nat → Nat → Nat × Nat
  | 0, n => (n, 0)
  | fuel + 1, n => if n % 2 = 1 ∨ n = 0 then (n, 0) else
      let r := twos fuel (n / 2)
      (r.1, r.2 + 1)

/-- Some square of x, up to the `s`-th, is n − 1. -/
def squaresTo (n : Nat) : Nat → Nat → Bool
  | 0, _ => false
  | s + 1, x => x == n - 1 || squaresTo n s (x * x % n)

/-- One Miller–Rabin round with this base. -/
def mrRound (n base : Nat) : Bool :=
  let r := twos 1024 (n - 1)
  let x := powMod n 1024 base r.1
  x == 1 || squaresTo n r.2 x

/-- `n` passes rounds with these bases, each taken from 2 to n − 2. -/
def millerRabin (n : Nat) (bases : List Nat) : Bool :=
  n == 2 || n == 3 || (decide (4 < n) && n % 2 == 1 && bases.all fun b => mrRound n (2 + b % (n - 3)))

/-- The least quadratic non-residue modulo p, from k on. -/
def nonResidue (p : Nat) : Nat → Nat → Nat
  | 0, k => k
  | fuel + 1, k => if powMod p 1024 k ((p - 1) / 2) = p - 1 then k else nonResidue p fuel (k + 1)

/-- The least i with t^(2^i) = 1. -/
def orderExp (p : Nat) : Nat → Nat → Nat
  | 0, _ => 0
  | fuel + 1, t => if t = 1 then 0 else 1 + orderExp p fuel (t * t % p)

/-- The steps of Tonelli and Shanks. -/
def tonelli (p : Nat) : Nat → Nat → Nat → Nat → Nat → Nat
  | 0, _, _, _, r => r
  | fuel + 1, m, c, t, r =>
    if t = 1 ∨ t = 0 then r
    else
      let i := orderExp p m t
      let b := powMod p 1024 c (2 ^ (m - i - 1))
      tonelli p fuel i (b * b % p) (t * (b * b) % p) (r * b % p)

/-- A square root modulo a prime p, where there is one. -/
def sqrtMod (p a : Nat) : Option Nat :=
  let q := twos 1024 (p - 1)
  let z := nonResidue p 4096 2
  let r := tonelli p 1024 q.2 (powMod p 1024 z q.1) (powMod p 1024 a q.1) (powMod p 1024 a ((q.1 + 1) / 2))
  if r * r % p = a % p then some r else none

/-! ## Curves (R290, R307) -/

structure Curve where
  p : Nat
  a : Nat
  b : Nat
  gx : Nat
  gy : Nat
  n : Nat
  h : Nat := 1
  /-- Bytes of a coordinate and of a scalar. -/
  c : Nat
  cs : Nat
  deriving DecidableEq, Repr

/-- A point; `none` is the point at infinity. -/
abbrev Point := Option (Nat × Nat)

/-- P-256, P-384 and P-521 of SP 800-186 (log 43). -/
def nistCurve (set : Nat) : Curve :=
  match set with
  | 1 =>
    let p := 2 ^ 256 - 2 ^ 224 + 2 ^ 192 + 2 ^ 96 - 1
    { p := p, a := p - 3, b := 0x5ac635d8aa3a93e7b3ebbd55769886bc651d06b0cc53b0f63bce3c3e27d2604b
      gx := 0x6b17d1f2e12c4247f8bce6e563a440f277037d812deb33a0f4a13945d898c296
      gy := 0x4fe342e2fe1a7f9b8ee7eb4a7c0f9e162bce33576b315ececbb6406837bf51f5
      n := 0xffffffff00000000ffffffffffffffffbce6faada7179e84f3b9cac2fc632551, c := 32, cs := 32 }
  | 2 =>
    let p := 2 ^ 384 - 2 ^ 128 - 2 ^ 96 + 2 ^ 32 - 1
    { p := p, a := p - 3
      b := 0xb3312fa7e23ee7e4988e056be3f82d19181d9c6efe8141120314088f5013875ac656398d8a2ed19d2a85c8edd3ec2aef
      gx := 0xaa87ca22be8b05378eb1c71ef320ad746e1d3b628ba79b9859f741e082542a385502f25dbf55296c3a545e3872760ab7
      gy := 0x3617de4a96262c6f5d9e98bf9292dc29f8f41dbd289a147ce9da3113b5f0b8c00a60b1ce1d7e819d7a431d7c90ea0e5f
      n := 0xffffffffffffffffffffffffffffffffffffffffffffffffc7634d81f4372ddf581a0db248b0a77aecec196accc52973
      c := 48, cs := 48 }
  | _ =>
    { p := 2 ^ 521 - 1, a := 2 ^ 521 - 4
      b := 0x51953eb9618e1c9a1f929a21a0b68540eea2da725b99b315f3b8b489918ef109e156193951ec7e937b1652c0bd3bb1bf073573df883d2c34f1ef451fd46b503f00
      gx := 0xc6858e06b70404e9cd9e3ecb662395b4429c648139053fb521f828af606b4d3dbaa14b5e77efe75928fe1dc127a2ffa8de3348b3c1856a429bf97e7e31c2e5bd66
      gy := 0x11839296a789a3bc0045c8a5fb42c7d1bd998f54449579b446817afbd17273e662c97ee72995ef42640c550b9013fad0761353c7086a272c24088be94769fd16650
      n := 2 ^ 521 - 2 ^ 260 + 0xa51868783bf2f966b7fcc0148f709a5d03bb5c9b8899c47aebb6fb71e91386409, c := 66, cs := 66 }

namespace Curve

def g (k : Curve) : Point := some (k.gx, k.gy)

/-- y^2 = x^3 + ax + b, coordinates below p. -/
def on (k : Curve) (x y : Nat) : Bool :=
  decide (x < k.p) && decide (y < k.p) && y * y % k.p == (x * x * x + k.a * x + k.b) % k.p

/-- The third point of a line of slope l through (x1, y1) and a point with x-coordinate x2, negated. -/
def third (k : Curve) (l x1 y1 x2 : Nat) : Point :=
  let x := (l * l + 2 * k.p - x1 - x2) % k.p
  some (x, (l * (x1 + k.p - x) + k.p - y1) % k.p)

def add (k : Curve) : Point → Point → Point
  | none, q => q
  | p, none => p
  | some (x1, y1), some (x2, y2) =>
    if x1 = x2 then
      if (y1 + y2) % k.p = 0 then none
      else match invMod (2 * y1) k.p with
        | some i => k.third ((3 * x1 * x1 + k.a) * i % k.p) x1 y1 x2
        | none => none
    else match invMod (x2 + k.p - x1) k.p with
      | some i => k.third ((y2 + k.p - y1) * i % k.p) x1 y1 x2
      | none => none

/-- e·P, the scalar's bits from the least. -/
def mulBits (k : Curve) : Nat → Nat → Point → Point
  | 0, _, _ => none
  | fuel + 1, e, q =>
    if e = 0 then none
    else
      let r := mulBits k fuel (e / 2) (k.add q q)
      if e % 2 = 1 then k.add q r else r

def mul (k : Curve) (e : Nat) (q : Point) : Point := k.mulBits 1024 e q

/-- A valid public point: on the curve and, with a cofactor, of order n (R303). -/
def valid (k : Curve) (x y : Nat) : Bool := k.on x y && (k.h == 1 || k.mul k.n (some (x, y)) == none)

/-- X ‖ Y of the primitives; two zero coordinates are the point at infinity, which is refused (R302, R303). -/
def rawPoint (k : Curve) (b : Bytes) : Option (Nat × Nat) :=
  let x := unbe (b.take k.c)
  let y := unbe (b.drop k.c)
  if b.length = 2 * k.c ∧ allZero b = false ∧ k.valid x y = true then some (x, y) else none

/-- A public point, uncompressed or compressed (R292). -/
def pubPoint (k : Curve) (b : Bytes) : Option (Nat × Nat) :=
  match b with
  | [] => none
  | t :: r =>
    if t = 4 ∧ r.length = 2 * k.c then
      let x := unbe (r.take k.c)
      let y := unbe (r.drop k.c)
      if k.valid x y then some (x, y) else none
    else if (t = 2 ∨ t = 3) ∧ r.length = k.c then
      let x := unbe r
      match sqrtMod k.p ((x * x * x + k.a * x + k.b) % k.p) with
      | none => none
      | some y =>
        let y := if y % 2 = t.toNat % 2 then y else (k.p - y) % k.p
        if k.valid x y then some (x, y) else none
    else none

/-- X ‖ Y; infinity is all zeros (R302). -/
def rawBytes (k : Curve) : Point → Bytes
  | none => zeros (2 * k.c)
  | some (x, y) => be k.c x ++ be k.c y

/-- Uncompressed output (R292). -/
def pubBytes (k : Curve) (q : Point) : Bytes := [4] ++ k.rawBytes q

end Curve

/-- Bytes of a number. -/
def byteLen : Nat → Nat → Nat
  | 0, _ => 0
  | fuel + 1, v => if v = 0 then 0 else 1 + byteLen fuel (v / 256)

/-- The parameters of `CURVE_LOAD`, c bytes a coordinate (R307). -/
def parseCurve (c : Nat) (b : Bytes) : Curve :=
  let f (i : Nat) := unbe (slice b (i * c) c)
  let n := unbe (slice b (5 * c) (c + 1))
  { p := f 0, a := f 1, b := f 2, gx := f 3, gy := f 4, n := n, h := field b (6 * c + 1) 1, c := c, cs := byteLen 128 n }

/-- A curve slot holds the size of a coordinate, the parameters, and constants computed from them (R309, log 44). -/
def curveLen (c : Nat) : Nat := 6 * c + 3 + Config.freeNat 3 [c] % 15872

def curveMaterial (c : Nat) (params : Bytes) : Bytes :=
  fit (curveLen c) ([BitVec.ofNat 8 c] ++ params ++ Config.compute .curveConstants [params])

def slotCurve (sl : Slot) : Curve :=
  let c := field sl.material 0 1
  parseCurve c (slice sl.material 1 (6 * c + 2))

/-- Bit length of a number. -/
def bitLen : Nat → Nat → Nat
  | 0, _ => 0
  | fuel + 1, v => if v = 0 then 0 else 1 + bitLen fuel (v / 2)

/-- A digest as a number, truncated to the bit length of n (R294). -/
def digestInt (k : Curve) (d : Bytes) : Nat :=
  let n := bitLen 1024 k.n
  unbe d / 2 ^ (8 * d.length - n)

/-- r and s of an ECDSA signature with nonce t. -/
def ecdsaRS (k : Curve) (d e t : Nat) : Nat × Nat :=
  let r := match k.mul t k.g with
    | some (x, _) => x % k.n
    | none => 0
  (r, ((invMod t k.n).getD 0) * (e + r * d) % k.n)

/-- ECDSA verification (R298). -/
def ecdsaOk (k : Curve) (q : Nat × Nat) (e r s : Nat) : Bool :=
  if r = 0 ∨ k.n ≤ r ∨ s = 0 ∨ k.n ≤ s then false
  else match invMod s k.n with
    | none => false
    | some w => match k.add (k.mul (e * w % k.n) k.g) (k.mul (r * w % k.n) (some q)) with
      | none => false
      | some (x, _) => x % k.n == r

/-- The number of the first check of `CURVE_LOAD` that fails (R308); `none` when all pass. -/
def curveFails (k : Curve) (pBases nBases : List Nat) : Option Nat :=
  let square (x : Int) : Int := x * x
  if !(decide (k.a < k.p) && decide (k.b < k.p) && decide (k.gx < k.p) && decide (k.gy < k.p)) then some 1
  else if !millerRabin k.p pBases then some 2
  else if (4 * k.a * k.a * k.a + 27 * k.b * k.b) % k.p = 0 then some 3
  else if !k.on k.gx k.gy then some 4
  else if !millerRabin k.n nBases then some 5
  else if k.mul k.n k.g != none then some 6
  else if !(decide (1 ≤ k.h) && decide (k.h ≤ 8) && decide (square ((k.p : Int) + 1 - k.h * k.n) ≤ 4 * k.p)) then some 7
  else if k.n = k.p then some 8
  else if (List.range 20).any fun i => powMod k.n 1024 (k.p % k.n) (i + 1) == 1 then some 9
  else none

end Sys2Proof.Machine
end

