-- ==== Sys2Proof/Machine/Digest.lean ====
section
/-!
DEFINITION. Digests, opcode class 0x5, and the composed MACs and key derivations, class 0x9 (chapter 10).
-/

namespace Sys2Proof.Machine

open Config (compute holds)

/-! ## Functions (R245 to R247) -/

def digPrim (f : Nat) : Config.Prim :=
  match f with
  | 0 => .sha2 224 | 1 => .sha2 256 | 2 => .sha2 384 | 3 => .sha2 512 | 4 => .sha512t256
  | 5 => .sha3 224 | 6 => .sha3 256 | 7 => .sha3 384 | 8 => .sha3 512 | 9 => .shake 128 | _ => .shake 256

/-- Result bytes of a fixed-length function. -/
def digFixed (f : Nat) : Option Nat := [28, 32, 48, 64, 32, 28, 32, 48, 64][f]?

def digBlock (f : Nat) : Nat := [64, 64, 128, 128, 128, 144, 136, 104, 72, 168, 136].getD f 1
def digPerKib (f : Nat) : Nat := [256, 256, 160, 160, 160, 16, 16, 20, 30, 14, 16].getD f 0
/-- Lane cycles for each block, and units in quarters (R245). -/
def digLane (f : Nat) : Nat := if f ≤ 1 then 16 else if f ≤ 4 then 20 else 8
def digUnits4 (f : Nat) : Nat := if 2 ≤ f ∧ f ≤ 4 then 5 else 4
/-- Chaining bytes of a state record (R253). -/
def digStateLen (f : Nat) : Nat := if f ≤ 1 then 32 else if f ≤ 4 then 64 else 200

/-- Lanes a message holds: one, or a pair for Keccak (R245). -/
def digLanes (f : Nat) : Nat := if f ≤ 4 then 1 else 2

def digXof (p : Nat) : Nat := bits p 23 0
def toDres (p : Nat) : Bool := bit p 63
def group (p : Nat) : Nat := bits p 52 32

/-- Length of a digest (R247, R249). -/
def digLen (f p : Nat) : Nat := (digFixed f).getD (digXof p)

/-- Blocks absorbed, padded and squeezed (R252). -/
def digBlocks (f len out : Nat) (pad : Bool) : Nat :=
  let b := digBlock f
  if !pad then len / b
  else if f ≤ 4 then (len + 1 + (if f ≤ 1 then 8 else 16) + b - 1) / b
  else len / b + 1 + (ceilDiv out b - 1)

/-- The floor stage of a digest: charged its units over 32, holding a lane for the whole time (R252). -/
def digFloor (f blocks : Nat) : List Stage :=
  [{ engine := .floor, est := ceilDiv (blocks * digUnits4 f * 5) 32, min := floorCy (60 + digLane f * blocks) }]

/-- The tun stage (R252). -/
def digTun (f absorbed : Nat) (double : Bool) : List Stage :=
  stage1 .tun (tunCy (200 + ceilDiv absorbed 1024 * digPerKib f * (if double then 2 else 1)))

/-! ## Destinations (R250) -/

/-- How many destinations the slip names. -/
def destCount (c : Cx) (dres : Bool) : Nat := b2n (c.outMax != 0) + b2n c.hold + b2n c.destUsed + b2n dres

/-- The life-cycle table of R250; `STATE_REJECTED` where the destination is not admitted. -/
def destState (c : Cx) (dres : Bool) : Option (Nat × Nat) :=
  let l := c.s.tmp.lcs
  let slotHold := c.hold || c.destUsed
  let ok := if c.keyed then slotHold || l == .factory && !dres else !slotHold && (!dres || l == .factory)
  if ok && !(c.keyed && dres) then none else some (4, lcsCode l)

/-- The new slot's class has this fixed key length. -/
def clsFits (c : Cx) (len : Nat) : Bool := !c.destUsed || classLen c.seg.cls == some len

/-- Segment 1, unless the field group gives the attributes (R249). -/
def groupExt (c : Cx) : Nat := b2n (c.destUsed && group c.param == 0)

/-! ## Class 0x5 -/

def digSpec (c : Cx) : Option OpSpec :=
  let f := c.set
  let p := c.param
  let len := digLen f p
  let xofOk := f ≥ 9 || digXof p == 0
  let rsv := bits p 31 24 == 0 && bits p 62 53 == 0
  let plain := rsv && group p == 0 && !toDres p
  let rec5 := auxIs c 384
  let small := decide (c.inLen ≤ 4096)
  let big : Nat := 0xFFFF_FFFF
  let stagesOf (out : Nat) (pad : Bool) : List Stage :=
    if small then digTun f c.inLen false else digFloor f (digBlocks f c.inLen out pad)
  if f > 10 then none
  else match c.op with
    | 0x01 =>
      let limit := if c.outMax != 0 then mib else 64
      let absorbed := c.keyLen + c.carryLen.getD 0 + c.inLen
      some { key := .opt, dest := .opt, holdOk := true, carryOk := true, secretLen := some len, ext := groupExt c
             fmt := rsv && xofOk && (group p == 0 || c.destUsed) && destCount c (toDres p) == 1
               && (!(c.hold || c.destUsed) || c.keyed)
             step3 := !toDres p || c.crl == 0, perm := if c.destUsed then some 1 else none, approved := some (!c.keyed)
             state5 := destState c (toDres p), inMax := big, outMax := big, usageOk := uses 6, newLen := len
             outSize := if c.outMax != 0 then some len else none, fixed := auxIs c 0
             param8 := (f < 9 || (decide (1 ≤ len) && decide (len ≤ limit))) && clsFits c len
             long := c.outMax != 0
             stages := if c.keyed || small then digTun f absorbed (c.keyed && c.three)
               else digFloor f (digBlocks f c.inLen len true) }
    | 0x02 =>
      some { fmt := plain && digXof p == 0, inMax := big, outMax := big, outSize := some 384, fixed := auxIs c 0, long := true
             stages := stagesOf 0 false }
    | 0x03 =>
      some { fmt := plain && digXof p == 0, inMax := big, outMax := big, outSize := some 384, fixed := rec5, long := true
             stages := stagesOf 0 false }
    | 0x04 =>
      some { fmt := plain && xofOk, inMax := big, outMax := big, outSize := some len, fixed := rec5
             param8 := f < 9 || (decide (1 ≤ len) && decide (len ≤ mib)), long := true, stages := stagesOf len true }
    | _ => none

def isDig (op : Nat) (sl : Slip) : Bool := csOp sl.cs == op && decide (csSet sl.cs ≤ 10)

/-- Deliver a derived value or digest to the destination the slip names (R250). -/
def deliver (s : State) (sl : Slip) (d : Bytes) (approved : Bool) : OpOut :=
  if csHold sl.cs then { secret := some d, approved := approved }
  else if csDestUsed sl.cs then { slotOps := newKeyOp s sl (slipParent sl) (slipAttr sl.cs sl.exts).cls d, approved := approved }
  else if csClass sl.cs == 5 && toDres (csParam sl.cs) then { slotOps := [.dres (csSet sl.cs) d], approved := approved }
  else { out := d, approved := approved }

/-- K ‖ C: the key of `KEY_REF` and the carries selected (R248). -/
def keyCarry (s : State) (sl : Slip) : Bytes := keyMat sl ++ carryIn s sl

/-- The digest of K ‖ C ‖ M (R248); a `TO_DRES` slip is judged again at its start (R263). -/
def dig (sl : Slip) (s : State) : State × OpOut :=
  let f := csSet sl.cs
  let keyed := csKeyUsed sl.cs || csCarry sl.cs != 0
  if toDres (csParam sl.cs) && s.tmp.lcs != .factory then
    (s, { status := St.stateRejected, inline := stateInline 4 (lcsCode s.tmp.lcs), approved := false })
  else
    (s, deliver s sl (fit (digLen f (csParam sl.cs)) (compute (digPrim f) [keyCarry s sl ++ sl.inData])) (!keyed))

/-- A digest state record (R253). -/
def dsr (f total : Nat) (state part : Bytes) : Bytes :=
  le 4 0x44475354 ++ [BitVec.ofNat 8 f, 1] ++ le 2 part.length ++ le 8 total ++ fit 200 (fit (digStateLen f) state)
    ++ fit 168 part

/-- Absorb data into an open state: whole blocks are compressed, the rest stays partial. -/
def dsrAbsorb (f total : Nat) (state data : Bytes) : Bytes :=
  let n := data.length / digBlock f * digBlock f
  let st := if n = 0 then state else fit (digStateLen f) (compute (.digestState f) [state, data.take n])
  dsr f total st (data.drop n)

/-- The state before any data. -/
def dsrInit (f : Nat) : Bytes := fit (digStateLen f) (compute (.digestState f) [])

/-- The conditions of R254 on an imported record. -/
def dsrOk (f : Nat) (r : Bytes) : Bool :=
  let part := field r 6 2
  field r 0 4 == 0x44475354 && field r 4 1 == f && field r 5 1 == 1 && part == field r 8 8 % digBlock f
    && allZero (slice r (16 + digStateLen f) (200 - digStateLen f)) && allZero (r.drop (216 + part))

def dsrState (f : Nat) (r : Bytes) : Bytes := slice r 16 (digStateLen f)
def dsrPart (r : Bytes) : Bytes := slice r 216 (field r 6 2)

def digStart (sl : Slip) (s : State) : State × OpOut :=
  (s, { out := dsrAbsorb (csSet sl.cs) sl.inData.length (dsrInit (csSet sl.cs)) sl.inData })

/-- Check the record, then hand its total, state and data to `k` (R254). -/
def digCont (sl : Slip) (s : State) (k : Nat → Bytes → Bytes → OpOut) : State × OpOut :=
  let f := csSet sl.cs
  let r := sl.auxData
  if !dsrOk f r then (s, .fail St.inputMalformed)
  else if field r 8 8 + sl.inData.length > 2 ^ 61 - 1 then (s, .fail St.lengthLimit)
  else (s, k (field r 8 8 + sl.inData.length) (dsrState f r) (dsrPart r ++ sl.inData))

def digUpdate (sl : Slip) (s : State) : State × OpOut :=
  digCont sl s fun total st data => { out := dsrAbsorb (csSet sl.cs) total st data }

def digFinish (sl : Slip) (s : State) : State × OpOut :=
  let f := csSet sl.cs
  digCont sl s fun total st data =>
    { out := fit (digLen f (csParam sl.cs)) (compute (.digestState f) [st, data, le 8 total]) }

def execDig (sid : Nat) (s : State) : Res := .next (runOp s sid 5 (isDig 0x01) dig)
def execDigStart (sid : Nat) (s : State) : Res := .next (runOp s sid 5 (isDig 0x02) digStart)
def execDigUpdate (sid : Nat) (s : State) : Res := .next (runOp s sid 5 (isDig 0x03) digUpdate)
def execDigFinish (sid : Nat) (s : State) : Res := .next (runOp s sid 5 (isDig 0x04) digFinish)

/-! ## Class 0x9 (R258 to R262) -/

def macLen (f : Nat) : Nat := [32, 48, 64].getD f 64
def outBytes (p : Nat) : Nat := bits p 15 0
def splitLen (p : Nat) : Nat := bits p 23 16
def isSymClass (cls : Nat) : Bool := (decide (1 ≤ cls) && decide (cls ≤ 6)) || isSecretClass cls

/-- Cost column: SHA-256, SHA-384/512, KMAC. -/
def macCol (f : Nat) : Nat := if f = 0 then 0 else if f ≤ 2 then 1 else 2
def macPerKib (f : Nat) : Nat := [256, 160, 160, 14, 16].getD f 0

/-- Count of R262: base, further output blocks, further KiB of each input beyond its listed size. -/
def macCost (c : Cx) (base : Nat) (kdf : Bool) (inputs : List (Nat × Nat)) : List Stage :=
  let f := c.set
  let m := if c.three then 2 else 1
  let excess := (inputs.map fun i => ceilDiv (i.1 - i.2) 1024).sum
  let outs := if kdf && f ≤ 2 then ceilDiv (outBytes c.param) (macLen f) - 1 else 0
  stage1 .tun (tunCy (shares c.three base + excess * macPerKib f * m + outs * (if f = 0 then 64 else 80) * m))

/-- Approval of a KDF: at least 14 bytes of K ‖ C, where they are known before step 11 (R261). -/
def kdfApproved (c : Cx) : Option Bool :=
  if c.inline? && c.key.isNone then none
  else if c.keyUsed && c.key.isNone then some true
  else c.carryLen.map fun n => decide (14 ≤ c.keyLen + n)

def kdfBase (c : Cx) : OpSpec :=
  let p := c.param
  { key := .opt, dest := .opt, holdOk := true, secretLen := some (outBytes p), ext := groupExt c
    fmt := bits p 31 24 == 0 && bits p 63 53 == 0 && (group p == 0 || c.destUsed) && destCount c false == 1
      && (!(c.hold || c.destUsed) || c.keyed)
    perm := if c.destUsed then some 1 else none, approved := kdfApproved c, state5 := destState c false
    keyOk := isSymClass, usageOk := uses 6, newLen := outBytes p
    outSize := if c.outMax != 0 then some (outBytes p) else none
    fixed := !c.auxKnown || decide (splitLen p ≤ c.auxLen)
    param8 := decide (1 ≤ outBytes p) && decide (outBytes p ≤ 64) && clsFits c (outBytes p) }

def macBase (c : Cx) (verify : Bool) : OpSpec :=
  let p := c.param
  let f := c.set
  let ob := outBytes p
  let s0 := c.auxLen - (if verify then ob else 0)
  { key := .yes, fmt := bits p 31 24 == 0 && bits p 63 32 == 0 && splitLen p == 0, approved := some (decide (8 ≤ ob))
    keyOk := isSymClass, usageOk := uses (if verify then 3 else 2), outSize := if verify then none else some ob
    fixed := !c.auxKnown || (if f ≤ 2 then c.auxLen == (if verify then ob else 0) else !verify || decide (ob ≤ c.auxLen))
    param8 := decide (4 ≤ ob) && decide (ob ≤ macLen f)
    stages := macCost c ([800, 900, 650].getD (macCol f) 0) false [(c.inLen, 1024), (s0, 64)] }

def kdfSpec (c : Cx) : Option OpSpec :=
  let f := c.set
  let p := c.param
  let k := kdfBase c
  let b := [54, 110].getD (macCol f) 0
  let sb := if f = 0 then 64 else 128
  if f > 4 then none
  else match c.op with
    | 0x01 =>
      if f > 2 then none
      else some { k with
        carryOk := true
        stages := macCost c ([1100, 1250].getD (macCol f) 0) true
          [(c.keyLen + c.carryLen.getD 0 + c.inLen, sb), (splitLen p, sb), (c.auxLen - splitLen p, b)] }
    | 0x02 =>
      if f > 2 then none
      else some { k with
        key := .yes, fmt := k.fmt && splitLen p == 0 && c.inLen == 0
        stages := macCost c ([800, 900].getD (macCol f) 0) true [(c.auxLen, b)] }
    | 0x10 =>
      some { k with
        carryOk := true, fmt := k.fmt && c.inLen == 0 && c.keyed
        stages := macCost c ([850, 950, 700].getD (macCol f) 0) true [(c.auxLen, [46, 110, 64].getD (macCol f) 0)] }
    | 0x20 => some (macBase c false)
    | 0x21 => some (macBase c true)
    | _ => none

def isKdf (op top : Nat) (sl : Slip) : Bool := csOp sl.cs == op && decide (csSet sl.cs ≤ top)

/-- Approved when K ‖ C has at least 14 bytes (R261). -/
def kdfOk (s : State) (sl : Slip) : Bool := decide (14 ≤ (keyCarry s sl).length)

/-- A KDF not approved on a slot that admits approved services only ends at step 11 (R320). -/
def kdfDeliver (s : State) (sl : Slip) (okm : Bytes) : State × OpOut :=
  (s, deliver s sl (fit (outBytes (csParam sl.cs)) okm) (kdfOk s sl))

def kdfHkdf (sl : Slip) (s : State) : State × OpOut :=
  let p := csParam sl.cs
  let aux := ownAux sl
  kdfDeliver s sl (compute (.hkdf (csSet sl.cs))
    [aux.take (splitLen p), keyCarry s sl ++ sl.inData, aux.drop (splitLen p), be 4 (outBytes p)])

def kdfHkdfExpand (sl : Slip) (s : State) : State × OpOut :=
  kdfDeliver s sl (compute (.hkdfExpand (csSet sl.cs)) [keyMat sl, ownAux sl, be 4 (outBytes (csParam sl.cs))])

def kdf108 (sl : Slip) (s : State) : State × OpOut :=
  let p := csParam sl.cs
  let aux := ownAux sl
  kdfDeliver s sl (compute (.kdf108 (csSet sl.cs))
    [keyCarry s sl, aux.take (splitLen p), aux.drop (splitLen p), be 4 (8 * outBytes p)])

/-- The tag of a message: HMAC, or KMAC with its customisation string and length (R260). -/
def macTag (f ob : Nat) (key custom msg : Bytes) : Bytes :=
  if f ≤ 2 then (fit (macLen f) (compute (.hmac f) [key, msg])).take ob
  else fit ob (compute (.kmac (if f = 3 then 128 else 256)) [key, custom, msg, be 4 (8 * ob)])

def macGen (sl : Slip) (s : State) : State × OpOut :=
  let ob := outBytes (csParam sl.cs)
  (s, { out := macTag (csSet sl.cs) ob (keyMat sl) (ownAux sl) sl.inData, approved := decide (8 ≤ ob) })

def macVerify (sl : Slip) (s : State) : State × OpOut :=
  let ob := outBytes (csParam sl.cs)
  let aux := ownAux sl
  (s, .verdict (macTag (csSet sl.cs) ob (keyMat sl) (aux.drop ob) sl.inData == aux.take ob) (decide (8 ≤ ob)))

def execKdfHkdf (sid : Nat) (s : State) : Res := .next (runOp s sid 9 (isKdf 0x01 2) kdfHkdf)
def execKdfHkdfExpand (sid : Nat) (s : State) : Res := .next (runOp s sid 9 (isKdf 0x02 2) kdfHkdfExpand)
def execKdf108 (sid : Nat) (s : State) : Res := .next (runOp s sid 9 (isKdf 0x10 4) kdf108)
def execMacGen (sid : Nat) (s : State) : Res := .next (runOp s sid 9 (isKdf 0x20 4) macGen)
def execMacVerify (sid : Nat) (s : State) : Res := .next (runOp s sid 9 (isKdf 0x21 4) macVerify)

end Sys2Proof.Machine
end

