-- ==== Sys2Proof/Machine/Kilns.lean ====
section
/-!
DEFINITION. The kilns: opcode classes 0x6 and 0x7 (chapter 12).
-/

namespace Sys2Proof.Machine

open Config (compute holds)

/-! ## `OP_PARAM` (R294) -/

def kHash (p : Nat) : Nat := bits p 7 0
def kSupplied (p : Nat) : Bool := bit p 8
def kDet (p : Nat) : Bool := bit p 9
def kPad (p : Nat) : Nat := bits p 11 10
def kSalt (p : Nat) : Nat := bits p 23 16
def kSize (p : Nat) : Nat := bits p 31 24
def kSecret (p : Nat) : Nat := bits p 39 32
def kCurve (p : Nat) : Nat := bits p 60 40

/-- Fields an operation uses; any other is zero. -/
structure KFields where
  hash : Bool := false
  sup : Bool := false
  det : Bool := false
  pad : Bool := false
  salt : Bool := false
  size : Bool := false
  secret : Bool := false
  curve : Bool := false

def kUnusedZero (f : KFields) (p : Nat) : Bool :=
  (f.hash || kHash p == 0) && (f.sup || !kSupplied p) && (f.det || !kDet p) && (f.pad || kPad p == 0)
    && bits p 15 12 == 0 && (f.salt || kSalt p == 0) && (f.size || kSize p == 0) && (f.secret || kSecret p == 0)
    && (f.curve || kCurve p == 0) && bits p 63 61 == 0

/-! ## Sizes and curves (R290, R291) -/

def isShort (set : Nat) : Bool := (decide (1 ≤ set) && decide (set ≤ 3)) || set == 6
def isEdwards (set : Nat) : Bool := set == 4 || set == 5

/-- The curve slot of a set 0x6 slip. -/
def curveSlot (c : Cx) : Slot := c.curve.getD (c.s.slot (kCurve c.param))

def cxCurve (c : Cx) : Curve := if c.set = 6 then slotCurve (curveSlot c) else nistCurve c.set

def slipCurve (s : State) (sl : Slip) : Curve :=
  if csSet sl.cs = 6 then slotCurve (sl.curve.getD (s.slot (kCurve (csParam sl.cs)))) else nistCurve (csSet sl.cs)

def montLen (set : Nat) : Nat := if set = 4 then 32 else 56
def edLen (set : Nat) : Nat := if set = 4 then 32 else 57
def edSig (set : Nat) : Nat := if set = 4 then 64 else 114

/-- Key classes of a set: agreement, signing, public (R319). -/
def kAgree (set : Nat) : Nat := [0x60, 0x68, 0x69, 0x6A, 0x70, 0x73, 0x78].getD set 0
def kSign (set : Nat) : Nat := [0x60, 0x68, 0x69, 0x6A, 0x71, 0x74, 0x78].getD set 0
def kPub (set : Nat) : Nat := [0x61, 0x6C, 0x6D, 0x6E, 0x72, 0x75, 0x79].getD set 0

/-- Modulus bytes of an RSA slot of either class (R291). -/
def rsaK (cls len : Nat) : Nat := if cls = 0x61 then len - 4 else 2 * (len - 4) / 7

/-- Modulus bytes of the slip: its key's, else `RSA_SIZE`'s; the smallest while an inline wrapped key is unopened (R331). -/
def cxK (c : Cx) : Nat :=
  if !c.keyUsed then 32 * kSize c.param else match c.key with
    | some k => rsaK k.keyClass k.keyLen
    | none => 256

/-- An RSA modulus of 2,048 to 8,192 bits in steps of 256 (R290). -/
def rsaOk (k : Nat) : Bool := decide (256 ≤ k) && decide (k ≤ 1024) && k % 32 == 0

/-- The key descends from the curve slot named, or, carried in a record, has the curve's size (R300, R309). -/
def onCurve (c : Cx) : Bool :=
  match c.key with
  | none => true
  | some k =>
    if c.inline? then
      let n := (cxCurve c).c
      k.keyLen == (if k.keyClass = 0x79 then 2 * n + 1 else n)
    else below 8 k
where
  below : Nat → Slot → Bool
    | 0, _ => false
    | fuel + 1, k => k.depth != 0 && (k.parent == kCurve c.param || below fuel (c.s.slot k.parent))

/-- Step 7 of a set 0x6 slip: its curve slot is checked as a key, then the key's curve (R309). -/
def curveStep7 (c : Cx) : Option Nat :=
  if c.set != 6 then none
  else
    let slot := if c.inline? && c.key.isSome then none
      else keyCheck c.s c.crl (kCurve c.param) (· == 0x7A) (fun _ => true) false
    match slot with
    | some st => some st
    | none => if onCurve c then none else some St.keyUsageDenied

/-! ## Times (R310, R471) -/

/-- Ticks of a time in tenths of a us. -/
def us10 (n : Nat) : Nat := 3000 * n

/-- Row of a loaded curve by the bits of its p. -/
def sizeRow (b : Nat) : Nat := if b ≤ 256 then 0 else if b ≤ 384 then 1 else if b ≤ 512 then 2 else 3

/-- Key generation, sign, verify, agreement in us. -/
def ecTimes (set pBits : Nat) : List Nat :=
  match set with
  | 1 => [10, 12, 30, 14]
  | 2 => [21, 26, 62, 25]
  | 3 => [43, 52, 125, 50]
  | 4 => [7, 8, 20, 6]
  | 5 => [20, 22, 55, 18]
  | _ => [[13, 15, 38, 18], [27, 32, 78, 32], [54, 64, 155, 62], [100, 118, 290, 115]].getD (sizeRow pBits) []

def ecTicks (c : Cx) (i : Nat) : Nat := us10 (10 * (ecTimes c.set (bitLen 1024 (cxCurve c).p)).getD i 0)

/-- Key generation of a class: the X classes of Curve25519 and Curve448 are shorter. -/
def ecKgTicks (c : Cx) (cls : Nat) : Nat := if cls = 0x70 then us10 60 else if cls = 0x73 then us10 180 else ecTicks c 0

/-- Linear interpolation between two rows (modulus bits, tenths of a us). -/
def between (b : Nat) (x y : Nat × Nat) : Nat := us10 x.2 + (us10 y.2 - us10 x.2) * (b - x.1) / (y.1 - x.1)

def rsaTicks (k : Nat) (rows : List Nat) : Nat :=
  let b := 8 * k
  let r (i : Nat) := rows.getD i 0
  if b ≤ 3072 then between b (2048, r 0) (3072, r 1)
  else if b ≤ 4096 then between b (3072, r 1) (4096, r 2)
  else between b (4096, r 2) (8192, r 3)

def rsaPrivT (k : Nat) : Nat := rsaTicks k [400, 1200, 2600, 19000]
def rsaPubT (k : Nat) : Nat := rsaTicks k [20, 42, 74, 290]

/-- Average and minimum of RSA key generation, in us. -/
def rsaKgUs (k : Nat) : Nat × Nat := if k ≤ 256 then (3200, 400) else if k ≤ 384 then (11000, 1300) else (26000, 3100)

/-- The pairwise consistency test of a new key (R471). -/
def pairTicks (c : Cx) (cls : Nat) (usage : BitVec 10) : Nat :=
  let sv := ecTicks c 1 + ecTicks c 2
  let ag := 2 * ecTicks c 3
  if cls = 0x70 ∨ cls = 0x73 then ag
  else if cls = 0x71 ∨ cls = 0x74 then sv
  else (if usage.getLsbD 2 || !usage.getLsbD 6 then sv else 0) + (if usage.getLsbD 6 then ag else 0)

/-- Key generation of a curve class with its test. -/
def ecKgAll (c : Cx) (cls : Nat) (usage : BitVec 10) : Nat := ecKgTicks c cls + pairTicks c cls usage

/-- A stage on a kiln, behind a floor stage for a public message above 4 KiB; beyond the first KiB the core adds its count
for each pass (R295, R310). -/
def kilnStages (c : Cx) (base perKib passes : Nat) : List Stage :=
  let f := kHash c.param
  if f != 0 && !kSupplied c.param && decide (4096 < c.inLen) then
    digFloor (f - 1) (digBlocks (f - 1) c.inLen (((preHash f).map (·.len)).getD 0) true) ++ stage1 .kiln base
  else
    let kib := if kSupplied c.param then 0 else ceilDiv c.inLen 1024 - 1
    stage1 .kiln (base + tunCy (perKib * passes * kib))

/-! ## Class 0x6 -/

def eddsaHashOk (set h : Nat) : Bool := h == 0 || h == (if set = 4 then 0x04 else 0x0B)

/-- Core count per KiB of an EdDSA message: SHA-512 or SHAKE256 (R185). -/
def edPerKib (set : Nat) : Nat := if set = 4 then 160 else 16

/-- The RSA exponent is at least 65,537; unknown while it is inline (R296). -/
def bigE (c : Cx) : Option Bool :=
  match c.key with
  | none => if c.keyUsed then some true else none
  | some k => if k.valid && k.keyClass == 0x61 then some (decide (65537 ≤ unbe (k.material.drop (k.keyLen - 4)))) else some true

/-- A signature operation's `HASH_ALG`, `RSA_PAD` and `PSS_SALT_LEN` are in range (R294). -/
def sigParamOk (set p : Nat) : Bool :=
  if isEdwards set then eddsaHashOk set (kHash p)
  else match preHash (kHash p) with
    | none => false
    | some f => set != 0 || (decide (kPad p ≤ 1) && decide (kSalt p ≤ f.len))

/-- The digest supplied has the hash's length (R294). -/
def digestFits (c : Cx) : Bool :=
  !kSupplied c.param || (match preHash (kHash c.param) with
    | some f => c.inLen == f.len
    | none => true)

/-- Longest ctx (R295). -/
def ctxMax (set p : Nat) : Nat := if set = 4 ∧ kHash p = 0 then 0 else if isEdwards set then 255 else 0

def sigSize (c : Cx) : Nat :=
  if c.set = 0 then cxK c else if isEdwards c.set then edSig c.set else 2 * (cxCurve c).cs

/-- An output size that depends on the key: not known while the key's record is unopened (R83, R331). -/
def keyedOut (c : Cx) (n : Nat) : Option Nat := if c.keyUsed && c.key.isNone then none else some n

/-- Sizes an inline public key can have. -/
def pkSizes (c : Cx) : List Nat :=
  if c.keyUsed then [0]
  else if c.set = 0 then [cxK c + 4]
  else if isEdwards c.set then [edLen c.set]
  else [2 * (cxCurve c).c + 1, (cxCurve c).c + 1]

def pureEdOk (c : Cx) : Bool := !(isEdwards c.set && kHash c.param == 0) || decide (c.inLen ≤ 16384)

/-- Length of a new secret slot: its class's (R293, R297). -/
def segLen (c : Cx) : Nat := (classLen c.seg.cls).getD 0

def kilnSpec (c : Cx) : Option OpSpec :=
  let set := c.set
  let p := c.param
  let rsa := set == 0
  let ed := isEdwards set
  let loaded := set == 6
  let k := cxCurve c
  let cv : KFields := { curve := loaded }
  let other := if loaded then some (kCurve p) else none
  let curveAppr : Option Bool := some (!loaded)
  let noIn := c.inLen == 0
  if set > 6 then none
  else match c.op with
    | 0x01 =>
      let cls := c.seg.cls
      let len := if rsa then 112 * kSize p + 4 else if loaded then k.c else (classLen cls).getD 0
      let kg := rsaKgUs (32 * kSize p)
      let pair := rsaPrivT (32 * kSize p) + rsaPubT (32 * kSize p)
      some { dest := .yes, ext := 1, fmt := kUnusedZero { cv with size := rsa } p, perm := some 0, approved := curveAppr
             step7 := curveStep7 c, other := other, parent := other, newLen := len
             outSize := some (if rsa then 32 * kSize p + 4 else if ed then len else 2 * k.c + 1)
             fixed := noIn && auxIs c 0
             param8 := (cls == kAgree set || cls == kSign set) && (!rsa || kSize p == 8 || kSize p == 12 || kSize p == 16)
             random := true
             stages := if rsa then [{ engine := .kiln, est := 30000 * kg.1 + pair, min := 30000 * kg.2 + pair }]
               else stage1 .kiln (ecKgAll c cls c.seg.usage) }
    | 0x02 =>
      let cls := match c.key with
        | some x => x.keyClass
        | none => kAgree set
      some { key := .yes, fmt := kUnusedZero cv p, approved := curveAppr
             keyOk := fun x => x == kAgree set || x == kSign set
             usageOk := fun u => u.getLsbD 2 || u.getLsbD 6 || u.getLsbD 1, step7 := curveStep7 c, other := other
             outSize := keyedOut c (if rsa then cxK c + 4 else if ed then (if cls = kAgree set then montLen set else edLen set)
               else 2 * k.c + 1)
             fixed := noIn && auxIs c 0, random := true
             stages := stage1 .kiln (if rsa then 30000 else ecKgTicks c cls) }
    | 0x03 =>
      let n := if ed then montLen set else k.c
      if rsa then none
      else some { key := .yes, dest := .opt, xor := true, holdOk := true, secretLen := some n, ext := b2n c.destUsed
                  fmt := kUnusedZero cv p, perm := if c.destUsed then some 1 else none, approved := curveAppr
                  keyOk := (· == kAgree set), usageOk := uses 6, step7 := curveStep7 c, other := other, newLen := n
                  fixed := (c.inLen == (if ed then n else 2 * n + 1) || (!ed && c.inLen == n + 1)) && auxIs c 0
                  param8 := !c.destUsed || classLen c.seg.cls == some n, random := true
                  stages := stage1 .kiln (ecTicks c 3) }
    | 0x10 =>
      let hashed := kHash p != 0
      let f : KFields := { cv with hash := true, sup := !ed || hashed, det := !rsa && !ed, pad := rsa, salt := rsa && kPad p == 1 }
      let perKib := if ed && !hashed then edPerKib set else ((preHash (kHash p)).map (·.perKib)).getD 0
      some { key := .yes, fmt := kUnusedZero f p, approved := curveAppr, len6 := pureEdOk c, keyOk := (· == kSign set)
             usageOk := uses 2, step7 := curveStep7 c, other := other, outSize := if rsa then keyedOut c (sigSize c) else some (sigSize c)
             fixed := digestFits c && (!c.auxKnown || decide (c.auxLen ≤ ctxMax set p))
             param8 := sigParamOk set p, random := true
             stages := kilnStages c (if rsa then rsaPrivT (cxK c) else ecTicks c 1) perKib (if ed && !hashed then 2 else 1) }
    | 0x20 =>
      let hashed := kHash p != 0
      let f : KFields := { cv with hash := true, sup := !ed || hashed, pad := rsa, salt := rsa && kPad p == 1
                                   size := rsa && !c.keyUsed }
      let perKib := if ed && !hashed then edPerKib set else ((preHash (kHash p)).map (·.perKib)).getD 0
      some { key := .opt, fmt := kUnusedZero f p, approved := if rsa then bigE c else curveAppr, len6 := pureEdOk c
             keyOk := (· == kPub set), usageOk := uses 3, step7 := curveStep7 c, other := other
             fixed := digestFits c && (!c.auxKnown || (pkSizes c).any fun n =>
               decide (n + sigSize c ≤ c.auxLen) && decide (c.auxLen ≤ n + sigSize c + ctxMax set p))
             param8 := sigParamOk set p && (!rsa || c.keyUsed || rsaOk (cxK c)), random := true
             stages := kilnStages c (if rsa then rsaPubT (cxK c) else ecTicks c 2) perKib 1 }
    | 0x30 =>
      let oaep := kPad p == 2
      let h := ((preHash (kHash p)).map (·.len)).getD 0
      let pk := if c.keyUsed then 0 else cxK c + 4
      let room := if oaep then cxK c - 2 * h - 2 else cxK c - 11
      if !rsa then none
      else some { key := .opt, fmt := kUnusedZero { pad := true, hash := oaep, size := !c.keyUsed } p
                  approved := if kPad p == 0 then some false else bigE c, keyOk := (· == 0x61), usageOk := uses 0
                  outSize := keyedOut c (cxK c)
                  fixed := (!c.auxKnown || (decide (pk ≤ c.auxLen) && (oaep || c.auxLen == pk)))
                    && (!c.auxKnown || decide (c.inLen ≤ room))
                  param8 := (kPad p == 0 || (oaep && (preHash (kHash p)).isSome)) && (c.keyUsed || rsaOk (cxK c))
                  random := true, stages := stage1 .kiln (rsaPubT (cxK c)) }
    | 0x31 =>
      let oaep := kPad p == 2
      let n := if c.hold then kSecret p else segLen c
      if !rsa then none
      else some { key := .yes, dest := .opt, xor := true, holdOk := true, secretLen := if c.hold then none else some 0
                  ext := b2n c.destUsed, fmt := kUnusedZero { pad := true, hash := oaep, secret := c.hold } p
                  perm := if c.destUsed then some 1 else none, approved := if kPad p == 0 then some false else some true
                  keyOk := (· == 0x60), usageOk := uses 1, newLen := n
                  fixed := !c.auxKnown || (c.inLen == cxK c && (oaep || c.auxLen == 0))
                  param8 := (kPad p == 0 || (oaep && (preHash (kHash p)).isSome))
                    && (if c.hold then decide (16 ≤ n) && decide (n ≤ 64) else (classLen c.seg.cls).isSome)
                  random := true, stages := stage1 .kiln (rsaPrivT (cxK c)) }
    | 0x40 =>
      let cb := (c.cs.auxLen - 2) / 6
      let t := if cb ≤ 32 then 13500000 else 69000000
      if !loaded then none
      else some { dest := .yes, ext := 1, fmt := kUnusedZero {} p, perm := some 0, approved := some false
                  newLen := curveLen cb
                  fixed := noIn && c.cs.auxLen == 6 * cb + 2 && decide (24 ≤ cb) && decide (cb ≤ 80)
                  param8 := c.seg.cls == 0x7A, random := true, stages := stage1 .kiln t }
    | _ => none

def isKiln (op : Nat) (sl : Slip) : Bool := csOp sl.cs == op && decide (csSet sl.cs ≤ 6)

/-- The digest of the message, or `IN` itself where the digest is supplied; a pure EdDSA message stays whole. -/
def kMsg (sl : Slip) : Bytes :=
  match preHash (kHash (csParam sl.cs)) with
  | none => sl.inData
  | some f => if kSupplied (csParam sl.cs) then sl.inData else fit f.len (compute f.prim [sl.inData])

def kLoaded (sl : Slip) : Bool := csSet sl.cs == 6

/-- The parameters that a signature covers besides the message. -/
def sigCtx (p : Nat) (ctx : Bytes) : Bytes := le 1 (kHash p) ++ le 1 (kPad p) ++ le 1 (kSalt p) ++ ctx

/-- The parent of a key made on a loaded curve is the curve slot as it was loaded (R300, R324, R337). -/
def kilnNewKey (s : State) (sl : Slip) (cls : Nat) (mat : Bytes) : List SlotOp :=
  match kLoaded sl, sl.curve, sl.destClaim with
  | true, some cur, some n =>
    [.create n { newSlot s sl.carrel (kCurve (csParam sl.cs)) (slipAttr sl.cs sl.exts) cls mat with
      depth := cur.depth + 1, parentGen := cur.ownGen }]
  | _, _, _ => newKeyOp s sl (slipParent sl) cls mat

/-- A private scalar in range (R303). -/
def scalarOk (k : Curve) (d : Nat) : Bool := d != 0 && decide (d < k.n)

def edPublicKey (set cls : Nat) (seed : Bytes) : Bytes :=
  if cls = kAgree set then fit (montLen set) (compute (.montPublic set) [seed])
  else fit (edLen set) (compute (.edPublic set) [seed])

def rsaPublicKey (k : Nat) (key : Bytes) : Bytes := key.take (k + 4)

/-- PK_KEYGEN (R300). -/
def pkKeygen (sl : Slip) (s : State) : State × OpOut :=
  let set := csSet sl.cs
  let cls := (slipAttr sl.cs sl.exts).cls
  if set = 0 then
    let k := 32 * kSize (csParam sl.cs)
    draw s 64 fun s seed =>
      let tried := BitVec.ofNat 64 (unle (compute (.rsaCandidates k) [seed]) % 2 ^ 32)
      if holds (.rsaKeyGen) [seed] then
        let key := fit (7 * k / 2 + 4) (compute .rsaKeyGen [le 2 k, seed])
        (s, { out := rsaPublicKey k key, inline := tried, slotOps := kilnNewKey s sl cls key })
      else (s, { status := St.aborted, inline := tried })
  else if isEdwards set then
    draw s (if cls = kAgree set then montLen set else edLen set) fun s seed =>
      (s, { out := edPublicKey set cls seed, slotOps := kilnNewKey s sl cls seed })
  else
    let k := slipCurve s sl
    draw s (k.cs + 8) fun s b =>
      let d := unbe b % k.n
      (s, { out := k.pubBytes (k.mul d k.g), slotOps := kilnNewKey s sl cls (be k.c d), approved := !kLoaded sl })

def pkPubkey (sl : Slip) (s : State) : State × OpOut :=
  let set := csSet sl.cs
  let cls := (sl.key.map (·.keyClass)).getD 0
  let m := keyMat sl
  if set = 0 then (s, { out := rsaPublicKey (rsaK 0x60 m.length) m })
  else if isEdwards set then (s, { out := edPublicKey set cls m })
  else
    let k := slipCurve s sl
    let d := unbe m
    if scalarOk k d then (s, { out := k.pubBytes (k.mul d k.g), approved := !kLoaded sl })
    else (s, .fail St.operandRange (!kLoaded sl))

def pkAgree (sl : Slip) (s : State) : State × OpOut :=
  let set := csSet sl.cs
  if isEdwards set then
    let z := fit (montLen set) (compute (.montAgree set) [keyMat sl, sl.inData])
    if allZero z then (s, .fail St.zeroSharedSecret) else (s, toSecret s sl z {})
  else
    let k := slipCurve s sl
    let appr := !kLoaded sl
    let d := unbe (keyMat sl)
    if !scalarOk k d then (s, .fail St.operandRange appr)
    else match k.pubPoint sl.inData with
      | none => (s, .fail St.pointInvalid appr)
      | some q => match k.mul d (some q) with
        | none => (s, .fail St.pointInvalid appr)
        | some (x, _) => (s, toSecret s sl (be k.c x) { approved := appr })

/-- ECDSA with a nonce from the DRBG or the deterministic one; r = 0 or s = 0 takes another (R304). -/
def ecdsaSign (k : Curve) (sl : Slip) (d e : Nat) : Nat → State → State × OpOut
  | 0, s => (s, .fail St.aborted (!kLoaded sl))
  | fuel + 1, s =>
    let det := kDet (csParam sl.cs)
    let raw := if det then compute .ecNonce [keyMat sl, le 128 e, le 1 fuel] else s.freeBytes (k.cs + 8)
    let s := if det then s else s.drawn (k.cs + 8)
    let r := ecdsaRS k d e (1 + unbe raw % (k.n - 1))
    if r.1 = 0 ∨ r.2 = 0 then ecdsaSign k sl d e fuel s
    else (s, { out := be k.cs r.1 ++ be k.cs r.2, approved := !kLoaded sl })

def pkSign (sl : Slip) (s : State) : State × OpOut :=
  let set := csSet sl.cs
  let p := csParam sl.cs
  let m := kMsg sl
  let key := keyMat sl
  if set = 0 then
    let k := rsaK 0x60 key.length
    let salt := s.freeBytes (kSalt p)
    (s.drawn (kSalt p), { out := fit k (compute (.rsaSign (kPad p)) [key, sigCtx p [], m, salt]) })
  else if isEdwards set then (s, { out := fit (edSig set) (compute (.edSign set) [key, sigCtx p (ownAux sl), m]) })
  else
    let k := slipCurve s sl
    let d := unbe key
    if scalarOk k d then ecdsaSign k sl d (digestInt k m) 4 s else (s, .fail St.operandRange (!kLoaded sl))

/-- An inline RSA public key: e odd and at least 3 (R292). -/
def rsaPkOk (pk : Bytes) : Bool :=
  let e := unbe (pk.drop (pk.length - 4))
  decide (3 ≤ e) && e % 2 == 1

def rsaE (pk : Bytes) : Nat := unbe (pk.drop (pk.length - 4))

/-- Bytes of the public key in front of `AUX`. -/
def pkFront (set k : Nat) (cur : Curve) (aux : Bytes) : Nat :=
  if set = 0 then k + 4
  else if isEdwards set then edLen set
  else if aux.head? = some 4 then 2 * cur.c + 1 else cur.c + 1

def pkVerify (sl : Slip) (s : State) : State × OpOut :=
  let set := csSet sl.cs
  let p := csParam sl.cs
  let aux := ownAux sl
  let cur := slipCurve s sl
  let n := if csKeyUsed sl.cs then 0 else pkFront set (32 * kSize p) cur aux
  let pk := if csKeyUsed sl.cs then keyMat sl else aux.take n
  let rest := aux.drop n
  let m := kMsg sl
  if set = 0 then
    let k := pk.length - 4
    let appr := decide (65537 ≤ rsaE pk)
    if !rsaPkOk pk && !csKeyUsed sl.cs then (s, .fail St.inputMalformed appr)
    else (s, .verdict (decide (unbe rest < unbe (pk.take k)) && holds (.rsaSign (kPad p)) [pk, sigCtx p [], m, rest]) appr)
  else if isEdwards set then
    (s, .verdict (holds (.edSign set) [pk, sigCtx p (rest.drop (edSig set)), m, rest.take (edSig set)]))
  else
    match cur.pubPoint pk with
    | none => (s, .fail St.pointInvalid (!kLoaded sl))
    | some q => (s, .verdict (ecdsaOk cur q (digestInt cur m) (unbe (rest.take cur.cs)) (unbe (rest.drop cur.cs))) (!kLoaded sl))

def rsaEncrypt (sl : Slip) (s : State) : State × OpOut :=
  let p := csParam sl.cs
  let aux := ownAux sl
  let n := if csKeyUsed sl.cs then 0 else 32 * kSize p + 4
  let pk := if csKeyUsed sl.cs then keyMat sl else aux.take n
  let appr := kPad p != 0 && decide (65537 ≤ rsaE pk)
  if !rsaPkOk pk && !csKeyUsed sl.cs then (s, .fail St.inputMalformed appr)
  else draw s 1024 fun s r =>
    (s, { out := fit (pk.length - 4) (compute (.rsaEnc (kPad p)) [pk, le 1 (kHash p), aux.drop n, sl.inData, r])
          approved := appr })

/-- "T5120-RSA-IR" in ASCII (R297). -/
def rsaIr : Bytes := [0x54, 0x35, 0x31, 0x32, 0x30, 0x2D, 0x52, 0x53, 0x41, 0x2D, 0x49, 0x52]

/-- The message where the padding is valid and its length is ℓ, else the rejection value (R297). -/
def rsaDecrypt (sl : Slip) (s : State) : State × OpOut :=
  let p := csParam sl.cs
  let key := keyMat sl
  let k := rsaK 0x60 key.length
  let appr := kPad p != 0
  if unbe (key.take k) ≤ unbe sl.inData then (s, .fail St.operandRange appr)
  else
    let l := if csHold sl.cs then kSecret p else (classLen (slipAttr sl.cs sl.exts).cls).getD 0
    let ins := [key, le 1 (kHash p), ownAux sl, sl.inData]
    let m := compute (.rsaDec (kPad p)) ins
    let rej := fit l (compute (.shake 256) [compute .rsaExponent [key] ++ rsaIr ++ sl.inData])
    (s, toSecret s sl (if holds (.rsaDec (kPad p)) ins && m.length == l then m else rej) { approved := appr })

/-- 64 bases of a Miller–Rabin test. -/
def mrBases (b : Bytes) (n : Nat) : List Nat := (List.range 64).map fun i => unle (slice b (n * i) n)

def curveLoad (sl : Slip) (s : State) : State × OpOut :=
  let c := (sl.cs.auxLen - 2) / 6
  let k := parseCurve c sl.auxData
  if field sl.auxData 0 1 = 0 then (s, .fail St.lengthMismatch false)
  else draw s (128 * (c + 1)) fun s b =>
    match curveFails k (mrBases b (c + 1)) (mrBases (b.drop (64 * (c + 1))) (c + 1)) with
    | some n => (s, { status := St.curveRejected, inline := BitVec.ofNat 64 n, approved := false })
    | none => (s, { slotOps := newKeyOp s sl (slipParent sl) 0x7A (curveMaterial c sl.auxData), approved := false })

def execPkKeygen (sid : Nat) (s : State) : Res := .next (runOp s sid 6 (isKiln 0x01) pkKeygen)
def execPkPubkey (sid : Nat) (s : State) : Res := .next (runOp s sid 6 (isKiln 0x02) pkPubkey)
def execPkAgree (sid : Nat) (s : State) : Res := .next (runOp s sid 6 (isKiln 0x03) pkAgree)
def execPkSign (sid : Nat) (s : State) : Res := .next (runOp s sid 6 (isKiln 0x10) pkSign)
def execPkVerify (sid : Nat) (s : State) : Res := .next (runOp s sid 6 (isKiln 0x20) pkVerify)
def execRsaEncrypt (sid : Nat) (s : State) : Res := .next (runOp s sid 6 (isKiln 0x30) rsaEncrypt)
def execRsaDecrypt (sid : Nat) (s : State) : Res := .next (runOp s sid 6 (isKiln 0x31) rsaDecrypt)
def execCurveLoad (sid : Nat) (s : State) : Res := .next (runOp s sid 6 (isKiln 0x40) curveLoad)

/-! ## Class 0x7 (R301, R302, R311) -/

/-- Cycles of `MODADD`, `MODMUL`, `MODINV` by the row of 8N. -/
def modRow (n : Nat) (row : List Nat) : Nat :=
  row.getD (([256, 512, 1024, 2048, 4096].filter fun b => decide (b < 8 * n)).length) 0

def modAddCy (n : Nat) : Nat := modRow n [3, 4, 6, 10, 18, 34]
def modMulCy (n : Nat) : Nat := modRow n [4, 6, 16, 58, 219, 830]
def modInvCy (n : Nat) : Nat := modRow n [900, 1700, 3000, 9000, 30000, 110000]
def modExpCy (n : Nat) : Nat := 8 * n * (2 * modMulCy n + 1) + 40

/-- Add, double, multiply, validate. -/
def ptRow (c : Cx) : Nat × Nat × Nat × Nat :=
  match c.set with
  | 1 => (200, 150, 16000, 1400)
  | 2 => (320, 240, 40000, 2600)
  | 3 => (600, 450, 90000, 4800)
  | _ =>
    let k := cxCurve c
    let r := [(260, 190, 20000, 3000), (420, 310, 50000, 5400), (760, 560, 95000, 9000), (1100, 820, 170000, 13500)].getD
      (sizeRow (bitLen 1024 k.p)) (0, 0, 0, 0)
    if k.h = 1 then r else (r.1, r.2.1, r.2.2.1, r.2.2.2 + r.2.2.1)

def fieldSpec (c : Cx) : Option OpSpec :=
  let n := c.cs.auxLen
  let cv : KFields := { curve := c.set == 6 }
  let modular (ins cy : Nat) : Option OpSpec :=
    if c.set != 0 then none
    else some { fmt := kUnusedZero {} c.param, approved := some false, outSize := some n, fixed := c.inLen == ins
                param8 := decide (1 ≤ n) && decide (n ≤ 1024), random := true, stages := stage1 .kiln (tunCy (60 + cy)) }
  let point (ins cy : Nat) : Option OpSpec :=
    if !isShort c.set then none
    else some { fmt := kUnusedZero cv c.param && n == 0, approved := some false, step7 := curveStep7 c
                other := if c.set = 6 then some (kCurve c.param) else none
                outSize := some (2 * (cxCurve c).c), fixed := c.inLen == ins, random := true
                stages := stage1 .kiln (tunCy (60 + cy)) }
  let k := cxCurve c
  let r := ptRow c
  match c.op with
  | 0x01 => modular (2 * n) (modAddCy n)
  | 0x02 => modular (2 * n) (modAddCy n)
  | 0x03 => modular (2 * n) (modMulCy n)
  | 0x04 => modular n (modInvCy n)
  | 0x05 => modular (2 * n) (modExpCy n)
  | 0x10 => point (4 * k.c) (r.1 + 2 * r.2.2.2)
  | 0x11 => point (2 * k.c) (r.2.1 + r.2.2.2)
  | 0x12 => point (2 * k.c + k.cs) (r.2.2.1 + r.2.2.2)
  | _ => none

def isMod (op : Nat) (sl : Slip) : Bool := csOp sl.cs == op && csSet sl.cs == 0
def isPoint (op : Nat) (sl : Slip) : Bool := csOp sl.cs == op && isShort (csSet sl.cs)

/-- A modular operation: the modulus is odd and at least 3 (R301); operands at or above it are out of range (R303). -/
def modOp (second : Bool) (f : Nat → Nat → Nat → Except Nat Nat) (sl : Slip) (s : State) : State × OpOut :=
  let n := sl.cs.auxLen
  let m := unbe sl.auxData
  let a := unbe (sl.inData.take n)
  let b := unbe (sl.inData.drop n)
  if m < 3 ∨ m % 2 = 0 then (s, .fail St.paramInvalid false)
  else if m ≤ a ∨ (second = true ∧ m ≤ b) then (s, .fail St.operandRange false)
  else match f m a b with
    | .ok r => (s, { out := be n r, approved := false })
    | .error st => (s, .fail st false)

def modadd : Slip → State → State × OpOut := modOp true fun m a b => .ok ((a + b) % m)
def modsub : Slip → State → State × OpOut := modOp true fun m a b => .ok ((a + m - b) % m)
def modmul : Slip → State → State × OpOut := modOp true fun m a b => .ok (a * b % m)
def modinv : Slip → State → State × OpOut := modOp false fun m a _ => match invMod a m with
  | some r => .ok r
  | none => .error St.notInvertible
def modexp : Slip → State → State × OpOut := modOp false fun m a b => .ok (powMod m 8192 a b)

/-- A point result: X ‖ Y, or zeros with byte 24 set for the point at infinity (R302). -/
def pointOut (k : Curve) (q : Point) : OpOut :=
  { out := k.rawBytes q, inline := if q.isNone then 1 else 0, approved := false }

def padd (sl : Slip) (s : State) : State × OpOut :=
  let k := slipCurve s sl
  match k.rawPoint (sl.inData.take (2 * k.c)), k.rawPoint (sl.inData.drop (2 * k.c)) with
  | some p, some q => (s, pointOut k (k.add (some p) (some q)))
  | _, _ => (s, .fail St.pointInvalid false)

def pdbl (sl : Slip) (s : State) : State × OpOut :=
  let k := slipCurve s sl
  match k.rawPoint sl.inData with
  | some p => (s, pointOut k (k.add (some p) (some p)))
  | none => (s, .fail St.pointInvalid false)

def pmul (sl : Slip) (s : State) : State × OpOut :=
  let k := slipCurve s sl
  let e := unbe (sl.inData.take k.cs)
  if k.n ≤ e then (s, .fail St.operandRange false)
  else match k.rawPoint (sl.inData.drop k.cs) with
    | some p => (s, pointOut k (k.mul e (some p)))
    | none => (s, .fail St.pointInvalid false)

def execModadd (sid : Nat) (s : State) : Res := .next (runOp s sid 7 (isMod 0x01) modadd)
def execModsub (sid : Nat) (s : State) : Res := .next (runOp s sid 7 (isMod 0x02) modsub)
def execModmul (sid : Nat) (s : State) : Res := .next (runOp s sid 7 (isMod 0x03) modmul)
def execModinv (sid : Nat) (s : State) : Res := .next (runOp s sid 7 (isMod 0x04) modinv)
def execModexp (sid : Nat) (s : State) : Res := .next (runOp s sid 7 (isMod 0x05) modexp)
def execPadd (sid : Nat) (s : State) : Res := .next (runOp s sid 7 (isPoint 0x10) padd)
def execPdbl (sid : Nat) (s : State) : Res := .next (runOp s sid 7 (isPoint 0x11) pdbl)
def execPmul (sid : Nat) (s : State) : Res := .next (runOp s sid 7 (isPoint 0x12) pmul)

end Sys2Proof.Machine
end

