-- ==== Sys2Proof/Machine/Pipes.lean ====
section
/-!
DEFINITION. The symmetric pipes, opcode class 0x4 (chapter 11, R264 to R277).
-/

namespace Sys2Proof.Machine

open Config (compute holds)

/-! ## Parameters (R266, R268) -/

def pIvLen (p : Nat) : Nat := bits p 7 0
def pIvGen (p : Nat) : Bool := bit p 8
def pStream (p : Nat) : Bool := bit p 9
def pTagLen (p : Nat) : Nat := bits p 23 16
def pDu (p : Nat) : Nat := bits p 31 24

inductive PipeMode where
  | aead | ctr | cbc | xts | cmac | kw | kwp
  deriving DecidableEq, Repr

/-- Mode and direction (second form: decryption, verification or unwrapping) of an operation byte, where the set has it. -/
def pipeMode (set op : Nat) : Option (PipeMode × Bool) :=
  let aes := decide (set ≤ 2)
  let m : Option (PipeMode × Bool) := match op with
    | 0x01 => some (.aead, false) | 0x02 => some (.aead, true)
    | 0x10 => if aes then some (.ctr, false) else none
    | 0x11 => if aes then some (.ctr, true) else none
    | 0x20 => if aes then some (.cbc, false) else none
    | 0x21 => if aes then some (.cbc, true) else none
    | 0x30 => if set = 0 ∨ set = 2 then some (.xts, false) else none
    | 0x31 => if set = 0 ∨ set = 2 then some (.xts, true) else none
    | 0x40 => if aes then some (.cmac, false) else none
    | 0x41 => if aes then some (.cmac, true) else none
    | 0x50 => if aes then some (.kw, false) else none
    | 0x51 => if aes then some (.kw, true) else none
    | 0x52 => if aes then some (.kwp, false) else none
    | 0x53 => if aes then some (.kwp, true) else none
    | _ => none
  if set ≤ 3 then m else none

def pipeKeyLen (set : Nat) (m : PipeMode) : Nat :=
  if m = .xts then (if set = 0 then 32 else 64) else [16, 24, 32, 32].getD set 0

/-- Key class the set requires (R267). -/
def pipeClass (set : Nat) (m : PipeMode) : Nat :=
  if m = .xts then (if set = 0 then 0x04 else 0x05) else if set = 3 then 0x06 else set + 1

/-- Usage bit: encrypt, decrypt, sign or verify (R266). -/
def pipeUsage (m : PipeMode) (back : Bool) : Nat := if m = .cmac then (if back then 3 else 2) else if back then 1 else 0

/-- IV and tag lengths are ones of R269. -/
def ivLenOk (set : Nat) (m : PipeMode) (back : Bool) (p : Nat) : Bool :=
  let n := pIvLen p
  match m with
  | .aead =>
    if !back && pIvGen p then n == 0
    else if set = 3 then n == 12 else decide (1 ≤ n) && decide (n ≤ 64)
  | .ctr | .cbc | .xts => n == 16
  | _ => n == 0

def tagLenOk (set : Nat) (m : PipeMode) (p : Nat) : Bool :=
  let n := pTagLen p
  match m with
  | .aead => if set = 3 then n == 16 else n == 4 || n == 8 || (decide (12 ≤ n) && decide (n ≤ 16))
  | .cmac => decide (4 ≤ n) && decide (n ≤ 16)
  | _ => n == 0

/-- Approval by mode, IV and tag (R266, R269). -/
def pipeApproved (set : Nat) (m : PipeMode) (back : Bool) (p : Nat) : Bool :=
  match m with
  | .aead => set != 3 && decide (12 ≤ pTagLen p) && (back || pIvGen p)
  | .cmac => decide (8 ≤ pTagLen p)
  | _ => true

/-! ## Lengths (R270) -/

/-- D: the length of `IN` less any tag. -/
def pipeD (m : PipeMode) (back : Bool) (p inLen : Nat) : Nat :=
  if m = .aead ∧ back = true then inLen - pTagLen p else inLen

/-- It is held whole until it ends: at most 64 KiB, or in a chain, or of a mode that writes no data (R272). -/
def pipeBuffered (m : PipeMode) (alone : Bool) (inLen : Nat) : Bool :=
  !alone || decide (inLen ≤ 65536) || m == .cmac || m == .kw || m == .kwp

def pipeTwoPass (m : PipeMode) (alone : Bool) (inLen p : Nat) : Bool := !pipeBuffered m alone inLen && !pStream p
def pipeStreamed (m : PipeMode) (alone : Bool) (inLen p : Nat) : Bool := !pipeBuffered m alone inLen && pStream p

/-- Limit on D, on a hopper without LONG and on a LONG one. -/
def pipeLimit (set : Nat) (m : PipeMode) (back twoPass long : Bool) : Nat :=
  match m with
  | .kw | .kwp => if back then 16384 + 8 else 16384
  | .cmac => if long then 2 ^ 40 else 524288
  | .cbc => if long then 2 ^ 40 else if back then (if twoPass then 8 * mib else 16 * mib) else 524288
  | .aead => if long then (if set = 3 then 2 ^ 38 - 64 else 2 ^ 36 - 32) else if twoPass then 8 * mib else 16 * mib
  | _ => if long then 2 ^ 40 else if twoPass then 8 * mib else 16 * mib

/-- Block rules. -/
def pipeBlocks (m : PipeMode) (back : Bool) (p inLen : Nat) : Bool :=
  let d := pipeD m back p inLen
  match m with
  | .aead => !back || decide (pTagLen p ≤ inLen)
  | .ctr | .cmac => true
  | .cbc => d % 16 == 0
  | .xts => decide (16 ≤ d) && (d % 2 ^ pDu p == 0 || decide (16 ≤ d % 2 ^ pDu p))
  | .kw => inLen % 8 == 0 && decide ((if back then 24 else 16) ≤ inLen)
  | .kwp => if back then inLen % 8 == 0 && decide (16 ≤ inLen) else decide (1 ≤ inLen)

/-- `AUX_LEN` rule of R269. -/
def pipeAux (m : PipeMode) (back : Bool) (p aux : Nat) : Bool :=
  match m with
  | .aead => decide (pIvLen p ≤ aux)
  | .cmac => aux == (if back then pTagLen p else 0)
  | _ => aux == pIvLen p

def kwpLen (n : Nat) : Nat := (n + 7) / 8 * 8 + 8

/-- Output size (R270). -/
def pipeOut (m : PipeMode) (back : Bool) (p inLen : Nat) : Option Nat :=
  match m with
  | .aead => some (if back then pipeD m back p inLen else inLen + pTagLen p + (if pIvGen p then 12 else 0))
  | .cmac => if back then none else some (pTagLen p)
  | .kw => some (if back then inLen - 8 else inLen + 8)
  | .kwp => some (if back then inLen - 8 else kwpLen inLen)
  | _ => some inLen

/-! ## Cost (R277) -/

def pipeL (set : Nat) : Nat := [22, 26, 30, 24].getD set 0
def blocks16 (n : Nat) : Nat := (n + 15) / 16

/-- KW or KWP of n bytes of P. -/
def kwCycles (l p8 : Nat) (pad : Bool) : Nat :=
  if pad ∧ p8 ≤ 8 then 40 + l else 40 + 6 * ((p8 + 7) / 8) * l

/-- Cycles on one pipe, and on each pipe of a group. -/
def pipeCycles (set : Nat) (m : PipeMode) (back twoPass : Bool) (p inLen aad : Nat) : Nat × Nat :=
  let l := pipeL set
  let d := pipeD m back p inLen
  let bd := blocks16 d
  let f := if m = .aead then 17 else 0
  let u := if m = .xts then (d + 2 ^ pDu p - 1) / 2 ^ pDu p + (if d % 16 = 0 then 0 else l) else 0
  let two := if twoPass then blocks16 inLen else 0
  match m with
  | .cbc =>
    if back then (40 + l + bd + two, 40 + l + ceilDiv bd 4 + ceilDiv two 4 + 24) else (40 + l * bd + two, 0)
  | .cmac => (40 + l * max 1 (blocks16 inLen) + 4, 0)
  | .kw => (kwCycles l (if back then inLen - 8 else inLen) false, 0)
  | .kwp => (kwCycles l (if back then inLen - 8 else inLen) true, 0)
  | _ => (40 + l + bd + blocks16 aad + f + u + two, 40 + l + ceilDiv bd 4 + blocks16 aad + f + u + ceilDiv two 4 + 24)

/-- Modes that a group of four pipes can share (R275). -/
def pipeGangs (m : PipeMode) (back : Bool) (inLen : Nat) : Bool :=
  (m == .aead || m == .ctr || m == .xts || (m == .cbc && back)) && decide (mib ≤ inLen)

def pipeStages (set : Nat) (m : PipeMode) (back twoPass : Bool) (p inLen aad : Nat) : List Stage :=
  let c := pipeCycles set m back twoPass p inLen aad
  [{ engine := .pipe, est := pipeCy c.1, min := pipeCy (if pipeGangs m back inLen then min c.1 c.2 else c.1)
     group := if pipeGangs m back inLen then 4 else 1, estG := pipeCy c.2 }]

/-! ## The description -/

def pipeSpec (c : Cx) : Option OpSpec :=
  match pipeMode c.set c.op with
  | none => none
  | some (m, back) =>
    let p := c.param
    let set := c.set
    let lenFlag := bit p 32
    let two := pipeTwoPass m c.alone c.inLen p
    let klen := pipeKeyLen set m
    let tagUsed := m == .aead || m == .cmac
    let ivUsed := !(m == .cmac || m == .kw || m == .kwp)
    let noStream := (m == .aead && back) || m == .kw || m == .kwp
    let appr := pipeApproved set m back p
    let aad := if m = .aead then c.auxLen - pIvLen p else 0
    some {
      key := .opt, carryOk := true, ext := b2n lenFlag
      fmt := bits p 15 10 == 0 && bits p 63 33 == 0 && (tagUsed || pTagLen p == 0) && (ivUsed || pIvLen p == 0)
        && (!pIvGen p || (m == .aead && !back)) && (!pStream p || !noStream) && (m == .xts || pDu p == 0)
        && (c.keyUsed != c.carried)
        && (!c.len64 || (c.cs.inLen == 0 && c.cs.outMax == 0 && field (c.ext 0) 4 4 == 0 && allZero (slice (c.ext 0) 24 40)))
      approved := if c.carried then (if appr then c.carryLen.map fun n => decide (14 ≤ n) else some false) else some appr
      len6 := (!lenFlag || (c.hop.long && c.alone))
        && decide (pipeD m back p c.inLen ≤ pipeLimit set m back two c.hop.long)
      inMax := 2 ^ 40, outMax := 2 ^ 40 + 64
      keyOk := (· == pipeClass set m), usageOk := uses (pipeUsage m back)
      step7 := if c.keyUsed && !c.inline? && m == .aead && pIvGen p
          && decide (2 ^ 32 ≤ (c.s.slot (csKey c.cs)).useCount + (c.s.slot (csKey c.cs)).reserved) then
          some St.keyUseExhausted else none
      outSize := pipeOut m back p c.inLen
      fixed := pipeBlocks m back p c.inLen && (!c.auxKnown || pipeAux m back p c.auxLen)
      param8 := ivLenOk set m back p && tagLenOk set m p && (m != .xts || (decide (4 ≤ pDu p) && decide (pDu p ≤ 24)))
        && (!c.carried || (c.carryLen.getD klen == klen))
      random := pIvGen p || two
      long := m != .kw && m != .kwp
      stages := pipeStages set m back two p c.inLen aad }

/-! ## The modes -/

def xorBytes (a b : Bytes) : Bytes := List.zipWith (· ^^^ ·) a b

/-- Keystream of a mode, as long as the data. -/
def keystream (pr : Config.Prim) (key iv : Bytes) (n : Nat) : Bytes := fit n (compute pr [key, iv, le 8 n])

def aeadPrims (set : Nat) : Config.Prim × Config.Prim :=
  if set = 3 then (.chachaEnc, .chachaTag) else (.aesGcmEnc, .aesGcmTag)

/-- Encryption or decryption of an AEAD's data. -/
def aeadCrypt (set : Nat) (key iv d : Bytes) : Bytes := xorBytes d (keystream (aeadPrims set).1 key iv d.length)
/-- The tag over AAD and ciphertext. -/
def aeadTag (set : Nat) (key iv aad c : Bytes) (n : Nat) : Bytes :=
  (fit 16 (compute (aeadPrims set).2 [key, iv, aad, c])).take n

def pipeCmac (key m : Bytes) (n : Nat) : Bytes := (fit 16 (compute .aesCmac [key, m])).take n

/-- Data of a cipher mode without a tag. -/
def pipeCrypt (m : PipeMode) (back : Bool) (p : Nat) (key iv d : Bytes) : Bytes :=
  match m with
  | .ctr => xorBytes d (keystream .aesCtr key iv d.length)
  | .cbc => fit d.length (compute (if back then .aesCbcDec else .aesCbcEnc) [key, iv, d])
  | .xts => fit d.length (compute (if back then .aesXtsDec else .aesXtsEnc) [key, iv, [BitVec.ofNat 8 (pDu p)], d])
  | _ => d

/-- A wrap or unwrap; `none` when the integrity check fails. -/
def pipeWrap (m : PipeMode) (back : Bool) (key d : Bytes) : Option Bytes :=
  match m, back with
  | .kw, false => some (fit (d.length + 8) (compute .aesKw [key, d]))
  | .kw, true => if holds .aesKw [key, d] then some (fit (d.length - 8) (compute .aesKwInv [key, d])) else none
  | _, false => some (fit (kwpLen d.length) (compute .aesKwp [key, d]))
  | _, true => if holds .aesKwp [key, d] then some ((compute .aesKwpInv [key, d]).take (d.length - 8)) else none

/-- Two equal halves of an XTS key (R284). -/
def xtsEqual (m : PipeMode) (key : Bytes) : Bool := m == .xts && key.take (key.length / 2) == key.drop (key.length / 2)

/-- What an operation yields from its key, parameters, input, IV and the rest of its `AUX`. -/
def pipeResult (set : Nat) (m : PipeMode) (back : Bool) (p : Nat) (key iv rest d : Bytes) : OpOut :=
  let appr := pipeApproved set m back p
  if xtsEqual m key then .fail St.inputMalformed appr
  else match m with
    | .aead =>
      if back then
        let c := d.take (d.length - pTagLen p)
        if aeadTag set key iv rest c (pTagLen p) == d.drop (d.length - pTagLen p) then
          { out := aeadCrypt set key iv c, approved := appr }
        else { status := St.signatureInvalid, approved := appr }
      else
        let c := aeadCrypt set key iv d
        { out := (if pIvGen p then iv else []) ++ c ++ aeadTag set key iv rest c (pTagLen p), approved := appr }
    | .cmac =>
      if back then .verdict (pipeCmac key d (pTagLen p) == rest) appr
      else { out := pipeCmac key d (pTagLen p), approved := appr }
    | .kw | .kwp =>
      match pipeWrap m back key d with
      | some o => { out := o, approved := appr }
      | none => { status := St.signatureInvalid, approved := appr }
    | _ => { out := pipeCrypt m back p key iv d, approved := appr }

/-! ## Slips -/

def isPipe (ops : List Nat) (sl : Slip) : Bool := ops.contains (csOp sl.cs) && (pipeMode (csSet sl.cs) (csOp sl.cs)).isSome

/-- The key of a class 0x4 slip: its slot or record, or the carries (R267). -/
def pipeKey (s : State) (sl : Slip) : Bytes := if csKeyUsed sl.cs then keyMat sl else carryIn s sl

/-- The slip stands alone in its chain. -/
def slipAlone (sl : Slip) (sid : Nat) : Bool := sl.head == sid && !csChain sl.cs

/-- The IV: generated once and kept for a re-run (R274), or the front of `AUX`. -/
def withIv (sid : Nat) (sl : Slip) (s : State) (k : State → Bytes → State × OpOut) : State × OpOut :=
  let p := csParam sl.cs
  if pIvGen p then
    match sl.iv with
    | some iv => k s iv
    | none =>
      let iv := s.freeBytes 12
      k ((s.drawn 12).modSlip sid fun sl => { sl with iv := some iv }) iv
  else k s ((ownAux sl).take (pIvLen p))

/-- The check value of one pass over the input (R272): the tag of a decryption, else a GHASH under the slip's own key. -/
def passValue (set : Nat) (m : PipeMode) (back : Bool) (p : Nat) (key iv rest gkey d : Bytes) : Bytes :=
  if m = .aead ∧ back = true then aeadTag set key iv rest (d.take (d.length - pTagLen p)) (pTagLen p)
  else fit 16 (compute .aesGcmTag [gkey, d])

/-- A class 0x4 operation on its slip: key length of carries (R267), the input unchanged between passes (R273), then the
result; with `LEN64` the whole length is in `RESULT_INLINE` (R271). -/
def pipeOp (sid : Nat) (sl : Slip) (s : State) : State × OpOut :=
  match pipeMode (csSet sl.cs) (csOp sl.cs) with
  | none => (s, {})
  | some (m, back) =>
    let set := csSet sl.cs
    let p := csParam sl.cs
    let key := pipeKey s sl
    let appr := pipeApproved set m back p && (csKeyUsed sl.cs || decide (14 ≤ key.length))
    if key.length ≠ pipeKeyLen set m then (s, .fail St.paramInvalid appr)
    else withIv sid sl s fun s iv =>
      let rest := (ownAux sl).drop (pIvLen p)
      let d := sl.inData
      let two := pipeTwoPass m (slipAlone sl sid) d.length p
      let value := passValue set m back p key iv rest (sl.check1.take 16) d
      if two && value != sl.check1.drop 16 then (s, .fail St.inputMalformed appr)
      else
        let o := pipeResult set m back p key iv rest d
        let o := { o with approved := o.approved && appr }
        (s, if o.status = St.ok ∧ bit p 32 = true then
              { o with outLen := some (o.out.length % 2 ^ 32), inline := BitVec.ofNat 64 o.out.length }
            else o)

/-- Bytes of the output of a streamed or two-pass slip that are posted while it runs: all but the tag (R273, R274). -/
def partLen (m : PipeMode) (back : Bool) (p n : Nat) : Nat := if m = .aead ∧ back = false then n - pTagLen p else n

/-- Post the checked 4 KiB parts of a streamed or two-pass output (R274). -/
def postParts (s : State) (sid : Nat) : State :=
  match s.slip? sid with
  | none => s
  | some sl => match pipeMode (csSet sl.cs) (csOp sl.cs), s.hopper? sl.hopper with
    | some (m, back), some h =>
      if sl.phase = .executed ∧ sl.status = St.ok ∧ pipeBuffered m (slipAlone sl sid) sl.inData.length = false
          ∧ canPost s h = true then
        let n := partLen m back (csParam sl.cs) sl.out.length
        let parts := (List.range ((n + 4095) / 4096)).map fun i => (4096 * i, min 4096 (n - 4096 * i))
        let waits := if h.attach = .network then parts.length else 0
        let s := s.setSlip sid { sl with posted := n, writesLeft := waits }
        parts.foldl (fun s q =>
          postWrite s h (.part sid) (sl.cs.outAddr + BitVec.ofNat 64 q.1) (slice sl.out q.1 q.2) none) s
      else s
    | _, _ => s

/-- Run a class 0x4 slip; one that reads its input twice must have finished pass 1 (R272). -/
def runPipe (s : State) (sid : Nat) (op : Nat) : State :=
  match opReady s sid 4 (isPipe [op]) with
  | none => s
  | some sl =>
    match pipeMode (csSet sl.cs) op with
    | none => s
    | some (m, _) =>
      if pipeTwoPass m (slipAlone sl sid) sl.inData.length (csParam sl.cs) && sl.pass1 != some true then s
      else postParts (runOp s sid 4 (isPipe [op]) (pipeOp sid)) sid

def execAeadEncrypt (sid : Nat) (s : State) : Res := .next (runPipe s sid 0x01)
def execAeadDecrypt (sid : Nat) (s : State) : Res := .next (runPipe s sid 0x02)
def execCtrEncrypt (sid : Nat) (s : State) : Res := .next (runPipe s sid 0x10)
def execCtrDecrypt (sid : Nat) (s : State) : Res := .next (runPipe s sid 0x11)
def execCbcEncrypt (sid : Nat) (s : State) : Res := .next (runPipe s sid 0x20)
def execCbcDecrypt (sid : Nat) (s : State) : Res := .next (runPipe s sid 0x21)
def execXtsEncrypt (sid : Nat) (s : State) : Res := .next (runPipe s sid 0x30)
def execXtsDecrypt (sid : Nat) (s : State) : Res := .next (runPipe s sid 0x31)
def execCmacGen (sid : Nat) (s : State) : Res := .next (runPipe s sid 0x40)
def execCmacVerify (sid : Nat) (s : State) : Res := .next (runPipe s sid 0x41)
def execKwWrap (sid : Nat) (s : State) : Res := .next (runPipe s sid 0x50)
def execKwUnwrap (sid : Nat) (s : State) : Res := .next (runPipe s sid 0x51)
def execKwpWrap (sid : Nat) (s : State) : Res := .next (runPipe s sid 0x52)
def execKwpUnwrap (sid : Nat) (s : State) : Res := .next (runPipe s sid 0x53)

/-- PASS1_DONE (R272): the check value of pass 1 is kept and pass 2 reads the input again; a decryption whose tag fails,
an unfit key, or equal XTS halves end the slip with nothing written. -/
def execPass1Done (sid : Nat) (s : State) : Res :=
  match opReady s sid 4 fun sl => (pipeMode (csSet sl.cs) (csOp sl.cs)).isSome with
  | none => .next s
  | some sl =>
    match pipeMode (csSet sl.cs) (csOp sl.cs), s.hopper? sl.hopper with
    | some (m, back), some h =>
      let set := csSet sl.cs
      let p := csParam sl.cs
      let appr := pipeApproved set m back p
      if !pipeTwoPass m (slipAlone sl sid) sl.inData.length p || sl.pass1.isSome || !canPost s h then .next s
      else
        let s := startUses s sid
        let key := pipeKey s sl
        let stop (st : Nat) : Res := .next (finishOp s sid (.fail st appr))
        if key.length ≠ pipeKeyLen set m then stop St.paramInvalid
        else if xtsEqual m key then stop St.inputMalformed
        else
          let iv := (ownAux sl).take (pIvLen p)
          let rest := (ownAux sl).drop (pIvLen p)
          let gkey := s.freeBytes 16
          let v := passValue set m back p key iv rest gkey sl.inData
          if (m == .aead && back) && v != sl.inData.drop (sl.inData.length - pTagLen p) then stop St.signatureInvalid
          else
            let s := (s.drawn 16).modSlip sid fun sl => { sl with pass1 := some true, check1 := gkey ++ v }
            let s := { s with pipes := { s.pipes with twoPassTot := s.pipes.twoPassTot + 1 } }
            .next (issueReads s sid false)
    | _, _ => .next s

end Sys2Proof.Machine
end

