-- ==== Sys2Proof/Machine/Control.lean ====
section
/-!
DEFINITION. Control slips, class 0x0, and catalogue slips, class 0x8 (R79, R353, R327 to R331).
-/

namespace Sys2Proof.Machine

open Config (compute)

/-! ## Control (R79, R545, R353) -/

def controlSpec (c : Cx) : Option OpSpec :=
  let empty := c.cs.inLen == 0 && c.cs.auxLen == 0
  let p := c.param
  if c.set != 0 then none
  else match c.op with
    | 0x00 => some { fmt := empty && p == 0, bare := fabricCy 40 }
    | 0x01 => some { fmt := empty && p == 0, outSize := some 64, bare := fabricCy 44 }
    | 0x02 =>
      some { fmt := empty && decide (p ≤ 1), len6 := decide (c.cs.outMax ≤ 65536), outSize := some c.cs.outMax
             param8 := c.cs.outMax != 0, random := true, engineId := 0x6000, bare := fabricCy (40 + ceilDiv c.cs.outMax 16) }
    | 0x03 => some { fmt := empty && p == 0, bare := fabricCy 40 }
    | _ => none

def isControl (op : Nat) (sl : Slip) : Bool := csOp sl.cs == op && csSet sl.cs == 0

def ctlDone (_ : Slip) (s : State) : State × OpOut := (s, {})

/-- The hopper's status block; what it reports of discarded doorbells starts anew (R93, R94). -/
def ctlStatusBlock (sl : Slip) (s : State) : State × OpOut :=
  match s.hopper? sl.hopper with
  | none => (s, {})
  | some h =>
    (s.setHopper sl.hopper { h with sbSeq := h.sbSeq + 1, dbDiscarded := false }, { out := sbBytes s sl.hopper h (h.sbSeq + 1) })

def execCtlNop (sid : Nat) (s : State) : Res := .next (runOp s sid 0 (isControl 0x00) ctlDone)
def execCtlStatus (sid : Nat) (s : State) : Res := .next (runOp s sid 0 (isControl 0x01) ctlStatusBlock)
def execCtlFence (sid : Nat) (s : State) : Res := .next (runOp s sid 0 (isControl 0x03) ctlDone)

/-- RANDOM: the bytes of one generate request (R353); the slip waits while the instance waits for a block (R346). -/
def execCtlRandom (sid : Nat) (s : State) : Res :=
  match opReady s sid 0 (isControl 0x02) with
  | none => .next s
  | some sl =>
    let pred := bit (csParam sl.cs) 0
    match cliRequest s sl.cs.outMax pred with
    | some (s, b) => .next (runOp s sid 0 (isControl 0x02) fun _ s => (s, { out := b }))
    | none =>
      if !(drbg s (cliInst s)).live then .next s
      else
        let s := reseed s (cliInst s)
        .next (s.modSlip sid fun sl => { sl with waitBlock := true })

/-! ## Key transfer records (R328) -/

def wrapLen (keyLen : Nat) : Nat := (32 + keyLen + 7) / 8 * 8 + 8

/-- Classes that no record carries. -/
def barred (cls : Nat) : Bool := isStfPrivate cls || cls == 0x7A

/-- A length that fits a class (R319, R211, R291). -/
def classFits (cls n : Nat) : Bool :=
  match classLen cls with
  | some k => n == k
  | none =>
    if cls = 0x60 then (n - 4) % 7 == 0 && decide (4 ≤ n) && rsaOk (rsaK 0x60 n)
    else if cls = 0x61 then decide (4 ≤ n) && rsaOk (n - 4)
    else if 0x53 ≤ cls ∧ cls ≤ 0x5C then n == ckSk (cls - 0x50)
    else if cls = 0x78 then decide (24 ≤ n) && decide (n ≤ 80)
    else if cls = 0x79 then n % 2 == 1 && decide (49 ≤ n) && decide (n ≤ 161)
    else if cls = 0x44 then n == 52 || n == 60
    else if cls = 0x45 ∨ cls = 0x46 then n == 52 || n == 68
    else false

/-- An opened record: the key as a slot would hold it, and the bytes of the record. -/
structure Record where
  key : Slot
  len : Nat
  deriving DecidableEq, Repr

/-- Open a record under a KEK; `none` for any condition of R328. -/
def openRecord (kek d : Bytes) : Option Record :=
  let wl := field d 8 4
  let cls := field d 5 1
  if field d 0 4 ≠ 0x524B544B ∨ field d 4 1 ≠ 1 ∨ field d 6 2 ≠ 0 ∨ field d 12 4 ≠ 0 ∨ d.length < 16 + wl ∨ wl < 24 then none
  else match pipeWrap .kwp true kek (slice d 16 wl) with
    | none => none
    | some p =>
      let n := field p 4 4
      if p.length < 32 ∨ field p 0 1 ≠ cls ∨ field p 1 1 > 1 ∨ field p 2 2 ≥ 1024 ∨ field p 24 8 ≠ 0 ∨ p.length ≠ 32 + n
          ∨ wl ≠ wrapLen n ∨ classFits cls n = false ∨ barred cls = true then none
      else
        some { key := { valid := true, approvedOnly := bit (field p 1 1) 0, keyClass := cls, usage := BitVec.ofNat 10 (field p 2 2)
                        keyLen := n, useLimit := field p 8 8, expiry := field p 16 8, material := p.drop 32 }
               len := 16 + wl }

/-- The record of a key under a KEK, with this use limit. -/
def makeRecord (kek : Bytes) (k : Slot) (limit : Nat) : Bytes :=
  let inner := [BitVec.ofNat 8 k.keyClass, BitVec.ofNat 8 (b2n k.approvedOnly)] ++ le 2 k.usage.toNat ++ le 4 k.keyLen
    ++ le 8 limit ++ le 8 k.expiry ++ zeros 8 ++ k.material
  let w := (pipeWrap .kwp false kek inner).getD []
  le 4 0x524B544B ++ [1, BitVec.ofNat 8 k.keyClass] ++ zeros 2 ++ le 4 w.length ++ zeros 4 ++ w

/-- Ticks of opening or making a record whose plaintext has n bytes, on a pipe (R277, R327). -/
def recordTicks (kekClass n : Nat) : Nat := pipeCy (kwCycles (pipeL (kekClass - 1)) n true)

/-! ## Class 0x8 (R327) -/

/-- Class of a slot, so far as the carrel may know it (R81). -/
def knownClass (c : Cx) (n : Nat) : Nat := if inAllot c.s c.crl n && (c.s.slot n).valid then (c.s.slot n).keyClass else 0

def catApproved (c : Cx) (n : Nat) : Option Bool := some (!classNonApproved (knownClass c n))

/-- Time of a slot commit: mirrored or not (R336). -/
def commitTicks (mirrored : Bool) : Nat := if mirrored then 93000 else 1500

/-- A writable cartridge holds the archive (R332). -/
def archiveOk (s : State) : Bool := s.folio.slots.any fun p => p.2.state == .mounted

/-- The slot is the last administrator key of its carrel, at whatever positions it is enrolled (R371). -/
def lastAdmin (s : State) (c n : Nat) : Bool :=
  let mine := s.reg.admins.filter fun p => p.1 / 4 == c
  !mine.isEmpty && mine.all fun p => p.2 == n

/-- Set of the class that a curve key belongs to (R290). -/
def curveSetOf (cls : Nat) : Nat := if cls ≤ 0x6A then cls - 0x67 else if cls ≤ 0x71 then 4 else 5

/-- Stages of `CAT_GENERATE`: the key generation of the class, or none on the catalogue. -/
def genStages (c : Cx) : List Stage :=
  let cls := c.seg.cls
  let as (op : Nat) : Cx := { c with cs := { c.cs with opcode := BitVec.ofNat 16 op, param := 0 } }
  let of (sp : Option OpSpec) : List Stage := (sp.map (·.stages)).getD []
  if 0x10 ≤ cls ∧ cls ≤ 0x12 then of (kemSpec (as (0x1001 + 256 * (cls - 0x10))))
  else if 0x14 ≤ cls ∧ cls ≤ 0x16 then of (dsaSpec (as (0x1001 + 256 * (cls - 0x10))))
  else if 0x50 ≤ cls ∧ cls ≤ 0x52 then of (codeSpec (as (0x3001 + 256 * (cls - 0x50))))
  else if 0x68 ≤ cls then stage1 .kiln (ecKgAll (as (0x6001 + 256 * curveSetOf cls)) cls c.seg.usage)
  else []

/-- The state the deaccession needs: not the last administrator key; for a persistent slot, a writable archive. -/
def deacState (c : Cx) (n : Nat) : Option (Nat × Nat) :=
  let sl := c.s.slot n
  if !(inAllot c.s c.crl n && sl.valid) then none
  else if lastAdmin c.s c.crl n then some (2, carrelCode c.carrel.st)
  else if sl.persistent && !archiveOk c.s then some (1, devCode c.s)
  else none

def catSpec (c : Cx) : Option OpSpec :=
  let p := c.param
  let k := csKey c.cs
  let base : OpSpec := { fmt := p == 0 && c.cs.auxLen == 0 && c.cs.inLen == 0, engineId := 0x5000 }
  let mir := bit c.seg.flags 1 && mirrors c.s c.crl
  let target := p % 2 ^ 21
  let tk := c.s.slot target
  if c.set != 0 then none
  else match c.op with
    | 0x01 =>
      let st := genStages c
      some { base with
        dest := .yes, ext := 1, perm := some 0, approved := some (!classNonApproved c.seg.cls)
        newLen := (classLen c.seg.cls).getD 0, param8 := classGenerate c.seg.cls, random := true
        bare := commitTicks mir, stages := st }
    | 0x02 =>
      let left := (c.s.slot k).useLimit - (c.s.slot k).useCount - (c.s.slot k).reserved - 1
      some { base with
        key := .yes, dest := .yes, ext := 1, perm := some 1, approved := catApproved c k
        keyOk := fun cls => !isStfPrivate cls, usageOk := uses 6, newLen := (c.s.slot k).keyLen
        param8 := c.seg.cls == 0
          && ((c.s.slot k).useLimit == 0 || (c.seg.useLimit != 0 && decide (c.seg.useLimit ≤ left)))
        bare := commitTicks mir }
    | 0x10 =>
      some { base with
        fmt := p == 0 && c.cs.auxLen == 0, key := .yes, dest := .yes, ext := 1, perm := some 2, approved := none
        keyOk := isAesClass, usageOk := uses 8, newLen := c.cs.inLen - 56, param8 := c.seg.cls == 0
        stages := stage1 .pipe (recordTicks c.keyClass (c.cs.inLen - 24)) }
    | 0x20 =>
      let tst := keyCheck c.s c.crl target (fun cls => !barred cls && decide (256 ≤ target)) (uses 9)
        (!classNonApproved tk.keyClass)
      some { base with
        fmt := decide (p < 2 ^ 21) && c.cs.auxLen == 0 && c.cs.inLen == 0, key := .yes, perm := some 3
        approved := catApproved c target, keyOk := isAesClass, usageOk := uses 7, step7 := tst, other := some target
        outSize := some (16 + wrapLen tk.keyLen), stages := stage1 .pipe (recordTicks c.keyClass (32 + tk.keyLen)) }
    | 0x30 =>
      some { base with
        key := .yes, perm := some 0, approved := catApproved c k, state5 := deacState c k
        step7 := if (c.s.slot k).depth = 0 then some St.keyUsageDenied else none
        bare := if (c.s.slot k).persistent then 63000000 else commitTicks ((c.s.slot k).mirrored && mirrors c.s c.crl) }
    | 0x40 =>
      some { base with
        key := .yes, keyBare := true, approved := catApproved c k, outSize := some 64, bare := 1200 }
    | _ => none

def isCat (op : Nat) (sl : Slip) : Bool := csOp sl.cs == op && csSet sl.cs == 0

/-- Material of a generated key: random bytes of the class's length, an elliptic-curve scalar reduced (R300). -/
def generateKey (cls : Nat) (s : State) (k : State → Bytes → State × OpOut) : State × OpOut :=
  if 0x68 ≤ cls ∧ cls ≤ 0x6A then
    let cur := nistCurve (cls - 0x67)
    draw s (cur.cs + 8) fun s b => k s (be cur.c (unbe b % cur.n))
  else draw s ((classLen cls).getD 0) k

def catGenerate (sl : Slip) (s : State) : State × OpOut :=
  let cls := (slipAttr sl.cs sl.exts).cls
  generateKey cls s fun s m => (s, { slotOps := newKeyOp s sl (slipParent sl) cls m, approved := !classNonApproved cls })

/-- The smaller non-zero value of two (R329). -/
def minNz (a b : Nat) : Nat := if a = 0 then b else if b = 0 then a else min a b

/-- A new slot whose attributes are those of a record or source key narrowed by the segment (R329). -/
def narrowed (s : State) (sl : Slip) (k : Slot) : List SlotOp :=
  (newKeyOp s sl (slipParent sl) k.keyClass k.material).map fun o => match o with
    | .create n x => .create n { x with
        usage := x.usage &&& k.usage, useLimit := minNz x.useLimit k.useLimit, expiry := minNz x.expiry k.expiry
        approvedOnly := x.approvedOnly || k.approvedOnly }
    | o => o

def catNarrow (sl : Slip) (s : State) : State × OpOut :=
  match sl.key with
  | none => (s, {})
  | some k => (s, { slotOps := narrowed s sl k, approved := !classNonApproved k.keyClass })

def catUnwrap (sl : Slip) (s : State) : State × OpOut :=
  match openRecord (keyMat sl) sl.inData with
  | none => (s, .fail St.keyUnwrapFailed)
  | some r => (s, { slotOps := narrowed s sl r.key, approved := !classNonApproved r.key.keyClass })

/-- The record of `TARGET`, with its uses that remained before this slip (R330). -/
def catWrapOut (sl : Slip) (s : State) : State × OpOut :=
  match sl.other with
  | none => (s, {})
  | some t =>
    (s, { out := makeRecord (keyMat sl) t (if t.useLimit = 0 then 0 else t.useLimit - t.useCount)
          approved := !classNonApproved t.keyClass })

def catDeaccession (sl : Slip) (s : State) : State × OpOut :=
  (s, { slotOps := [.deaccession (csKey sl.cs)], approved := !classNonApproved ((sl.key.map (·.keyClass)).getD 0) })

def catInfo (sl : Slip) (s : State) : State × OpOut :=
  let k := s.slot (csKey sl.cs)
  (s, { out := slotBytes k, approved := !classNonApproved k.keyClass })

def execCatGenerate (sid : Nat) (s : State) : Res := .next (runOp s sid 8 (isCat 0x01) catGenerate)
def execCatNarrow (sid : Nat) (s : State) : Res := .next (runOp s sid 8 (isCat 0x02) catNarrow)
def execCatUnwrap (sid : Nat) (s : State) : Res := .next (runOp s sid 8 (isCat 0x10) catUnwrap)
def execCatWrapOut (sid : Nat) (s : State) : Res := .next (runOp s sid 8 (isCat 0x20) catWrapOut)
def execCatDeaccession (sid : Nat) (s : State) : Res := .next (runOp s sid 8 (isCat 0x30) catDeaccession)
def execCatInfo (sid : Nat) (s : State) : Res := .next (runOp s sid 8 (isCat 0x40) catInfo)

/-! ## Class 0xF (R171, R172) -/

/-- The active image's dispatch entry of an operation byte. -/
def ostkEntry (s : State) (op : Nat) : Option OstkEntry := s.tuns.active.bind fun img => img.entries[op]?

def openSpec (c : Cx) : Option OpSpec :=
  if c.set != 0 then none
  else match ostkEntry c.s c.op with
    | none => none
    | some e =>
      let f (i : Nat) := e.flags.getLsbD i
      let est := e.estBase + e.estPerKib * (c.inLen + c.cs.auxLen) / 1024
      some { key := if f 0 then .yes else .no, dest := if f 1 then .yes else .no, holdOk := f 2, carryOk := f 3
             ext := bits e.flags.toNat 5 4, step3 := (match c.s.tuns.active with
               | some img => img.carrels.getLsbD c.crl
               | none => false)
             perm := if c.destUsed then some (if c.keyUsed || c.carried then 1 else 0) else none
             approved := some false, keyOk := fun cls => !isStfPrivate cls, usageOk := fun u => u &&& e.keyUsage == e.keyUsage
             newLen := segLen c, param8 := !c.destUsed || classDefined c.seg.cls
             random := true
             stages := [{ engine := .tun, est := tunCy (shares c.three est), min := tunCy e.minCycles }] }

/-- The description of an opcode (R79). -/
def opSpec (c : Cx) : Option OpSpec :=
  match csClass c.cs with
  | 0x0 => controlSpec c
  | 0x1 => latticeSpec c
  | 0x2 => hashSpec c
  | 0x3 => codeSpec c
  | 0x4 => pipeSpec c
  | 0x5 => digSpec c
  | 0x6 => kilnSpec c
  | 0x7 => fieldSpec c
  | 0x8 => catSpec c
  | 0x9 => kdfSpec c
  | 0xF => openSpec c
  | _ => none

end Sys2Proof.Machine
end

