-- ==== Sys2Proof/Machine/Sched.lean ====
section
/-!
DEFINITION. Checks of a fetched chain (R81), what may start (R88, R97), the dispatch algorithm (R101 to R113) and the choice
of units and clusters (R16, R102 to R104).
-/

namespace Sys2Proof.Machine

/-! ## Stages of an operation -/

/-- Ticks at the present engine clock: shed stage S2 halves it; the fabric clock keeps its rate (R456). -/
def clocked (s : State) (e : EngineType) (t : Nat) : Nat := if e ≠ .none ∧ s.cel.stage ≥ 2 then 2 * t else t

/-- Opening an inline wrapped key on a pipe (R331): the estimate is for a record that fills `AUX`, the minimum for the
smallest. -/
def recordStage (kekClass auxLen : Nat) : Stage :=
  { engine := .pipe, est := recordTicks kekClass (max 48 (auxLen - 24)), min := recordTicks kekClass 48 }

/-- An operation's stages; one without a unit runs on the hopper engine, the catalogue or the entropy unit (R545). -/
def opStages (sp : OpSpec) : List Stage := if sp.stages.isEmpty then stage1 .none sp.bare else sp.stages

/-- The stages that a slip still has before it, from its present position counted as stage 0. -/
def stagesOf (s : State) (sl : Slip) : List Stage :=
  let own := ((opSpec (cxOf s sl)).map opStages).getD (stage1 .none 0)
  if csInline sl.cs && !sl.opened then recordStage ((sl.other.map (·.keyClass)).getD 1) sl.cs.auxLen :: own else own

/-- Minimum execution time of a slip in ticks at the present clocks (X of R111). -/
def slipMin (s : State) (sl : Slip) : Nat := ((stagesOf s sl).map fun t => clocked s t.engine t.min).sum

/-- The chain's minimum execution time. -/
def chainMin (s : State) (head : Nat) : Nat := ((chainOf s head).map fun p => slipMin s p.2).sum

/-! ## Deadline tests (R111) -/

/-- Provably late, with wake latency `w` in fabric cycles and minimum execution time `x` in ticks. -/
def provablyLate (s : State) (sl : Slip) (w x : Nat) : Bool :=
  match deadlineAt s sl with
  | some d => decide (24 * (s.now + w) + x > 24 * d)
  | none => false

/-- The unit can be in service: a physical unit serves the index, the shed stage keeps it, and it is no direct pipe. -/
def inService (s : State) (e : EngineType) (l : Nat) : Bool :=
  (physOf (s.units e) l).isSome && retained s e l && !(e == .pipe && isDirectPipe s l)

/-- Least wake latency over every unit of a type in service (R111, step 9 of R81). -/
def leastWake (s : State) (e : EngineType) : Nat :=
  let u := s.units e
  (((List.range (activeUnits e)).filter (inService s e)).filterMap fun l =>
    (physOf u l).map fun p => wakeLatency s u (clusterOf e p)).min?.getD 0

/-- End a chain that is provably late before it starts (R113). -/
def shedChain (s : State) (head : Nat) : State := settleChain (haltSlip s St.deadlineShed 0 head) head

/-! ## The checks of a chain (R81, R84) -/

/-- The slot that `KEY_REF` names, where the checks may look at it. -/
def keyAt (s : State) (sl : Slip) : Option Slot :=
  if csKeyUsed sl.cs && !csInline sl.cs && inAllot s sl.carrel (csKey sl.cs) && (s.slot (csKey sl.cs)).valid then
    some (s.slot (csKey sl.cs))
  else none

/-- Slots of which an operation counts a use (R321, R330). -/
def usesOf (sl : Slip) (sp : OpSpec) : List Nat :=
  ((if csKeyUsed sl.cs && !sp.keyBare then [csKey sl.cs] else []) ++ (match sp.other with
    | some o => [o]
    | none => [])).dedup

/-- What the checks reserve when they pass: uses, destination, ledger counter; the key is loaded (R321, R326, R228). -/
def acceptSlip (s : State) (sid : Nat) (sl : Slip) (c : Cx) (sp : OpSpec) : State :=
  let us := usesOf sl sp
  let key := keyAt s sl
  let other := if csInline sl.cs then some (s.slot (csKey sl.cs)) else if csClass sl.cs = 8 then sp.other.map s.slot else none
  let curve := if csClass sl.cs = 6 ∨ csClass sl.cs = 7 then sp.other.map s.slot else none
  let s := us.foldl reserveUse s
  let dest := if csDestUsed sl.cs then destCheck s sl.carrel (csAlloc sl.cs) (csDest sl.cs) sp.newLen else .error 0
  let s := match dest with
    | .ok (n, line) => claimSlot s sl.carrel n line sp.newLen
    | .error _ => s
  let ctr := if sp.ledger then freeCounter s else none
  let s := match ctr with
    | some n => { s with ledger := { s.ledger with reserved := s.ledger.reserved ++ [n] } }
    | none => s
  let sl := { sl with
    checked := true, uses := us, key := key, other := other, curve := curve, counterClaim := ctr, drawsRandom := sp.random
    isLong := sp.long && (c.hop.long || csClass sl.cs == 2)
    destClaim := match dest with
      | .ok (n, _) => some n
      | .error _ => none }
  let sl := { sl with engine := ((stagesOf s sl).head?.map (·.engine)).getD .none }
  let sign := csClass sl.cs == 2 && isStf 0x10 sl
  let bare := sign && (nextIndex (stfKey s (csKey sl.cs))).isNone
  let s := us.foldl requestBlock (s.setSlip sid { sl with leaseWait := bare })
  if bare then startLease s (csKey sl.cs) else s

/-- A slot whose line has failed and is not yet recovered (R527, R528). -/
def slotFailed (s : State) (sl : Slip) (sp : OpSpec) : Bool := (usesOf sl sp).any fun n => s.qdr.recovering.contains n

/-- A use that the peer would have to grant, while the pair is DEGRADED (R322, R430). -/
def blockRefused (s : State) (sl : Slip) (sp : OpSpec) : Bool := (usesOf sl sp).any fun n =>
  let x := s.slot n
  x.useLimit != 0 && x.mirrored && syncBlocked s x.owner && decide (x.peerCeil ≤ x.useCount + x.reserved)

/-- The operation draws randomness, or runs on a tun, pipe or kiln, and the entropy unit has failed (R351). -/
def entropyGone (s : State) (sp : OpSpec) : Bool :=
  s.ent.state == .failed && (sp.random || sp.stages.any fun g => g.engine != .none && g.engine != .floor)

/-- The walk over a chain's slips. -/
structure Walk where
  s : State
  filled : Nat := 0
  outSum : Nat := 0
  held : List (Option Nat) := []
  failed : Bool := false

/-- Check one slip of a chain, steps 1 to 8, with what the slips before it have reserved. -/
def checkMember (full alone : Bool) (head : Nat) (w : Walk) (sid : Nat) : Walk :=
  match w.s.slip? sid with
  | none => w
  | some sl =>
    let c : Cx := { cxOf w.s sl with key := keyAt w.s sl, held := w.held, alone := alone, recLen := 0 }
    let pos : Pos := { first := sid == head, last := !csChain sl.cs, filled := w.filled, outSum := w.outSum, full := full }
    let osp := opSpec c
    let bad := match checkSlip c pos osp, osp with
      | none, some sp =>
        if entropyGone w.s sp then some ({ status := St.entropyFailed } : Bad)
        else if slotFailed w.s sl sp then some ({ status := St.integrityFault } : Bad)
        else if blockRefused w.s sl sp then some { status := St.stateRejected, inline := stateInline 5 3 }
        else none
      | b, _ => b
    let next := { w with
      filled := w.filled + b2n (csHold sl.cs), outSum := w.outSum + sl.cs.outMax
      held := w.held ++ (if csHold sl.cs then [osp.bind (·.secretLen)] else []) }
    match bad, osp with
    | none, some sp => { next with s := acceptSlip w.s sid sl c sp }
    | some b, _ =>
      { next with
        failed := true
        s := w.s.setSlip sid { sl with
          checked := true, phase := .finished, status := b.status, outLen := b.outLen, inline := b.inline } }
    | none, none => next

/-- The memo that names a chain (R425, R428). -/
def memoOf (s : State) (h : Slip) : Option Memo :=
  if h.replay then s.mirror.memos.find? fun m => m.hopper == h.hopper && m.entry == h.entry else none

/-- Complete a chain that a memo names: nothing runs again (R428). -/
def memoChain (s : State) (head : Nat) (m : Memo) : State :=
  let c := chainOf s head
  settleChain (c.foldl (fun s p => s.setSlip p.1 { p.2 with
    checked := true, phase := .finished, replay := true, engineId := 0x5000#16
    inline := if chainEnd p.2 then BitVec.ofNat 64 (m.shelf + 2 ^ 32 * m.gen.toNat) else 0 }) s) head

/-- The checks of a chain whose last slip is fetched (R81, R84, R86), with the deadline test of step 9. -/
def checkChain (s : State) (head : Nat) : State :=
  let m := chainOf s head
  let s := if m.any fun p => p.2.replay then
      m.foldl (fun s p => s.modSlip p.1 fun sl => { sl with replay := true }) s else s
  match (s.slip? head).bind (memoOf s) with
  | some x => memoChain s head x
  | none =>
    let full := decide (m.length = 16) && m.all fun p => csChain p.2.cs
    let w := (m.map (·.1)).foldl (checkMember full (m.length == 1) head) { s := s }
    if w.failed then settleChain w.s head
    else match w.s.slip? head with
      | none => w.s
      | some h =>
        if shedIfLate w.s h && !h.leaseWait && provablyLate w.s h (leastWake w.s h.engine) (chainMin w.s head) then
          shedChain w.s head
        else w.s

/-! ## Fences (R88) and readiness -/

/-- No fence holds the chain back: a fenced chain waits until every slip fetched earlier from its hopper has completed and
its return slip is posted; a chain behind a fenced one waits for it. -/
def fenceClear (s : State) (head : Nat) (h : Slip) : Bool :=
  let earlier := s.hop.slips.filter fun p => p.2.hopper == h.hopper && decide (p.1 < head)
  let posted := match s.hopper? h.hopper with
    | some x => x.held.isEmpty
    | none => true
  (!csFence h.cs || (earlier.isEmpty && posted)) && earlier.all fun p => !csFence (headOf s p.2).cs

/-- Check one chain, once it is fetched in full and no fence holds it back. -/
def checkHead (s : State) (head : Nat) : State :=
  match s.slip? head with
  | none => s
  | some h =>
    if h.phase = .staged ∧ h.checked = false ∧ h.chainComplete = true ∧ fenceClear s head h = true then checkChain s head else s

/-- Check every chain that has become ready, in fetch order. -/
def checkReady (s : State) : State :=
  ((s.hop.slips.filter fun p => p.2.head == p.1 && !p.2.checked).map (·.1)).foldl checkHead s

/-- The slip goes ahead of slips that have not started: a later slip of a started chain, a later stage, a re-run (R101,
R112). -/
def continues (sid : Nat) (sl : Slip) : Bool :=
  sl.phase == .staged && (sid != sl.head || sl.retried || sl.stage != 0 || sl.opened)

/-- Every slip before it in its chain has finished (R86). -/
def chainTurn (s : State) (sid : Nat) (sl : Slip) : Bool :=
  (chainOf s sl.head).all fun p => decide (sid ≤ p.1) || p.2.phase == .finished

/-- A stateful signing has an index to take, or never will (R232, R233). -/
def leaseThere (s : State) (sl : Slip) : Bool :=
  !(csClass sl.cs == 2 && isStf 0x10 sl) || sl.leaf.isSome
    || (nextIndex (stfKey s (csKey sl.cs))).isSome || stfExhausted s (csKey sl.cs)

/-- The slip's inputs can be read, or have been (R57). -/
def inputsReachable (s : State) (sl : Slip) : Bool :=
  sl.fetched || ((chainOf s sl.head).all fun p => p.2.cs.inLen == 0 && p.2.cs.auxLen == 0 && !(cxOf s p.2).len64)
    || (match s.hopper? sl.hopper with
        | some h => canPost s h
        | none => false)

/-- Startable (R97, R100, R398): everything but its lease. -/
def startableBut (s : State) (e : EngineType) (sid : Nat) (sl : Slip) : Bool :=
  let active := (s.carrel sl.carrel).st == .active
  sl.engine == e && sl.checked && sl.chainComplete && sl.pllWait.isNone && (sl.usesCounted || sl.uses.all (useBlockReady s))
    && inputsReachable s sl
    && !(csClass sl.cs == 0xF && s.tuns.draining.isSome)
    && (match sl.phase with
        | .staged => chainTurn s sid sl && (continues sid sl || (active && admitted s sl && fenceClear s sid sl))
        | .suspended => admitted s sl
        | _ => false)

def startable (s : State) (e : EngineType) (sid : Nat) (sl : Slip) : Bool := startableBut s e sid sl && leaseThere s sl

/-- The startable slips of a type, in fetch order. -/
def startables (s : State) (e : EngineType) : List (Nat × Slip) := s.hop.slips.filter fun p => startable s e p.1 p.2

/-- A signing that only a lease holds back has waited for it (R232). -/
def noteLeaseWait (s : State) : State :=
  let mark (sid : Nat) (sl : Slip) : Slip :=
    if startableBut s sl.engine sid sl && !leaseThere s sl then { sl with leaseWait := true } else sl
  { s with hop := { s.hop with slips := Tab.mapVals s.hop.slips mark } }

/-! ## Units (R102, R103, R252, R275) -/

/-- Lanes that the slips on a floor hold: a digest's lane or pair, or the whole floor (R245, R252). -/
def lanesOf (sl : Slip) : Nat := if sl.engine = .floor ∧ csClass sl.cs = 5 then digLanes (csSet sl.cs) else 512

def lanesUsed (s : State) (l : Nat) : Nat :=
  ((s.hop.slips.filter fun p => p.2.engine == .floor && (heldUnits p.2).contains l).map fun p => lanesOf p.2).sum

/-- The unit is free for the slip. -/
def unitFree (s : State) (e : EngineType) (sl : Slip) (l : Nat) : Bool :=
  let u := s.units e
  inService s e l
    && (match physOf u l with
        | some p => !Tab.has u.fenced p && !u.held.contains p && clockLive s e p
        | none => false)
    && (if e = .floor then decide (lanesUsed s l + lanesOf sl ≤ 512) else !(usedUnits s e).contains l)

/-- Rank of a free unit in `choose_unit` (R103); a kiln of another carrel's last job is wiped first (R104). -/
def unitRank (s : State) (e : EngineType) (carrel l : Nat) : Nat :=
  let u := s.units e
  match physOf u l with
  | none => 5
  | some p => match clusterState u (clusterOf e p) with
    | .run | .idle => if Tab.get? u.lastCarrel p = some carrel then 1 else 2
    | .waking _ | .nap => 3
    | .dormant => 4

/-- The first of the least rank. -/
def leastRank {α : Type} (rank : α → Nat) (xs : List α) : Option α :=
  xs.foldl (fun b x => match b with
    | none => some x
    | some y => if rank x < rank y then some x else b) none

/-- The aligned group of four at index g. -/
def groupUnits (g : Nat) : List Nat := [4 * g, 4 * g + 1, 4 * g + 2, 4 * g + 3]

/-- A whole free group, by the worst rank of its members. -/
def chooseGroup (s : State) (e : EngineType) (sl : Slip) : Option (List Nat) :=
  let gs := (List.range (activeUnits e / 4)).filter fun g => (groupUnits g).all (unitFree s e sl)
  (leastRank (fun g => ((groupUnits g).map (unitRank s e sl.carrel)).foldl max 0) gs).map groupUnits

def chooseOne (s : State) (e : EngineType) (sl : Slip) : Option (List Nat) :=
  (leastRank (unitRank s e sl.carrel) ((List.range (activeUnits e)).filter (unitFree s e sl))).map fun l => [l]

/-- The stage that a slip is about to run. -/
def stageOf (s : State) (sl : Slip) : Stage := (stagesOf s sl).getD sl.stage { engine := sl.engine, est := 0, min := 0 }

/-- `choose_unit` (R101, R103): a group where one is needed, or is free and suits; a message suspended on a group resumes on a
group alone, one suspended on a single pipe on a single pipe (R216, R275, R276). -/
def chooseUnits (s : State) (e : EngineType) (sl : Slip) : Option (List Nat) :=
  let st := stageOf s sl
  if sl.phase = .suspended then (if sl.gang.isEmpty then chooseOne s e sl else chooseGroup s e sl)
  else if st.group = 4 then
    match chooseGroup s e sl with
    | some g => some g
    | none => if st.must then none else chooseOne s e sl
  else chooseOne s e sl

/-- Fabric cycles of a kiln's full wipe: 1,024 kiln cycles (R104). -/
def wipeCycles (s : State) : Nat := if s.cel.stage ≥ 2 then 1280 else 640

/-- The kiln's last job belonged to another carrel. -/
def changesOwner (s : State) (e : EngineType) (carrel p : Nat) : Bool :=
  e == .kiln && (match Tab.get? (s.units e).lastCarrel p with
    | some c => c != carrel
    | none => false)

/-- W(u) of the units chosen (R104, R111). -/
def wakeOf (s : State) (e : EngineType) (carrel : Nat) (ls : List Nat) : Nat :=
  let u := s.units e
  ((ls.filterMap (physOf u)).map fun p =>
    wakeLatency s u (clusterOf e p) + (if changesOwner s e carrel p then wipeCycles s else 0)).foldl max 0

/-! ## Picking (R101) -/

def vtOf (s : State) (e : EngineType) (c : Nat) : Int := Tab.getD (s.units e).vt c 0
def hvtOf (s : State) (h : Nat) : Int := Tab.getD s.sched.hvt h 0

/-- The first of the list that no other precedes. -/
def firstBy {α : Type} (lt : α → α → Bool) (xs : List α) : Option α :=
  xs.foldl (fun b x => match b with
    | none => some x
    | some y => if lt x y then some x else b) none

/-- Startable carrel with the least virtual time; ties go to the lower number. -/
def pickCarrel (s : State) (e : EngineType) (ps : List (Nat × Slip)) : Option Nat :=
  firstBy (fun a b => decide (vtOf s e a < vtOf s e b) || (vtOf s e a == vtOf s e b && decide (a < b)))
    (ps.map fun p => p.2.carrel).dedup

/-- A precedes B in the order of deadline instants; a slip without one ranks latest; ties by virtual time, then number. -/
def dlBefore (s : State) (a b : Nat × Slip) : Bool :=
  let ka := deadlineAt s a.2
  let kb := deadlineAt s b.2
  let tie := decide (hvtOf s a.2.hopper < hvtOf s b.2.hopper)
    || (hvtOf s a.2.hopper == hvtOf s b.2.hopper && decide (a.2.hopper < b.2.hopper))
  match ka, kb with
  | some x, some y => decide (x < y) || (x == y && tie)
  | some _, none => true
  | none, some _ => false
  | none, none => tie

/-- `pick_in_carrel` (R101). -/
def pickInCarrel (s : State) (ps : List (Nat × Slip)) : Option (Nat × Slip) :=
  let ps := if ps.any fun p => p.2.cfg.urgent then ps.filter fun p => p.2.cfg.urgent else ps
  let m := (ps.map fun p => hvtOf s p.2.hopper).min?.getD 0
  let cands := (ps.map fun p => p.2.hopper).dedup.filterMap fun h =>
    if hvtOf s h ≤ m + 2 ^ 24 then ps.find? fun p => p.2.hopper == h else none
  firstBy (dlBefore s) cands

/-- The dispatcher's next choice among these slips (R101): a suspended message of a quiescing carrel (R398), a continuation,
then by shares. -/
def pickSlip (s : State) (e : EngineType) (ps : List (Nat × Slip)) : Option (Nat × Slip) :=
  match ps.find? fun p => p.2.phase == .suspended && (s.carrel p.2.carrel).st == .quiescing with
  | some p => some p
  | none => match ps.find? fun p => continues p.1 p.2 with
    | some p => some p
    | none => (pickCarrel s e ps).bind fun c => pickInCarrel s (ps.filter fun p => p.2.carrel == c)

/-- Carrels and hoppers that have become startable save up no credit (R101). -/
def catchUp (s : State) (e : EngineType) (ps : List (Nat × Slip)) : State :=
  let u := s.units e
  let cs := (ps.map fun p => p.2.carrel).dedup
  let old := cs.filter u.ready.contains
  let s := match (old.map (vtOf s e)).min? with
    | none => s
    | some m => s.setUnits e { u with vt := (cs.filter fun c => !u.ready.contains c).foldl (fun t c =>
        Tab.set t c (max (Tab.getD t c 0) m)) u.vt }
  cs.foldl (fun s c =>
    let hs := ((ps.filter fun p => p.2.carrel == c).map fun p => p.2.hopper).dedup
    match ((hs.filter u.hready.contains).map (hvtOf s)).min? with
    | none => s
    | some m =>
      let up (t : Tab Int) (h : Nat) : Tab Int := Tab.set t h (max (Tab.getD t h 0) m)
      { s with sched := { s.sched with hvt := (hs.filter fun h => !u.hready.contains h).foldl up s.sched.hvt } }) s

/-- Note who still has startable work after the dispatcher has looked. -/
def noteReady (s : State) (e : EngineType) : State :=
  let ps := startables s e
  let u := s.units e
  s.setUnits e { u with ready := (ps.map fun p => p.2.carrel).dedup, hready := (ps.map fun p => p.2.hopper).dedup }

/-! ## Assignment (R101 to R104) -/

/-- READs of step 10 for a chain, issued together when it starts. -/
def startReads (s : State) (sl : Slip) : State :=
  (chainOf s sl.head).foldl (fun s p => if p.2.fetched then s else issueReads s p.1 true) s

/-- Wake what a unit needs: its cluster, and a kiln's wipe when its owner changes. -/
def readyUnit (s : State) (e : EngineType) (carrel l : Nat) : State :=
  match physOf (s.units e) l with
  | none => s
  | some p =>
    let s := wake s e (clusterOf e p)
    if changesOwner s e carrel p then scrubUnit s e p else s

/-- Logical index of a stage's `ENGINE_ID` (R90). -/
def engineIdOf (e : EngineType) (ls : List Nat) : BitVec 16 :=
  BitVec.ofNat 16 (4096 * unitTypeCode e + ls.min?.getD 0)

/-- Start-of-routine state of a tun (R115), for a slip. -/
def startTun (s : State) (t sid : Nat) (sl : Slip) (pc : BitVec 14) (opened right : Bool) : State :=
  s.setTun t { ({} : Tun) with
    pc := pc, running := true, sid := some sid, openRoutine := opened, declassRight := right
    shares := if (s.carrel sl.carrel).maskOrder = 3 then 3 else 2, trace := (s.tun t).trace }

/-- A closed-stacks routine starts on the slip's first tun. Where its microcode begins is the vendor's (log 62). -/
def startClosed (s : State) (sid : Nat) (sl : Slip) : State :=
  match physUnitsOf s sl with
  | t :: _ => startTun s t sid sl (BitVec.ofNat 14 (Config.freeNat 120 [sl.cs.opcode.toNat])) false false
  | [] => s

/-- A suspended digest routine goes on where it was, on its new tun (R255). -/
def resumeTun (s : State) (sid : Nat) (sl : Slip) : State :=
  match physUnitsOf s sl, Tab.get? s.tuns.contexts sid with
  | t :: _, some x =>
    { s with tuns := { s.tuns with
      tuns := Tab.set s.tuns.tuns t { x with trace := (s.tun t).trace }, contexts := Tab.erase s.tuns.contexts sid } }
  | _, _ => startClosed s sid sl

/-- Assign a slip to the units chosen: charged, its unit woken, its inputs fetched. -/
def assign (s : State) (e : EngineType) (sid : Nat) (sl : Slip) (ls : List Nat) : State :=
  let stages := stagesOf s sl
  let st := stageOf s sl
  let resumed := sl.phase == .suspended
  let gang := decide (1 < ls.length)
  let sl' := { sl with
    phase := .running, unit := ls.head?, gang := if gang then ls else []
    est := if resumed then sl.est else clocked s e (if gang && st.estG != 0 then st.estG else st.est)
    startedAt := s.now, engineId := engineIdOf e ls, final := decide (sl.stage + 1 ≥ stages.length), suspendReq := false }
  let s := s.setSlip sid sl'
  let s := if e = .tun ∧ csClass sl.cs ≠ 0xF then (if resumed then resumeTun s sid sl' else startClosed s sid sl') else s
  let s := if resumed then s else charge s sl' (sl'.est * gangSize sl' : Nat)
  let s := if gang && e == .pipe && !resumed then { s with pipes := { s.pipes with gangTot := s.pipes.gangTot + 1 } } else s
  let s := ls.foldl (fun s l => readyUnit s e sl.carrel l) s
  notePeak (if sl'.fetched then s else startReads s sl') e

/-- Wake clusters to cover the startable slips that no awake free unit serves, NAP before DORMANT (R103). -/
def coverWakes (s : State) (e : EngineType) : State :=
  let u := s.units e
  let need := (startables s e).length
  let any : Slip := { hopper := 0, carrel := 0, cs := {}, head := 0 }
  let free := ((List.range (activeUnits e)).filter (unitFree s e any)).filterMap (physOf u)
  let st (p : Nat) : ClusterState := clusterState u (clusterOf e p)
  let awake := (free.filter fun p => st p != .nap && st p != .dormant).length
  let order := ((free.filter fun p => st p == .nap).map (clusterOf e)).dedup
    ++ ((free.filter fun p => st p == .dormant).map (clusterOf e)).dedup
  (order.foldl (fun (x : State × Nat) c =>
    if x.2 < need then (wake x.1 e c, x.2 + (free.filter fun p => clusterOf e p == c).length) else x) (s, awake)).1

/-- Suspended messages that QDR has room for (R108, R525). -/
def contextLimit (s : State) : Nat := if s.qdr.paired then 16384 else 32768

/-- Slips whose saved contexts fill the suspended-context area, or will (R106, R108). -/
def suspendedCount (s : State) : Nat :=
  (s.hop.slips.filter fun p => p.2.phase == .suspended || (p.2.phase == .running && p.2.suspendReq)).length

/-- Suspendable: a LONG message of a LONG hopper on a pipe or a floor, or a digest routine on a tun (R105, R106, R155, R255);
kiln jobs never are (R289). -/
def suspendable (sl : Slip) : Bool :=
  sl.isLong && sl.cfg.long && (sl.engine == .pipe || sl.engine == .floor || (sl.engine == .tun && csClass sl.cs == 5))

/-- R107: with no unit free or waking for an URGENT slip, one running LONG message of the type is asked to suspend: that of the
carrel with the greatest virtual time, then the one that has run longest. -/
def suspendFor (s : State) (e : EngineType) : State :=
  if suspendedCount s ≥ contextLimit s then s
  else
    let run := s.hop.slips.filter fun p =>
      p.2.engine == e && p.2.phase == .running && suspendable p.2 && !p.2.suspendReq
    match firstBy (fun a b => decide (vtOf s e a.2.carrel > vtOf s e b.2.carrel)
        || (vtOf s e a.2.carrel == vtOf s e b.2.carrel && decide (a.2.startedAt < b.2.startedAt))) run with
    | none => s
    | some v => s.modSlip v.1 fun sl => { sl with suspendReq := true }

/-- The class 0xF conditions that a change of image may have broken since the slip was checked (R167, R171). -/
def openBroken (s : State) (sl : Slip) : Option Nat :=
  if csClass sl.cs ≠ 0xF then none
  else match opSpec (cxOf s sl) with
    | none => some St.opcodeUnknown
    | some sp =>
      if !step1Op (cxOf s sl) sp then some St.formatInvalid
      else if !sp.step3 then some St.opcodeNotPermitted
      else if sl.key.any fun k => !sp.usageOk k.usage then some St.keyUsageDenied
      else none

/-- One round of a dispatcher (R101). -/
def dispatchRound (s : State) (e : EngineType) : State :=
  let s := catchUp s e (startables s e)
  let ps := startables s e
  let s := match pickSlip s e (ps.filter fun p => (chooseUnits s e p.2).isSome) with
    | none => match pickSlip s e ps with
      | some p => if p.2.cfg.urgent then suspendFor s e else s
      | none => s
    | some (sid, sl) => match openBroken s sl with
      | some st => settleChain (haltSlip s st 0 sid) sl.head
      | none => match chooseUnits s e sl with
        | none => s
        | some ls =>
          let fresh := sl.phase == .staged && sid == sl.head && (!continues sid sl || (sl.retried && sl.stage == 0 && standsAlone s sl))
          if fresh && shedIfLate s sl && !sl.leaseWait && provablyLate s sl (wakeOf s e sl.carrel ls) (chainMin s sl.head) then
            shedChain s sl.head
          else assign s e sid sl ls
  coverWakes (noteReady s e) e

/-- Start a slip that needs no engine unit, in fetch order (R545, R327). -/
def startBare (s : State) : State :=
  match (startables s .none).head? with
  | none => s
  | some (sid, sl) =>
    let id := ((opSpec (cxOf s sl)).map (·.engineId)).getD 0
    let s := s.setSlip sid { sl with
      phase := .running, startedAt := s.now, engineId := BitVec.ofNat 16 id, final := true, est := (stageOf s sl).est }
    if sl.fetched then s else startReads s sl

/-- DISPATCH (R101): chains that a fence held back are checked; then one slip of the type is started. -/
def execDispatch (e : EngineType) (s : State) : Res :=
  let s := noteLeaseWait (checkReady s)
  .next (match e with
    | .none => startBare s
    | e => dispatchRound s e)

/-! ## Clusters (R16, R102) -/

/-- Some slip or page operation holds a unit of the cluster. -/
def clusterHeld (s : State) (e : EngineType) (c : Nat) : Bool :=
  (((usedUnits s e).filterMap (physOf (s.units e))).map (clusterOf e)).contains c

/-- WAKE_COMPLETE (R102): the cluster's units accept work. -/
def execWakeComplete (e : EngineType) (cluster : Nat) (s : State) : Res :=
  match clusterState (s.units e) cluster with
  | .waking _ => .next (setCluster s e cluster (if clusterHeld s e cluster then .run else .idle))
  | _ => .next s

/-- The operator's minimum of awake units (`HOP_WARM_MIN`). -/
def warmMin (s : State) : EngineType → Nat
  | .tun => s.sched.warmTun.toNat
  | .floor => s.sched.warmFloor.toNat
  | .kiln => s.sched.warmKiln.toNat
  | .pipe => s.sched.warmPipe.toNat
  | .none => 0

/-- Unit counts kept at shed stage S3, which cap the warm-pool target from S2 on (R461). -/
def s3Units : EngineType → Nat
  | .tun => 16
  | .floor => 2
  | .kiln => 4
  | .pipe => 32
  | .none => 0

/-- Warm-pool target in clusters (R102). -/
def warmTarget (s : State) (e : EngineType) : Nat :=
  let peak := ((s.units e).peaks.map (·.2)).foldl max 0
  let want := max (warmMin s e) ((5 * peak + 3) / 4)
  let want := if s.cel.stage ≥ 2 then min want (s3Units e) else want
  (want + clusterSize e - 1) / clusterSize e

/-- Clusters in RUN or IDLE. -/
def awakeClusters (s : State) (e : EngineType) : Nat :=
  ((s.units e).clusters.filter fun p => p.2 == .run || p.2 == .idle).length

/-- No unit of the cluster is kept at the shed stage in force (R461). -/
def clusterDropped (s : State) (e : EngineType) (c : Nat) : Bool :=
  !((List.range (activeUnits e)).any fun l => retained s e l && (physOf (s.units e) l).any fun p => clusterOf e p == c)

/-- CLUSTER_NAP (R102): a cluster without work outside the warm pool. -/
def execClusterNap (e : EngineType) (cluster : Nat) (s : State) : Res :=
  if clusterState (s.units e) cluster = .idle ∧ (warmTarget s e < awakeClusters s e ∨ clusterDropped s e cluster = true) then
    .next (setCluster s e cluster .nap)
  else .next s

/-- CLUSTER_DORMANT (R102). -/
def execClusterDormant (e : EngineType) (cluster : Nat) (s : State) : Res :=
  match clusterState (s.units e) cluster with
  | .nap => .next (setCluster s e cluster .dormant)
  | _ => .next s

end Sys2Proof.Machine
end

