-- ==== Sys2Proof/Machine/Pipeline.lean ====
section
/-!
DEFINITION. Fetching slips, running them on their units, suspending LONG messages, completing them (R64 to R67, R86, R96,
R106 to R110, R141, R157, R288).
-/

namespace Sys2Proof.Machine

/-! ## Fetching (R65 to R67, R96) -/

/-- Fetched and not yet assigned to any unit (R96). -/
def isStaged (sl : Slip) : Bool := sl.phase == .staged && sl.stage == 0 && !sl.retried && !sl.opened

/-- The three staged limits have room (R96). -/
def stagedRoom (s : State) (hn c : Nat) : Bool :=
  let st := s.hop.slips.filter fun p => isStaged p.2
  decide ((st.filter fun p => p.2.hopper == hn).length < 32) && decide ((st.filter fun p => p.2.carrel == c).length < 8192)
    && decide (st.length < 524288)

/-- Entries announced and, for a mirrored hopper, below the fetch ceiling (R65, R424). -/
def available (s : State) (hn : Nat) (h : Hopper) : Nat :=
  let n := (h.p - h.ci).toNat
  if mirrors s h.carrel then
    let d := ((hopMirror s hn).fc - h.ci).toNat
    min n (if d < 2 ^ 31 then d else 0)
  else n

/-- Slips may be fetched (R13, R358, R385, R438, R462). -/
def fetchOpen (s : State) : Bool :=
  s.reg.dev == .ready && s.ent.state == .ready && s.qdr.guardKeys && !s.hop.fetchStopped && !s.hop.resetting

/-- The carrel is being moved to its standby (R431). -/
def rehoming (s : State) (c : Nat) : Bool := s.reg.mbx.any fun p => match p.2.wait with
  | .rehome k _ => k == c
  | _ => false

/-- The hopper is eligible and has something to fetch (R65, R96). -/
def eligible (s : State) (hn : Nat) (h : Hopper) : Bool :=
  h.state == .active && (s.carrel h.carrel).st == .active && homeOf s h.carrel == .here && !rehoming s h.carrel && canPost s h && h.fetch.isNone
    && decide (0 < available s hn h) && stagedRoom s hn h.carrel

/-- No eligible hopper comes before this one in the order of least virtual time (R96). -/
def fetchTurn (s : State) (hn : Nat) : Bool :=
  s.hop.hoppers.all fun p => !(decide (p.1 ≠ hn) && eligible s p.1 p.2
    && (decide (hvtOf s p.1 < hvtOf s hn) || (hvtOf s p.1 == hvtOf s hn && decide (p.1 < hn))))

/-- READs of at most 64 KiB, 1,024 entries, that cover `n` entries from ring position `pos`, wrapping at the end (R50). -/
def ringParts (d : Nat) : Nat → Nat → Nat → List (Nat × Nat)
  | 0, _, _ => []
  | fuel + 1, pos, n =>
    if n = 0 then []
    else
      let k := min n (min 1024 (d - pos))
      (pos, k) :: ringParts d fuel ((pos + k) % d) (n - k)

/-- HOPPER_FETCH (R96, R67, R50): READs of `n` entries of the hopper whose turn it is. -/
def execHopperFetch (hopper n : Nat) (s : State) : Res :=
  match s.hopper? hopper with
  | none => .next s
  | some h =>
    if fetchOpen s && eligible s hopper h && fetchTurn s hopper && decide (0 < n) && decide (n ≤ available s hopper h) then
      let d := depth h
      let ps := ringParts d (n + 1) (h.ci.toNat % d) n
      let s := s.setHopper hopper { h with fetch := some { first := h.ci, count := n, parts := ps.map fun _ => none } }
      .next ((ps.zipIdx).foldl (fun s p =>
        postRead s h (.ring hopper p.2) (h.slipRing + BitVec.ofNat 64 (64 * p.1.1)) (64 * p.1.2)) s)
    else .next s

/-- Stamp of the first record that moved P to or past an entry (R73). -/
def arrivalOf (h : Hopper) (now : Nat) (need : Nat) : Nat :=
  ((h.arrivals.find? fun a => decide (need ≤ (a.1 - h.ci).toNat) && decide ((a.1 - h.ci).toNat < 2 ^ 31)).map (·.2)).getD now

/-- The entry may have run on the old home (R428). -/
def replayed (s : State) (hn : Nat) (entry : W32) : Bool :=
  match Tab.get? s.mirror.replayTo hn with
  | some fc => before entry fc
  | none => false

/-- Take one slip with its segments off the data read (R67); a chain ends at a slip without `CHAIN` or after 16 (R84). -/
def takeSlip (s : State) (hn : Nat) (h : Hopper) (cs : CallSlip) (exts : List Bytes) : State :=
  let sid := s.hop.nextSid
  let head := h.openChain.getD sid
  let len := (chainOf s head).length + 1
  let ends := !csChain cs || decide (len = 16)
  let sl : Slip := {
    hopper := hn, carrel := h.carrel, cs := cs, exts := exts, entry := h.ci, arrival := arrivalOf h s.now (csEntries cs)
    head := head, chainComplete := false, replay := replayed s hn h.ci, endsChain := ends && csChain cs
    cfg := { weight := h.weight, classMask := h.classMask, slotPerm := h.slotPerm, long := h.long, urgent := h.urgent } }
  let ci := h.ci + BitVec.ofNat 32 (csEntries cs)
  let s := s.setHopper hn { h with
    ci := ci, lastSlipSeq := cs.slipSeq, openChain := if ends then none else some head
    arrivals := h.arrivals.filter fun a => before ci a.1 }
  let s := (s.setSlip sid sl)
  let s := { s with hop := { s.hop with nextSid := sid + 1 } }
  if ends then
    let s := (chainOf s head).foldl (fun s p => s.modSlip p.1 fun sl => { sl with chainComplete := true }) s
    checkHead s head
  else s

/-- Take slips off the data read while whole slips and room remain; the rest is read again later (R67, R96). -/
def takeSlips : Nat → State → Nat → Bytes → State
  | 0, s, _, _ => s
  | fuel + 1, s, hn, b =>
    match s.hopper? hn with
    | none => s
    | some h =>
      let cs := parseSlip (b.take 64)
      let n := csEntries cs
      if decide (b.length < 64) || decide (b.length < 64 * n) || !stagedRoom s hn h.carrel then s
      else
        let exts := (List.range (n - 1)).map fun j => slice b (64 * (j + 1)) 64
        takeSlips fuel (takeSlip s hn h cs exts) hn (b.drop (64 * n))

/-- Data of one part of a fetch has arrived; with the last one the slips are taken, unless the hopper no longer fetches
(R64, R65). -/
def ringArrived (s : State) (hn part : Nat) (d : Bytes) : State :=
  match s.hopper? hn with
  | none => s
  | some h => match h.fetch with
    | none => s
    | some f =>
      let parts := f.parts.set part (some d)
      if parts.all (·.isSome) then
        let s := s.setHopper hn { h with fetch := none }
        if h.state = .active ∧ (s.carrel h.carrel).st = .active ∧ homeOf s h.carrel = .here ∧ rehoming s h.carrel = false ∧ s.hop.fetchStopped = false ∧ s.hop.resetting = false then
          takeSlips f.count s hn (parts.flatMap fun p => p.getD [])
        else s
      else s.setHopper hn { h with fetch := some { f with parts := parts } }

/-! ## The end of a stage or of a slip (R86, R101) -/

/-- Virtual times corrected to the actual unit time (R101). -/
def correct (s : State) (sl : Slip) (ns : Nat) : State :=
  if sl.engine = .none then s else charge s sl (((30 * ns : Nat) - (sl.est : Int)) * (gangSize sl : Nat))

/-- Go on to a stage: the slip is a continuation of its dispatcher (R101, R331). -/
def toStage (s : State) (sid k : Nat) : State :=
  let s := freeUnit s sid
  match s.slip? sid with
  | none => s
  | some sl => s.setSlip sid { sl with
      phase := .staged, stage := k, engine := (((stagesOf s sl).getD k { engine := .none, est := 0, min := 0 })).engine }

/-- The record of an inline wrapped key has been unwrapped: its conditions, then the checks that needed the key (R331). -/
def recordOpened (s : State) (sid : Nat) (sl : Slip) : State :=
  match openRecord ((sl.other.map (·.material)).getD []) sl.auxData with
  | none => failSlip s sid St.keyUnwrapFailed
  | some r =>
    let sl := { sl with key := some r.key, opened := true, usesCounted := true }
    let s := s.setSlip sid sl
    match opSpec (cxOf s sl) with
    | none => failSlip s sid St.opcodeUnknown
    | some sp => match checkOpened (cxOf s sl) sp with
      | some b => failSlip s sid b.status b.outLen b.inline
      | none => toStage s sid 0

/-- A stage before the last ends. -/
def stageEnd (s : State) (sid : Nat) (sl : Slip) : State :=
  let s := startUses s sid
  if csInline sl.cs && !sl.opened then recordOpened s sid sl
  else
    let s := takeLeaf s sid
    if csClass sl.cs == 2 && isStf 0x10 sl && ((s.slip? sid).bind (·.leaf)).isNone then failSlip s sid St.ledgerExhausted
    else toStage s sid (sl.stage + 1)

/-- The outcome of a routine that has ended on tun `t` (R157). A closed-stacks routine's normal results are those of its
operation. -/
def routineEnd (s : State) (sid : Nat) (sl : Slip) (t : Nat) : State :=
  let x := s.tun t
  let c := cxOf s sl
  let bad (st : Nat) (full : Bool) (n : Nat := 0) : State := failSlip (if full then scrubUnit s .tun t else s) sid st n
  match x.ended with
  | none => s
  | some (.status st) => bad st (st == St.routineFault || st == St.taintViolation)
  | some .ok =>
    if csClass sl.cs ≠ 0xF then s
    else if x.outCount > c.outMax then bad St.outputTooSmall false x.outCount
    else if csDestUsed sl.cs && x.slot.length != segLen c then bad St.routineFault true
    else
      let ops := if csDestUsed sl.cs then newKeyOp s sl (slipParent sl) (slipAttr sl.cs sl.exts).cls x.slot else []
      passSlip (s.setSlip sid { sl with
        out := x.out, outLen := x.outCount, inline := BitVec.ofNat 64 (unle x.result), approved := false, slotOps := ops
        secret := if csHold sl.cs then some x.hold else none }) sid

/-- The tun a slip's routine has ended on. -/
def endedTun (s : State) (sl : Slip) : Option Nat :=
  if sl.engine = .tun then (physUnitsOf s sl).head?.bind fun t => if (s.tun t).ended.isSome then some t else none
  else none

/-- EXECUTION_COMPLETE (R86): a stage's unit has finished, after `actualNs` of unit time. -/
def execExecutionComplete (sid actualNs : Nat) (s : State) : Res :=
  match s.slip? sid with
  | none => .next s
  | some sl =>
    if sl.phase = .executed then
      let s := correct s sl actualNs
      .next (if sl.status = St.ok then passSlip s sid else failSlip s sid sl.status sl.outLen sl.inline)
    else if sl.phase = .running ∧ sl.readsLeft = 0 ∧ unitAwake s sl = true then
      match endedTun s sl with
      | some t => .next (routineEnd (correct s sl actualNs) sid sl t)
      | none => if sl.final = false then .next (stageEnd (correct s sl actualNs) sid sl) else .next s
    else .next s

/-! ## LONG messages (R106, R109, R276, R398) -/

/-- Save a message's context, of a tun its whole state (R255), and free its unit. -/
def suspend (s : State) (sid : Nat) (sl : Slip) : State :=
  let s := match sl.engine, physUnitsOf s sl with
    | .tun, t :: _ => { s with tuns := { s.tuns with contexts := Tab.set s.tuns.contexts sid (s.tun t) } }
    | _, _ => s
  let s := (freeUnit s sid).modSlip sid fun x => { x with phase := .suspended, suspendReq := false, gang := sl.gang }
  if sl.engine = .pipe then { s with pipes := { s.pipes with suspTot := s.pipes.suspTot + 1 } } else s

/-- End work abandoned by command: its unit stops, and is wiped where the unit type is (R141, R288, R398). -/
def abortRunning (s : State) (sid : Nat) (sl : Slip) (st : Nat) : State :=
  settleChain (haltSlip (stopUnits s sid sl) st 0 sid) sl.head

/-- Yields at the end of a quantum: a LONG message, or `STF_KEYGEN`, on any hopper (R109, R207). -/
def yields (sl : Slip) : Bool := suspendable sl || (sl.isLong && csClass sl.cs == 2 && sl.engine == .floor)

/-- LONG_SUSPEND (R106): a check point with a request pending; an abort ends the message there (R398). -/
def execLongSuspend (sid : Nat) (s : State) : Res :=
  match s.slip? sid with
  | none => .next s
  | some sl =>
    if sl.phase ≠ .running then .next s
    else if sl.abortReq then .next (abortRunning s sid sl St.aborted)
    else if sl.suspendReq && suspendable sl then .next (suspend s sid sl)
    else .next s

/-- LONG_QUANTUM_END (R109): suspended if another slip of its type is startable and the context area has room (R108); a message
of a quiescing carrel runs to its end (R398). -/
def execLongQuantumEnd (sid : Nat) (s : State) : Res :=
  match s.slip? sid with
  | none => .next s
  | some sl =>
    if sl.phase ≠ .running then .next s
    else if sl.abortReq then .next (abortRunning s sid sl St.aborted)
    else if yields sl && decide (suspendedCount s < contextLimit s) && (s.carrel sl.carrel).st != .quiescing
        && !(startables s sl.engine).isEmpty then
      .next (suspend s sid sl)
    else .next s

/-! ## Units and hoppers -/

/-- HOPPER_STOPPED (R64). -/
def execHopperStopped (hopper : Nat) (s : State) : Res :=
  match s.hopper? hopper with
  | none => .next s
  | some h =>
    if h.state = .stopping ∧ inFlight s hopper = 0 then .next (setHopState s hopper .stopped) else .next s

/-- The unit accepts work again. -/
def unhold (s : State) (e : EngineType) (phys : Nat) : State :=
  let u := s.units e
  s.setUnits e { u with held := u.held.filter (· != phys) }

/-- TUN_SCRUB_DONE (R141). -/
def execTunScrubDone (t : Nat) (s : State) : Res :=
  if (s.tun t).scrubbing then .next (unhold (s.setTun t { ({} : Tun) with trace := (s.tun t).trace }) .tun t)
  else .next s

/-- KILN_WIPE_DONE (R288). -/
def execKilnWipeDone (k : Nat) (s : State) : Res :=
  if (s.kiln k).wiping then .next (unhold (s.setKiln k {}) .kiln k) else .next s

end Sys2Proof.Machine
end

