-- ==== Sys2Proof/Machine/Transport.lean ====
section
/-!
DEFINITION. Service ports and the RoCEv2 transport: doorbells, binding, what arrives for a queue pair, rates, links (chapter
2, R71 to R76).
-/

namespace Sys2Proof.Machine

/-! ## Ports and carrels (R22, R33) -/

/-- Rate of a port in Gbit/s, by the mode of its octet (R22). -/
def modeRate (m : BitVec 3) : Nat :=
  match m.toNat with
  | 1 => 800
  | 2 => 400
  | 3 => 200
  | 4 => 100
  | _ => 0

/-- Ports of an octet, by mode (R22). -/
def modePorts (m : BitVec 3) : Nat :=
  match m.toNat with
  | 1 => 1
  | 2 => 2
  | 3 => 4
  | 4 => 8
  | _ => 0

def portRate (s : State) (port : Nat) : Nat := modeRate (s.octet (port / 8)).mode

/-- The carrel is homed here and has taken on its addresses: from activation on (R34, R400). -/
def onNetwork (s : State) (c : Nat) : Bool :=
  (s.carrel c).st != .absent && (s.carrel c).st != .configured && homeOf s c == .here

/-- The carrel that a frame belongs to, from its port and VLAN (R33). -/
def carrelOn (s : State) (port vlan : Nat) : Option Nat :=
  (s.carrels.find? fun p => p.2.net.vlan == vlan && p.2.net.ports.contains port && p.2.st != .absent).map (·.1)

def hasIp (n : NetId) : IpAddr → Bool
  | .v4 a => n.v4.any fun p => p.1 == a
  | .v6 a => n.v6.any fun p => p.1 == a

/-- Where a queue pair stands. -/
def qpPhase (s : State) (q : Nat) : Option QpPhase := (s.qp? q).map (·.phase)

/-- Hoppers bound to a queue pair. -/
def hoppersOf (s : State) (q : Nat) : List Nat := (s.hop.hoppers.filter fun p => p.2.qpn == some q).map (·.1)

/-! ## Doorbells (R44 to R49, R71 to R73, R75) -/

/-- Count one discarded doorbell record (R46). -/
def doorbellError (s : State) (carrel : Nat) (hopper : Option Nat) : State :=
  let c := s.carrel carrel
  let s := s.setCarrel carrel { c with stats := { c.stats with dbErr := c.stats.dbErr + 1 } }
  let s := match hopper with
    | some hn => s.modHopper hn fun h => { h with dbDiscarded := true }
    | none => s
  report s { source := 0x100, carrel := carrel, hopper := match hopper with
    | some hn => BitVec.ofNat 32 hn
    | none => 0xFFFF_FFFF#32 }

/-- A record matches its position and its reserved bits are zero (R45, R46). -/
def recordOk (hn : Nat) (b : Bytes) : Bool :=
  field b 0 4 == hn && decide (field b 12 2 ≤ 1) && field b 14 2 == 0

/-- One doorbell record for a hopper, stamped now (R71, R72, R73). -/
def doorbellRecord (s : State) (hn : Nat) (b : Bytes) : State :=
  match s.hopper? hn with
  | none => s
  | some h =>
    if !recordOk hn b then doorbellError s h.carrel (some hn)
    else
      let seq := BitVec.ofNat 32 (field b 4 4)
      let pi := BitVec.ofNat 32 (field b 8 4)
      if field b 12 2 = 1 then
        flushHopper (s.setHopper hn { h with lastDbSeq := seq, statusPending := h.statusPending + 1 }) hn
      else if (pi - h.ci).toNat > depth h then doorbellError s h.carrel (some hn)
      else if pi ≠ h.p ∧ (pi - h.ci).toNat ≥ (h.p - h.ci).toNat then
        s.setHopper hn { h with lastDbSeq := seq, p := pi, arrivals := h.arrivals ++ [(pi, s.now)] }
      else s.setHopper hn { h with lastDbSeq := seq }

/-- A packet marked CE: at most one CNP per queue pair in 50 us (R53). -/
def cnpFor (s : State) (q : Nat) (ce : Bool) : State :=
  match s.qp? q with
  | none => s
  | some x =>
    let due := match x.lastCnpTx with
      | some t => decide (s.now - t ≥ 62500)
      | none => true
    if ce && due then
      let o := s.octet (x.port / 8)
      ((s.setQp q { x with lastCnpTx := some s.now }).setOctet (x.port / 8) { o with cnpTx := o.cnpTx + 1 }).send (.cnp q)
    else s

/-- The hopper of a carrel at a doorbell position. -/
def hopperAt (s : State) (carrel k : Nat) : Option Nat :=
  (s.hop.hoppers.find? fun p => p.2.carrel == carrel && p.2.index == k).map (·.1)

/-! ## Failure of requests (R57 to R59) -/

/-- Put a return slip back among those held, before those that are held already (R57). -/
def rehold (s : State) (hn : Nat) (e : HeldRs) : State :=
  s.modHopper hn fun h =>
    let earlier := h.held.takeWhile fun x => before x.cseq e.cseq
    { h with held := earlier ++ e :: h.held.drop earlier.length }

/-- The return slip of a slip whose output WRITE failed: `REMOTE_ACCESS_ERROR`, not approved, no output (R58, R59, R90). -/
def failedOutput (rs : Bytes) : Bytes :=
  let flags := field rs 10 2
  splice rs 8 (le 2 St.remoteAccessError ++ le 2 (flags - 2 * b2n (bit flags 1)) ++ le 4 0)

/-- The slip was counted as done well and is so no longer (R414). -/
def countFailed (s : State) (hn : Nat) (rs : Bytes) : State :=
  match s.hopper? hn with
  | none => s
  | some h =>
    if approvable (field rs 8 2) then
      let c := s.carrel h.carrel
      s.setCarrel h.carrel { c with stats := { c.stats with failed := c.stats.failed + 1 } }
    else s

/-- The READ of a slip-ring entry failed (R58). -/
def ringFailed (s : State) (hn : Nat) : State :=
  match s.hopper? hn with
  | none => s
  | some h =>
    if h.fetch.isNone then s
    else
      let s := hopperEvent (s.setHopper hn { h with fetch := none, fetchFail := some h.ci }) hn
      reportHop s 0x103 h.carrel hn

/-- One request fails; `badOut` are the completions whose output WRITEs have failed before it; `st` is the status of a slip
whose input fails. -/
def failReq (s : State) (badOut : List (Nat × W32)) (st : Nat) (r : Req) : State :=
  match r.kind with
  | .ring hn _ => ringFailed s hn
  | .input sid _ | .aux sid _ => failSlip s sid st
  | .part sid =>
    let s := s.modSlip sid fun sl => { sl with writesLeft := sl.writesLeft - 1 }
    match s.slip? sid with
    | some sl =>
      if sl.phase = .draining then
        if sl.writesLeft = 0 then settleChain (s.setSlip sid { sl with phase := .finished }) sl.head else s
      else failSlip s sid St.remoteAccessError
    | none => s
  | .output _ _ => s
  | .returnSlip hn c =>
    if badOut.contains (hn, c) then
      rehold (countFailed s hn r.data) hn { cseq := c, rs := failedOutput r.data, notify := r.imm.isSome }
    else rehold s hn { cseq := c, rs := r.data, notify := r.imm.isSome }
  | .statusBlock hn => s.modHopper hn fun h => { h with statusPending := h.statusPending + 1 }

/-- Completions whose output WRITEs are among these requests. -/
def outputsIn (rs : List Req) : List (Nat × W32) := rs.filterMap fun r => match r.kind with
  | .output hn c => some (hn, c)
  | _ => none

/-- Every request outstanding on a queue pair fails. -/
def failOutstanding (s : State) (q : Nat) : State :=
  match s.qp? q with
  | none => s
  | some x =>
    let bad := outputsIn x.outstanding
    x.outstanding.foldl (fun s r => failReq s bad St.remoteAccessError r) (s.setQp q { x with outstanding := [] })

/-- Unbind the hoppers of a queue pair (R57). -/
def unbind (s : State) (q : Nat) : State :=
  (hoppersOf s q).foldl (fun s hn => hopperEvent (s.modHopper hn fun h => { h with qpn := none }) hn) s

/-- A queue pair is given up: DREQ, its hoppers unbound, its requests failed (R57). -/
def closeQp (s : State) (q : Nat) : State :=
  match s.qp? q with
  | none => s
  | some x =>
    if x.phase = .error then s
    else failOutstanding (unbind ((s.setQp q { x with phase := .error }).send (.dreq q)) q) q

/-- A queue pair enters the error state (R57); the cause is reported, where it has a fault source (R58). -/
def qpError (s : State) (q : Nat) (source : Option Nat) (hopper : Nat) : State :=
  match s.qp? q with
  | none => s
  | some x =>
    if x.phase = .error then s
    else
      let c := s.carrel x.carrel
      let s := s.setCarrel x.carrel { c with stats := { c.stats with qpErr := c.stats.qpErr + 1 } }
      let s := closeQp s q
      match source with
      | some src => reportHop s src x.carrel hopper (x.port / 8)
      | none => s

/-- Hopper that a request serves. -/
def reqHopper (s : State) (r : Req) : Nat :=
  match r.kind with
  | .ring hn _ | .output hn _ | .returnSlip hn _ | .statusBlock hn => hn
  | .input sid _ | .aux sid _ | .part sid => ((s.slip? sid).map (·.hopper)).getD 0x3FFFF

def isRing (r : Req) : Bool :=
  match r.kind with
  | .ring _ _ => true
  | _ => false

/-- DOORBELL_WRITE (R46 to R49): access checks, acknowledgement, records. -/
def execDoorbellWrite (qpn psn : Nat) (ce : Bool) (rkey : W32) (off : Nat) (data : Bytes) (s : State) : Res :=
  match s.qp? qpn with
  | none => .next s
  | some q =>
    if q.phase ≠ .rts then .next s
    else
      let s := cnpFor s qpn ce
      let behind := (q.recvPsn - BitVec.ofNat 24 psn).toNat
      if behind ≠ 0 then
        .next (if behind < 2 ^ 23 then s.send (.ack qpn psn) else s)
      else
        let n := data.length
        let ks := (List.range ((n + 15) / 16)).map fun i => off / 16 + i
        let hs := ks.map (hopperAt s q.carrel)
        let admitted := hs.all fun h => (h.bind s.hopper?).any fun x => x.qpn == some qpn
        if n > 1024 then .next (qpError (s.send (.nakInvalidRequest qpn psn)) qpn none 0x3FFFF)
        else if rkey ≠ q.dbRkey ∨ off % 16 ≠ 0 ∨ admitted = false then
          .next (qpError (s.send (.nakRemoteAccess qpn psn)) qpn none 0x3FFFF)
        else
          let s := (match s.qp? qpn with
            | some x => s.setQp qpn { x with recvPsn := x.recvPsn + 1 }
            | none => s).send (.ack qpn psn)
          if n % 16 ≠ 0 then .next (hs.foldl (fun s h => doorbellError s q.carrel h) s)
          else .next ((hs.zipIdx).foldl (fun s h => match h.1 with
            | some hn => doorbellRecord s hn (slice data (16 * h.2) 16)
            | none => s) s)

/-- A whole record at a position of a function's BAR 2 (R75). -/
def hostRecord (s : State) (fn k : Nat) (b : Bytes) : State :=
  match hopperAt s fn k with
  | none => doorbellError s fn none
  | some hn => match s.hopper? hn with
    | none => s
    | some h => if h.attach = .host then doorbellRecord s hn b else doorbellError s fn (some hn)

/-- HOST_DOORBELL (R75): 16 bytes at once, or bytes 0 to 7 and then bytes 8 to 15. -/
def execHostDoorbell (fn off : Nat) (data : Bytes) (s : State) : Res :=
  let k := off / 16
  let key := 65536 * fn + k
  let latch (s : State) (t : Tab Bytes) : State := { s with hop := { s.hop with hostLatch := t } }
  if k ≥ 65536 then .next s
  else if off % 16 = 0 ∧ data.length = 16 then .next (hostRecord (latch s (Tab.erase s.hop.hostLatch key)) fn k data)
  else if off % 16 = 0 ∧ data.length = 8 then .next (latch s (Tab.set s.hop.hostLatch key data))
  else if off % 16 = 8 ∧ data.length = 8 then
    match Tab.get? s.hop.hostLatch key with
    | some b => .next (hostRecord (latch s (Tab.erase s.hop.hostLatch key)) fn k (b ++ data))
    | none => .next (doorbellError s fn (hopperAt s fn k))
  else .next s

/-! ## Connection management (R35, R38 to R43) -/

/-- The token that a value names, unrevoked and unexpired, of this carrel (R38). -/
def liveToken (s : State) (v : BitVec 128) (carrel : Nat) : Option (Nat × Token) :=
  s.ports.tokens.find? fun p => p.2.value == v && p.2.carrel == carrel && !p.2.revoked && decide (s.sec < p.2.expiry)

def runOf (first count : Nat) : List Nat := (List.range count).map (first + ·)

/-- A hopper of a token can be bound (R66, R43). -/
def bindable (s : State) (hn : Nat) : Bool :=
  match s.hopper? hn with
  | none => false
  | some h => h.attach == .network && h.state != .stopping
      && !((h.qpn.bind s.qp?).any fun q => q.static)
      && !(s.ports.qps.any fun p => p.2.static && decide (p.2.hopFirst ≤ hn) && decide (hn < p.2.hopFirst + p.2.hopCount))

/-- Lowest free QPN (R37). -/
def freeQpn (s : State) : Option Nat := lowestFreeFrom (Tab.keys s.ports.qps) 262144 0x100

/-- Reason for which a REQ is refused, in the order of R41's table. -/
def reqRefused (s : State) (r : CmReq) (tok : Option (Nat × Token)) : Option Nat :=
  let b := r.priv
  if field b 0 4 ≠ 0x44424E54 ∨ field b 4 2 ≠ 1 ∨ field b 28 4 > 1 ∨ allZero (slice b 32 60) = false ∨ r.rc = false
      ∨ b.length ≠ 92 then some 1
  else match tok with
    | none => some 2
    | some (_, t) =>
      if s.ent.state = .failed ∨ (s.carrel t.carrel).st ≠ .active ∨ homeOf s t.carrel ≠ .here
          ∨ (runOf t.first t.count).all (bindable s) = false then some 3
      else if r.respRes = 0 ∨ freeQpn s = none then some 4
      else if r.pathMtu < 1024 then some 5
      else if !((s.carrel t.carrel).net.ports.contains r.port && (s.carrel t.carrel).net.vlan == r.vlan
          && hasIp (s.carrel t.carrel).net r.dstIp) then some 6
      else if r.rnrRetry > 6 ∨ r.retryCnt > 7 ∨ r.ackTimeout < 10 ∨ r.ackTimeout > 20
          ∨ !(r.pathMtu == 1024 || r.pathMtu == 2048 || r.pathMtu == 4096) then some 7
      else none

/-- Virtual address of a carrel's doorbell region, which the device chooses (R40, R44; log 2). -/
def doorbellVa (carrel : Nat) : Nat := Config.freeNat 100 [carrel]

/-- REP's private data (R40). -/
def repBytes (s : State) (q : Qp) : Bytes :=
  fit 196 (le 4 0x44424E54 ++ le 2 1 ++ le 2 q.hopCount ++ le 4 q.hopFirst ++ le 4 q.dbRkey.toNat
    ++ le 8 (doorbellVa q.carrel) ++ le 4 (16 * ((s.hopper? q.hopFirst).map (·.index)).getD 0) ++ le 2 (b2n q.immGranted)
    ++ le 2 q.pmtu)

/-- Answer REP: the next hop of the reply is used on the port on which the REQ arrived (R29, R40). -/
def sendRep (s : State) (qpn : Nat) : State :=
  match s.qp? qpn with
  | none => s
  | some q =>
    let s := match nextHopOf (s.carrel q.carrel).net (gidIp q.peerGid) with
      | some ip => useHop s q.carrel q.port ip
      | none => s
    (s.setQp qpn { q with phase := .repSent }).send (.rep qpn (repBytes s q))

/-- REQ (R39 to R42). -/
def execCmReq (r : CmReq) (s : State) : Res :=
  let tok := liveToken s (BitVec.ofNat 128 (field r.priv 8 16)) (field r.priv 6 2)
  match reqRefused s r tok, tok, freeQpn s with
  | some code, _, _ => .next (s.send (.rej r.port code))
  | none, some (tid, t), some qpn =>
    let run := runOf t.first t.count
    let live := (run.filterMap fun hn => (s.hopper? hn).bind (·.qpn)).dedup.filter fun q =>
      (s.qp? q).any fun x => x.phase == .rts
    let half := (s.ports.qps.filter fun p => p.2.token == some tid && (p.2.phase == .repSent || (match p.2.phase with
      | .waitDrain _ => true
      | _ => false))).map (·.1)
    let rnd := s.freeBytes 7
    let q : Qp := {
      carrel := t.carrel, phase := .waitDrain live, token := some tid, hopFirst := t.first, hopCount := t.count
      peerQpn := r.clientQpn, peerGid := r.clientGid, port := r.port, pmtu := min r.pathMtu (min t.mtu 4096)
      readDepth := min 16 r.respRes, immGranted := bit (field r.priv 28 4) 0
      clientRkey := BitVec.ofNat 32 (field r.priv 24 4), dbRkey := BitVec.ofNat 32 (field rnd 0 4)
      sendPsn := BitVec.ofNat 24 (field rnd 4 3), recvPsn := r.clientPsn, ackT := r.ackTimeout, retryCnt := r.retryCnt
      retryLeft := r.retryCnt, rnrCnt := r.rnrRetry, rnrLeft := r.rnrRetry
      srcPort := BitVec.ofNat 16 (0xC000 + Config.freeNat 101 [qpn] % 0x4000) }
    let s := half.foldl closeQp (s.drawn 7)
    let s := live.foldl (fun s o => match s.qp? o with
      | some x => (s.setQp o { x with phase := .draining }).send (.dreq o)
      | none => s) s
    let s := s.setQp qpn q
    .next (if live.isEmpty then sendRep s qpn else s)
  | none, _, _ => .next s

/-- The old queue pairs of a rebind are done with; REP goes out on the new one (R42 step 3). -/
def rebindOn (s : State) (qpn : Nat) (old : List Nat) : State :=
  let s := old.foldl (fun s o => match s.qp? o with
    | some x => failOutstanding (unbind (s.setQp o { x with phase := .error }) o) o
    | none => s) s
  sendRep s qpn

/-- REBIND_DRAIN_DONE (R42): nothing is outstanding on the old queue pairs. -/
def execRebindDrainDone (qpn : Nat) (s : State) : Res :=
  match qpPhase s qpn with
  | some (.waitDrain old) =>
    if old.all fun o => (s.qp? o).all fun x => x.outstanding.isEmpty then .next (rebindOn s qpn old) else .next s
  | _ => .next s

/-- REBIND_DRAIN_TIMEOUT (R42): what is still unanswered after 1 ms is treated as failed. -/
def execRebindDrainTimeout (qpn : Nat) (s : State) : Res :=
  match qpPhase s qpn with
  | some (.waitDrain old) => .next (rebindOn s qpn old)
  | _ => .next s

/-- A queue pair is ready: full port rate, its hoppers bound, what they hold written (R54, R57). -/
def establish (s : State) (qpn : Nat) : State :=
  match s.qp? qpn with
  | none => s
  | some q =>
    let rate : Rat := portRate s q.port
    let s := s.setQp qpn { q with phase := .rts, rate := rate, target := rate, alpha := 1, periods := 0 }
    let run := (runOf q.hopFirst q.hopCount).filter fun hn => (s.hopper? hn).any fun h => h.carrel == q.carrel
    let s := run.foldl (fun s hn => hopperEvent (s.modHopper hn fun h => { h with qpn := some qpn }) hn) s
    run.foldl flushHopper s

/-- RTU (R40). -/
def execCmRtu (qpn : Nat) (s : State) : Res :=
  match qpPhase s qpn with
  | some .repSent => .next (establish s qpn)
  | _ => .next s

/-- DREQ received (R35, R57): answered, and the queue pair is gone. -/
def execCmDreq (qpn : Nat) (s : State) : Res :=
  match s.qp? qpn with
  | none => .next s
  | some x =>
    let s := s.send (.drep qpn)
    .next ((failOutstanding (unbind (s.setQp qpn { x with phase := .error }) qpn) qpn).delQp qpn)

/-- DREP received (R35): a disconnection that the device started is complete. -/
def execCmDrep (qpn : Nat) (s : State) : Res :=
  match qpPhase s qpn with
  | some .error => .next (s.delQp qpn)
  | _ => .next s

/-! ## Responses (R50, R51, R58) -/

/-- Input or AUX data of a slip has arrived. -/
def inputArrived (s : State) (sid off : Nat) (aux : Bool) (d : Bytes) : State :=
  s.modSlip sid fun sl =>
    let sl := { sl with readsLeft := sl.readsLeft - 1 }
    if aux then { sl with auxData := splice sl.auxData off d } else { sl with inData := splice sl.inData off d }

/-- Deliver the data of a READ. -/
def deliverData (s : State) (r : Req) (d : Bytes) : State :=
  match r.kind with
  | .ring hn part => ringArrived s hn part d
  | .input sid off => inputArrived s sid off false d
  | .aux sid off => inputArrived s sid off true d
  | _ => s

/-- A WRITE has been acknowledged. -/
def written (s : State) (r : Req) : State :=
  match r.kind with
  | .returnSlip hn c => s.modHopper hn fun h => { h with lastAckCseq := c }
  | .part sid =>
    let s := s.modSlip sid fun sl => { sl with writesLeft := sl.writesLeft - 1 }
    match s.slip? sid with
    | some sl =>
      if sl.phase = .draining ∧ sl.writesLeft = 0 then settleChain (s.setSlip sid { sl with phase := .finished }) sl.head
      else s
    | none => s
  | _ => s

/-- Take the requests that an answer to `rid` settles off the queue pair: itself and every earlier WRITE. -/
def settled (rid : Nat) (rs : List Req) : List Req × List Req :=
  let k := (rs.takeWhile fun r => r.id != rid).length
  let early := rs.take k
  (early.filter fun r => !r.read, early.filter (fun r => r.read) ++ rs.drop (k + 1))

/-- Acknowledge the WRITEs that come before request `rid`, drop `rid`, renew the retry budgets. -/
def settleReq (s : State) (qpn rid : Nat) : State :=
  match s.qp? qpn with
  | none => s
  | some q =>
    let x := settled rid q.outstanding
    let s := s.setQp qpn { q with outstanding := x.2, retryLeft := q.retryCnt, rnrLeft := q.rnrCnt }
    x.1.foldl written s

/-- The hoppers of a queue pair write what an acknowledgement was awaited for (R94). -/
def afterAck (s : State) (qpn : Nat) : State := (hoppersOf s qpn).foldl flushHopper (pumpQp s qpn)

def findReq (s : State) (qpn rid : Nat) : Option Req :=
  (s.qp? qpn).bind fun q =>
    if q.phase = .rts ∨ q.phase = .draining then q.outstanding.find? fun r => r.id == rid && r.sent else none

/-- RDMA_READ_RESPONSE (R50, R58). -/
def execRdmaReadResponse (qpn rid : Nat) (ce : Bool) (data : Bytes) (s : State) : Res :=
  match findReq s qpn rid with
  | none => .next s
  | some r =>
    if r.read = false then .next s
    else
      let s := settleReq (cnpFor s qpn ce) qpn rid
      if data.length = r.len then .next (afterAck (deliverData s r data) qpn)
      else
        let hn := reqHopper s r
        let s := failReq s [] St.lengthMismatch r
        .next (qpError s qpn (if isRing r then none else some 0x102) hn)

/-- RDMA_WRITE_ACK (R51, R94). -/
def execRdmaWriteAck (qpn rid : Nat) (ce : Bool) (s : State) : Res :=
  match findReq s qpn rid with
  | none => .next s
  | some r =>
    if r.read then .next s
    else .next (afterAck (written (settleReq (cnpFor s qpn ce) qpn rid) r) qpn)

/-- NAK_REMOTE_ACCESS_ERROR (R58): the request fails, and with it everything else that is outstanding. -/
def execNakRemoteAccessError (qpn rid : Nat) (s : State) : Res :=
  match findReq s qpn rid, s.qp? qpn with
  | some r, some q =>
    let x := settled rid q.outstanding
    let s := x.1.foldl written (s.setQp qpn { q with outstanding := r :: x.2 })
    .next (qpError s qpn (if isRing r then none else some 0x101) (reqHopper s r))
  | _, _ => .next s

/-- NAK_PSN_SEQUENCE_ERROR (R58): go back and resend. -/
def execNakPsnSequenceError (qpn rid : Nat) (s : State) : Res :=
  match findReq s qpn rid, s.qp? qpn with
  | some _, some q =>
    .next (s.sendAll (((q.outstanding.dropWhile fun r => r.id != rid).filter (·.sent)).map fun r => .resend qpn r.id))
  | _, _ => .next s

/-- NAK_INVALID_REQUEST (R58). -/
def execNakInvalidRequest (qpn rid : Nat) (s : State) : Res :=
  match findReq s qpn rid with
  | some r => .next (qpError s qpn (some 0x106) (reqHopper s r))
  | none => .next s

def modReq (s : State) (qpn rid : Nat) (f : Req → Req) : State :=
  match s.qp? qpn with
  | none => s
  | some q => s.setQp qpn { q with outstanding := q.outstanding.map fun r => if r.id = rid then f r else r }

/-- RNR_NAK (R52): a retry wait begins. -/
def execRnrNak (qpn rid : Nat) (s : State) : Res :=
  match findReq s qpn rid with
  | some r => if r.imm.isSome then .next (modReq s qpn rid fun r => { r with rnrWait := true }) else .next s
  | none => .next s

/-- RNR_RETRY (R58): the WRITE is sent again, or the budget is exceeded. -/
def execRnrRetry (qpn rid : Nat) (s : State) : Res :=
  match findReq s qpn rid, s.qp? qpn with
  | some r, some q =>
    if r.rnrWait = false then .next s
    else if q.rnrLeft = 0 then .next (qpError s qpn (some 0x105) (reqHopper s r))
    else .next ((modReq (s.setQp qpn { q with rnrLeft := q.rnrLeft - 1 }) qpn rid fun r => { r with rnrWait := false }).send
      (.resend qpn rid))
  | _, _ => .next s

/-- ACK_TIMEOUT (R58): everything unacknowledged is sent again, or the retry budget is exceeded. A request that waits for an
unreachable next hop counts as sent (R29). -/
def execAckTimeout (qpn : Nat) (s : State) : Res :=
  match s.qp? qpn with
  | none => .next s
  | some q =>
    match q.outstanding with
    | [] => .next s
    | r :: _ =>
      if !(q.phase == .rts || q.phase == .draining) then .next s
      else if q.retryLeft = 0 then .next (qpError s qpn (some 0x104) (reqHopper s r))
      else .next ((s.setQp qpn { q with retryLeft := q.retryLeft - 1 }).sendAll
        ((q.outstanding.filter (·.sent)).map fun r => .resend qpn r.id))

/-- INVALID_REQUEST_PACKET (R36). -/
def execInvalidRequestPacket (qpn psn : Nat) (s : State) : Res :=
  match qpPhase s qpn with
  | some .rts => .next (qpError (s.send (.nakInvalidRequest qpn psn)) qpn none 0x3FFFF)
  | _ => .next s

/-! ## Rates (R54) -/

def rateFloor (r : Rat) : Rat := if r < 1 / 10 then 1 / 10 else r

/-- CNP received (R54). -/
def execCnpReceived (qpn : Nat) (s : State) : Res :=
  match s.qp? qpn with
  | none => .next s
  | some q =>
    if q.phase ≠ .rts then .next s
    else
      let o := s.octet (q.port / 8)
      .next ((s.setQp qpn { q with
        target := q.rate, rate := rateFloor (q.rate * (1 - q.alpha / 2)), alpha := (1 - 1 / 16) * q.alpha + 1 / 16
        periods := 0 }).setOctet (q.port / 8) { o with cnpRx := o.cnpRx + 1 })

/-- RATE_PERIOD: 55 us without a CNP (R54). -/
def execRatePeriod (qpn : Nat) (s : State) : Res :=
  match s.qp? qpn with
  | none => .next s
  | some q =>
    if q.phase ≠ .rts then .next s
    else
      let top : Rat := portRate s q.port
      let target := if q.periods < 5 then q.target else (if q.target + 5 > top then top else q.target + 5)
      .next (s.setQp qpn { q with
        alpha := (1 - 1 / 16) * q.alpha, target := target, rate := rateFloor ((q.rate + target) / 2)
        periods := q.periods + 1 })

/-! ## Frames, addresses, next hops (R28, R29, R33, R34) -/

/-- FRAME_DISCARDED (R28, R33): counted for the octet, and for the carrel a filtered frame was meant for. -/
def execFrameDiscarded (port vlan : Nat) (why : FrameDiscard) (s : State) : Res :=
  let drop (s : State) : State :=
    let o := s.octet (port / 8)
    s.setOctet (port / 8) { o with rxDrop := o.rxDrop + 1 }
  match why with
  | .transport => .next s
  | .notForCarrel => .next (drop s)
  | .filtered =>
    match carrelOn s port vlan with
    | none => .next (drop s)
    | some c =>
      let x := s.carrel c
      .next ((drop s).setCarrel c { x with stats := { x.stats with rxDrop := x.stats.rxDrop + 1 } })

/-- ARP_REQUEST (R28). -/
def execArpRequest (port vlan : Nat) (senderMac : BitVec 48) (senderIp targetIp : BitVec 32) (s : State) : Res :=
  match carrelOn s port vlan with
  | none => .next s
  | some c =>
    if onNetwork s c && hasIp (s.carrel c).net (.v4 targetIp) && senderIp != targetIp then
      .next (s.send (.arpReply port c targetIp (s.carrel c).net.mac senderMac))
    else .next s

/-- NEIGHBOR_SOLICITATION (R28). -/
def execNeighborSolicitation (port vlan : Nat) (senderMac : BitVec 48) (senderIp targetIp : BitVec 128) (s : State) : Res :=
  match carrelOn s port vlan with
  | none => .next s
  | some c =>
    if onNetwork s c && hasIp (s.carrel c).net (.v6 targetIp) && senderIp != targetIp then
      .next (s.send (.neighborAdvert port c targetIp (s.carrel c).net.mac senderMac))
    else .next s

/-- Send what the queue pairs of a carrel have waiting. -/
def pumpCarrel (s : State) (c : Nat) : State :=
  ((s.ports.qps.filter fun p => p.2.carrel == c).map (·.1)).foldl pumpQp s

def setHop (s : State) (c : Nat) (ip : IpAddr) (f : NextHop → Option NextHop) : State :=
  { s with ports := { s.ports with
      nextHops := s.ports.nextHops.filterMap fun h => if isHop c ip h then f h else some h } }

/-- NEXT_HOP_RESOLVED (R29). -/
def execNextHopResolved (carrel : Nat) (ip : IpAddr) (mac : BitVec 48) (s : State) : Res :=
  .next (pumpCarrel (setHop s carrel ip fun h => some { h with st := .resolved mac }) carrel)

/-- RESOLUTION_RETRY (R29): repeated after 1 s and 2 s, unreachable at 3 s. -/
def execResolutionRetry (carrel : Nat) (ip : IpAddr) (s : State) : Res :=
  match s.ports.nextHops.find? (isHop carrel ip) with
  | some h => match h.st with
    | .resolving k =>
      if k < 2 then
        .next ((setHop s carrel ip fun h => some { h with st := .resolving (k + 1) }).send (.resolve h.port carrel ip false))
      else .next (setHop s carrel ip fun h => some { h with st := .unreachable })
    | _ => .next s
  | none => .next s

/-- NEXT_HOP_CACHE_EXPIRY (R29): dropped 300 s after its last use, refreshed by a unicast request before. -/
def execNextHopCacheExpiry (carrel : Nat) (ip : IpAddr) (s : State) : Res :=
  match s.ports.nextHops.find? (isHop carrel ip) with
  | some h =>
    if s.now - h.lastUse ≥ 300 * 1250000000 ∨ h.st = .unreachable then .next (setHop s carrel ip fun _ => none)
    else match h.st with
      | .resolved _ => .next (s.send (.resolve h.port carrel ip true))
      | _ => .next s
  | none => .next s

/-- Announcements of every address of a carrel on every port of its set (R34). -/
def announcements (s : State) (c : Nat) : List Out :=
  let n := (s.carrel c).net
  let ips := (n.v4.map fun p => IpAddr.v4 p.1) ++ n.v6.map fun p => IpAddr.v6 p.1
  n.ports.flatMap fun p => ips.map fun ip => .announce p c ip n.mac

/-- The carrel takes on its addresses; the announcements are repeated twice (R34). -/
def takeAddresses (s : State) (c : Nat) : State :=
  ({ s with ports := { s.ports with announce := Tab.set s.ports.announce c 2 } }).sendAll (announcements s c)

/-- GRATUITOUS_ARP (R34): a repetition falls due. -/
def execGratuitousArp (carrel : Nat) (s : State) : Res :=
  match Tab.get? s.ports.announce carrel with
  | none => .next s
  | some k =>
    let t := if k ≤ 1 then Tab.erase s.ports.announce carrel else Tab.set s.ports.announce carrel (k - 1)
    .next (({ s with ports := { s.ports with announce := t } }).sendAll (announcements s carrel))

/-! ## PFC and links (R56, R58, R60) -/

def pfcAt (s : State) (port prio : Nat) : PfcState := Tab.getD s.ports.pfc (8 * port + prio) {}
def setPfc (s : State) (port prio : Nat) (x : PfcState) : State :=
  { s with ports := { s.ports with pfc := Tab.set s.ports.pfc (8 * port + prio) x } }

/-- PAUSE_FRAME (R56): obeyed where PFC is enabled on the priority and pause is not ignored; a quantum is 512 bit times. -/
def execPauseFrame (port prio quanta : Nat) (s : State) : Res :=
  let o := s.octet (port / 8)
  let x := pfcAt s port prio
  if prio ≥ 8 ∨ o.pfcEn.getLsbD prio = false ∨ x.ignoring = true then .next s
  else if quanta = 0 then .next (setPfc s port prio { x with pausedSince := none, unpausedSince := s.now, storm := false })
  else
    let since := if x.pausedSince.isSome ∧ s.now ≤ x.pausedUntil then x.pausedSince else some s.now
    .next (setPfc s port prio { x with pausedSince := since, pausedUntil := s.now + quanta * 640 / modeRate o.mode })

/-- PORT_PFC_STORM (R56). -/
def execPortPfcStorm (port prio : Nat) (s : State) : Res :=
  let x := pfcAt s port prio
  if x.pausedSince.isNone || x.storm || decide (prio ≥ 8) then .next s
  else
    let o := s.octet (port / 8)
    let ign := o.pfcIgnore.getLsbD prio
    let s := setPfc s port prio { x with storm := true, ignoring := ign, pausedSince := if ign then none else x.pausedSince }
    let s := s.setOctet (port / 8) { o with pfcStorm := o.pfcStorm.hit }
    .next (reportSrc s 0x109 0xFF (BitVec.ofNat 32 (port / 8)))

/-- PFC_IGNORE_RELEASE (R56): unpaused for 1 s. -/
def execPfcIgnoreRelease (port prio : Nat) (s : State) : Res :=
  let x := pfcAt s port prio
  if x.ignoring then .next (setPfc s port prio { x with ignoring := false, storm := false }) else .next s

/-- PORT_FEC_UNCORR (R58, `FEC_HIGH`): the frame is discarded and the codeword counted. -/
def execPortFecUncorr (port : Nat) (s : State) : Res :=
  let n := port / 8
  let o := s.octet n
  let k := if o.fecSecond = s.sec then o.fecInSecond + 1 else 1
  let s := s.setOctet n { o with
    fecUncorr := o.fecUncorr + 1, fecSecond := s.sec, fecInSecond := k
    fecHigh := if k = o.fecTh.toNat + 1 then o.fecHigh.hit else o.fecHigh }
  .next (reportSrc s 0x107 0xFF (BitVec.ofNat 32 n))

/-- Lanes of port p of an octet, as a mask (R22). -/
def portLanes (m : BitVec 3) (p : Nat) : BitVec 8 :=
  let w := 8 / modePorts m
  BitVec.ofNat 8 ((2 ^ w - 1) * 2 ^ (w * p))

/-- LINK_UP (R60): a port trains; its octet is UP. -/
def execLinkUp (port : Nat) (s : State) : Res :=
  let n := port / 8
  let p := port % 8
  let o := s.octet n
  if (o.state = .down ∨ o.state = .up) ∧ p < modePorts o.mode then
    let s := s.setOctet n { o with
      state := .up, portUp := o.portUp ||| BitVec.ofNat 8 (2 ^ p), laneLock := o.laneLock ||| portLanes o.mode p }
    .next { s with flt := { s.flt with octetReset := s.flt.octetReset.filter (· != n) } }
  else .next s

/-- A port goes down; the timers of its queue pairs run on (R58, R60). -/
def portDown (s : State) (port : Nat) : State :=
  let n := port / 8
  let p := port % 8
  let o := s.octet n
  if o.portUp.getLsbD p then
    let up := o.portUp &&& ~~~(BitVec.ofNat 8 (2 ^ p))
    let s := s.setOctet n { o with
      portUp := up, laneLock := o.laneLock &&& ~~~(portLanes o.mode p), linkFlap := o.linkFlap.hit
      state := if up = 0 then .down else .up }
    reportSrc s 0x108 0xFF (BitVec.ofNat 32 n)
  else s

/-- LINK_DOWN (R58). -/
def execLinkDown (port : Nat) (s : State) : Res := .next (portDown s port)

/-! ## Host attachment (R76) -/

/-- HOST_DMA_COMPLETION (R76): the data, or the outcome of a remote access error. -/
def execHostDmaCompletion (fn rid : Nat) (r : DmaResult) (s : State) : Res :=
  let rs := Tab.getD s.ports.hostReqs fn []
  match rs.find? fun x => x.id == rid with
  | none => .next s
  | some x =>
    let s := { s with ports := { s.ports with hostReqs := Tab.set s.ports.hostReqs fn (rs.filter fun y => y.id != rid) } }
    let bad (st src : Nat) : Res :=
      let hn := reqHopper s x
      let s := failReq s [] st x
      .next (if isRing x then s else reportHop s src fn hn)
    match r with
    | .data d => if d.length = x.len then .next (deliverData s x d) else bad St.lengthMismatch 0x102
    | _ => bad St.remoteAccessError 0x101

end Sys2Proof.Machine
end

