-- ==== Sys2Proof/Machine/Ledger.lean ====
section
/-!
DEFINITION. Ledger writes, leases, refreshes and tree caches as they complete (chapter 9, R207).
-/

namespace Sys2Proof.Machine

/-- The write that starts once the writes before it are done: its cell, and for a refresh its content, as they stand then. -/
def startNext (n : Nat) (c : Counter) : Counter :=
  match c.writing with
  | [] => c
  | p :: ps =>
    let cur := ctrContent n c
    let p := { p with cell := targetCell n c }
    let p := match p.why with
      | .refresh => { p with value := cur.value, state := cur.state, bindGen := cur.bindGen }
      | _ => p
    { c with writing := p :: ps }

/-- Number `FREE` key counters below `LED_LOW_TH` (chapter 9 registers). -/
def noteLowFree (old s : State) : State :=
  let th := s.ledger.lowTh.toNat
  if th ≤ ledFree old ∧ ledFree s < th then ledHitLowFree s else s

/-- A key whose ceiling is written waits no longer for its own device's write (R229, R235). -/
def ownWriteDone (s : State) : LedWrite → State
  | .lease shelf => setStfKey s shelf { stfKey s shelf with ownDone := true }
  | .shadow => s.send (.mirrorAck false)
  | .set | .refresh => s

/-- A key whose counter is lost while a lease is granted gets no lease (R233, R244). -/
def leaseLost (s : State) : LedWrite → State
  | .lease shelf => setStfKey s shelf { stfKey s shelf with granting := false }
  | .shadow => s.send (.mirrorAck true)
  | .set | .refresh => s

/-- LEDGER_WRITE_DONE (R222, R223): the cell holds the new content; or it failed, and the next cell is tried, up to 8 times. -/
def execLedgerWriteDone (counter : Nat) (ok : Bool) (s : State) : Res :=
  let c := Sys2Proof.Machine.counter s counter
  match c.writing with
  | [] => .next s
  | p :: ps =>
    let s1 := { s with ledger := { s.ledger with writeTot := s.ledger.writeTot + 1 } }
    if ok then
      let c := { c with cells := c.cells.set p.cell (mkCell counter p.value p.state p.bindGen), writing := ps }
      .next (noteLowFree s (ownWriteDone (setCounter s1 counter (startNext counter c)) p.why))
    else
      let cells := c.cells.set p.cell { cellAt c p.cell with eccOk := false }
      if p.attempts + 1 ≥ 8 then
        let s := leaseLost (setCounter s1 counter { cells := cells, lost := true, writing := [] }) p.why
        .next (reportSrc (ledHitLost s) 0x1C2)
      else
        let s := setCounter s1 counter { c with
          cells := cells, writing := { p with cell := (p.cell + 1) % 8, attempts := p.attempts + 1 } :: ps }
        .next (reportSrc (ledHitRetry s) 0x1C1)

/-- LEASE_GRANTED (R229, R235). -/
def execLeaseGranted (slot : Nat) (s : State) : Res := .next (leaseReady s slot)

/-- LEDGER_REFRESH (R225): every counter's content is written to its next cell. The eight cells of a counter that is not
listed hold one content, so only the number of writes shows there. Refresh stops at shed stage S1. -/
def execLedgerRefresh (s : State) : Res :=
  if s.cel.stage ≠ 0 ∨ s.cel.mainPower = false then .next s
  else
    let untouched := 16384 - s.ledger.counters.length
    .next { s with ledger := { s.ledger with
      writeTot := s.ledger.writeTot + BitVec.ofNat 64 untouched
      counters := Tab.mapVals s.ledger.counters fun n c =>
        if c.lost then c
        else
          let x := ctrContent n c
          { c with writing := c.writing ++ [{
              cell := targetCell n c, value := x.value, state := x.state, bindGen := x.bindGen, why := .refresh }] } } }

/-- One quantum of floor time charged to a carrel (R207, R101). -/
def chargeFloor (s : State) (c : Nat) (ticks : Int) : State :=
  let u := s.sched.floor
  let w : Int := (s.carrel c).shareFloor
  s.setUnits .floor { u with vt := Tab.set u.vt c (Tab.getD u.vt c 0 + ticks * 65536 / (30 * w)) }

/-- TREE_BUILD_QUANTUM (R207): one more quantum of a level's next tree is done; builds stop at shed stage S1. -/
def execTreeBuildQuantum (slot level : Nat) (s : State) : Res :=
  let k := stfKey s slot
  match stfSetOf (s.slot slot), Tab.get? k.building level with
  | some d, some q =>
    if s.cel.stage ≠ 0 then .next s
    else
      let k := if treeQuanta d (d.levels.getD level (0, 0)) ≤ q + 1 then
          { k with built := Tab.set k.built level (Tab.getD k.cur level 0 + 1), building := Tab.erase k.building level }
        else { k with building := Tab.set k.building level (q + 1) }
      .next (chargeFloor (setStfKey s slot k) (s.slot slot).owner 30000000)
  | _, _ => .next s

/-- The least recently used of the keys whose caches QDR holds. -/
def oldestCache (s : State) : Option Nat :=
  ((s.ledger.keys.filter fun p => p.2.cached).foldl (fun (best : Option (Nat × Nat)) p =>
    match best with
    | some b => if p.2.usedAt < b.2 then some (p.1, p.2.usedAt) else some b
    | none => some (p.1, p.2.usedAt)) none).map (·.1)

/-- TREE_CACHE_RESTORED (R207): QDR holds the caches of the 64 keys used most recently. -/
def execTreeCacheRestored (slot : Nat) (s : State) : Res :=
  if !Tab.has s.ledger.keys slot then .next s
  else
    let s := setStfKey s slot { stfKey s slot with cached := true, usedAt := s.now }
    if (s.ledger.keys.filter fun p => p.2.cached).length ≤ (if s.qdr.paired then 32 else 64) then .next s
    else match oldestCache s with
      | some n => .next (setStfKey s n { stfKey s n with cached := false })
      | none => .next s

end Sys2Proof.Machine
end

