-- ==== Sys2Proof/Machine/Catalogue.lean ====
section
/-!
DEFINITION. Weeding and archive records (R333, R334, R546).
-/

namespace Sys2Proof.Machine

/-- Zeroise one orphan (R333). -/
def weedSlot (s : State) (n : Nat) : State :=
  let s := emptySlot s n
  catHitWeedFound { s with cat := { s.cat with weedZeroTot := s.cat.weedZeroTot + 1 } }

/-- An orphan of a mirrored carrel is zeroised when the standby has acknowledged it; not while the pair is DEGRADED (R423,
R430). -/
def weedOne (s : State) (n : Nat) : State :=
  let sl := s.slot n
  if sl.mirrored && syncBlocked s sl.owner then s
  else if sl.mirrored && mirrors s sl.owner then
    if s.mirror.waits.any fun w => w.2 == .weed n then s
    else sendSync s [.slotGone n (raiseGen sl 1).ownGen none] (.weed n)
  else weedSlot s n

/-- Slots a pass zeroises: they fail check 2 or 3 of R320 and still hold material. -/
def orphans (s : State) : List Nat := (s.cat.slots.filter fun p => orphan s p.2).map (·.1)

/-- Slots that hold the carrel's valid keys or orphans in a block (R395, R402). -/
def blockHeld (s : State) (k : Nat) : Bool := s.cat.slots.any fun p => p.1 / 1024 == k && p.2.valid

/-- Blocks of destroyed carrels are released once weeding has emptied them (R402). -/
def releaseBlocks (s : State) : State :=
  let free := s.cat.releasing.filter fun k => !blockHeld s k
  { s with cat := { s.cat with
      releasing := s.cat.releasing.filter fun k => !free.contains k
      blocks := s.cat.blocks.filter fun p => !free.contains p.1 } }

/-- WEEDING_PASS (R333): one pass over all slots in shelfmark order, whole (log 66); stopped from shed stage S1 on. -/
def execWeedingPass (s : State) : Res :=
  if s.cel.stage ≠ 0 then .next s
  else
    let s := releaseBlocks ((orphans s).foldl weedOne s)
    .next { s with cat := { s.cat with weedPassTot := s.cat.weedPassTot + 1 } }

/-- The slot as its archive record carries it: a limited slot's count is the ceiling of the block reserved (R546). -/
def archiveSlot (sl : Slot) : Slot :=
  if sl.useLimit = 0 then { sl with reserved := 0 }
  else
    let ceil := if sl.folioCeil < sl.useCount + sl.reserved then min sl.useLimit (sl.folioCeil + 64) else sl.folioCeil
    { sl with reserved := 0, useCount := ceil }

/-- ARCHIVE_RECORD_DUE (R334, R546): the slot's record joins the journal's queue; a queued tombstone likewise (R333). -/
def execArchiveRecordDue (slot : Nat) (s : State) : Res :=
  let sl := s.slot slot
  if s.cat.tombstones.contains slot then
    let s := { s with cat := { s.cat with tombstones := s.cat.tombstones.filter (· != slot) } }
    .next (queueRecord s (.tombstone slot sl.ownGen))
  else match Tab.get? s.cat.archivePending slot with
    | none => .next s
    | some at' =>
      let s := { s with cat := { s.cat with archivePending := Tab.erase s.cat.archivePending slot } }
      if sl.valid && sl.persistent then
        .next { s with folio := { s.folio with
          queue := s.folio.queue ++ [{ seq := s.folio.nextSeq, kind := .slot slot (archiveSlot sl), due := at', devSec := s.sec }]
          nextSeq := s.folio.nextSeq + 1 } }
      else .next s

end Sys2Proof.Machine
end

