-- ==== Sys2Proof/Machine/CrlOps.lean ====
section
/-!
DEFINITION. Records of carrels, hoppers and slots as they stand in payloads, in the archive, in images and on the mirror link
(R315, R376, R393), and what carrel commands share (chapter 16).
-/

namespace Sys2Proof.Machine

/-! ## The configuration record (R393) -/

/-- A run of blocks as 4 bytes. -/
def runBytes (r : Nat × Nat) : Bytes := le 4 (r.1 + 2048 * r.2)

def policyByte (c : Carrel) : Nat := b2n c.approvedOnly + 2 * b2n c.forceShed + 4 * b2n c.requireDeadline

/-- Bit p of byte p div 8 for every port admitted. -/
def portSetBytes (ps : List Nat) : Bytes :=
  (List.range 64).map fun i => BitVec.ofNat 8 (((List.range 8).map fun b => 2 ^ b * b2n (ps.contains (8 * i + b))).sum)

/-- Bytes 72 to 267: the network identity. -/
def netBytes (n : NetId) : Bytes :=
  le 2 n.vlan ++ [BitVec.ofNat 8 n.pcp.toNat, BitVec.ofNat 8 n.dscp.toNat] ++ be 6 n.mac.toNat ++ zeros 2
    ++ le 8 n.cmService.toNat ++ le 1 n.v4.length ++ le 1 n.v6.length ++ zeros 2
    ++ fit 16 (n.v4.flatMap fun p => be 4 p.1.toNat) ++ fit 64 (n.v6.flatMap fun p => be 16 p.1.toNat)
    ++ portSetBytes n.ports ++ fit 4 (n.v4.map fun p => BitVec.ofNat 8 p.2) ++ fit 4 (n.v6.map fun p => BitVec.ofNat 8 p.2)
    ++ be 4 n.gw4.toNat ++ be 16 n.gw6.toNat

/-- The 512-byte record of carrel `c`. -/
def cfgBytes (c : Nat) (x : Carrel) : Bytes :=
  fit 512 (le 4 0x4C524343 ++ le 2 1 ++ le 1 c ++ zeros 1 ++ le 4 x.hopperMax ++ le 4 x.slotQuota ++ le 4 x.extentQuota
    ++ le 2 x.shareTun ++ le 2 x.shareFloor ++ le 2 x.sharePipe ++ le 2 x.shareKiln ++ le 1 x.maskOrder
    ++ le 1 (policyByte x) ++ le 1 x.directPages ++ zeros 1 ++ le 4 x.dlMax ++ zeros 4
    ++ fit 32 (x.runs.flatMap runBytes) ++ netBytes x.net)

/-- Network identity of a record (R31, R393). -/
def parseNet (b : Bytes) : NetId :=
  let v4 := (List.range (field b 92 1)).map fun i =>
    (BitVec.ofNat 32 (unbe (slice b (96 + 4 * i) 4)), field b (240 + i) 1)
  let v6 := (List.range (field b 93 1)).map fun i =>
    (BitVec.ofNat 128 (unbe (slice b (112 + 16 * i) 16)), field b (244 + i) 1)
  { ports := (List.range 512).filter fun p => bit (field b (176 + p / 8) 1) (p % 8)
    vlan := field b 72 2, mac := BitVec.ofNat 48 (unbe (slice b 76 6)), v4 := v4, v6 := v6
    pcp := BitVec.ofNat 3 (field b 74 1), dscp := BitVec.ofNat 6 (field b 75 1)
    cmService := BitVec.ofNat 64 (field b 84 8), gw4 := BitVec.ofNat 32 (unbe (slice b 248 4))
    gw6 := BitVec.ofNat 128 (unbe (slice b 252 16)) }

/-- Runs of blocks of a record; a count of 0 is an unused run. -/
def parseRuns (b : Bytes) : List (Nat × Nat) :=
  ((List.range 8).map fun i =>
    let v := field b (40 + 4 * i) 4
    (v % 2048, v / 2048 % 4096)).filter fun r => r.2 != 0

/-- Field groups of `CRL_CONFIG` (R395). -/
def setShares (x : Carrel) (b : Bytes) : Carrel :=
  { x with
    shareTun := field b 20 2, shareFloor := field b 22 2, sharePipe := field b 24 2, shareKiln := field b 26 2
    forceShed := bit (field b 29 1) 1, requireDeadline := bit (field b 29 1) 2, dlMax := field b 32 4 % 2 ^ 20 }

def setProtection (x : Carrel) (b : Bytes) : Carrel :=
  { x with maskOrder := field b 28 1, approvedOnly := bit (field b 29 1) 0 }

def setResources (x : Carrel) (b : Bytes) : Carrel :=
  { x with
    hopperMax := field b 8 4, slotQuota := field b 12 4, extentQuota := field b 16 4, runs := parseRuns b
    directPages := field b 30 1 }

def setNetwork (x : Carrel) (b : Bytes) : Carrel := { x with net := parseNet b }

/-- Every field of a record. -/
def parseCfg (x : Carrel) (b : Bytes) : Carrel := setNetwork (setResources (setProtection (setShares x b) b) b) b

/-- Reserved fields of a record are zero and its header is right (R5, R393). -/
def cfgFormat (b : Bytes) : Bool :=
  field b 0 4 == 0x4C524343 && field b 4 2 == 1 && field b 7 1 == 0 && decide (field b 29 1 < 8) && field b 31 1 == 0
    && decide (field b 32 4 < 2 ^ 20) && field b 36 4 == 0
    && ((List.range 8).all fun i => decide (field b (40 + 4 * i) 4 < 2 ^ 23))
    && decide (field b 74 1 < 8) && decide (field b 75 1 < 64) && field b 82 2 == 0 && field b 94 2 == 0
    && allZero (slice b 268 244)

/-- Values in range (R393, R395). -/
def sharesOk (b : Bytes) : Bool := [20, 22, 24, 26].all fun o => field b o 2 != 0

def protectionOk (b : Bytes) : Bool := field b 28 1 == 2 || field b 28 1 == 3

/-- The blocks that runs name. -/
def blocksOf (rs : List (Nat × Nat)) : List Nat := rs.flatMap fun r => (List.range r.2).map (r.1 + ·)

/-- The tighter limits of a device whose QDR channels are paired (R525): blocks 0 to 1,023, and the sum of the extent
quotas. -/
def pairedOk (s : State) (c : Nat) (blocks : List Nat) (extents : Nat) : Bool :=
  let others := (s.carrels.filter fun p => p.1 != c && p.2.st != .absent).map fun p => p.2.extentQuota
  !s.qdr.paired || (blocks.all (fun k => decide (k < 1024)) && decide (others.sum + extents ≤ 1310720))

def resourcesOk (s : State) (c : Nat) (b : Bytes) : Bool :=
  let bs := blocksOf (parseRuns b)
  pairedOk s c bs (field b 16 4) && decide (1 ≤ field b 8 4) && decide (field b 8 4 ≤ 65536) && decide (field b 16 4 ≤ 2621440) && decide (field b 30 1 ≤ 4)
    && bs.all (fun k => decide (k < 2048)) && bs.Nodup

def networkOk (c : Nat) (b : Bytes) : Bool :=
  let n := parseNet b
  decide (field b 92 1 ≤ 4) && decide (field b 93 1 ≤ 4) && n.v4.all (fun p => decide (p.2 ≤ 32))
    && n.v6.all (fun p => decide (p.2 ≤ 128)) && decide (n.vlan ≤ 4094) && (n.vlan != 0 || c == 0) && !(n.mac.getLsbD 40)

/-- Two carrels may not share a VLAN on a port (R32). -/
def vlanClash (s : State) (c : Nat) (n : NetId) : Bool :=
  s.carrels.any fun p => p.1 != c && p.2.st != .absent && p.2.net.vlan == n.vlan && p.2.net.ports.any n.ports.contains

/-- A block named by the record belongs to another carrel, or is not yet released (R395, R402). -/
def blockTaken (s : State) (c : Nat) (rs : List (Nat × Nat)) : Bool :=
  (blocksOf rs).any fun k => match Tab.get? s.cat.blocks k with
    | some o => o != c
    | none => false

def blockUnreleased (s : State) (rs : List (Nat × Nat)) : Bool := (blocksOf rs).any s.cat.releasing.contains

/-- Give a carrel the blocks of its runs (R316, R393). -/
def assignBlocks (s : State) (c : Nat) : State :=
  let bs := blocksOf (s.carrel c).runs
  let kept := s.cat.blocks.filter fun p => p.2 != c
  let kept := if c = 0 then Tab.set kept 0 0 else kept
  { s with cat := { s.cat with blocks := bs.foldl (fun t k => Tab.set t k c) kept } }

/-! ## Hopper blocks (R376) -/

def attachCode : Attach → Nat
  | .network => 0
  | .host => 1

/-- The 48-byte hopper block. -/
def hopBlock (h : Hopper) : Bytes :=
  fit 48 (le 8 h.slipRing.toNat ++ le 8 h.cplRing.toNat ++ le 8 h.statusAddr.toNat ++ le 4 h.rkey.toNat ++ le 1 h.depthLog2
    ++ le 1 (attachCode h.attach) ++ le 1 h.msix ++ le 1 h.weight ++ le 2 h.classMask.toNat ++ le 1 h.slotPerm.toNat
    ++ le 1 (b2n h.long + 2 * b2n h.urgent))

/-- Take the fields of a block whose numbers a mask names. -/
def applyBlock (h : Hopper) (mask : Nat) (b : Bytes) : Hopper :=
  let pick {α : Type} (i : Nat) (new old : α) : α := if bit mask i then new else old
  { h with
    slipRing := pick 0 (BitVec.ofNat 64 (field b 0 8)) h.slipRing
    cplRing := pick 1 (BitVec.ofNat 64 (field b 8 8)) h.cplRing
    statusAddr := pick 2 (BitVec.ofNat 64 (field b 16 8)) h.statusAddr
    rkey := pick 3 (BitVec.ofNat 32 (field b 24 4)) h.rkey
    depthLog2 := pick 4 (field b 28 1) h.depthLog2
    attach := pick 5 (if field b 29 1 = 1 then .host else .network) h.attach
    msix := pick 6 (field b 30 1) h.msix
    weight := pick 7 (field b 31 1) h.weight
    classMask := pick 8 (BitVec.ofNat 16 (field b 32 2)) h.classMask
    slotPerm := pick 9 (BitVec.ofNat 4 (field b 34 1)) h.slotPerm
    long := pick 10 (bit (field b 35 1) 0) h.long
    urgent := pick 11 (bit (field b 35 1) 1) h.urgent }

/-- Reserved bits and bytes of a block are zero (R5). -/
def blockFormat (b : Bytes) : Bool := decide (field b 34 1 < 16) && decide (field b 35 1 < 4) && allZero (slice b 36 12)

/-- A hopper's configuration lies in range (R63): ring sizes, alignment, vector, weight. -/
def hopperOk (h : Hopper) (code : Nat) : Bool :=
  decide (6 ≤ h.depthLog2) && decide (h.depthLog2 ≤ 16) && decide (code ≤ 1) && decide (1 ≤ h.weight)
    && h.slipRing.toNat % 64 == 0 && h.cplRing.toNat % 32 == 0 && h.statusAddr.toNat % 64 == 0
    && decide (h.msix < (if h.carrel = 0 then 64 else 4))

def hoppersOwned (s : State) (c : Nat) : List (Nat × Hopper) := s.hop.hoppers.filter fun p => p.2.carrel == c

def urgentCount (s : State) : Nat := (s.hop.hoppers.filter fun p => p.2.urgent).length

/-! ## Slots (R315) -/

/-- The slot that bytes 0 to 127 and an extent describe. -/
def parseSlot (b extent : Bytes) : Slot :=
  let f := field b 0 4
  let len := field b 20 4
  { valid := bit f 0, persistent := bit f 1, mirrored := bit f 2, approvedOnly := bit f 3, ostkSigner := bit f 4
    extent := bit f 5, archived := bit f 6, keyClass := bits f 15 8, usage := BitVec.ofNat 10 (f / 65536)
    owner := field b 4 1, depth := field b 5 1 % 16, parent := field b 8 4, parentGen := BitVec.ofNat 32 (field b 12 4)
    ownGen := BitVec.ofNat 32 (field b 16 4), keyLen := len, useCount := field b 24 8, useLimit := field b 32 8
    expiry := field b 40 8, extentLine := field b 48 4
    ledger := if field b 52 4 = 0 then none else some (field b 52 4 % 2 ^ 14, BitVec.ofNat 6 (field b 52 4 / 2 ^ 14))
    ledgerBase := field b 56 8, material := if bit f 5 then extent.take len else slice b 64 (min len 64) }

/-! ## Copies for the peer and the archive -/

def peerHopper (n : Nat) (h : Hopper) : PeerHopper :=
  { hopper := n, index := h.index, state := hopCode h.state, block := hopBlock h }

def hopStateOf : Nat → HopState
  | 1 => .active
  | 2 => .stopping
  | _ => .stopped

/-- A hopper put in place from its copy, unbound, with its indices at zero. -/
def fromPeerHopper (c : Nat) (p : PeerHopper) : Hopper :=
  { applyBlock { carrel := c, index := p.index } 0xFFF p.block with state := hopStateOf p.state }

def carrelStOf : Nat → CarrelState
  | 1 => .configured
  | 2 => .active
  | 3 => .quiescing
  | 4 => .quiesced
  | 5 => .frozen
  | _ => .absent

/-- Configuration and state of a carrel, as a synchronous record carries them (R423). -/
def peerCarrelHead (c : Nat) (x : Carrel) (st : CarrelState) : PeerCarrel :=
  { carrel := c, state := carrelCode st, config := cfgBytes c x }

/-- A carrel copied whole (R420 step 3). -/
def peerCarrel (s : State) (c : Nat) : PeerCarrel :=
  { peerCarrelHead c (s.carrel c) (s.carrel c).st with
    hoppers := (hoppersOwned s c).map fun p => peerHopper p.1 p.2
    tokens := (s.ports.tokens.filter fun p => p.2.carrel == c && !p.2.revoked).map fun p =>
      { id := p.1, value := p.2.value, first := p.2.first, count := p.2.count, mtu := p.2.mtu, expiry := p.2.expiry }
    slots := (s.cat.slots.filter fun p => p.2.valid && p.2.owner == c && p.2.mirrored).map fun p => peerSlot p.1 p.2 }

/-! ## What carrel commands share -/

/-- Queue pairs of a carrel. -/
def qpsOf (s : State) (c : Nat) : List Nat := (s.ports.qps.filter fun p => p.2.carrel == c).map (·.1)

/-- Every queue pair of a carrel is released with DREQ (R401, R431). -/
def releaseQps (s : State) (c : Nat) : State := (qpsOf s c).foldl closeQp s

/-- The carrel's addresses are withdrawn: no announcement is repeated, its next hops are forgotten (R402, R427). -/
def withdrawAddresses (s : State) (c : Nat) : State :=
  { s with ports := { s.ports with
      announce := Tab.erase s.ports.announce c, nextHops := s.ports.nextHops.filter fun h => h.carrel != c } }

/-- Bring a carrel onto the network at its present addresses (R34). -/
def announceCarrel (s : State) (c : Nat) : State := takeAddresses s c

/-- Queue the archive record of a carrel: configuration, state and hopper blocks (R412), with its enrolled keys (log 78). -/
def archiveCarrel (s : State) (c : Nat) : State :=
  queueRecord s (.carrel c (s.carrel c) ((hoppersOwned s c).map fun p => peerHopper p.1 p.2)
    (s.reg.admins.filter fun p => p.1 / 4 == c))

end Sys2Proof.Machine
end

