-- ==== Sys2Proof/Machine/Mirror.lean ====
section
/-!
DEFINITION. The mirror pair: batches and ceilings, synchronous records at the standby, takeover, RESIGN, the link and the
heartbeat (R416 to R432).
-/

namespace Sys2Proof.Machine

/-! ## Which carrels (R421) -/

/-- Tenant carrels this device homes. -/
def homedHere (s : State) : List Nat :=
  (s.carrels.filter fun p => p.1 != 0 && p.2.st != .absent && homeOf s p.1 == .here).map (·.1)

/-- Carrels this device holds as copies of its peer's. -/
def homedPeer (s : State) : List Nat := (s.carrels.filter fun p => p.2.st != .absent && homeOf s p.1 == .peer).map (·.1)

def setHome (s : State) (c : Nat) (h : Home) : State :=
  { s with mirror := { s.mirror with home := if h = .here then Tab.erase s.mirror.home c else Tab.set s.mirror.home c h } }

/-- A pair exists that mirrors, has lost its link or resynchronises. -/
def pairLive (s : State) : Bool :=
  match s.mirror.state with
  | .paired | .degraded | .rejoining | .solo => true
  | .unpaired | .pairing => false

/-! ## Batches (R423, R424) -/

/-- The oldest uncompleted entry: that of the oldest slip in flight, or the consumer index (R423). -/
def oldestEntry (s : State) (hn : Nat) (h : Hopper) : W32 :=
  match s.hop.slips.find? fun p => p.2.hopper == hn with
  | some p => p.2.entry
  | none => h.ci

/-- `W` of R424. -/
def ceilWindow (h : Hopper) : W32 := BitVec.ofNat 32 (min 256 (depth h / 2))

/-- A hopper's entry of a batch; with exact values the ceilings are the indices themselves (R427). -/
def batchHop (s : State) (exact : Bool) (hn : Nat) (h : Hopper) : BatchHop :=
  let w := if exact then 0 else ceilWindow h
  { hopper := hn, oc := oldestEntry s hn h, ci := h.ci, p := h.p, lastSlipSeq := h.lastSlipSeq, lastDbSeq := h.lastDbSeq
    nextCseq := h.nextCseq, fc := h.ci + w, cc := h.nextCseq + w }

def mirrorOf (old : HopMirror) (b : BatchHop) : HopMirror :=
  { oc := b.oc, ci := b.ci, p := b.p, lastSlipSeq := b.lastSlipSeq, lastDbSeq := b.lastDbSeq, nextCseq := b.nextCseq
    fcProposed := b.fc, ccProposed := b.cc, fc := old.fc, cc := old.cc }

/-- The hoppers that a batch carries: those of mirrored carrels changed since the last batch. -/
def changedHops (s : State) : List BatchHop :=
  (s.hop.hoppers.filter fun p => mirrors s p.2.carrel).filterMap fun p =>
    let b := batchHop s false p.1 p.2
    match Tab.get? s.mirror.ours p.1 with
    | some m => if mirrorOf m b = m then none else some b
    | none => some b

/-- Measurement of the active open-stacks image (R422). -/
def imageMeasure (s : State) : Bytes := (s.tuns.active.map (·.measure)).getD []

/-- Send one batch. -/
def sendBatch (s : State) (exact : Bool) (hs : List BatchHop) (held : List (Nat × W32 × Bytes)) : State :=
  let n := s.mirror.nextBatch
  let ours := hs.foldl (fun t b => Tab.set t b.hopper (mirrorOf (Tab.getD t b.hopper {}) b)) s.mirror.ours
  ({ s with mirror := { s.mirror with
      nextBatch := n + 1, batches := Tab.set s.mirror.batches n hs, ours := ours } }).send
    (.mirrorBatch n exact hs held (imageMeasure s))

/-- MIRROR_BATCH (R423, R424): sent every 10 us while PAIRED, as a keep-alive also when nothing has changed (R416). -/
def execMirrorBatch (s : State) : Res :=
  if s.mirror.state = .paired ∧ s.mirror.linkUp = true then .next (sendBatch s false (changedHops s) []) else .next s

/-- The later of two counts modulo 2^32. -/
def later (a b : W32) : W32 := if before a b then b else a

/-- BATCH_ACK (R424): the ceilings proposed in the batch are acknowledged; hoppers that waited at the completion ceiling go
on. -/
def execBatchAck (b : BatchAck) (s : State) : Res :=
  match Tab.get? s.mirror.batches b.seq with
  | none => .next s
  | some hs =>
    let ours := hs.foldl (fun t x => Tab.mod t x.hopper fun m => { m with fc := later m.fc x.fc, cc := later m.cc x.cc }) s.mirror.ours
    let s := { s with mirror := { s.mirror with
        batches := Tab.erase s.mirror.batches b.seq, batchTot := s.mirror.batchTot + 1, ours := ours } }
    .next (hs.foldl (fun s x => flushHopper s x.hopper) s)

/-- One hopper's entry is stored, and the memos its OC has passed are retired (R425). -/
def storeHop (s : State) (b : BatchHop) : State :=
  let m := mirrorOf {} b
  { s with mirror := { s.mirror with
      theirs := Tab.set s.mirror.theirs b.hopper { m with fc := b.fc, cc := b.cc }
      memos := s.mirror.memos.filter fun m => !(m.hopper == b.hopper && before m.entry b.oc) } }

/-- Carrels of the hoppers of a batch. -/
def batchCarrels (s : State) (b : Batch) : List Nat := (b.hops.filterMap fun x => (s.hopper? x.hopper).map (·.carrel)).dedup

/-- BATCH_RECEIVED (R423, R425, R427, R431). -/
def execBatchReceived (b : Batch) (s : State) : Res :=
  if !pairLive s then .next s
  else
    let hs := b.hops.filter fun x => match s.hopper? x.hopper with
      | some h => homeOf s h.carrel == .peer
      | none => false
    let cs := batchCarrels s b
    let s := hs.foldl storeHop s
    let s := { s with mirror := { s.mirror with
        peerImage := b.image
        exact := (s.mirror.exact.filter fun c => !cs.contains c) ++ (if b.exact then cs else []) } }
    let s := b.held.foldl (fun s e => s.modHopper e.1 fun h =>
      { h with held := h.held ++ [{ cseq := e.2.1, rs := e.2.2, notify := true }] }) s
    .next (s.send (.batchAck b.seq))

/-! ## Synchronous records at the standby (R423, R425, R235, R322) -/

/-- Keep a memo of a slot change (R425). -/
def addMemo (s : State) (memo : Option (Nat × W32)) (shelf : Nat) (gen : W32) : State :=
  match memo with
  | none => s
  | some m => { s with mirror := { s.mirror with
      memos := s.mirror.memos ++ [{ hopper := m.1, entry := m.2, shelf := shelf, gen := gen }] } }

/-- The own counter of a mirrored stateful key: the one it has, or one newly bound; none when no counter is free (R235). -/
def bindOwn (s : State) (old new : Slot) : Option (State × Slot) :=
  if !isStfPrivate new.keyClass then some (s, { new with ledger := none, ledgerBase := 0 })
  else if old.valid ∧ old.ownGen = new.ownGen ∧ old.ledger.isSome then
    some (s, { new with ledger := old.ledger, ledgerBase := old.ledgerBase })
  else match freeCounter s with
    | none => none
    | some n =>
      let v := ctrFinal s n + 1
      let g := ctrGen s n + 1
      some (ledgerWrite s n v .bound g .set, { new with ledger := some (n, g), ledgerBase := v })

/-- Put a slot received from the peer in place; none when it needs a counter and none is free. -/
def putSlot (s : State) (p : PeerSlot) : Option State :=
  let old := s.slot p.shelf
  match bindOwn s old (parseSlot p.header p.extent) with
  | none => none
  | some (s, x) =>
    let line := if !x.extent then 0 else if old.extent && old.keyLen == x.keyLen then old.extentLine
      else (extentPlace s (extentLines x.keyLen)).getD 0
    let x := { x with extentLine := line, archived := old.archived, peerCeil := max old.peerCeil x.useCount, folioCeil := old.folioCeil }
    let s := s.setSlot p.shelf x
    some (if x.persistent then
      { s with cat := { s.cat with archivePending := Tab.set s.cat.archivePending p.shelf s.now } } else s)

/-- Empty a slot because the peer has, at the generation it names. -/
def goneSlot (s : State) (n : Nat) (gen : W32) : State :=
  if (s.slot n).valid then
    let s := emptySlot s n
    s.setSlot n { s.slot n with ownGen := gen }
  else s.setSlot n { s.slot n with ownGen := gen }

/-- A carrel's copy: its configuration and state, homed on the peer. -/
def putCarrelHead (s : State) (p : PeerCarrel) : State :=
  let x := parseCfg (s.carrel p.carrel) p.config
  let s := setHome (s.setCarrel p.carrel x) p.carrel .peer
  setCarrelState (assignBlocks s p.carrel) p.carrel (carrelStOf p.state)

def putHopper (s : State) (c : Nat) (p : PeerHopper) : State :=
  match s.hopper? p.hopper with
  | some h =>
    let x := applyBlock h 0xFFF p.block
    s.setHopper p.hopper { x with state := hopStateOf p.state }
  | none => s.setHopper p.hopper (fromPeerHopper c p)

def putToken (s : State) (c : Nat) (t : PeerToken) : State :=
  let x : Token :=
    { value := t.value, carrel := c, first := t.first, count := t.count, mtu := t.mtu, expiry := t.expiry }
  { s with ports := { s.ports with
      tokens := Tab.set s.ports.tokens t.id x, nextToken := max s.ports.nextToken (t.id + 1) } }

/-- Delete a hopper with what the pair keeps of it. -/
def dropHopper (s : State) (hn : Nat) : State :=
  { s with
    hop := { s.hop with hoppers := Tab.erase s.hop.hoppers hn }
    sched := { s.sched with hvt := Tab.erase s.sched.hvt hn }
    mirror := { s.mirror with
      ours := Tab.erase s.mirror.ours hn, theirs := Tab.erase s.mirror.theirs hn
      replayTo := Tab.erase s.mirror.replayTo hn, memos := s.mirror.memos.filter fun m => m.hopper != hn } }

/-- A carrel leaves this device: hoppers, tokens and blocks go, the carrel becomes ABSENT (R402). -/
def dropCarrel (s : State) (c : Nat) : State :=
  let s := ((hoppersOwned s c).map (·.1)).foldl dropHopper s
  let bs := (s.cat.blocks.filter fun p => p.2 == c).map (·.1)
  let s := { s with
    ports := { s.ports with tokens := s.ports.tokens.filter fun p => p.2.carrel != c }
    cat := { s.cat with releasing := s.cat.releasing ++ bs.filter fun k => !s.cat.releasing.contains k } }
  let s := setCarrelState s c .absent
  let s := s.setCarrel c { st := .absent }
  releaseBlocks (setHome s c .here)

/-- What the standby answers to one record; no answer yet while its own counter is being written (R235). -/
def applySync (s : State) (r : SyncRec) : State × Option Bool :=
  match r with
  | .slotSet sl memo =>
    match putSlot s sl with
    | none => (s, some true)
    | some s => (addMemo s memo sl.shelf (s.slot sl.shelf).ownGen, some false)
  | .slotGone n gen memo => (addMemo (goneSlot s n gen) memo n gen, some false)
  | .carrelSet p =>
    if (s.carrel p.carrel).st = .absent ∨ homeOf s p.carrel = .peer then (putCarrelHead s p, some false) else (s, some true)
  | .carrelGone c => (if homeOf s c = .peer then dropCarrel s c else s, some false)
  | .hopperSet c h => (putHopper s c h, some false)
  | .hopperGone h => (dropHopper s h, some false)
  | .tokenSet c t => (putToken s c t, some false)
  | .tokenRevoked i =>
    ({ s with ports := { s.ports with tokens := Tab.mod s.ports.tokens i fun t => { t with revoked := true } } }, some false)
  | .staticBinding _ => (s, some false)
  | .lease shelf ceiling =>
    let sl := s.slot shelf
    match sl.ledger with
    | none => (s, some true)
    | some (c, g) =>
      if boundOk s sl && s.cel.mainPower && decide (s.cel.stage < 4) then
        (ledgerWrite s c (sl.ledgerBase + max ceiling (nextLease s sl)) .bound g .shadow, none)
      else (s, some true)
  | .useBlock shelf ceiling =>
    (s.setSlot shelf { s.slot shelf with peerCeil := max (s.slot shelf).peerCeil ceiling }, some false)

/-- SYNC_RECORD (R423, R425): the standby applies a record and acknowledges it. -/
def execSyncRecord (r : SyncRec) (s : State) : Res :=
  if !pairLive s then .next s
  else match applySync s r with
    | (s, some refused) => .next (s.send (.mirrorAck refused))
    | (s, none) => .next s

/-! ## Takeover (R426, R428) -/

/-- This device may take over (R426). -/
def canTakeover (s : State) : Bool := decide (s.cel.stage < 3) && s.reg.dev != .failed && s.ent.state != .failed

/-- One hopper of a carrel taken over: the consumer index at the mirrored OC, P as mirrored, the next `COMPLETION_SEQ` at the
completion ceiling; entries below the fetch ceiling may have run (R426 step 2, R428). -/
def takeHopper (s : State) (hn : Nat) : State :=
  match s.hopper? hn with
  | none => s
  | some h =>
    let m := Tab.getD s.mirror.theirs hn {}
    let s := s.setHopper hn { h with
      ci := m.oc, p := m.p, nextCseq := m.cc, lastSlipSeq := m.lastSlipSeq, lastDbSeq := m.lastDbSeq
      lastAckCseq := m.cc - 1, qpn := none, fetch := none, openChain := none, arrivals := [], statusPending := 0
      fetchFail := none }
    let r := if before m.oc m.fc then Tab.set s.mirror.replayTo hn m.fc else Tab.erase s.mirror.replayTo hn
    { s with mirror := { s.mirror with replayTo := r } }

/-- The uses reserved in blocks count as used (R322); the leases of a key begin above its own counter (R236). -/
def takeSlots (s : State) (c : Nat) : State :=
  let count (x : Slot) : Slot :=
    if x.valid && x.owner == c && x.useLimit != 0 then { x with useCount := max x.useCount x.peerCeil } else x
  { s with
    cat := { s.cat with slots := Tab.mapVals s.cat.slots fun _ x => count x }
    ledger := { s.ledger with keys := s.ledger.keys.filter fun p => (s.slot p.1).owner != c } }

/-- Take over one carrel (R426 steps 1 to 4). -/
def takeCarrel (s : State) (c : Nat) : State :=
  let s := setHome s c .here
  let s := if (s.carrel c).st = .quiescing then setCarrelState s c .quiesced else s
  let s := ((hoppersOwned s c).map (·.1)).foldl takeHopper (takeSlots s c)
  let s := if onNetwork s c then takeAddresses s c else s
  let s := { s with mirror := { s.mirror with
      takeover := s.mirror.takeover.hit, exact := s.mirror.exact.filter (· != c) } }
  reportSrc s 0x1E1 c

/-- Take over every carrel homed on the peer, in carrel order, and become SOLO (R426). -/
def takeAll (s : State) : State := setPair ((homedPeer s).foldl takeCarrel s) .solo

/-! ## RESIGN (R427, R417) -/

/-- The heartbeat stops (R417). -/
def stopHeartbeat (s : State) : State := { s with mirror := { s.mirror with hbOut := false } }

/-- Hand every carrel homed here to the peer: addresses withdrawn, a final exact batch, RESIGN; then the heartbeat stops. An
unpaired device, or one that homes none, only stops its heartbeat (R417, R427). -/
def resign (s : State) : State :=
  let cs := homedHere s
  if s.mirror.resigned then s
  else if !pairLive s || cs.isEmpty then stopHeartbeat s
  else
    let s := cs.foldl withdrawAddresses s
    let hs := (s.hop.hoppers.filter fun p => cs.contains p.2.carrel).map fun p => batchHop s true p.1 p.2
    let s := (sendBatch s true hs []).send .resign
    let s := cs.foldl (fun s c => setHome s c .peer) s
    stopHeartbeat { s with mirror := { s.mirror with resigned := true } }

/-! ## The link and the heartbeat (R416 to R418, R430, R434) -/

/-- LINK_LOST (R418, R430). -/
def execLinkLost (s : State) : Res := .next (if s.mirror.linkUp then linkDown s else s)

/-- HEARTBEAT_LOST (R418, R426, R434): with the link lost before, the device takes over. -/
def execHeartbeatLost (s : State) : Res :=
  if s.mirror.hbPresent = false then .next s
  else
    let s := reportSrc { s with mirror := { s.mirror with hbPresent := false, hbLost := s.mirror.hbLost.hit } } 0x1E2
    .next (if s.mirror.state = .degraded ∧ s.mirror.linkUp = false ∧ canTakeover s = true then takeAll s else s)

/-- HEARTBEAT_RESTORED (R418). -/
def execHeartbeatRestored (s : State) : Res := .next { s with mirror := { s.mirror with hbPresent := true } }

/-- RESIGN received (R426, R434). -/
def execMirResign (s : State) : Res := .next (if pairLive s && canTakeover s then takeAll s else s)

/-- Ceilings of the mirrored stateful keys homed here (R238). -/
def ceilings (s : State) : List (Nat × Nat) :=
  (s.cat.slots.filter fun p => p.2.valid && p.2.mirrored && isStfPrivate p.2.keyClass && homeOf s p.2.owner == .here).map
    fun p => (p.1, nextLease s p.2)

/-- Copy to the peer every carrel homed here (R420 step 3, R432). -/
def sendCopies (s : State) : State := s.send (.carrelCopy ((homedHere s).map (peerCarrel s)) (ceilings s))

/-- MIRROR_LINK_UP (R430): records flow again; DEGRADED devices enter REJOINING. -/
def execMirrorLinkUp (s : State) : Res :=
  let s := { s with mirror := { s.mirror with linkUp := true } }
  .next (if s.mirror.state = .degraded then setPair s .rejoining else s)

/-- MIR_LINK_AUTH (R416): the record is discarded and retransmitted. -/
def execMirLinkAuth (s : State) : Res := .next (reportSrc (s.send .retransmit) 0x1E0)

/-- LINK_KEY_RENEWAL (R416). -/
def execLinkKeyRenewal (s : State) : Res :=
  if s.mirror.linkKeys then .next { s with mirror := { s.mirror with keyedAt := s.now } } else .next s

/-- REHOME_TAKEOVER (R431 step 5): the standby takes over a carrel passed to it, with the exact values of its last batch. -/
def execRehomeTakeover (carrel : Nat) (s : State) : Res :=
  if s.mirror.state = .paired ∧ homeOf s carrel = .peer ∧ (s.carrel carrel).st ≠ .absent ∧ canTakeover s = true then
    .next (takeCarrel s carrel)
  else .next s

end Sys2Proof.Machine
end

