-- ==== Sys2Proof/Machine/Registrar.lean ====
section
/-!
DEFINITION. The registrar: information, sessions, administrator keys, device settings, the ledger's commands, the registrar
pairs (chapter 15, R243).
-/

namespace Sys2Proof.Machine

/-! ## Randomness and signatures for commands -/

/-- One request of `n` bytes on `SYS` (R345, R346): none while the instance waits for a block. -/
def sysRequest (s : State) (n : Nat) : State × Option Bytes :=
  let s := if reseedDue s 0 then reseed s 0 else s
  if !(drbg s 0).live || (drbg s 0).reseedDue then (s, none)
  else (setDrbg (s.drawn n) 0 { drbg s 0 with requests := (drbg s 0).requests + 1 }, some (s.freeBytes n))

/-- A command that draws `n` bytes: refused once the unit has failed, waiting until the unit is ready and has a block (R349,
R351). -/
def withRandom (s : State) (n : Nat) (k : State → Bytes → CmdRes) : CmdRes :=
  match s.ent.state with
  | .failed => .done s (fail St.entropyFailed)
  | .starting => .wait s (.entropy s.now)
  | .ready => match sysRequest s n with
    | (s, some b) => k s b
    | (s, none) => .wait s (.entropy s.now)

/-- ENTROPY_WAIT_TIMEOUT (R349): 50 ms have passed and the unit is not ready. -/
def execEntropyWaitTimeout (fn : Nat) (s : State) : Res :=
  match (s.mbx fn).wait with
  | .entropy since =>
    if s.ent.state = .starting then .next (answerWait s fn (.entropy since) (fail St.entropyNotReady)) else .next s
  | _ => .next s

/-- P-384 (R293). -/
def p384 : Curve := nistCurve 2

/-- A pure ML-DSA signature with a context under a public key, by the set code of R176 (R165, R372, R388). -/
def dsaVerifies (set : Nat) (pk ctx msg sig : Bytes) : Bool :=
  Config.holds (.mlDsaSign set) [pk, dsaMu (dsaTr pk) ([0, BitVec.ofNat 8 ctx.length] ++ ctx ++ msg), sig]

/-- An ECDSA P-384 signature with SHA-384 under an uncompressed point. -/
def p384Verifies (pk msg sig : Bytes) : Bool :=
  match p384.pubPoint pk with
  | none => false
  | some q => ecdsaOk p384 q (digestInt p384 (Config.compute (.sha2 384) [msg])) (unbe (sig.take 48)) (unbe (sig.drop 48))

/-! ## MBX_NOP, DEV_INFO, ALG_TABLE (R375, R367) -/

/-- Commands of R375, FLT_CONFIG and the tables of other chapters. -/
def cmdDefined (c : Nat) : Bool :=
  [0x0001, 0x0002, 0x0003, 0x0010, 0x0011, 0x0012, 0x0013, 0x0014, 0x0015, 0x0101, 0x0102, 0x0103, 0x0104, 0x0105, 0x0110,
   0x0310, 0x0311, 0x0312, 0x0313, 0x0410, 0x0411, 0x0510, 0x0511, 0x0701, 0x0702, 0x0801, 0x0802, 0x0810, 0x0811,
   0x0812].contains c
    || (decide (0x0201 ≤ c) && decide (c ≤ 0x020B)) || (decide (0x0301 ≤ c) && decide (c ≤ 0x0307))
    || (decide (0x0401 ≤ c) && decide (c ≤ 0x0406)) || (decide (0x0501 ≤ c) && decide (c ≤ 0x0503))
    || (decide (0x0601 ≤ c) && decide (c ≤ 0x0605))

/-- A frame whose `CMD` is not defined: steps 1 to 3 of R367. No command says whether it needs a session, so `SESSION_ID` is not
judged. -/
def serveUnknown (s : State) (fn : Nat) : State :=
  let m := s.mbx fn
  if isReplay m && !again m then replayRsp s fn
  else if !hseqOk m && !again m then
    respond s fn { status := St.mbxSeqInvalid, detail := (m.lastHseq + 1).toNat } false
  else
    let formed := field m.cmdWin 2 2 ≤ 4080 ∧ field m.cmdWin 12 4 = 0
    respond (accept s fn) fn (fail (if formed then St.opcodeUnknown else St.formatInvalid))

/-- MBX_NOP (R375); a frame of no defined command is refused here (R367 step 3). -/
def execMbxNop (fn : Nat) (s : State) : Res :=
  if canServe s fn && !cmdDefined (field (s.mbx fn).cmdWin 0 2) then .next (serveUnknown s fn)
  else .next (serve s fn
    { code := 0x0001, role := .any, lenOk := lenIs 0, booting := true, recovery := true, s4 := true, returned := true
      scrap := true } fun s _ => .done s {})

def devInfo (s : State) (fn : Nat) : Bytes :=
  fit 16 s.reg.serial ++ le 4 s.reg.running.version ++ le 4 s.reg.running.csVersion ++ le 2 fn ++ le 1 (State.fnCarrel fn)
    ++ zeros 1 ++ be 6 s.reg.baseMac.toNat

def execDevInfo (fn : Nat) (s : State) : Res :=
  .next (serve s fn
    { code := 0x0002, role := .any, lenOk := lenIs 0, booting := true, recovery := true, s4 := true, returned := true
      scrap := true } fun s _ => .done s { payload := devInfo s fn })

/-- The table of algorithms that the firmware carries: the manual gives the form of an entry and no list (log 70). -/
def algTable : Bytes := (List.range (16 * Config.freeNat 130 [])).map fun i => BitVec.ofNat 8 (Config.freeNat 131 [i])

/-- Write `b` to an area of host memory, or answer `OUTPUT_TOO_SMALL` with the size needed (R375). -/
def hostWrite (s : State) (fn addr room : Nat) (b : Bytes) (a : Ans) : CmdRes :=
  if room < b.length then .done s { status := St.outputTooSmall, detail := b.length }
  else .done (s.send (.dmaWrite fn (BitVec.ofNat 64 addr) b)) a

def execAlgTable (fn : Nat) (s : State) : Res :=
  .next (serve s fn { code := 0x0003, role := .any, lenOk := lenIs 12, booting := true } fun s p =>
    hostWrite s fn (field p 0 8) (field p 8 4) algTable { payload := le 4 algTable.length })

/-! ## Sessions (R372 to R374) -/

/-- AUTH_CHALLENGE (R372): a new nonce replaces an earlier one. -/
def execAuthChallenge (fn : Nat) (s : State) : Res :=
  .next (serve s fn { code := 0x0010, role := .any, lenOk := lenIs 0, booting := true } fun s _ =>
    withRandom s 32 fun s n => .done (s.setMbx fn { s.mbx fn with nonce := some (n, s.now) }) { payload := n })

/-- M_auth (R372). -/
def authMsg (s : State) (fn : Nat) (n : Bytes) (key : Nat) : Bytes :=
  [0x54, 0x35, 0x31, 0x32, 0x30, 0x2D, 0x41, 0x55, 0x54, 0x48, 0x2D, 0x76, 0x31] ++ fit 16 s.reg.serial ++ le 2 fn
    ++ le 1 (State.fnCarrel fn) ++ n ++ le 4 key

/-- Positions of a carrel's enrolled keys (R371). -/
def enrolled (s : State) (c : Nat) : List Nat := (s.reg.admins.filter fun p => p.1 / 4 == c).map (·.2)

/-- The login's key, nonce and signature stand (R372). -/
def loginOk (s : State) (fn : Nat) (p : Bytes) : Bool :=
  let key := field p 0 4 % 2 ^ 21
  let k := s.slot key
  match (s.mbx fn).nonce with
  | none => false
  | some (n, at') =>
    let msg := authMsg s fn n (field p 0 4)
    (enrolled s (State.fnCarrel fn)).contains key && decide (s.now - at' < 30 * 1250000000)
      && (if field p 4 2 = 1 then k.keyClass == 0x19 && dsaVerifies 5 k.material [] msg (p.drop 12)
          else k.keyClass == 0x6D && p384Verifies k.material msg (p.drop 12))

/-- Seconds a login is locked after the `n`th failure in a row (R374). -/
def lockSeconds (n : Nat) : Nat := if n < 3 then 0 else min 3600 (10 * 2 ^ (min (n - 3) 9))

/-- A failed login: counted, reported, locking from the third on (R374). -/
def loginFailed (s : State) (fn : Nat) : State :=
  let m := s.mbx fn
  let s := s.setMbx fn { m with
    nonce := none, fails := m.fails + 1
    lockUntil := if m.fails + 1 < 3 then m.lockUntil else s.now + lockSeconds (m.fails + 1) * 1250000000 }
  reportSrc s 0x003 (State.fnCarrel fn)

/-- AUTH_LOGIN (R372 to R374): a session replaces an earlier one, whose end is queued after the response. -/
def execAuthLogin (fn : Nat) (s : State) : Res :=
  .next (serve s fn
    { code := 0x0011, role := .any, lenOk := fun n => decide (12 ≤ n), booting := true
      rsvOk := fun p => decide (field p 0 4 < 2 ^ 21) && field p 8 4 == 0 && p.length == 12 + field p 6 2 } fun s p =>
    let m := s.mbx fn
    let alg := field p 4 2
    if s.now < m.lockUntil then
      .done s { status := St.authLocked, detail := (m.lockUntil - s.now + 1249999999) / 1250000000 }
    else if (alg ≠ 1 ∨ field p 6 2 ≠ 3309) ∧ (alg ≠ 3 ∨ field p 6 2 ≠ 96) then .done s (fail St.paramInvalid)
    else if !loginOk s fn p then .done (loginFailed s fn) (fail St.authFailed)
    else withRandom s 4 fun s b =>
      let id := if unle b = 0 then 1 else unle b
      let old := (s.mbx fn).session.isSome
      let s := if old then closeSession s fn else s
      let se : Session := { id := BitVec.ofNat 32 id, key := field p 0 4, lastAt := s.sec }
      let s := s.setMbx fn { s.mbx fn with session := some se, nonce := none, fails := 0 }
      .doneThen s { payload := le 4 id ++ le 4 900 } fun s => if old then sessionEvent s fn 5 else s)

def execAuthLogout (fn : Nat) (s : State) : Res :=
  .next (serve s fn { code := 0x0012, role := .oa, lenOk := lenIs 0 } fun s _ =>
    let was := (s.mbx fn).session.isSome
    .doneThen (if was then closeSession s fn else s) {} fun s => if was then sessionEvent s fn 1 else s)

def execSessionCfg (fn : Nat) (s : State) : Res :=
  .next (serve s fn { code := 0x0013, role := .oa, lenOk := lenIs 4 } fun s p =>
    let t := field p 0 4
    if t < 60 ∨ 3600 < t then .done s (fail St.paramInvalid)
    else
      let m := s.mbx fn
      .done (s.setMbx fn { m with session := m.session.map fun se => { se with timeout := t } }) {})

/-- SESSION_IDLE_TIMEOUT (R373, R390): not while a command runs. -/
def execSessionIdleTimeout (fn : Nat) (s : State) : Res :=
  match (s.mbx fn).session with
  | some se => .next (if !(s.mbx fn).busy && decide (se.lastAt + se.timeout ≤ s.sec) then endSession s fn 2 else s)
  | none => .next s

/-! ## Administrator keys (R371) -/

/-- Administration of keys, hoppers, slots and bindings is open: not in FROZEN (R396). -/
def adminOpen (s : State) (fn : Nat) : Bool := (s.carrel fn).st != .frozen && (s.carrel fn).st != .absent

/-- A slot that can be enrolled: class 0x19 or 0x6D, usage verify. -/
def adminClass (sl : Slot) : Bool := (sl.keyClass == 0x19 || sl.keyClass == 0x6D) && sl.usage.getLsbD 3

/-- Take a position's key off the list; its session ends once the key is enrolled nowhere (R373). -/
def unenrol (s : State) (c pos : Nat) : State :=
  match Tab.get? s.reg.admins (4 * c + pos) with
  | none => s
  | some k =>
    let s := { s with reg := { s.reg with admins := Tab.erase s.reg.admins (4 * c + pos) } }
    if (enrolled s c).contains k then s
    else match (s.mbx c).session with
      | some se => if se.key = k then endSession s c 4 else s
      | none => s

def execAdmEnrol (fn : Nat) (s : State) : Res :=
  .next (serve s fn
    { code := 0x0014, role := .oa, folio := true, lenOk := lenIs 5, rsvOk := fun p => decide (field p 0 4 < 2 ^ 21) } fun s p =>
    let c := State.fnCarrel fn
    let n := field p 0 4
    if !adminOpen s c then .done s (crlRejected s c)
    else if 3 < field p 4 1 then .done s (fail St.paramInvalid)
    else match slotCheck13 s c n with
      | some st => .done s (fail st)
      | none =>
        if !adminClass (s.slot n) then .done s (fail St.keyUsageDenied)
        else
          let key := 4 * c + field p 4 1
          let s := if Tab.get? s.reg.admins key = some n then s else unenrol s c (field p 4 1)
          .done (archiveCarrel { s with reg := { s.reg with admins := Tab.set s.reg.admins key n } } c) {})

/-- ADM_REMOVE (R371): not the last key of the carrel. -/
def execAdmRemove (fn : Nat) (s : State) : Res :=
  .next (serve s fn { code := 0x0015, role := .oa, folio := true, lenOk := lenIs 1 } fun s p =>
    let c := State.fnCarrel fn
    if !adminOpen s c then .done s (crlRejected s c)
    else if 3 < field p 0 1 ∨ Tab.get? s.reg.admins (4 * c + field p 0 1) = none then .done s (fail St.paramInvalid)
    else if (enrolled s c).length ≤ 1 then .done s (crlRejected s c)
    else .done (archiveCarrel (unenrol s c (field p 0 1)) c) {})

/-! ## Device settings (R61, R62, R102, R279, R375) -/

def octCode : OctState → Nat
  | .off => 0
  | .down => 1
  | .up => 2
  | .forcedDown => 3

/-- Every queue pair on an octet's ports is given up (R62, R58). -/
def breakOctet (s : State) (n : Nat) : State :=
  ((s.ports.qps.filter fun p => p.2.port / 8 == n).map (·.1)).foldl closeQp s

/-- Octets marked keep-alive. -/
def keepAlive (s : State) : List Nat := (s.ports.octets.filter fun p => p.2.keepAlive).map (·.1)

/-- The octet with the configuration of a payload (R62): a mode other than `OFF` powers it, `OFF` breaks its queue pairs. -/
def setOctetCfg (s : State) (n : Nat) (p : Bytes) : State :=
  let o := s.octet n
  let mode := BitVec.ofNat 3 (field p 1 1)
  let o' := { o with
    mode := mode, media := BitVec.ofNat 2 (field p 2 1), anEn := bit (field p 3 1) 0, keepAlive := bit (field p 3 1) 1
    pfcEn := BitVec.ofNat 8 (field p 4 1), pfcIgnore := BitVec.ofNat 8 (field p 5 1)
    fecTh := if field p 8 4 = 0 then o.fecTh else BitVec.ofNat 32 (field p 8 4) }
  if mode = 0 then
    if o.state = .off then s.setOctet n o'
    else breakOctet (s.setOctet n { o' with state := .off, portUp := 0, laneLock := 0 }) n
  else if o.state = .off then
    s.setOctet n { o' with state := if octForced s o' then .forcedDown else .down }
  else s.setOctet n o'

def octSpec : CmdSpec :=
  { code := 0x0101, role := .o, lenOk := lenIs 12
    rsvOk := fun p => decide (field p 3 1 < 8) && field p 6 2 == 0 }

/-- The command in the window is `OCT_CONFIG` with this value of `FECTH_ONLY`. -/
def fecthIs (s : State) (fn : Nat) (b : Bool) : Bool := bit (field (framePayload (s.mbx fn)) 3 1) 2 == b

/-- OCT_CONFIG (R62): mode and medium change only while the octet is `OFF`, moving it to `OFF` apart. -/
def execOctConfig (fn : Nat) (s : State) : Res :=
  if !fecthIs s fn false then .next s
  else .next (serve s fn octSpec fun s p =>
    let n := field p 0 1
    let o := s.octet n
    let same := field p 1 1 = o.mode.toNat ∧ field p 2 1 = o.media.toNat
    let rej := rejected 6 (octCode o.state)
    if 63 < n then .done s (fail St.paramInvalid)
    else if o.state ≠ .off ∧ ¬ same ∧ field p 1 1 ≠ 0 then .done s rej
    else if bit (field p 3 1) 1 && !o.keepAlive && decide (8 ≤ (keepAlive s).length) then .done s rej
    else if 4 < field p 1 1 ∨ 2 < field p 2 1 then .done s (fail St.paramInvalid)
    else .done (setOctetCfg s n p) {})

/-- OCT_CONFIG with FECTH_ONLY (R62): the `FEC_HIGH` threshold alone, in every octet state. -/
def execFecthOnly (fn : Nat) (s : State) : Res :=
  if !fecthIs s fn true then .next s
  else .next (serve s fn octSpec fun s p =>
    let n := field p 0 1
    let o := s.octet n
    if 63 < n then .done s (fail St.paramInvalid)
    else .done (s.setOctet n { o with fecTh := if field p 8 4 = 0 then o.fecTh else BitVec.ofNat 32 (field p 8 4) }) {})

def execWarmMinSet (fn : Nat) (s : State) : Res :=
  .next (serve s fn { code := 0x0102, role := .o, lenOk := lenIs 4, rsvOk := fun p => decide (field p 0 4 < 2 ^ 28) } fun s p =>
    let v := field p 0 4
    if 128 < bits v 7 0 ∨ 16 < bits v 12 8 ∨ 32 < bits v 18 13 ∨ 256 < bits v 27 19 then .done s (fail St.paramInvalid)
    else .done { s with sched := { s.sched with
      warmTun := BitVec.ofNat 8 (bits v 7 0), warmFloor := BitVec.ofNat 5 (bits v 12 8)
      warmKiln := BitVec.ofNat 6 (bits v 18 13), warmPipe := BitVec.ofNat 9 (bits v 27 19) } } {})

def execDirectCntSet (fn : Nat) (s : State) : Res :=
  .next (serve s fn { code := 0x0103, role := .o, lenOk := lenIs 1 } fun s p =>
    if s.pipes.pages.any fun x => x.2.busy then .done s (devRejected s)
    else if 16 < field p 0 1 then .done s (fail St.paramInvalid)
    else .done { s with pipes := { s.pipes with directCnt := BitVec.ofNat 5 (field p 0 1) } } {})

def execLedLowThSet (fn : Nat) (s : State) : Res :=
  .next (serve s fn { code := 0x0104, role := .o, lenOk := lenIs 2, rsvOk := fun p => decide (field p 0 2 < 2 ^ 14) } fun s p =>
    .done { s with ledger := { s.ledger with lowTh := BitVec.ofNat 14 (field p 0 2) } } {})

/-! ## The ledger's commands (R243, R375) -/

/-- Bit p is set where position p holds a valid cell. -/
def cellMask (n : Nat) (c : Counter) : Nat := ((List.range 8).map fun p => 2 ^ p * b2n (cellValid n (cellAt c p))).sum

def counterBytes (s : State) (n : Nat) : Bytes :=
  let x := ctrContent n (counter s n)
  le 8 x.value ++ le 1 (ctrStateCode x.state) ++ le 1 x.bindGen.toNat ++ le 1 (cellMask n (counter s n)) ++ zeros 5

/-- Leases of 256 indices that a stateful key can still be granted (R229). -/
def leasesLeft (s : State) (sl : Slot) : Nat := (stfTotal sl + 255) / 256 - nextLease s sl

def execLedQuery (fn : Nat) (s : State) : Res :=
  .next (serve s fn
    { code := 0x0410, role := .oa, lenOk := lenIs 4
      rsvOk := fun p => let v := field p 0 4
        if bit v 31 then bits v 30 21 == 0 else bits v 30 14 == 0
      owns := fun _ fn p => bit (field p 0 4) 31 || fn == 0 } fun s p =>
    let v := field p 0 4
    if !bit v 31 then .done s { payload := counterBytes s (v % 2 ^ 14) }
    else
      let n := v % 2 ^ 21
      let sl := s.slot n
      if !inAllot s (State.fnCarrel fn) n then .done s (fail St.keyCarrelMismatch)
      else if !sl.valid then .done s (fail St.keySlotEmpty)
      else if !isStfPrivate sl.keyClass then .done s (fail St.keyUsageDenied)
      else .done s { payload := counterBytes s ((sl.ledger.map (·.1)).getD 0) ++ le 8 (nextLease s sl)
                       ++ le 8 (leasesLeft s sl) })

/-- LED_RECLAIM (R243). -/
def execLedReclaim (fn : Nat) (s : State) : Res :=
  .next (serve s fn { code := 0x0411, role := .o, lenOk := lenIs 0 } fun s _ =>
    let cs := s.ledger.orphanBound
    let s := cs.foldl ledgerRelease s
    .done { s with ledger := { s.ledger with orphanBound := [] } } { payload := le 4 cs.length })

/-! ## The registrar pairs (R356 to R358) -/

/-- Commands not yet committed start again, and their responses carry `RESTARTED` (R357). -/
def restartCmds (s : State) : State :=
  let s := (Tab.keys s.reg.mbx).foldl dropClaim s
  { s with
    mirror := { s.mirror with waits := s.mirror.waits.filter fun w => match w.2 with
      | .mailbox _ => false
      | _ => true }
    reg := { s.reg with mbx := Tab.mapVals s.reg.mbx fun _ m =>
      if m.busy then { m with restarted := true, wait := match m.wait with
        | .mirror _ | .entropy _ => .none
        | w => w } else m } }

/-- The reaction to a miscompare that no mask changes (R357, R358, R439): the first one switches to the spare pair; one in
the last pair makes the device FAILED. -/
def fencePair (s : State) : State :=
  if 2 ≤ s.reg.pairsFenced then s
  else if s.reg.pairsFenced = 0 then
    noteDev s (restartCmds { s with reg := { s.reg with pairsFenced := 1, switching := true } })
  else
    let t := { s with reg := { s.reg with pairsFenced := 2, dev := .failed }, hop := { s.hop with fetchStopped := true } }
    let t := t.hop.hoppers.foldl (fun t p => breakOpenChain t p.1) t
    noteDev s (assertErrN (abortSlips t isStaged St.aborted))

/-- REG_LOCKSTEP. -/
def execRegLockstep (s : State) : Res :=
  let t := reportSrc s 0x001
  .next (if resets s 0x001 then t else fencePair t)

/-- REGISTRAR_SWITCH_DONE (R357). -/
def execRegistrarSwitchDone (s : State) : Res := .next { s with reg := { s.reg with switching := false } }

end Sys2Proof.Machine
end

