-- ==== Sys2Proof/Machine/Deac.lean ====
section
/-!
DEFINITION. Deaccessions by mailbox: the wait for the peer and for the tombstone, and what each command commits (R332, R335,
R402, R403).
-/

namespace Sys2Proof.Machine

/-! ## The anchor and the first key of a carrel (R316, R371, R403) -/

/-- The anchor's secret: fresh for each epoch of the carrel (log 71). -/
def anchorSecret (s : State) (c : Nat) : Bytes :=
  (List.range 32).map fun i => BitVec.ofNat 8 (Config.freeNat 140 [c, epoch s c, i])

/-- The anchor of carrel `c`: class SECRET-32, usage derive, persistent (R316). -/
def anchorSlot (s : State) (c : Nat) : Slot :=
  { valid := true, persistent := true, mirrored := c != 0, keyClass := 0x0A, usage := 0x40, owner := c, depth := 0, parent := 0
    keyLen := 32, material := anchorSecret s c }

/-- The first slot of the carrel's first block. -/
def firstSlot (x : Carrel) : Nat :=
  match x.runs.head? with
  | some r => if r.1 = 0 then 256 else 1024 * r.1
  | none => 256

/-- The first administrator key: class and key from a payload, a child of the anchor of generation `gen` (R371, R403). -/
def adminSlot (c gen cls : Nat) (key : Bytes) : Slot :=
  { valid := true, persistent := true, mirrored := c != 0, keyClass := cls, usage := 8, owner := c, depth := 1, parent := c
    parentGen := BitVec.ofNat 32 gen, keyLen := key.length, extent := true, material := key }

/-- A first administrator key of a payload: its class, length and point (R371). -/
def adminKeyBad (cls : Nat) (key : Bytes) : Option Nat :=
  if cls ≠ 0x19 ∧ cls ≠ 0x6D then some St.paramInvalid
  else if key.length ≠ (classLen cls).getD 0 then some St.lengthMismatch
  else if cls = 0x6D ∧ p384.pubPoint key = none then some St.inputMalformed
  else none

/-- A slot with `k` more generations, as it will stand once created. -/
def futureSlot (s : State) (n k : Nat) (x : Slot) : PeerSlot := peerSlot n (raiseGen { x with ownGen := (s.slot n).ownGen } k)

/-- Place an extent for a slot and create it. -/
def createAt (s : State) (n : Nat) (x : Slot) : State :=
  createSlot (s.setSlot n { s.slot n with extentLine := (extentPlace s (extentLines x.keyLen)).getD 0 }) n x

/-- Anchor and first key of a carrel in place, the key enrolled at position 0; the rest of its enrolments end (R371, R403). -/
def plantAnchor (s : State) (c cls : Nat) (key : Bytes) : State :=
  let s := createAt s c (anchorSlot s c)
  let n := firstSlot (s.carrel c)
  let s := createAt s n (adminSlot c (s.slot c).ownGen.toNat cls key)
  { s with reg := { s.reg with admins := Tab.set (s.reg.admins.filter fun p => p.1 / 4 != c) (4 * c) n } }

/-! ## What the first three steps of a reset do (R401) -/

/-- A hopper with its indices, recorded producer index and next `COMPLETION_SEQ` at zero (R66, R401). -/
def zeroIndices (h : Hopper) : Hopper :=
  { h with
    ci := 0, p := 0, nextCseq := 0, lastAckCseq := 0xFFFF_FFFF#32, fetchFail := none, fetch := none, arrivals := []
    openChain := none, broken := false }

/-- Tokens revoked, queue pairs released, held return slips discarded, hoppers STOPPED and fresh. -/
def resetCarrel (s : State) (c : Nat) : State :=
  let s := { s with ports := { s.ports with tokens := s.ports.tokens.filter fun p => p.2.carrel != c } }
  let s := releaseQps s c
  ((hoppersOwned s c).map (·.1)).foldl (fun s hn => 
    (setHopState s hn .stopped).modHopper hn fun h => zeroIndices { h with held := [], statusPending := 0 }) s

/-- Slots that `CRL_RESET` deaccessions: not persistent, children of the anchor. -/
def resetSlots (s : State) (c : Nat) : List Nat :=
  (s.cat.slots.filter fun p => p.2.valid && !p.2.persistent && p.2.owner == c && p.2.depth == 1 && p.2.parent == c).map (·.1)

/-! ## Commits (R332, R335, R402, R403) -/

/-- CRL_DESTROY at its commit (R402): the anchor goes, every slot of the carrel is an orphan, its sessions end. -/
def destroyCommit (s : State) (c : Nat) : State :=
  let s := resetCarrel s c
  let s := deaccessionCommit s c
  let s := { s with reg := { s.reg with admins := s.reg.admins.filter fun p => p.1 / 4 != c } }
  let s := endSession s c 4
  let s := withdrawAddresses (bumpEpoch s c) c
  archiveCarrel (dropCarrel s c) c

/-- CRL_ANCHOR_RENEW at its commit (R403): the anchor is made anew two generations on, with a first administrator key. -/
def renewCommit (s : State) (c cls : Nat) (key : Bytes) : State :=
  let s := bumpEpoch s c
  let s := plantAnchor (deaccessionCommit s c) c cls key
  endSession s c 4

/-- The slot that `CAT_IMPORT` or `CAT_REPLACE` writes, from its payload (R377, R323). -/
def payloadSlot (s : State) (c parent : Nat) (p mat : Bytes) : Slot :=
  newSlot s c parent (parseSeg (slice p 0 64)) (field p 4 1) mat

/-- CAT_REPLACE at its commit (R335): the slot keeps its parent and takes its other attributes from the payload. -/
def replaceCommit (s : State) (n : Nat) (p mat : Bytes) : State :=
  let old := s.slot n
  let x := { payloadSlot s old.owner old.parent p mat with depth := old.depth, parentGen := old.parentGen }
  createAt (deaccessionCommit s n) n x

/-- Material of an import: inline from byte 80, or read from host memory (R377). -/
def importMaterial (p host : Bytes) : Bytes :=
  if field p 68 8 = 0 then slice p 80 (field p 64 4) else fit (field p 64 4) host

/-- Commit the deaccession that a function's command asks for, by the command in its window. -/
def commitDeac (s : State) (fn n : Nat) : State × Ans :=
  let m := s.mbx fn
  let p := framePayload m
  let s := s.setSlot n { s.slot n with deacPending := none, deacPeer := false, deacTomb := false }
  match field m.cmdWin 0 2 with
  | 0x0403 =>
    let s := deaccessionCommit s n
    (s, { payload := le 4 (s.slot n).ownGen.toNat })
  | 0x0402 =>
    let s := replaceCommit s n p (importMaterial p m.host)
    (s, { payload := le 4 n ++ le 4 (s.slot n).ownGen.toNat })
  | 0x0208 => (destroyCommit s n, {})
  | 0x020B =>
    let s := renewCommit s n (field p 2 2) (p.drop 6)
    (s, { payload := le 4 (s.slot n).ownGen.toNat })
  | _ => (s, {})

/-- Commit it and answer. -/
def finishDeac (s : State) (fn n : Nat) : State :=
  underMbx s fn (.deaccession n) fun s =>
    let r := commitDeac s fn n
    respond r.1 fn r.2

/-- A deaccession by mailbox of slot `n` (R332, R363): at once where nothing is to be waited for; refused while the pair is
DEGRADED, or without a writable cartridge when the slot is persistent. `recs` are what its synchronous record carries. -/
def startDeac (s : State) (fn n : Nat) (host : Bytes) (recs : List SyncRec) (sync : Bool) (c : Nat) : CmdRes :=
  let sl := s.slot n
  if sl.persistent && !archiveOk s then .done s (devRejected s)
  else if sync && syncBlocked s c then .done (syncRefused s) syncRejected
  else
    let sync := sync && mirrors s c
    let s := s.setMbx fn { s.mbx fn with host := host }
    let s := s.setSlot n { sl with deacPending := some (some fn), deacPeer := !sync, deacTomb := !sl.persistent }
    let s := if sl.persistent then queueRecord s (.tombstone n (raiseGen sl 1).ownGen) else s
    let s := if sync then sendSync s recs (.deaccession n) else s
    if sync || sl.persistent then .wait s (.deaccession n)
    else
      let r := commitDeac s fn n
      .done r.1 r.2

/-- A deaccession that waited for the peer and the tombstone goes on when both have come: a command's, or a chain's whose every
deaccession stands so and whose record is acknowledged (R86, R332). -/
def tryChain (s : State) (head : Nat) : State :=
  let m := chainOf s head
  let ns := (m.flatMap fun p => p.2.slotOps).filterMap fun o => match o with
    | .deaccession n => some n
    | _ => none
  let ready := ns.all fun n => match (s.slot n).deacPending with
    | some _ => (s.slot n).deacPeer && (s.slot n).deacTomb
    | none => true
  if !m.isEmpty && (m.all fun p => p.2.phase == .waitCommit) && ready && !(s.mirror.waits.any fun w => w.2 == .chain head) then
    commitNow (ns.foldl (fun s n => s.setSlot n { s.slot n with deacPending := none, deacPeer := false, deacTomb := false }) s) head
  else s

/-- Chains whose deaccession of slot `n` waits. -/
def chainsOf (s : State) (n : Nat) : List Nat :=
  ((s.hop.slips.filter fun p => p.2.phase == .waitCommit && p.2.slotOps.contains (.deaccession n)).map fun p => p.2.head).dedup

def tryDeac (s : State) (n : Nat) : State :=
  let sl := s.slot n
  match sl.deacPending with
  | some (some fn) => if sl.deacPeer && sl.deacTomb then finishDeac s fn n else s
  | some none => (chainsOf s n).foldl tryChain s
  | none => s

/-- DEACCESSION_COMMIT (R332): the conditions of the commit are met. -/
def execDeaccessionCommit (slot : Nat) (s : State) : Res := .next (tryDeac s slot)

/-- TOMBSTONE_WAIT_TIMEOUT (R513): no writable cartridge within the limit; the deaccession is refused, object 0x08. -/
def execTombstoneWaitTimeout (slot : Nat) (s : State) : Res :=
  let sl := s.slot slot
  if sl.deacTomb then .next s
  else match sl.deacPending with
    | none => .next s
    | some (some fn) =>
      .next (answerWait (dropCut (cancelDeac s slot) (.deaccession slot)) fn (.deaccession slot) (folRejected s))
    | some none => .next ((chainsOf s slot).foldl (fun s h => refuseChain s h (folRejected s)) s)

end Sys2Proof.Machine
end

