-- ==== Sys2Proof/Machine/Carrels.lean ====
section
/-!
DEFINITION. The carrel commands: creation, configuration, activation, quiesce, freeze, reset, destruction, statistics, anchor
renewal (R392 to R403, R413, R414).
-/

namespace Sys2Proof.Machine

/-! ## Creation and configuration (R393, R395) -/

/-- The identity with its defaults: the device base MAC plus the carrel number, the default CM service ID (R31). -/
def netDefaults (s : State) (c : Nat) (x : Carrel) : Carrel :=
  let n := x.net
  { x with net := { n with
    mac := if n.mac = 0 then s.reg.baseMac + BitVec.ofNat 48 c else n.mac
    cmService := if n.cmService = 0 then 0x0000_0000_0106_128F#64 else n.cmService } }

/-- A carrel as a record creates it. -/
def newCarrel (s : State) (c : Nat) (b : Bytes) : Carrel := netDefaults s c (parseCfg {} b)

/-- Creation in place: blocks, epoch, anchor, first key (R371, R402, R411). -/
def createCarrel (s : State) (c : Nat) (b : Bytes) (cls : Nat) (key : Bytes) : State :=
  let s := assignBlocks (setHome (s.setCarrel c { newCarrel s c b with st := .absent }) c .here) c
  let s := plantAnchor (bumpEpoch s c) c cls key
  archiveCarrel (setCarrelState s c .configured) c

/-- Step 7 of `CRL_CREATE`. -/
def createBad (s : State) (c : Nat) (p : Bytes) : Option Ans :=
  let x := newCarrel s c p
  let key := p.drop 516
  if !(sharesOk p && protectionOk p && resourcesOk s c p && networkOk c p) || x.runs.isEmpty then some (fail St.paramInvalid)
  else match adminKeyBad (field p 512 2) key with
    | some st => some (fail st)
    | none =>
      if blockUnreleased s x.runs then some (crlRejected s c)
      else if blockTaken s c x.runs then some (fail St.paramInvalid)
      else if vlanClash s c x.net then some (crlRejected s c)
      else if x.slotQuota < 2 || decide (x.extentQuota < extentLines key.length)
          || (extentPlace s (extentLines key.length)).isNone || !slotOpen (s.slot (firstSlot x)) then
        some (fail St.slotQuotaExceeded)
      else none

/-- `CRL_CREATE` as a synchronous change (R397, R421). -/
def createCmd : SyncCmd where
  spec := { code := 0x0201, role := .o, folio := true
            lenOk := fun n => decide (516 ≤ n)
            rsvOk := fun p => cfgFormat p && p.length == 516 + field p 514 2 }
  carrel := fun _ _ p => field p 6 1
  check := fun s _ p =>
    let c := field p 6 1
    if (s.carrel c).st ≠ .absent then some (crlRejected s c) else createBad s c p
  recs := fun s _ p =>
    let c := field p 6 1
    let t := createCarrel s c (p.take 512) (field p 512 2) (p.drop 516)
    let n := firstSlot (t.carrel c)
    [.carrelSet (peerCarrelHead c (t.carrel c) .configured), .slotSet (peerSlot c (t.slot c)) none,
     .slotSet (peerSlot n (t.slot n)) none]
  commit := fun s _ p => (createCarrel s (field p 6 1) (p.take 512) (field p 512 2) (p.drop 516), {})

/-- CRL_CREATE (R397, R402): the anchor draws on the entropy unit. -/
def execCrlCreate (fn : Nat) (s : State) : Res :=
  if syncBusy s then .next s
  else .next (serve s fn createCmd.spec fun s p =>
    match createCmd.check s fn p with
    | some a => .done s a
    | none => withRandom s 32 fun s _ => syncBody createCmd s fn p)

/-- The groups a mask names. -/
def grp (p : Bytes) (i : Nat) : Bool := bit (field p 0 4) i

/-- A carrel with the groups of a payload applied (R395). -/
def applyCfg (s : State) (c : Nat) (p : Bytes) (x : Carrel) : Carrel :=
  let b := p.drop 4
  let x := if grp p 0 then setShares x b else x
  let x := if grp p 1 then setProtection x b else x
  let x := if grp p 2 then setResources x b else x
  if grp p 3 then netDefaults s c (setNetwork x b) else x

/-- Field groups this function may set: the Operator O fields and, for carrel 0, all; an administrator A fields (R393). -/
def cfgOwns (s : State) (fn : Nat) (p : Bytes) : Bool :=
  let c := field p 10 1
  let b := p.drop 4
  let x := s.carrel c
  let y := setShares x b
  let shares := y.shareTun == x.shareTun && y.shareFloor == x.shareFloor && y.sharePipe == x.sharePipe && y.shareKiln == x.shareKiln
  let policy := y.forceShed == x.forceShed && y.requireDeadline == x.requireDeadline && y.dlMax == x.dlMax
  if fn = 0 ∧ c = 0 then true
  else if fn = 0 then !grp p 1 && !grp p 3 && (!grp p 0 || policy)
  else c == fn && !grp p 2 && (!grp p 0 || shares)

/-- The carrel's state admits the groups (R395). -/
def cfgState (st : CarrelState) (p : Bytes) : Bool :=
  match st with
  | .configured | .quiesced => true
  | .active | .quiescing => !grp p 1 && !grp p 2 && !grp p 3
  | .absent | .frozen => false

/-- Blocks a configuration takes away. -/
def blocksLost (s : State) (c : Nat) (p : Bytes) : List Nat :=
  let new := parseRuns (p.drop 4)
  (s.cat.blocks.filter fun q => q.2 == c && !(q.1 == 0) && !((blocksOf new).contains q.1)).map (·.1)

/-- Step 7 of `CRL_CONFIG` (R395). -/
def cfgBad (s : State) (c : Nat) (p : Bytes) : Option Ans :=
  let b := p.drop 4
  let x := applyCfg s c p (s.carrel c)
  if (grp p 0 && !sharesOk b) || (grp p 1 && !protectionOk b) || (grp p 2 && (!resourcesOk s c b || blockTaken s c x.runs))
      || (grp p 3 && !networkOk c b) then some (fail St.paramInvalid)
  else if grp p 2 && (decide (x.slotQuota < slotsHeld s c) || decide (x.extentQuota < linesHeld s c)) then
    some (fail St.slotQuotaExceeded)
  else if grp p 2 && (decide (x.hopperMax < (hoppersOwned s c).length) || (blocksLost s c p).any (blockHeld s)
      || blockUnreleased s x.runs) then some (crlRejected s c)
  else if grp p 3 && vlanClash s c x.net then some (crlRejected s c)
  else none

/-- CRL_CONFIG (R395). -/
def configCmd : SyncCmd where
  spec := { code := 0x0202, role := .oa, folio := true, lenOk := lenIs 516
            rsvOk := fun p => decide (field p 0 4 < 16) && cfgFormat (p.drop 4)
            owns := cfgOwns }
  carrel := fun _ _ p => field p 10 1
  check := fun s _ p =>
    let c := field p 10 1
    if !cfgState (s.carrel c).st p then some (crlRejected s c) else cfgBad s c p
  recs := fun s _ p =>
    let c := field p 10 1
    [.carrelSet (peerCarrelHead c (applyCfg s c p (s.carrel c)) (s.carrel c).st)]
  commit := fun s _ p =>
    let c := field p 10 1
    let s := s.setCarrel c (applyCfg s c p (s.carrel c))
    let s := if grp p 2 then assignBlocks s c else s
    (archiveCarrel s c, {})

def execCrlConfig (fn : Nat) (s : State) : Res := .next (serveSync s fn configCmd)

/-! ## States (R396, R397) -/

/-- A command names a carrel in byte 0: the Operator any, an administrator its own. -/
def ownsCarrel (_ : State) (fn : Nat) (p : Bytes) : Bool := fn == 0 || field p 0 1 == fn

/-- Not carrel 0, which cannot be frozen, reset or destroyed (R397). -/
def ownsTenant (s : State) (fn : Nat) (p : Bytes) : Bool := ownsCarrel s fn p && field p 0 1 != 0

def stateRec (s : State) (c : Nat) (st : CarrelState) : SyncRec := .carrelSet (peerCarrelHead c (s.carrel c) st)

/-- Static bindings of a carrel that has become ACTIVE move to RTS (R43). -/
def establishStatic (s : State) (c : Nat) : State :=
  ((s.ports.qps.filter fun p => p.2.carrel == c && p.2.phase == .waitActive).map (·.1)).foldl establish s

/-- CRL_ACTIVATE (R397, R404, R34, R43). -/
def activateCmd : SyncCmd where
  spec := { code := 0x0203, role := .oa, lenOk := lenIs 1, owns := ownsCarrel, folio := true }
  carrel := fun _ _ p => field p 0 1
  check := fun s _ p =>
    let c := field p 0 1
    let x := s.carrel c
    if x.st = .configured ∨ x.st = .quiesced ∨ (x.st = .frozen ∧ x.exported = false) then none else some (crlRejected s c)
  recs := fun s _ p => [stateRec s (field p 0 1) .active]
  commit := fun s _ p =>
    let c := field p 0 1
    (establishStatic (takeAddresses (archiveCarrel (setCarrelState s c .active) c) c) c, {})

def execCrlActivate (fn : Nat) (s : State) : Res := .next (serveSync s fn activateCmd)

/-! ## Quiesce (R398) -/

/-- Slips of a carrel in flight. -/
def carrelSlips (s : State) (c : Nat) : List (Nat × Slip) := s.hop.slips.filter fun p => p.2.carrel == c

def isRsaKeygen (sl : Slip) : Bool := csClass sl.cs == 6 && csSet sl.cs == 0 && csOp sl.cs == 1
def isStfKeygen (sl : Slip) : Bool := csClass sl.cs == 2 && isStf 1 sl

/-- `ABORT_LONG` for one slip: ended at once where it can be, else at its next check (R398 step 3). -/
def abortLong (s : State) (sid : Nat) : State :=
  match s.slip? sid with
  | none => s
  | some sl =>
    if sl.phase = .suspended ∨ (sl.phase = .running ∧ isRsaKeygen sl = true) then abortRunning s sid sl St.aborted
    else if sl.isLong || isMceKeygen sl.cs || isStfKeygen sl then s.modSlip sid fun x => { x with abortReq := true }
    else s

/-- Steps 1 and 2 of a drain: chains that await their last slip break, staged slips that have not started end with `ABORTED`,
in hopper order (R398, R430). -/
def abortStaged (s : State) (c : Nat) : State :=
  ((hoppersOwned s c).map (·.1)).foldl (fun s hn =>
    abortSlips (breakOpenChain s hn) (fun sl => sl.hopper == hn && isStaged sl) St.aborted) s

/-- Step 4: background builds stop and open page operations end as `ABORT` would end them (R398). -/
def stopBackground (s : State) (c : Nat) : State :=
  let s := { s with ledger := { s.ledger with keys := Tab.mapVals s.ledger.keys fun n k =>
      if (s.slot n).owner = c then { k with building := [] } else k } }
  (busyPages s (· == c)).foldl (fun s k => abortPage s (k / 4) (k % 4)) s

/-- CRL_QUIESCE (R397, R398): `DETAIL` counts the slips staged or running. -/
def quiesceCmd : SyncCmd where
  spec := { code := 0x0204, role := .oa, lenOk := lenIs 2, owns := ownsCarrel, folio := true
            rsvOk := fun p => decide (field p 1 1 < 2) }
  carrel := fun _ _ p => field p 0 1
  check := fun s _ p =>
    let c := field p 0 1
    match (s.carrel c).st with
    | .active | .configured => none
    | .quiescing => if bit (field p 1 1) 0 then none else some (crlRejected s c)
    | .absent | .quiesced | .frozen => some (crlRejected s c)
  recs := fun s _ p =>
    let c := field p 0 1
    match (s.carrel c).st with
    | .active => [stateRec s c .quiescing]
    | .configured => [stateRec s c .quiesced]
    | _ => []
  commit := fun s _ p =>
    let c := field p 0 1
    let n := (carrelSlips s c).length
    match (s.carrel c).st with
    | .configured => (archiveCarrel (setCarrelState s c .quiesced) c, {})
    | _ =>
      let s := setCarrelState s c .quiescing
      let s := abortStaged s c
      let s := if bit (field p 1 1) 0 then ((carrelSlips s c).map (·.1)).foldl abortLong s else s
      (archiveCarrel (stopBackground s c) c, { detail := n })

def execCrlQuiesce (fn : Nat) (s : State) : Res := .next (serveSync s fn quiesceCmd)

/-- QUIESCE_COMPLETE (R398 step 5): nothing of the carrel is staged or running. -/
def execQuiesceComplete (carrel : Nat) (s : State) : Res :=
  if (s.carrel carrel).st ≠ .quiescing ∨ (carrelSlips s carrel).isEmpty = false then .next s
  else if mirrors s carrel then .next (sendSync s [stateRec s carrel .quiesced] (.quiesced carrel))
  else .next (setCarrelState s carrel .quiesced)

/-- CRL_FREEZE (R404): the carrel administrator alone; no export has completed since. -/
def freezeCmd : SyncCmd where
  spec := { code := 0x0205, role := .a, lenOk := lenIs 0, folio := true }
  carrel := fun _ fn _ => fn
  check := fun s fn _ => if (s.carrel fn).st = .quiesced then none else some (crlRejected s fn)
  recs := fun s fn _ => [stateRec s fn .frozen]
  commit := fun s fn _ =>
    let s := setCarrelState s fn .frozen
    (archiveCarrel (s.setCarrel fn { s.carrel fn with exported := false }) fn, {})

def execCrlFreeze (fn : Nat) (s : State) : Res := .next (serveSync s fn freezeCmd)

/-! ## Reset, destruction, renewal (R401 to R403) -/

/-- What the peer is told of a reset. -/
def resetRecs (s : State) (c : Nat) : List SyncRec :=
  [stateRec s c .configured]
    ++ (s.ports.tokens.filter fun p => p.2.carrel == c).map (fun p => SyncRec.tokenRevoked p.1)
    ++ (hoppersOwned s c).map (fun p => SyncRec.hopperSet c { peerHopper p.1 p.2 with state := 0 })
    ++ ((resetSlots s c).filter fun n => (s.slot n).mirrored).map
        fun n => SyncRec.slotGone n (raiseGen (s.slot n) 1).ownGen none

/-- The reset would remove every enrolled administrator key of the carrel, which R371 refuses. -/
def resetStrands (s : State) (c : Nat) : Bool :=
  !(enrolled s c).isEmpty && (enrolled s c).all fun n => (resetSlots s c).contains n

/-- CRL_RESET (R401). -/
def resetCmd : SyncCmd where
  spec := { code := 0x0209, role := .oa, lenOk := lenIs 1, owns := ownsTenant, folio := true }
  carrel := fun _ _ p => field p 0 1
  check := fun s _ p =>
    let c := field p 0 1
    if (s.carrel c).st = .quiesced ∧ resetStrands s c = false then none else some (crlRejected s c)
  recs := fun s _ p => resetRecs s (field p 0 1)
  commit := fun s _ p =>
    let c := field p 0 1
    let s := resetCarrel s c
    let s := (resetSlots s c).foldl deaccessionCommit s
    let s := withdrawAddresses (bumpEpoch s c) c
    (archiveCarrel (setCarrelState s c .configured) c, {})

def execCrlReset (fn : Nat) (s : State) : Res := .next (serveSync s fn resetCmd)

/-- CRL_DESTROY (R402). -/
def execCrlDestroy (fn : Nat) (s : State) : Res :=
  .next (serve s fn { code := 0x0208, role := .o, lenOk := lenIs 1, owns := ownsTenant, folio := true } fun s p =>
    let c := field p 0 1
    if (s.carrel c).st ≠ .quiesced ∧ (s.carrel c).st ≠ .frozen then .done s (crlRejected s c)
    else
      startDeac s fn c [] [.slotGone c (raiseGen (s.slot c) 1).ownGen none, .carrelGone c] true c)

/-- CRL_ANCHOR_RENEW (R403): with a replacement first administrator key. -/
def execCrlAnchorRenew (fn : Nat) (s : State) : Res :=
  .next (serve s fn
    { code := 0x020B, role := .o, lenOk := fun n => n == 1 || decide (6 ≤ n), folio := true
      rsvOk := fun p => p.length == 1 || (field p 1 1 == 0 && p.length == 6 + field p 4 2)
      owns := ownsCarrel } fun s p =>
    let c := field p 0 1
    let key := p.drop 6
    if (s.carrel c).st ≠ .quiesced ∨ p.length < 6 ∨ key.isEmpty = true then .done s (crlRejected s c)
    else match adminKeyBad (field p 2 2) key with
      | some st => .done s (fail st)
      | none => withRandom s 32 fun s _ =>
        let t := renewCommit s c (field p 2 2) key
        let n := firstSlot (s.carrel c)
        startDeac s fn c [] [.slotSet (peerSlot c (t.slot c)) none, .slotSet (peerSlot n (t.slot n)) none] true c)

/-! ## Statistics (R414) -/

def statsBytes (s : State) (c : Nat) : Bytes :=
  let x := s.carrel c
  let d := s.dl c
  let held := ((hoppersOwned s c).map fun p => p.2.held.length).sum
  le 1 (carrelCode x.st) ++ zeros 1 ++ le 2 (hoppersOwned s c).length ++ le 4 (epoch s c) ++ le 8 x.stats.slips.toNat
    ++ le 8 x.stats.rxDrop.toNat ++ le 8 x.stats.dbErr.toNat ++ le 8 x.stats.qpErr.toNat ++ le 4 held
    ++ le 4 (s.cat.slots.filter fun p => p.2.valid && p.2.owner == c).length ++ le 4 (linesHeld s c) ++ le 4 (orphansHeld s c)
    ++ le 8 d.missTot.toNat ++ le 8 d.shedTot.toNat ++ le 8 x.stats.failed.toNat

def execCrlStats (fn : Nat) (s : State) : Res :=
  .next (serve s fn { code := 0x020A, role := .oa, lenOk := lenIs 1, owns := ownsCarrel } fun s p =>
    .done s { payload := statsBytes s (field p 0 1) })

end Sys2Proof.Machine
end

