-- ==== Sys2Proof/Machine/HopCmds.lean ====
section
/-!
DEFINITION. The hopper and binding commands (R38, R43, R63 to R66, R375, R376).
-/

namespace Sys2Proof.Machine

/-- A payload names in its first four bytes a hopper of the function's carrel (R367 step 4). -/
def ownsHopper (s : State) (fn : Nat) (p : Bytes) : Bool := (s.hopper? (field p 0 4)).any fun h => h.carrel == fn

/-- `STATE_REJECTED` for a hopper's state (object 0x03). -/
def hopRejected (s : State) (hn : Nat) : Ans := rejected 3 (((s.hopper? hn).map fun h => hopCode h.state).getD 0)

/-- A hopper is STOPPED and holds no return slip (R66). -/
def hopIdle (s : State) (hn : Nat) : Bool := (s.hopper? hn).any fun h => h.state == .stopped && h.held.isEmpty

/-! ## HOP_CREATE, HOP_CONFIG (R63, R66, R376) -/

/-- Hoppers the device holds (R63, R525). -/
def hopperLimit (s : State) : Nat := if s.qdr.paired then 131072 else 262144

/-- The lowest hopper number and the carrel's lowest index that are free. -/
def nextHopper (s : State) (c : Nat) : Option (Nat × Nat) :=
  match lowestFreeFrom (Tab.keys s.hop.hoppers) (hopperLimit s) 0,
      lowestFreeFrom ((hoppersOwned s c).map fun p => p.2.index) 65536 0 with
  | some n, some k => some (n, k)
  | _, _ => none

def blockHopper (c index : Nat) (b : Bytes) : Hopper := applyBlock { carrel := c, index := index } 0xFFF b

def hopCreateCmd : SyncCmd where
  spec := { code := 0x0301, role := .oa, lenOk := lenIs 48, rsvOk := blockFormat, folio := true }
  carrel := fun _ fn _ => fn
  check := fun s fn p =>
    let x := s.carrel fn
    if !adminOpen s fn then some (crlRejected s fn)
    else if !hopperOk (blockHopper fn 0 p) (field p 29 1) then some (fail St.paramInvalid)
    else if decide (x.hopperMax ≤ (hoppersOwned s fn).length) then some (crlRejected s fn)
    else if (bit (field p 35 1) 1 && decide (4096 ≤ urgentCount s)) || (nextHopper s fn).isNone then some (devRejected s)
    else none
  recs := fun s fn p => match nextHopper s fn with
    | some (n, k) => [.hopperSet fn (peerHopper n (blockHopper fn k p))]
    | none => []
  commit := fun s fn p => match nextHopper s fn with
    | some (n, k) => (archiveCarrel (s.setHopper n (blockHopper fn k p)) fn, { payload := le 4 n ++ le 2 k })
    | none => (s, devRejected s)

def execHopCreate (fn : Nat) (s : State) : Res := .next (serveSync s fn hopCreateCmd)

/-- The hopper with the fields that a payload's mask names. -/
def hopNew (s : State) (p : Bytes) : Option Hopper := (s.hopper? (field p 0 4)).map fun h => applyBlock h (field p 4 4) (p.drop 8)

/-- HOP_CONFIG (R66): fields 0 to 6 change only while the hopper is STOPPED and holds no return slip. -/
def hopConfigCmd : SyncCmd where
  spec := { code := 0x0302, role := .oa, lenOk := lenIs 56, folio := true, owns := ownsHopper
            rsvOk := fun p => decide (field p 4 4 < 4096) && blockFormat (p.drop 8) }
  carrel := fun _ fn _ => fn
  check := fun s fn p =>
    let mask := field p 4 4
    match s.hopper? (field p 0 4), hopNew s p with
    | some h, some x =>
      if !adminOpen s fn then some (crlRejected s fn)
      else if mask % 128 != 0 && !hopIdle s (field p 0 4) then some (hopRejected s (field p 0 4))
      else if !hopperOk x (if bit mask 5 then field p 37 1 else 0) then some (fail St.paramInvalid)
      else if x.urgent && !h.urgent && decide (4096 ≤ urgentCount s) then some (devRejected s)
      else none
    | _, _ => some (fail St.roleDenied)
  recs := fun s fn p => match hopNew s p with
    | some x => [.hopperSet fn (peerHopper (field p 0 4) x)]
    | none => []
  commit := fun s fn p => match hopNew s p with
    | some x => (archiveCarrel (s.setHopper (field p 0 4) x) fn, {})
    | none => (s, {})

def execHopConfig (fn : Nat) (s : State) : Res := .next (serveSync s fn hopConfigCmd)

/-! ## HOP_START, HOP_STOP, HOP_DELETE, HOP_RESET_IDX, HOP_QUERY (R64, R66, R87, R93) -/

def hopStateRec (s : State) (fn hn : Nat) (st : HopState) : List SyncRec :=
  match s.hopper? hn with
  | some h => [.hopperSet fn (peerHopper hn { h with state := st })]
  | none => []

/-- A command on a hopper that is admitted while `ok` holds of it. -/
def hopCheck (s : State) (fn : Nat) (p : Bytes) (ok : Hopper → Bool) : Option Ans :=
  if !adminOpen s fn then some (crlRejected s fn)
  else if (s.hopper? (field p 0 4)).any ok then none
  else some (hopRejected s (field p 0 4))

def hopSpec (code : Nat) : CmdSpec := { code := code, role := .oa, lenOk := lenIs 4, owns := ownsHopper, folio := true }

def hopStartCmd : SyncCmd where
  spec := hopSpec 0x0303
  carrel := fun _ fn _ => fn
  check := fun s fn p => hopCheck s fn p fun h => h.state == .stopped && !h.broken
  recs := fun s fn p => hopStateRec s fn (field p 0 4) .active
  commit := fun s fn p => (archiveCarrel (setHopState s (field p 0 4) .active) fn, {})

def execHopStart (fn : Nat) (s : State) : Res := .next (serveSync s fn hopStartCmd)

/-- HOP_STOP (R64, R87): a chain that waits for its last slip ends with `CHAIN_BROKEN`. -/
def hopStopCmd : SyncCmd where
  spec := hopSpec 0x0304
  carrel := fun _ fn _ => fn
  check := fun s fn p => hopCheck s fn p fun h => h.state == .active
  recs := fun s fn p => hopStateRec s fn (field p 0 4) .stopping
  commit := fun s fn p => (archiveCarrel (breakOpenChain (setHopState s (field p 0 4) .stopping) (field p 0 4)) fn, {})

def execHopStop (fn : Nat) (s : State) : Res := .next (serveSync s fn hopStopCmd)

/-- A static binding covers the hopper (R66). -/
def staticCovers (s : State) (hn : Nat) : Bool :=
  s.ports.qps.any fun p => p.2.static && decide (p.2.hopFirst ≤ hn) && decide (hn < p.2.hopFirst + p.2.hopCount)

/-- Tokens whose run includes a hopper. -/
def tokensOver (s : State) (hn : Nat) : List Nat :=
  (s.ports.tokens.filter fun p => decide (p.2.first ≤ hn) && decide (hn < p.2.first + p.2.count) && !p.2.revoked).map (·.1)

def revokeToken (s : State) (i : Nat) : State :=
  { s with ports := { s.ports with tokens := Tab.mod s.ports.tokens i fun t => { t with revoked := true } } }

/-- Delete a hopper (R66): its tokens are revoked, its queue pair gets a DREQ. -/
def deleteHopper (s : State) (hn : Nat) : State :=
  let s := (tokensOver s hn).foldl revokeToken s
  let s := match (s.hopper? hn).bind (·.qpn) with
    | some q => closeQp s q
    | none => s
  dropHopper s hn

def hopDeleteCmd : SyncCmd where
  spec := hopSpec 0x0305
  carrel := fun _ fn _ => fn
  check := fun s fn p =>
    if !adminOpen s fn then some (crlRejected s fn)
    else if hopIdle s (field p 0 4) && !staticCovers s (field p 0 4) then none
    else some (hopRejected s (field p 0 4))
  recs := fun s _ p => .hopperGone (field p 0 4) :: (tokensOver s (field p 0 4)).map SyncRec.tokenRevoked
  commit := fun s fn p => (archiveCarrel (deleteHopper s (field p 0 4)) fn, {})

def execHopDelete (fn : Nat) (s : State) : Res := .next (serveSync s fn hopDeleteCmd)

def hopResetCmd : SyncCmd where
  spec := hopSpec 0x0306
  carrel := fun _ fn _ => fn
  check := fun s fn p =>
    if !adminOpen s fn then some (crlRejected s fn)
    else if hopIdle s (field p 0 4) then none
    else some (hopRejected s (field p 0 4))
  recs := fun s fn p => hopStateRec s fn (field p 0 4) .stopped
  commit := fun s _ p => (s.modHopper (field p 0 4) zeroIndices, {})

def execHopResetIdx (fn : Nat) (s : State) : Res := .next (serveSync s fn hopResetCmd)

def execHopQuery (fn : Nat) (s : State) : Res :=
  .next (serve s fn { code := 0x0307, role := .oa, lenOk := lenIs 4, owns := ownsHopper } fun s p =>
    match s.hopper? (field p 0 4) with
    | some h => if adminOpen s fn then .done s { payload := sbBytes s (field p 0 4) h h.sbSeq ++ hopBlock h }
                else .done s (crlRejected s fn)
    | none => .done s (fail St.roleDenied))

/-! ## Bindings (R38, R43, R57) -/

/-- Every hopper of a run belongs to the carrel. -/
def runOwned (s : State) (c first count : Nat) : Bool :=
  (runOf first (min count 64)).all fun hn => (s.hopper? hn).any fun h => h.carrel == c

def mtuOk (m : Nat) : Bool := [256, 512, 1024, 2048, 4096].contains m

/-- The token's 16 random bytes: fresh for each `TOKEN_ID` (log 71). -/
def tokenValue (id : Nat) : BitVec 128 :=
  BitVec.ofNat 128 (unle ((List.range 16).map fun i => BitVec.ofNat 8 (Config.freeNat 141 [id, i])))

def tokenOf (s : State) (_ : Nat) (p : Bytes) : PeerToken :=
  { id := s.ports.nextToken, value := tokenValue s.ports.nextToken, first := field p 0 4, count := field p 4 2
    mtu := field p 6 2, expiry := field p 8 8 }

def tokenIssueCmd : SyncCmd where
  spec := { code := 0x0310, role := .oa, lenOk := lenIs 16, owns := fun s fn p => runOwned s fn (field p 0 4) (field p 4 2) }
  carrel := fun _ fn _ => fn
  check := fun s fn p =>
    if !adminOpen s fn then some (crlRejected s fn)
    else if field p 4 2 = 0 ∨ 64 < field p 4 2 ∨ mtuOk (field p 6 2) = false then some (fail St.paramInvalid)
    else none
  recs := fun s fn p => [.tokenSet fn (tokenOf s fn p)]
  commit := fun s fn p =>
    let t := tokenOf s fn p
    (putToken s fn t, { payload := le 16 t.value.toNat ++ le 4 t.id })

/-- BIND_TOKEN_ISSUE (R38): the token draws on the entropy unit. -/
def execBindTokenIssue (fn : Nat) (s : State) : Res :=
  if syncBusy s then .next s
  else .next (serve s fn tokenIssueCmd.spec fun s p =>
    match tokenIssueCmd.check s fn p with
    | some a => .done s a
    | none => withRandom s 16 fun s _ => syncBody tokenIssueCmd s fn p)

/-- Queue pairs bound under a token. -/
def tokenQps (s : State) (i : Nat) : List Nat := (s.ports.qps.filter fun p => p.2.token == some i).map (·.1)

def tokenRevokeCmd : SyncCmd where
  spec := { code := 0x0311, role := .oa, lenOk := lenIs 5, rsvOk := fun p => decide (field p 4 1 < 2)
            owns := fun s fn p => (Tab.get? s.ports.tokens (field p 0 4)).any fun t => t.carrel == fn }
  carrel := fun _ fn _ => fn
  check := fun s fn _ => if adminOpen s fn then none else some (crlRejected s fn)
  recs := fun _ _ p => [.tokenRevoked (field p 0 4)]
  commit := fun s _ p =>
    let s := revokeToken s (field p 0 4)
    (if bit (field p 4 1) 0 then (tokenQps s (field p 0 4)).foldl closeQp s else s, {})

def execBindTokenRevoke (fn : Nat) (s : State) : Res := .next (serveSync s fn tokenRevokeCmd)

/-- The queue pair a static binding makes (R43). -/
def staticQp (s : State) (c : Nat) (p : Bytes) : Qp :=
  { carrel := c, phase := .waitActive, static := true, hopFirst := field p 36 4, hopCount := field p 34 2
    peerQpn := field p 4 4, peerGid := BitVec.ofNat 128 (unbe (slice p 8 16)), port := field p 40 2, pmtu := field p 32 2
    readDepth := field p 42 1, immGranted := bit (field p 43 1) 0
    dbRkey := BitVec.ofNat 32 (Config.freeNat 142 [field p 0 4, s.ports.nextReq])
    sendPsn := BitVec.ofNat 24 (field p 24 4), recvPsn := BitVec.ofNat 24 (field p 28 4)
    srcPort := BitVec.ofNat 16 (0xC000 + Config.freeNat 101 [field p 0 4] % 0x4000) }

/-- A hopper of the run is bound, or cannot be bound (R43, R66). -/
def runTaken (s : State) (first count : Nat) : Option Nat :=
  (runOf first count).find? fun hn => !bindable s hn || ((s.hopper? hn).bind (·.qpn)).isSome

def bindStaticCmd : SyncCmd where
  spec := { code := 0x0312, role := .oa, lenOk := lenIs 44
            rsvOk := fun p => decide (field p 24 4 < 2 ^ 24) && decide (field p 28 4 < 2 ^ 24) && decide (field p 43 1 < 2)
            owns := fun s fn p => runOwned s fn (field p 36 4) (field p 34 2) }
  carrel := fun _ fn _ => fn
  check := fun s fn p =>
    let q := field p 0 4
    if !adminOpen s fn then some (crlRejected s fn)
    else if q < 0x100 ∨ 0x100 + 262144 ≤ q ∨ 2 ^ 24 ≤ field p 4 4 ∨ mtuOk (field p 32 2) = false ∨ field p 34 2 = 0
        ∨ 64 < field p 34 2 ∨ field p 42 1 = 0 ∨ 16 < field p 42 1
        ∨ (s.carrel fn).net.ports.contains (field p 40 2) = false then some (fail St.paramInvalid)
    else if Tab.has s.ports.qps q then some (hopRejected s (field p 36 4))
    else match runTaken s (field p 36 4) (field p 34 2) with
      | some hn => some (hopRejected s hn)
      | none => none
  recs := fun _ _ p => [.staticBinding (field p 0 4)]
  commit := fun s fn p =>
    let q := field p 0 4
    let s := s.setQp q (staticQp s fn p)
    (if (s.carrel fn).st = .active then establish s q else s, {})

def execBindStatic (fn : Nat) (s : State) : Res := .next (serveSync s fn bindStaticCmd)

/-- BIND_RELEASE (R57): DREQ; a static binding's release is mirrored (R423). -/
def bindReleaseCmd : SyncCmd where
  spec := { code := 0x0313, role := .oa, lenOk := lenIs 4
            owns := fun s fn p => (s.qp? (field p 0 4)).any fun q => q.carrel == fn }
  carrel := fun _ fn _ => fn
  check := fun s fn _ => if adminOpen s fn then none else some (crlRejected s fn)
  recs := fun s _ p => if (s.qp? (field p 0 4)).any (·.static) then [.staticBinding (field p 0 4)] else []
  commit := fun s _ p => (closeQp s (field p 0 4), {})

def execBindRelease (fn : Nat) (s : State) : Res := .next (serveSync s fn bindReleaseCmd)

end Sys2Proof.Machine
end

