-- ==== Sys2Proof/Machine/CatCmds.lean ====
section
/-!
DEFINITION. The catalogue's mailbox commands (R335, R377, R332).
-/

namespace Sys2Proof.Machine

/-! ## What an import brings (R335, R377) -/

/-- A shelfmark field whose reserved bits are zero (R5). -/
def shelfFormat (v : Nat) : Bool := decide (v < 2 ^ 21)

/-- Lengths and reserved fields of the payload of `CAT_IMPORT` and `CAT_REPLACE` (R377). -/
def importFormat (p : Bytes) : Bool :=
  let v := field p 0 4
  let inline := field p 68 8 == 0
  (v == v % 2 ^ 21 || v == 2 ^ 30 + v % 2 ^ 21) && segReservedOk p && field p 76 4 == 0
    && (if inline then decide (field p 64 4 ≤ 4000) && p.length == 80 + field p 64 4 else p.length == 80)

def importAlloc (p : Bytes) : Bool := bit (field p 0 4) 30
def importShelf (p : Bytes) : Nat := field p 0 4 % 2 ^ 21

/-- The curve slot from which a slot with this parent descends. -/
def curveAbove (s : State) : Nat → Nat → Option Slot
  | 0, _ => none
  | fuel + 1, n =>
    let x := s.slot n
    if x.keyClass = 0x7A then some x else if x.depth = 0 then none else curveAbove s fuel x.parent

/-- An RSA private key: n = p q, the factors in range, the CRT values consistent (R291, R335). -/
def rsaKeyOk (m : Bytes) : Bool :=
  let k := rsaK 0x60 m.length
  let h := k / 2
  let n := unbe (m.take k)
  let e := unbe (slice m k 4)
  let part (i : Nat) := unbe (slice m (k + 4 + i * h) h)
  let p := part 0
  let q := part 1
  let inRange (x : Nat) : Bool := decide (2 ^ (4 * k - 1) ≤ x) && decide (x < 2 ^ (4 * k))
  n == p * q && m.headD 0 != 0 && inRange p && inRange q && part 2 * e % (p - 1) == 1 && decide (part 2 < p - 1)
    && part 3 * e % (q - 1) == 1 && decide (part 3 < q - 1) && part 4 * q % p == 1 && decide (part 4 < p)

/-- A public point or an RSA private key that does not stand (R335). A loaded curve's point is judged on the curve above its
parent; without one there is no curve on which it lies (log 72). -/
def materialBad (s : State) (parent cls : Nat) (m : Bytes) : Bool :=
  if 0x6C ≤ cls ∧ cls ≤ 0x6E then ((nistCurve (cls - 0x6B)).pubPoint m).isNone
  else if cls = 0x72 then !Config.holds (.edPublic 4) [m]
  else if cls = 0x75 then !Config.holds (.edPublic 5) [m]
  else if cls = 0x79 then (match curveAbove s 9 parent with
    | some x => ((slotCurve x).pubPoint m).isNone
    | none => true)
  else if cls = 0x60 then !rsaKeyOk m
  else false

/-- Class and material of an import (step 7 of R367). -/
def importBad (s : State) (parent cls : Nat) (m : Bytes) : Option Nat :=
  if isStfPrivate cls || cls == 0x7A || !classDefined cls then some St.paramInvalid
  else if !classFits cls m.length then some St.lengthMismatch
  else if materialBad s parent cls m then some St.inputMalformed
  else none

/-- The parent by rules 4 and 5 of R324. -/
def importParent (c : Nat) (a : SegAttr) : Nat := if bit a.flags 3 then a.parent else c

/-! ## CAT_IMPORT -/

/-- The slot an import takes and its first extent line, or why it is refused. A waiting import has its slot already. -/
def importPlan (s : State) (fn : Nat) (p host : Bytes) : Except Ans (Nat × Nat) :=
  let a := parseSeg p
  let m := importMaterial p host
  let parent := importParent fn a
  if !adminOpen s fn then .error (crlRejected s fn)
  else if bit a.flags 0 && queueFull s then .error (folRejected s)
  else match (if bit a.flags 3 then slotCheck13 s fn parent else none) with
    | some st => .error (fail st)
    | none => match importBad s parent a.cls m with
      | some st => .error (fail st)
      | none =>
        let x := s.slot parent
        if 8 < x.depth + 1 || (bit a.flags 0 && !x.persistent) then .error (fail St.paramInvalid)
        else
          let claim := (s.mbx fn).claim
          match destCheck s fn (importAlloc p && claim.isNone) (claim.getD (importShelf p)) m.length with
          | .error st => .error (fail st)
          | .ok r => .ok r

/-- The new slot of an import. -/
def importSlot (s : State) (fn : Nat) (p host : Bytes) : Slot :=
  let a := parseSeg p
  newSlot s fn (importParent fn a) a a.cls (importMaterial p host)

/-- Write the new slot and answer with its shelfmark and generation. -/
def importCommit (s : State) (fn : Nat) (p host : Bytes) (n : Nat) : State × Ans :=
  let s := createAt s n (importSlot s fn p host)
  (s, { payload := le 4 n ++ le 4 (s.slot n).ownGen.toNat })

def importSpec : CmdSpec :=
  { code := 0x0401, role := .oa, lenOk := fun n => decide (80 ≤ n), rsvOk := importFormat }

/-- CAT_IMPORT (R335): a mirrored slot commits when the standby has acknowledged it, its slot reserved until then. -/
def execCatImport (fn : Nat) (host : Bytes) (s : State) : Res :=
  if syncBusy s then .next s
  else .next (serve s fn importSpec fun s p =>
    match importPlan s fn p host with
    | .error a => .done s a
    | .ok (n, line) =>
      let x := importSlot s fn p host
      if !x.mirrored then .done (importCommit s fn p host n).1 (importCommit s fn p host n).2
      else if syncBlocked s fn then .done (syncRefused s) syncRejected
      else if !mirrors s fn then .done (importCommit s fn p host n).1 (importCommit s fn p host n).2
      else
        let rec1 := futureSlot s n 1 x
        let w := s.mirror.nextSync
        let s := claimSlot s fn n line x.keyLen
        let s := s.setMbx fn { s.mbx fn with claim := some n, host := host }
        .wait (sendSync s [.slotSet rec1 none] (.mailbox fn)) (.mirror w))

/-- The standby has acknowledged an import (R363, R423). -/
def importAcked (s : State) (fn : Nat) : State :=
  let m := s.mbx fn
  let p := framePayload m
  match m.claim with
  | none => respond s fn (fail St.slotOccupied)
  | some n =>
    let s := releaseClaim s n
    let plan := importPlan s fn p m.host
    let s := s.setMbx fn { s.mbx fn with claim := none }
    match plan with
    | .error a => respond s fn a
    | .ok _ => respond (importCommit s fn p m.host n).1 fn (importCommit s fn p m.host n).2

/-! ## CAT_REPLACE, CAT_DEACCESSION (R332, R335) -/

/-- An anchor is named: refused for every role (R332). -/
def notAnchor (_ : State) (_ : Nat) (p : Bytes) : Bool := decide (256 ≤ importShelf p)

/-- Step 6 of both commands. -/
def deacState6 (s : State) (fn n : Nat) : Option Ans :=
  if !adminOpen s fn then some (crlRejected s fn)
  else if inAllot s fn n && (s.slot n).valid && lastAdmin s fn n then some (crlRejected s fn)
  else if inAllot s fn n && (s.slot n).valid && (s.slot n).persistent && queueFull s then some (folRejected s)
  else if (s.slot n).deacPending.isSome then some (devRejected s)
  else none

/-- Step 7 of `CAT_REPLACE`. -/
def replaceBad (s : State) (fn n : Nat) (p m : Bytes) : Option Nat :=
  let a := parseSeg p
  let old := s.slot n
  match slotCheck13 s fn n with
  | some st => some st
  | none =>
    if a.cls ≠ old.keyClass then some St.paramInvalid
    else match importBad s old.parent a.cls m with
      | some st => some st
      | none =>
        let need := extentLines m.length
        let freed := (s.setSlot n { old with extent := false })
        if bit a.flags 0 && !(s.slot old.parent).persistent then some St.paramInvalid
        else if (s.carrel fn).extentQuota < linesHeld freed fn + need && need != 0 then some St.slotQuotaExceeded
        else if need != 0 && (extentPlace freed need).isNone then some St.slotQuotaExceeded
        else none

/-- CAT_REPLACE (R335): two generations in one commit. -/
def execCatReplace (fn : Nat) (host : Bytes) (s : State) : Res :=
  .next (serve s fn
    { code := 0x0402, role := .oa, lenOk := fun n => decide (80 ≤ n), owns := notAnchor
      rsvOk := fun p => importFormat p && !importAlloc p && !bit (parseSeg p).flags 3 } fun s p =>
    let n := importShelf p
    let old := s.slot n
    let m := importMaterial p host
    match deacState6 s fn n with
    | some a => .done s a
    | none => match replaceBad s fn n p m with
      | some st => .done s (fail st)
      | none =>
        let x := { payloadSlot s fn old.parent p m with depth := old.depth, parentGen := old.parentGen }
        let recs := if x.mirrored then [SyncRec.slotSet (futureSlot s n 2 x) none]
          else [SyncRec.slotGone n (raiseGen old 1).ownGen none]
        startDeac s fn n host recs (old.mirrored || x.mirrored) fn)

/-- CAT_DEACCESSION by mailbox (R332, R335). -/
def execCatDeaccessionCmd (fn : Nat) (s : State) : Res :=
  .next (serve s fn
    { code := 0x0403, role := .oa, lenOk := lenIs 4, owns := notAnchor, rsvOk := fun p => shelfFormat (field p 0 4) } fun s p =>
    let n := field p 0 4
    match deacState6 s fn n with
    | some a => .done s a
    | none => match slotCheck13 s fn n with
      | some st => .done s (fail st)
      | none => startDeac s fn n [] [.slotGone n (raiseGen (s.slot n) 1).ownGen none] (s.slot n).mirrored fn)

/-! ## CAT_SET_ATTR, CAT_QUERY, CAT_ENROL_SIGNER (R335) -/

/-- A slot with the attributes of a `CAT_SET_ATTR` payload. -/
def withAttrs (x : Slot) (p : Bytes) : Slot :=
  { x with
    usage := BitVec.ofNat 10 (field p 4 2), persistent := bit (field p 6 1) 0, approvedOnly := bit (field p 6 1) 1
    useLimit := field p 8 8, expiry := field p 16 8 }

/-- A limit or an expiry that only narrows; 0 is none. -/
def narrows (old new : Nat) : Bool := old == 0 || (new != 0 && decide (new ≤ old))

/-- No attribute is widened, and a key made persistent has a persistent parent (R324, R335). -/
def attrsOk (s : State) (x y : Slot) : Bool :=
  y.usage &&& x.usage == y.usage && (!x.persistent || y.persistent) && (!x.approvedOnly || y.approvedOnly)
    && narrows x.useLimit y.useLimit && narrows x.expiry y.expiry
    && (!y.persistent || x.persistent || (s.slot x.parent).persistent)

/-- A change of attributes of a persistent slot brings its archive record due (R334). -/
def putAttrs (s : State) (n : Nat) (x : Slot) : State :=
  let s := s.setSlot n x
  if x.persistent then { s with cat := { s.cat with archivePending := Tab.set s.cat.archivePending n s.now } } else s

def setAttrCmd : SyncCmd where
  spec := { code := 0x0404, role := .oa, lenOk := lenIs 24
            rsvOk := fun p => shelfFormat (field p 0 4) && decide (field p 4 2 < 1024) && decide (field p 6 2 < 4) }
  carrel := fun _ fn _ => fn
  check := fun s fn p =>
    let n := field p 0 4
    let x := s.slot n
    if !adminOpen s fn then some (crlRejected s fn)
    else if (withAttrs x p).persistent && queueFull s then some (folRejected s)
    else match slotCheck13 s fn n with
      | some st => some (fail st)
      | none => if attrsOk s x (withAttrs x p) then none else some (fail St.paramInvalid)
  recs := fun s _ p =>
    let n := field p 0 4
    if (s.slot n).mirrored then [.slotSet (peerSlot n (withAttrs (s.slot n) p)) none] else []
  commit := fun s _ p =>
    let n := field p 0 4
    (putAttrs s n (withAttrs (s.slot n) p), {})

def execCatSetAttr (fn : Nat) (s : State) : Res := .next (serveSync s fn setAttrCmd)

def execCatQuery (fn : Nat) (s : State) : Res :=
  .next (serve s fn { code := 0x0405, role := .oa, lenOk := lenIs 4, rsvOk := fun p => shelfFormat (field p 0 4) } fun s p =>
    let n := field p 0 4
    if !adminOpen s fn then .done s (crlRejected s fn)
    else if inAllot s fn n then .done s { payload := slotBytes (s.slot n) }
    else .done s (fail St.keyCarrelMismatch))

/-- CAT_ENROL_SIGNER (R335, R169): clearing the mark retires the active image that the key signed. -/
def execCatEnrolSigner (fn : Nat) (s : State) : Res :=
  .next (serve s fn
    { code := 0x0406, role := .o, lenOk := lenIs 5
      rsvOk := fun p => shelfFormat (field p 0 4) && decide (field p 4 1 < 2) } fun s p =>
    let n := field p 0 4
    match slotCheck13 s 0 n with
    | some st => .done s (fail st)
    | none =>
      let x := s.slot n
      if x.persistent && queueFull s then .done s (folRejected s)
      else if x.keyClass ≠ 0x19 ∧ x.keyClass ≠ 0x1A ∧ x.keyClass ≠ 0x6D then .done s (fail St.keyUsageDenied)
      else
        let s := putAttrs s n { x with ostkSigner := bit (field p 4 1) 0 }
        .done (if signerOk s then s else retireImage s) {})

end Sys2Proof.Machine
end

