-- ==== Sys2Proof/Machine/MirCmds.lean ====
section
/-!
DEFINITION. The mirror commands: pairing, rejoining, unpairing, arbitration, rehoming, status (R420, R430 to R433).
-/

namespace Sys2Proof.Machine

/-! ## MIR_PAIR (R420, R432) -/

def pairSpec : CmdSpec :=
  { code := 0x0601, role := .o, lenOk := lenIs 17, rsvOk := fun p => decide (field p 16 1 < 2) }

/-- The command in the window is `MIR_PAIR` with this value of `REJOIN`. -/
def rejoinIs (s : State) (fn : Nat) (b : Bool) : Bool := bit (field (framePayload (s.mbx fn)) 16 1) 0 == b

/-- Life-cycle states in which a device pairs (R420). -/
def lcsPairs (s : State) : Bool := s.tmp.lcs == .provisioned || s.tmp.lcs == .service

/-- Start pairing or rejoining with the peer named; the response comes when it ends (R420 step 4). -/
def startPair (s : State) (p : Bytes) (st : PairState) : CmdRes :=
  .wait (setPair { s with mirror := { s.mirror with peerSerial := p.take 16, copied := false } } st) .pairing

def execMirPair (fn : Nat) (s : State) : Res :=
  if !rejoinIs s fn false then .next s
  else .next (serve s fn pairSpec fun s p =>
    if s.mirror.state ≠ .unpaired || !lcsPairs s then .done s (pairRejected s) else startPair s p .pairing)

def execMirPairRejoin (fn : Nat) (s : State) : Res :=
  if !rejoinIs s fn true then .next s
  else .next (serve s fn pairSpec fun s p =>
    if (s.mirror.state ≠ .unpaired ∧ s.mirror.state ≠ .degraded ∧ s.mirror.state ≠ .solo) || !lcsPairs s then
      .done s (pairRejected s)
    else startPair s p .rejoining)

/-! ## PAIRING_COMPLETE (R420, R432, R238) -/

/-- A pairing that fails ends UNPAIRED, its command with this answer (R420 step 2). -/
def failPairing (s : State) (a : State → Ans) : State :=
  let s := setPair s .unpaired
  answerAll s .pairing (a s)

/-- Discard this device's copy of a carrel, its slots zeroised as weeding would (R432). -/
def discardCopy (s : State) (c : Nat) : State :=
  let s := withdrawAddresses (releaseQps s c) c
  let s := ((s.cat.slots.filter fun p => p.2.valid && p.2.owner == c).map (·.1)).foldl weedSlot s
  let s := ((hoppersOwned s c).map (·.1)).foldl dropHopper s
  { s with ports := { s.ports with tokens := s.ports.tokens.filter fun p => p.2.carrel != c } }

/-- Install the authoritative copy of a carrel (R420 step 3, R432). -/
def installCopy (s : State) (p : PeerCarrel) : State :=
  let s := if (s.carrel p.carrel).st = .absent then s else discardCopy s p.carrel
  let s := putCarrelHead s p
  let s := p.hoppers.foldl (fun s h => putHopper s p.carrel h) s
  let s := p.tokens.foldl (fun s t => putToken s p.carrel t) s
  let s := p.slots.foldl (fun s x => (putSlot s x).getD s) s
  archiveCarrel s p.carrel

/-- Raise this device's counter for a key to the peer's ceiling (R238). -/
def raiseCeiling (s : State) (shelf ceiling : Nat) : State :=
  let sl := s.slot shelf
  match sl.ledger with
  | none => s
  | some (c, g) =>
    if boundOk s sl && decide (nextLease s sl < ceiling) then ledgerWrite s c (sl.ledgerBase + ceiling) .bound g .set else s

/-- A ledger write is under way for a mirrored stateful key (R238). -/
def raising (s : State) : Bool :=
  s.cat.slots.any fun p => p.2.valid && p.2.mirrored && isStfPrivate p.2.keyClass
    && p.2.ledger.any fun l => !(counter s l.1).writing.isEmpty

/-- The pair becomes PAIRED once every counter has been raised (R238, R420 step 4). -/
def finishPairing (s : State) : State :=
  if s.mirror.copied && (s.mirror.state == .pairing || s.mirror.state == .rejoining) && !raising s then
    let s := setPair { s with mirror := { s.mirror with copied := false } } .paired
    answerAll s .pairing { detail := pairCode .paired }
  else s

/-- The exchange has succeeded: copies go out, the peer's are installed, counters rise. -/
def completePairing (s : State) (cs : List PeerCarrel) (ceils : List (Nat × Nat)) : State :=
  let s := { s with mirror := { s.mirror with
      linkUp := true, linkKeys := true, keyedAt := s.now, resigned := false, ours := [], batches := [], copied := true } }
  let mine := (cs.map (·.carrel))
  let s := sendCopies (mine.foldl (fun s c => setHome s c .peer) s)
  let s := cs.foldl installCopy s
  finishPairing (ceils.foldl (fun s e => raiseCeiling s e.1 e.2) s)

/-- PAIRING_COMPLETE (R420, R432). -/
def execPairingComplete (r : PairResult) (s : State) : Res :=
  if (s.mirror.state ≠ .pairing ∧ s.mirror.state ≠ .rejoining) ∨ s.mirror.copied = true then .next s
  else match r with
    | .signatureFailed => .next (failPairing s fun _ => fail St.signatureInvalid)
    | .serialMismatch | .peerLifeCycle => .next (failPairing s pairRejected)
    | .done cs ceils =>
      if s.mirror.state = .pairing ∧ cs.any (fun c => (s.carrel c.carrel).st != .absent) then .next (failPairing s pairRejected)
      else .next (completePairing s cs ceils)

/-! ## MIR_UNPAIR (R432) -/

/-- Destroy the copy of a carrel homed on the peer: its anchor's tombstone, its slots orphans, the carrel ABSENT. -/
def destroyCopy (s : State) (c : Nat) : State :=
  let s := if (s.slot c).persistent then queueRecord s (.tombstone c (raiseGen (s.slot c) 1).ownGen) else s
  destroyCommit s c

/-- Mirroring ends: what waits for the peer is refused, nothing of the link is kept. -/
def endMirroring (s : State) : State :=
  let ws := s.mirror.waits
  let s := { s with mirror := { s.mirror with
      waits := [], sentAt := [], batches := [], ours := [], theirs := [], memos := [], exact := [], linkKeys := false
      peerImage := [], copied := false } }
  setPair (ws.foldl (fun s w => refuseWait s w.1 w.2) s) .unpaired

def execMirUnpair (fn : Nat) (s : State) : Res :=
  .next (serve s fn { code := 0x0602, role := .o, lenOk := lenIs 0 } fun s _ =>
    if s.mirror.state ≠ .paired ∧ s.mirror.state ≠ .degraded ∧ s.mirror.state ≠ .solo then .done s (pairRejected s)
    else
      let cs := homedPeer s
      .done (endMirroring (cs.foldl destroyCopy s)) { detail := cs.length })

/-! ## MIR_ARBITRATE (R430) -/

/-- Carrels of a 256-bit map at byte `o`. -/
def mapCarrels (p : Bytes) (o : Nat) : List Nat := (List.range 256).filter fun c => bit (field p (o + c / 8) 1) (c % 8)

/-- Yield a carrel homed here: staged slips end with `ABORTED`, running ones complete, the addresses go. -/
def yieldCarrel (s : State) (c : Nat) : State :=
  if homeOf s c = .here then withdrawAddresses (abortStaged (setHome s c .neither) c) c else s

/-- Take over a carrel named in KEEP. -/
def keepCarrel (s : State) (c : Nat) : State := if homeOf s c = .peer then takeCarrel s c else s

def execMirArbitrate (fn : Nat) (s : State) : Res :=
  .next (serve s fn
    { code := 0x0603, role := .o, lenOk := lenIs 64
      rsvOk := fun p => !bit (field p 0 1) 0 && !bit (field p 32 1) 0 } fun s p =>
    let keep := mapCarrels p 0
    let give := mapCarrels p 32
    if s.mirror.state ≠ .degraded then .done s (pairRejected s)
    else if (keep ++ give).any fun c => (s.carrel c).st == .absent then .done s (fail St.paramInvalid)
    else
      let taken := if canTakeover s then keep.filter fun c => homeOf s c == .peer else []
      let s := taken.foldl keepCarrel (give.foldl yieldCarrel s)
      .done (setPair s .solo) { detail := taken.length })

/-! ## MIR_REHOME (R431) -/

/-- Staged slips of a carrel of which no slip of the chain has started. -/
def unstarted (s : State) (c : Nat) : List (Nat × Slip) :=
  (carrelSlips s c).filter fun p => (chainOf s p.2.head).all fun q => isStaged q.2

/-- Staged slips of a carrel are discarded, and each hopper's consumer index goes back to the oldest of them (R431 step 1). -/
def discardStaged (s : State) (c : Nat) : State :=
  let hit := unstarted s c
  let s := (hit.map (·.1)).foldl dropSlip s
  ((hoppersOwned s c).map (·.1)).foldl (fun s hn =>
    match hit.find? fun p => p.2.hopper == hn with
    | some p => s.modHopper hn fun h => { h with ci := p.2.entry, openChain := none, fetch := none }
    | none => s.modHopper hn fun h => { h with fetch := none }) s

def execMirRehome (fn : Nat) (s : State) : Res :=
  .next (serve s fn { code := 0x0604, role := .o, lenOk := lenIs 1 } fun s p =>
    let c := field p 0 1
    if s.mirror.state ≠ .paired then .done s (pairRejected s)
    else if c = 0 ∨ (s.carrel c).st = .absent ∨ homeOf s c ≠ .here then .done s (fail St.paramInvalid)
    else
      let n := (unstarted s c).length
      .wait (discardStaged s c) (.rehome c n))

/-- A rehoming whose slips have ended goes on with steps 3 to 5 of R431; without the pair it is refused. -/
def finishRehome (s : State) (fn : Nat) : State :=
  match (s.mbx fn).wait with
  | .rehome c n =>
    if s.mirror.state ≠ .paired then respond s fn (pairRejected s)
    else if (carrelSlips s c).isEmpty then
      let s := withdrawAddresses (releaseQps s c) c
      let hs := hoppersOwned s c
      let held := hs.flatMap fun p => p.2.held.map fun r => (p.1, r.cseq, r.rs)
      let s := sendBatch s true (hs.map fun p => batchHop s true p.1 p.2) held
      let s := (hs.map (·.1)).foldl (fun s hn => s.modHopper hn fun h => { h with held := [], qpn := none }) s
      respond (setHome s c .peer) fn { detail := n }
    else s
  | _ => s

/-! ## MIR_STATUS (R433) -/

/-- Bitmap of the carrels homed here. -/
def homeMap (s : State) : Bytes :=
  (List.range 32).map fun i => BitVec.ofNat 8 (((List.range 8).map fun j =>
    let c := 8 * i + j
    if homeOf s c = .here ∧ (s.carrel c).st ≠ .absent then 2 ^ j else 0).sum)

def mirStatus (s : State) : Bytes :=
  let m := s.mirror
  le 1 (pairCode m.state) ++ le 1 (b2n m.linkUp + 2 * b2n m.hbPresent + 4 * b2n (imageMeasure s == m.peerImage)) ++ zeros 2
    ++ fit 16 m.peerSerial ++ homeMap s ++ le 4 m.lastSyncNs.toNat ++ le 8 m.batchTot.toNat

def execMirStatus (fn : Nat) (s : State) : Res :=
  .next (serve s fn { code := 0x0605, role := .o, lenOk := lenIs 0 } fun s _ => .done s { payload := mirStatus s })

/-! ## What goes on by itself -/

/-- A device whose registrar has FAILED resigns when its running slips have completed, one whose entropy unit has failed when
every slip has (R351, R358, R427). -/
def resignFailed (s : State) : State :=
  let rest (p : Nat × Slip) : Bool := s.ent.state != .failed && (p.2.phase == .staged || p.2.phase == .suspended)
  if s.reg.dev = .failed ∧ s.mirror.hbOut = true ∧ s.hop.slips.all rest = true then resign s
  else s

/-- What the mirror unit does without a command: rehomings whose slips have ended go on, a pair whose counters have risen is
PAIRED, a failed device resigns. -/
def mirrorIdle (s : State) : State :=
  resignFailed (finishPairing ((Tab.keys s.reg.mbx).foldl finishRehome s))

end Sys2Proof.Machine
end

