-- ==== Sys2Proof/Machine/Attest.lean ====
section
/-!
DEFINITION. The device's attestation keys, quotes and certificates (R387 to R389). The identity seed never leaves the device:
what is derived from it is an uninterpreted function of what the manual says it depends on (log 73).
-/

namespace Sys2Proof.Machine

open Config (compute)

/-! ## Alias keys (R387) -/

def ascii (s : String) : Bytes := s.toList.map fun c => BitVec.ofNat 8 c.toNat

/-- What CDI is derived from, the serial number standing for the device's seed. -/
def cdiInputs (s : State) : Bytes :=
  fit 16 s.reg.serial ++ fit 48 s.reg.running.measure ++ le 4 s.reg.running.csVersion ++ le 1 (lcsCode s.tmp.lcs)

/-- Seed of the ML-DSA-87 Alias key; scalar of the P-384 one. -/
def aliasSeed (s : State) : Bytes := fit 32 (compute .seal [ascii "T5120-ALIAS-MLDSA", cdiInputs s])
def aliasScalar (s : State) : Nat := 1 + unbe (fit 48 (compute .seal [ascii "T5120-ALIAS-P384", cdiInputs s])) % (p384.n - 1)

def sha384 (b : Bytes) : Bytes := fit 48 (compute (.sha2 384) [b])

/-- ML-DSA-87 signature by the Alias key, pure, with a context; deterministic (log 73). -/
def aliasDsa (s : State) (ctx msg : Bytes) : Bytes :=
  let kp := dsaPair 6 (aliasSeed s)
  let mu := dsaMu (dsaTr kp.1) ([0, BitVec.ofNat 8 ctx.length] ++ ctx ++ msg)
  fit 4627 (compute (.mlDsaSign 6) [kp.2, mu, zeros 32])

/-- ECDSA P-384 signature by the Alias key over the SHA-384 of the message. -/
def aliasEc (s : State) (msg : Bytes) : Bytes :=
  let d := aliasScalar s
  let e := digestInt p384 (sha384 msg)
  let t := 1 + unbe (fit 48 (compute .ecNonce [be 48 d, be 48 e])) % (p384.n - 1)
  let rs := ecdsaRS p384 d e t
  be 48 rs.1 ++ be 48 rs.2

/-- A message followed by both Alias signatures (R388, R405). -/
def aliasSigned (s : State) (ctx msg : Bytes) : Bytes := msg ++ aliasDsa s ctx msg ++ aliasEc s msg

/-! ## Certificates (R389) -/

/-- The four certificates, in the order of R389. -/
def certs (s : State) : List Bytes :=
  (List.range 4).map fun i => compute .x509 [[BitVec.ofNat 8 i], cdiInputs s]

/-- A peer's chain verifies to the Dvorsum manufacturing authority (R405). -/
def chainOk (c : Bytes) : Bool := Config.holds .x509 [c]

/-- The Alias public keys that a chain certifies: ML-DSA-87, P-384. -/
def chainDsa (c : Bytes) : Bytes := fit 2592 (compute .x509 [c, [1]])
def chainEc (c : Bytes) : Bytes := fit 97 (compute .x509 [c, [3]])

/-- A message with its two signatures verifies under a chain, whose check it includes (R405). -/
def peerSigned (c ctx m : Bytes) (n : Nat) : Bool :=
  let msg := slice m 0 n
  chainOk c && dsaVerifies 6 (chainDsa c) ctx msg (slice m n 4627) && p384Verifies (chainEc c) msg (slice m (n + 4627) 96)

/-! ## ATT_QUOTE, ATT_CERTS (R388, R389) -/

/-- A grant with a secret-reaching right is in force outside RETURNED (R492). -/
def secretGrant (s : State) : Bool :=
  s.tmp.grantActive && s.tmp.lcs != .returned && (s.tmp.rights.getLsbD 7 || s.tmp.rights.getLsbD 8)

/-- The 256-byte body of a quote (R388). -/
def quoteBody (s : State) (fn : Nat) (nonce : Bytes) : Bytes :=
  let c := State.fnCarrel fn
  let x := s.carrel c
  let img := s.tuns.active
  fit 256 (le 4 0x51545435 ++ le 2 1 ++ le 2 256 ++ fit 16 s.reg.serial ++ fit 32 nonce ++ fit 48 s.reg.running.measure
    ++ fit 48 ((img.map (·.measure)).getD []) ++ le 4 ((img.map (·.id.toNat)).getD 0) ++ le 4 ((img.map (·.version)).getD 0)
    ++ le 4 s.reg.running.version ++ le 4 s.reg.running.csVersion ++ le 1 (lcsCode s.tmp.lcs) ++ le 1 (devCode s)
    ++ le 2 s.tmp.evidence ++ le 1 c ++ le 1 (carrelCode x.st) ++ zeros 2 ++ le 4 (epoch s c)
    ++ le 4 (b2n s.tmp.grantActive + 2 * b2n (testPattern s) + 4 * b2n (s.reg.dev == .recovery))
    ++ le 8 s.cel.devSec.toNat ++ sha384 (cfgBytes c x))

def quote (s : State) (fn : Nat) (nonce : Bytes) : Bytes := aliasSigned s (ascii "T5120-ATTEST") (quoteBody s fn nonce)

/-- ATT_QUOTE (R388): refused after the erasure of a secret-reaching grant, until chip reset (R492). -/
def execAttQuote (fn : Nat) (s : State) : Res :=
  .next (serve s fn
    { code := 0x0801, role := .any, lenOk := lenIs 44, booting := true, recovery := true, returned := true } fun s p =>
    if secretGrant s || !s.reg.aliasKeys then .done s (devRejected s)
    else
      let q := quote s fn (p.take 32)
      hostWrite s fn (field p 32 8) (field p 40 4) q { payload := le 4 q.length })

def execAttCerts (fn : Nat) (s : State) : Res :=
  .next (serve s fn
    { code := 0x0802, role := .any, lenOk := lenIs 12, booting := true, recovery := true, returned := true } fun s p =>
    let cs := certs s
    hostWrite s fn (field p 0 8) (field p 8 4) cs.flatten { payload := cs.flatMap fun c => le 4 c.length })

end Sys2Proof.Machine
end

