-- ==== Sys2Proof/Machine/Migration.lean ====
section
/-!
DEFINITION. The migration of a carrel between devices: the exchange of R405, the carrel image, its import (R405 to R409).
-/

namespace Sys2Proof.Machine

open Config (compute)

/-! ## Commands and messages (R405, R413) -/

def migSpec (code : Nat) : CmdSpec :=
  { code := code, role := .o, lenOk := lenIs 44, rsvOk := fun p => allZero (slice p 2 6), s23 := false }

/-- The phase in the command window. -/
def migPhase (s : State) (fn : Nat) : Nat := field (framePayload (s.mbx fn)) 1 1

def migInput (p host : Bytes) : Bytes := fit (field p 16 4) host
def migCerts (p certs : Bytes) : Bytes := fit (field p 28 4) certs

/-- Lengths of `MIG_OFFER` and `MIG_CONFIRM`, and of `MIG_ACCEPT`. -/
def offerLen : Nat := 6419
def acceptLen : Nat := 7987

/-- The header of a message of this device. -/
def migHeader (s : State) (type c : Nat) (peer id prev : Bytes) : Bytes :=
  le 4 0x47494D43 ++ [BitVec.ofNat 8 type, 1, BitVec.ofNat 8 c, BitVec.ofNat 8 (lcsCode s.tmp.lcs)] ++ fit 16 s.reg.serial
    ++ fit 16 peer ++ fit 32 id ++ fit 48 prev ++ le 4 s.reg.running.version ++ le 4 (b2n s.tmp.grantActive)

def migMessage (s : State) (type c : Nat) (peer id prev kem : Bytes) : Bytes :=
  aliasSigned s (ascii "T5120-MIGRATE") (migHeader s type c peer id prev ++ kem)

def msgSerial (m : Bytes) : Bytes := slice m 8 16
def msgId (m : Bytes) : Bytes := slice m 40 32

/-- A received message: type, carrel, life-cycle state, no debug grant, the serial it names, the hash it binds (R405). -/
def msgOk (m : Bytes) (type c : Nat) (named prev : Bytes) : Bool :=
  field m 0 4 == 0x47494D43 && field m 4 1 == type && field m 5 1 == 1 && field m 6 1 == c
    && (field m 7 1 == lcsCode .provisioned || field m 7 1 == lcsCode .service)
    && slice m 24 16 == named && slice m 72 48 == prev && field m 124 4 == 0

/-- Seconds until a migration's secrets are zeroised (R405). -/
def migLeft (s : State) (g : Migration) : Nat := 60 - (s.now - g.startedAt) / 1250000000

/-- Signatures, then what the message says; the answer when it is refused. -/
def msgBad (s : State) (c : Nat) (m certs : Bytes) (len : Nat) (ok : Bool) : Option Ans :=
  if m.length ≠ len then some (fail St.lengthMismatch)
  else if !peerSigned certs (ascii "T5120-MIGRATE") m (len - 4723) then some (fail St.signatureInvalid)
  else if !ok || s.tmp.grantActive then some (crlRejected s c)
  else none

/-- Write a message to host memory and keep the migration. -/
def migWrite (s : State) (fn c : Nat) (p m : Bytes) (g : Migration) : CmdRes :=
  hostWrite (s.setCarrel c { s.carrel c with migration := some g }) fn (field p 32 8) (field p 40 4) m
    { payload := le 4 m.length }

/-- The output area does not hold `n` bytes. -/
def roomBad (p : Bytes) (n : Nat) : Option Ans :=
  if field p 40 4 < n then some { status := St.outputTooSmall, detail := n } else none

/-! ## The exchange (R405) -/

/-- CRL_RESTORE, OFFER: a new offer replaces any migration the target holds. A phase that is not defined is refused here. -/
def execCrlRestoreOffer (fn : Nat) (s : State) : Res :=
  if migPhase s fn = 3 ∨ migPhase s fn = 5 then .next s
  else .next (serve s fn (migSpec 0x0207) fun s p =>
    let c := field p 0 1
    if (s.carrel c).st ≠ .absent then .done s (crlRejected s c)
    else if field p 1 1 ≠ 1 then .done s (fail St.paramInvalid)
    else match roomBad p offerLen with
      | some a => .done s a
      | none => withRandom s 96 fun s b =>
        let id := b.take 32
        let seed := b.drop 32
        let m := migMessage s 1 c (zeros 16) id (zeros 48) (kemPair 2 seed).1
        migWrite s fn c p m { id := id, target := true, step := 1, prev := m, secrets := seed, startedAt := s.now })

/-- CRL_SAVE, ACCEPT: encapsulation to the target's key. A phase that is not defined is refused here. -/
def execCrlSaveAccept (fn : Nat) (host certs : Bytes) (s : State) : Res :=
  if migPhase s fn = 4 then .next s
  else .next (serve s fn (migSpec 0x0206) fun s p =>
    let c := field p 0 1
    let m := migInput p host
    let held := (s.carrel c).migration
    let other : Option Migration := held.filter fun g => g.id != msgId m
    if (s.carrel c).st ≠ .frozen then .done s (crlRejected s c)
    else if field p 1 1 ≠ 2 then .done s (fail St.paramInvalid)
    else match msgBad s c m (migCerts p certs) offerLen (msgOk m 1 c (zeros 16) (zeros 48)) with
      | some a => .done s a
      | none => match other with
        | some g => .done s { crlRejected s c with detail := migLeft s g }
        | none => match roomBad p acceptLen with
          | some a => .done s a
          | none => withRandom s 96 fun s b =>
            let seed := b.take 64
            let e := kemEnc 2 (slice m 128 1568) (b.drop 64)
            let out := migMessage s 2 c (msgSerial m) (msgId m) (sha384 m) ((kemPair 2 seed).1 ++ e.1)
            migWrite s fn c p out
              { id := msgId m, target := false, step := 2, peer := msgSerial m, prev := m ++ out, secrets := seed ++ e.2
                startedAt := ((held.map (·.startedAt)).getD s.now) })

/-- CRL_RESTORE, CONFIRM: the target takes K1 and sends K2. -/
def execCrlRestoreConfirm (fn : Nat) (host certs : Bytes) (s : State) : Res :=
  if migPhase s fn ≠ 3 then .next s
  else .next (serve s fn (migSpec 0x0207) fun s p =>
    let c := field p 0 1
    let m := migInput p host
    match (s.carrel c).migration with
    | none => .done s (crlRejected s c)
    | some g =>
      if (s.carrel c).st ≠ .absent ∨ g.target = false ∨ g.step ≠ 1 then .done s (crlRejected s c)
      else
        let ok := msgOk m 2 c (fit 16 s.reg.serial) (sha384 g.prev) && msgId m == g.id
        match msgBad s c m (migCerts p certs) acceptLen ok with
        | some a => .done s a
        | none => match roomBad p offerLen with
          | some a => .done s a
          | none => withRandom s 32 fun s b =>
            let e := kemEnc 2 (slice m 128 1568) b
            let k1 := kemDec 2 (kemPair 2 g.secrets).2 (slice m 1696 1568)
            let out := migMessage s 3 c (msgSerial m) g.id (sha384 m) e.1
            migWrite s fn c p out
              { g with step := 3, peer := msgSerial m, prev := g.prev ++ m ++ out, secrets := k1 ++ e.2 })

/-! ## The carrel image (R406 to R408) -/

/-- Migration key and IV from K1 ‖ K2 and the three messages (R406). -/
def migKey (transcript ks : Bytes) : Bytes × Bytes :=
  let b := fit 44 (compute (.hkdf 1) [sha384 transcript, ks, ascii "T5120-CIMG", be 4 44])
  (b.take 32, b.drop 32)

/-- Slots an image holds: valid, not orphaned, no stateful private key (R408, R241). -/
def imageSlots (s : State) (c : Nat) : List (Nat × Slot) :=
  s.cat.slots.filter fun p => p.2.valid && inAllot s c p.1 && ancestorsOk s 8 p.2 && !isStfPrivate p.2.keyClass

/-- Hoppers of a carrel in `INDEX` order. -/
def byIndex (s : State) (c : Nat) : List (Nat × Hopper) := (hoppersOwned s c).mergeSort fun a b => decide (a.2.index ≤ b.2.index)

def imageHopper (hn : Nat) (h : Hopper) : Bytes :=
  fit 128 (hopBlock h ++ le 4 hn ++ le 2 h.index ++ le 1 (hopCode h.state) ++ zeros 1 ++ le 4 h.ci.toNat ++ le 4 h.p.toNat
    ++ le 4 h.nextCseq.toNat ++ le 4 h.lastSlipSeq.toNat ++ le 4 h.lastDbSeq.toNat ++ le 4 h.held.length)

/-- A slot's record. Its shelfmark, for which R315 has no field, lies in the reserved bits of bytes 3 and 4 to 7 (log 74). -/
def imageSlot (n line : Nat) (x : Slot) : Bytes :=
  let b := slotHeader { x with ledger := none, ledgerBase := 0, extentLine := line }
  let b := splice b 4 (le 4 (field b 4 4 % 2 ^ 12 + 2 ^ 12 * (n % 2 ^ 20)))
  splice b 0 (le 4 (field b 0 4 % 2 ^ 26 + 2 ^ 26 * (n / 2 ^ 20)))

/-- Slot records and the extent section, in 64-byte lines. -/
def imageTail : List (Nat × Slot) → Nat → Bytes × Bytes
  | [], _ => ([], [])
  | (n, x) :: r, line =>
    let k := if x.extent then extentLines x.keyLen else 0
    let t := imageTail r (line + k)
    (imageSlot n line x ++ t.1, (if x.extent then fit (64 * k) x.material else []) ++ t.2)

def imageBody (s : State) (c : Nat) : Bytes :=
  let hs := byIndex s c
  let t := imageTail (imageSlots s c) 0
  cfgBytes c (s.carrel c) ++ hs.flatMap (fun p => imageHopper p.1 p.2)
    ++ (hs.flatMap fun p => p.2.held.flatMap fun r => fit 32 r.rs) ++ t.1 ++ t.2

def imageHeader (s : State) (c : Nat) (id body : Bytes) : Bytes :=
  let hs := byIndex s c
  fit 128 (le 4 0x474D4943 ++ le 2 1 ++ le 1 c ++ zeros 1 ++ fit 16 s.reg.serial ++ fit 32 id ++ le 4 (epoch s c)
    ++ le 4 hs.length ++ le 4 (hs.map fun p => p.2.held.length).sum ++ le 4 (imageSlots s c).length
    ++ le 8 (imageTail (imageSlots s c) 0).2.length ++ le 8 body.length)

/-- CRL_SAVE, EXPORT (R405, R407): the carrel stays FROZEN and can only be destroyed (R404). -/
def execCrlSaveExport (fn : Nat) (host certs : Bytes) (s : State) : Res :=
  if migPhase s fn ≠ 4 then .next s
  else .next (serve s fn (migSpec 0x0206) fun s p =>
    let c := field p 0 1
    let m := migInput p host
    match (s.carrel c).migration with
    | none => .done s (crlRejected s c)
    | some g =>
      if (s.carrel c).st ≠ .frozen ∨ g.target = true ∨ g.step ≠ 2 then .done s (crlRejected s c)
      else
        let ok := msgOk m 3 c (fit 16 s.reg.serial) (sha384 (g.prev.drop offerLen)) && msgId m == g.id && msgSerial m == g.peer
        match msgBad s c m (migCerts p certs) offerLen ok with
        | some a => .done s a
        | none =>
          let k2 := kemDec 2 (kemPair 2 (g.secrets.take 64)).2 (slice m 128 1568)
          let k := migKey (g.prev ++ m) (g.secrets.drop 64 ++ k2)
          let body := imageBody s c
          let head := imageHeader s c g.id body
          let ct := aeadCrypt 2 k.1 k.2 body
          let image := head ++ ct ++ aeadTag 2 k.1 k.2 head ct 16
          match roomBad p image.length with
          | some a => .done s a
          | none =>
            let g' := { g with step := 4, prev := g.prev ++ m }
            let s := s.setCarrel c { s.carrel c with exported := true, migration := some g' }
            let s := archiveCarrel s c
            .done (s.send (.dmaWrite fn (BitVec.ofNat 64 (field p 32 8)) image)) { payload := le 4 image.length })

/-! ## IMPORT (R409) -/

/-- What an image holds. -/
structure Image where
  header : Bytes
  config : Bytes
  hoppers : List (Bytes × List Bytes)
  slots : List (Nat × Slot)

/-- Hopper records with the held return slips that follow them. -/
def splitHeld : List Bytes → Bytes → List (Bytes × List Bytes)
  | [], _ => []
  | h :: hs, b =>
    let n := field h 76 4
    (h, (List.range n).map fun i => slice b (32 * i) 32) :: splitHeld hs (b.drop (32 * n))

/-- The records of n bytes each. -/
def chunks (n k : Nat) (b : Bytes) : List Bytes := (List.range k).map fun i => slice b (n * i) n

def imageSlotOf (r ext : Bytes) : Nat × Slot :=
  let x := parseSlot r (slice ext (64 * field r 48 4) (field r 20 4))
  (field r 4 4 / 2 ^ 12 + 2 ^ 20 * (field r 0 4 / 2 ^ 26), { x with archived := false, extentLine := 0 })

def parseImage (head body : Bytes) : Image :=
  let nh := field head 60 4
  let nr := field head 64 4
  let ns := field head 68 4
  let o1 := 512 + 128 * nh
  let o2 := o1 + 32 * nr
  let ext := body.drop (o2 + 128 * ns)
  { header := head, config := body.take 512
    hoppers := splitHeld (chunks 128 nh (slice body 512 (128 * nh))) (slice body o1 (32 * nr))
    slots := (chunks 128 ns (slice body o2 (128 * ns))).map fun r => imageSlotOf r ext }

/-- Open an image under the migration's key; `none` when the tag fails (R406, R409). -/
def openImage (g : Migration) (b : Bytes) : Option Image :=
  let k := migKey g.prev g.secrets
  let head := b.take 128
  let ct := (b.drop 128).take (b.length - 144)
  if b.length < 144 ∨ aeadTag 2 k.1 k.2 head ct 16 ≠ b.drop (b.length - 16) then none
  else some (parseImage head (aeadCrypt 2 k.1 k.2 ct))

def imageBlock (h : Bytes) : Bytes := slice h 0 48

/-- Lines an image's slots need. -/
def imageLines (i : Image) : Nat := (i.slots.map fun p => if p.2.extent then extentLines p.2.keyLen else 0).sum

/-- Why an image is refused: the header against the migration, blocks, quotas, hoppers, VLAN (R409). -/
def imageBad (s : State) (c : Nat) (g : Migration) (i : Image) : Option Ans :=
  let x := parseCfg {} i.config
  let h := i.header
  let urgent := (i.hoppers.filter fun r => bit (field (imageBlock r.1) 35 1) 1).length
  if !(field h 0 4 == 0x474D4943 && field h 4 2 == 1 && field h 6 1 == c && slice h 8 16 == g.peer && slice h 24 32 == g.id) then
    some (crlRejected s c)
  else if (blocksOf x.runs).any (fun k => (Tab.get? s.cat.blocks k).isSome) || blockUnreleased s x.runs then
    some (crlRejected s c)
  else if decide (x.slotQuota < i.slots.length) || decide (x.extentQuota < imageLines i) then some (crlRejected s c)
  else if !pairedOk s c (blocksOf x.runs) x.extentQuota then some (fail St.paramInvalid)
  else if decide (extentFree s < imageLines i) || decide (hopperLimit s < s.hop.hoppers.length + i.hoppers.length) then
    some (devRejected s)
  else if decide (x.hopperMax < i.hoppers.length) then some (crlRejected s c)
  else if decide (4096 < urgentCount s + urgent) then some (devRejected s)
  else if vlanClash s c x.net then some (crlRejected s c)
  else none

/-- One hopper of an image: its number, or the lowest free one; `DETAIL` counts the replacements. -/
def importHopper (c : Nat) (a : State × Nat) (r : Bytes × List Bytes) : State × Nat :=
  let s := a.1
  let b := r.1
  let want := field b 48 4
  let used := Tab.has s.hop.hoppers want || decide (hopperLimit s ≤ want)
  let n := if used then (lowestFreeFrom (Tab.keys s.hop.hoppers) (hopperLimit s) 0).getD want else want
  let first : W32 := match r.2.head? with
    | some e => BitVec.ofNat 32 (field e 4 4)
    | none => BitVec.ofNat 32 (field b 64 4)
  let h := applyBlock { carrel := c, index := field b 52 2 } 0xFFF (imageBlock b)
  let h := { h with
    state := hopStateOf (field b 54 1), ci := BitVec.ofNat 32 (field b 56 4), p := BitVec.ofNat 32 (field b 60 4)
    nextCseq := BitVec.ofNat 32 (field b 64 4), lastSlipSeq := BitVec.ofNat 32 (field b 68 4)
    lastDbSeq := BitVec.ofNat 32 (field b 72 4), lastAckCseq := first - 1
    held := r.2.map fun e => { cseq := BitVec.ofNat 32 (field e 4 4), rs := e, notify := true } }
  (s.setHopper n h, a.2 + b2n used)

/-- One slot of an image, with its shelfmark, its generation and a fresh extent; a persistent one falls due for the archive. -/
def importSlot1 (s : State) (p : Nat × Slot) : State :=
  let x := { p.2 with extentLine := if p.2.extent then (extentPlace s (extentLines p.2.keyLen)).getD 0 else 0 }
  let s := s.setSlot p.1 x
  if x.persistent then { s with cat := { s.cat with archivePending := Tab.set s.cat.archivePending p.1 s.now } } else s

/-- Install an image: carrel c FROZEN, its epoch above both (R409, R411). -/
def installImage (s : State) (c : Nat) (i : Image) : State × Nat :=
  let s := assignBlocks (setHome (s.setCarrel c { parseCfg {} i.config with st := .absent }) c .here) c
  let e := max (epoch s c + 1) (field i.header 56 4 + 1)
  let n := epochCounter c
  let s := ledgerWrite s n e .system (ctrGen s n) .set
  let s := i.slots.foldl importSlot1 s
  let r := i.hoppers.foldl (importHopper c) (s, 0)
  (archiveCarrel (setCarrelState r.1 c .frozen) c, r.2)

/-- The migration's image in host memory, once opened. -/
def importImage (s : State) (fn : Nat) (p : Bytes) : Option (Migration × Option Image) :=
  match (s.carrel (field p 0 1)).migration with
  | some g => if g.target && g.step == 3 then some (g, openImage g (migInput p (s.mbx fn).host)) else none
  | none => none

/-- CRL_RESTORE, IMPORT as a synchronous change (R409, R423). -/
def importCarrelCmd : SyncCmd where
  spec := { migSpec 0x0207 with folio := true }
  carrel := fun _ _ p => field p 0 1
  check := fun s fn p =>
    let c := field p 0 1
    if (s.carrel c).st ≠ .absent then some (crlRejected s c)
    else match importImage s fn p with
      | none => some (crlRejected s c)
      | some (_, none) => some (fail St.signatureInvalid)
      | some (g, some i) => imageBad s c g i
  recs := fun s fn p => match importImage s fn p with
    | some (_, some i) =>
      let c := field p 0 1
      let t := (installImage s c i).1
      let k := peerCarrel t c
      [.carrelSet (peerCarrelHead c (t.carrel c) .frozen)] ++ k.hoppers.map (SyncRec.hopperSet c)
        ++ k.slots.map fun x => SyncRec.slotSet x none
    | _ => []
  commit := fun s fn p => match importImage s fn p with
    | some (_, some i) =>
      let r := installImage s (field p 0 1) i
      (r.1, { payload := le 4 0, detail := r.2 })
    | _ => (s, fail St.signatureInvalid)

def execCrlRestoreImport (fn : Nat) (host _ : Bytes) (s : State) : Res :=
  if migPhase s fn ≠ 5 ∨ syncBusy s = true then .next s
  else .next (serve s fn importCarrelCmd.spec fun s p =>
    syncBody importCarrelCmd (s.setMbx fn { s.mbx fn with host := host }) fn p)

/-- MIGRATION_EXPIRY (R405): the secrets are zeroised; a later step of the migration is refused. -/
def execMigrationExpiry (carrel : Nat) (s : State) : Res :=
  .next (s.setCarrel carrel { s.carrel carrel with migration := none })

end Sys2Proof.Machine
end

