-- ==== Sys2Proof/Machine/EntCmds.lean ====
section
/-!
DEFINITION. The entropy unit: windows and their health tests, latch-out, ENTROPY_FAILED, reseeding, the test commands (chapter
14).
-/

namespace Sys2Proof.Machine

/-! ## The health tests (R340) -/

/-- The tests over a window: reference, previous sample, run length, count of the reference. -/
structure Health where
  ref : Nat
  prev : Nat
  run : Nat := 1
  same : Nat := 1
  deriving DecidableEq, Repr

/-- The first cutoff reached: true for repetition count, false for adaptive proportion. -/
def healthFrom (h : Health) : List Nat → Option Bool
  | [] => none
  | x :: xs =>
    let run := if x = h.prev then h.run + 1 else 1
    let same := if x = h.ref then h.same + 1 else h.same
    if 81 ≤ run then some true
    else if 827 ≤ same then some false
    else healthFrom { ref := h.ref, prev := x, run := run, same := same } xs

/-- Both tests restart at the first sample of a window. -/
def health : List Nat → Option Bool
  | [] => none
  | x :: xs => healthFrom { ref := x, prev := x } xs

/-- The 1,024 samples of a window: a substituted source's are its pattern, repeated from bit 0 of byte 0 (R355). -/
def windowOf (x : EntSource) (samples : List Nat) : List Nat :=
  match x.pattern with
  | some p => (List.range 1024).map fun i => (field p (i / 8 % 64) 1) / 2 ^ (i % 8) % 2
  | none => (samples.take 1024).map (· % 2)

/-! ## Latch-out and ENTROPY_FAILED (R341, R350, R351) -/

/-- The slips that the failure ends: those that draw on randomness or run on a tun, pipe or kiln (R351 step 4). -/
def needsEntropy (sl : Slip) : Bool :=
  sl.checked && (sl.drawsRandom || sl.engine == .tun || sl.engine == .pipe || sl.engine == .kiln)

/-- Commands that wait for randomness are refused (R351 step 5). -/
def refuseRandom (s : State) : State :=
  (Tab.keys s.reg.mbx).foldl (fun s fn => match (s.mbx fn).wait with
    | .entropy since => answerWait s fn (.entropy since) (fail St.entropyFailed)
    | _ => s) s

/-- ENTROPY_FAILED (R351). -/
def entropyFail (s : State) : State :=
  let gone := resets s 0x0C2
  let s := { s with ent := { s.ent with state := .failed, drbgs := [], pool := 0 } }
  let s := reportSrc s 0x0C2
  if gone then s
  else
    let s := entEvent { s with reg := { s.reg with dev := .failed }, hop := { s.hop with fetchStopped := true } }
    let units := (s.hop.slips.filter fun p => needsEntropy p.2 && p.2.unit.isSome && abortable p.2).map fun p => p
    let s := units.foldl (fun s p => stopUnits s p.1 p.2) s
    let s := (busyPages s fun _ => true).foldl (fun s k => endPage s (k / 4) (k % 4) St.entropyFailed) s
    refuseRandom (abortSlips s needsEntropy St.entropyFailed)

/-- Latch a source out: it contributes nothing until the next chip reset (R341). -/
def latchOut (s : State) (src cause : Nat) : State :=
  let x := s.src src
  if !x.inService then s
  else
    let old := s
    let gone := resets s 0x0C0
    let s := s.setSrc src { x with inService := false, cause := BitVec.ofNat 4 cause }
    let s := entEvent { s with ent := { s.ent with srcFail := s.ent.srcFail.hit } }
    let s := reportSrc s 0x0C0 0xFF (BitVec.ofNat 32 src)
    if gone then s
    else noteDev old (if srcCount s < 4 ∧ s.ent.state ≠ .failed then entropyFail s else s)

/-- ENT_SRC_FAIL (R341): a cutoff is reached or the oscillator's frequency is out of range, with its cause code. -/
def execEntSrcFail (src cause : Nat) (s : State) : Res := .next (latchOut s src cause)

/-! ## Windows and blocks (R343, R344, R346) -/

/-- A new block goes to the lowest instance that waits for one, else to the pool. -/
def addBlock (s : State) : State :=
  if 64 ≤ s.ent.pool then s
  else
    let s := { s with ent := { s.ent with pool := s.ent.pool + 1, blockTot := s.ent.blockTot + 1 } }
    match (List.range 41).find? fun i => (drbg s i).live && (drbg s i).reseedDue with
    | some i => reseed s i
    | none => s

/-- ENT_WINDOW_COMPLETE (R341, R343): a window that passes becomes a block; one that fails latches its source out. -/
def execEntWindowComplete (src : Nat) (samples : List Nat) (s : State) : Res :=
  let x := s.src src
  if !x.inService then .next s
  else match health (windowOf x samples) with
    | some rep =>
      let first := if x.windows = 0 then 1 else 3
      .next (latchOut s src (if rep then first else first + 1))
    | none =>
      let s := s.setSrc src { x with windows := x.windows + 1 }
      .next (if s.ent.state = .failed then s else addBlock s)

/-- DRBG_RESEED (R346). -/
def execDrbgReseed (inst : Nat) (s : State) : Res := .next (if (drbg s inst).live then reseed s inst else s)

/-! ## ENT_TEST_PATTERN, ENT_RAW_CAPTURE (R355, R491, R484) -/

/-- A non-approved command in an approved-only carrel 0 (chapter 20: such a carrel receives approved services only). -/
def nonApprovedHere (s : State) (fn : Nat) : Bool := (s.carrel (State.fnCarrel fn)).approvedOnly

/-- ENT_TEST_PATTERN: substitute a source's samples or end the substitution. -/
def execEntTestPattern (fn : Nat) (s : State) : Res :=
  .next (serve s fn
    { code := 0x0701, role := .o, lenOk := lenIs 68, rsvOk := fun p => decide (field p 1 1 < 2) && field p 2 2 == 0
      s23 := false } fun s p =>
    let n := field p 0 1
    if s.tmp.lcs ≠ .factory then .done s (lcsRejected s)
    else if 7 < n then .done s (fail St.paramInvalid)
    else if nonApprovedHere s fn then .done s (fail St.nonApprovedForbidden)
    else .done (s.setSrc n { s.src n with pattern := if bit (field p 1 1) 0 then some (slice p 4 64) else none }) {})

/-- The debug grant in force holds this right (R491). -/
def granted (s : State) (right : Nat) : Bool := s.tmp.grantActive && s.tmp.rights.getLsbD right

/-- ENT_RAW_CAPTURE: samples packed 8 per byte from bit 0; in FACTORY, or under a grant with `ENT_RAW`. -/
def execEntRawCapture (fn : Nat) (samples : Bytes) (s : State) : Res :=
  .next (serve s fn
    { code := 0x0702, role := .o, lenOk := lenIs 16, rsvOk := fun p => allZero (slice p 1 3), s1 := false, s23 := false }
    fun s p =>
    let n := field p 4 4
    if s.tmp.lcs ≠ .factory && !granted s 6 then .done s (lcsRejected s)
    else if 7 < field p 0 1 ∨ n = 0 ∨ 1048576 < n then .done s (fail St.paramInvalid)
    else if nonApprovedHere s fn then .done s (fail St.nonApprovedForbidden)
    else .done (s.send (.dmaWrite fn (BitVec.ofNat 64 (field p 8 8)) (fit ((n + 7) / 8) samples))) {})

end Sys2Proof.Machine
end

