-- ==== Sys2Proof/Machine/FltCmds.lean ====
section
/-!
DEFINITION. The fault collector's own commands and events: unit faults, retests, checker reports, ERR_N, the Prija defaults,
`FLT_CONFIG`, and what a failed line of QDR does (chapter 18, R512, R526, R527, R531).
-/

namespace Sys2Proof.Machine

/-! ## Prija defaults (R442, R466, R494, R512, R531) -/

/-- First source, last source, minor mask, severe mask, N, W in ms. -/
structure DefaultRow where
  lo : Nat
  hi : Nat
  minor : Nat
  severe : Nat
  thresh : Nat
  windowMs : Nat

def defaultRow (a b minor severe n w : Nat) : DefaultRow := ⟨a, b, minor, severe, n, w⟩

def defaultsA : List DefaultRow :=
  [ defaultRow 0x000 0x003 1 0x11 3 1000
  , defaultRow 0x040 0x040 1 0x11 8 3600000
  , defaultRow 0x041 0x042 1 0x11 2 3600000
  , defaultRow 0x043 0x044 0x11 0x11 1 1
  , defaultRow 0x045 0x045 1 1 1 1
  , defaultRow 0x080 0x085 0 0 1 1
  , defaultRow 0x086 0x087 0x11 0x11 1 1
  , defaultRow 0x0C0 0x0C2 1 0x11 4 3600000
  , defaultRow 0x100 0x106 1 1 16 1000
  , defaultRow 0x107 0x107 0 1 255 1000
  , defaultRow 0x108 0x10A 1 1 16 1000
  , defaultRow 0x140 0x141 0 1 255 1
  , defaultRow 0x142 0x142 4 0x18 2 3600000
  , defaultRow 0x180 0x180 0x11 0x11 1 1
  , defaultRow 0x181 0x181 0 1 64 1000
  , defaultRow 0x182 0x182 1 0x11 4 3600000
  , defaultRow 0x183 0x183 0 1 16 3600000
  , defaultRow 0x184 0x184 0x11 0x11 1 1
  , defaultRow 0x185 0x186 0x18 0x18 1 1 ]

def defaultsB : List DefaultRow :=
  [ defaultRow 0x1C0 0x1C3 1 0x11 4 3600000
  , defaultRow 0x1E0 0x1E2 1 0x11 1 1
  , defaultRow 0x1F0 0x1F0 1 0x11 3 3600000
  , defaultRow 0x1F1 0x1F1 4 0x14 4 3600000
  , defaultRow 0x1F2 0x1F2 0 1 16 1000
  , defaultRow 0x1F3 0x1F3 1 1 255 3600000
  , defaultRow 0x1F4 0x1F4 1 0x11 8 3600000
  , defaultRow 0x1F5 0x1F5 0x11 0x11 1 1
  , defaultRow 0x1F6 0x1F7 1 1 255 3600000
  , defaultRow 0x1F8 0x1FA 0x11 0x11 1 1
  , defaultRow 0x200 0x204 1 0x11 2 3600000
  , defaultRow 0x240 0x241 1 0x11 2 3600000
  , defaultRow 0x280 0x281 1 0x11 2 3600000
  , defaultRow 0x2C0 0x2C2 1 0x11 2 3600000
  , defaultRow 0x300 0x300 1 1 255 3600000
  , defaultRow 0x301 0x302 0x11 0x11 1 1 ]

/-- Reactions that hardware fixes (R439). -/
def lockedSource (n : Nat) : Bool := isTamperSource n || n == 0x001 || n == 0x0C2

def rowCfg (d : DefaultRow) (n : Nat) : SrcCfg :=
  { minor := BitVec.ofNat 5 d.minor, severe := BitVec.ofNat 5 d.severe, thresh := BitVec.ofNat 8 d.thresh
    windowMs := BitVec.ofNat 22 d.windowMs, locked := lockedSource n }

/-- The configuration that the registrar writes at boot stage 5. -/
def loadDefaults (s : State) : State :=
  let rows := (defaultsA ++ defaultsB).flatMap fun d => (List.range (d.hi + 1 - d.lo)).map fun i => (d.lo + i, rowCfg d (d.lo + i))
  { s with flt := { s.flt with cfg := rows } }

/-! ## Units (R446, R447, R449) -/

/-- UNIT_FAULT (R17, R446). -/
def execUnitFault (e : EngineType) (phys source : Nat) (s : State) : Res :=
  .next (if sourceEngine source = e ∧ phys < physUnits e then unitFault s e phys source else s)

/-- HOPPER_ENGINE_RESET_DONE (R438, R449): fetching resumes. -/
def execHopperEngineResetDone (s : State) : Res := .next { s with hop := { s.hop with resetting := false } }

/-- A unit comes back: the lowest vacant logical index of its type, else it is a spare (R447). -/
def returnUnit (s : State) (e : EngineType) (phys : Nat) : State :=
  let u := s.units e
  let u := { u with fenced := Tab.erase u.fenced phys, held := u.held.filter (· != phys) }
  s.setUnits e (match vacant e u with
    | l :: _ => { u with map := Tab.set u.map l (some phys) }
    | [] => u)

/-- RETEST_COMPLETE (R447): with `fail`, the source that detected the failure. -/
def execRetestComplete (e : EngineType) (phys : Nat) (fail : Option Nat) (s : State) : Res :=
  match Tab.get? (s.units e).fenced phys, fail with
  | none, _ => .next s
  | some _, some src => .next (if sourceEngine src = e then unitFault s e phys src else s)
  | some .minor, none => .next (noteDev s (returnUnit s e phys))
  | some .severe, none => .next s

/-- ERR_N_RELEASE (R444). -/
def execErrNRelease (s : State) : Res :=
  .next (if s.flt.errLatch.flag ∨ s.reg.dev = .failed ∨ s.ent.state = .failed then s
         else { s with flt := { s.flt with errN := false } })

/-! ## Failed lines of QDR (R524, R526, R527) -/

/-- First lines of the extent pool, hopper state, suspended contexts, the rest and the L0 counters. -/
def regionLines (s : State) : Nat × Nat × Nat × Nat × Nat :=
  if s.qdr.paired then (2097152, 3407872, 3538944, 3801088, 4128768) else (4194304, 6815744, 7077888, 7602176, 8257536)

/-- A slot's line has failed: uses before its recovery meet `INTEGRITY_FAULT`; the peer is asked for a mirrored slot (R528). -/
def slotLineFailed (s : State) (n : Nat) : State :=
  if !(s.slot n).valid || s.qdr.recovering.contains n then s
  else
    let s := { s with qdr := { s.qdr with recovering := s.qdr.recovering ++ [n] } }
    if (s.slot n).mirrored && s.mirror.state == .paired then s.send (.slotRequest n) else s

/-- A hopper's state line has failed: it stops, its slips and held return slips are discarded (R527). -/
def hopperLineFailed (s : State) (hn : Nat) : State :=
  match s.hopper? hn with
  | none => s
  | some h =>
    let s := (s.hop.slips.filter fun p => p.2.hopper == hn).foldl (fun s p =>
      let s := if p.2.unit.isSome then stopUnits s p.1 p.2 else s
      dropSlip (dropCarries s p.2.head) p.1) s
    let s := s.modHopper hn fun h => { h with state := .stopped, held := [], fetch := none, openChain := none
                                              statusPending := 0, broken := true }
    if h.broken then s else hopperEvent s hn

/-- The k-th suspended message's context has failed (R110). -/
def contextFailed (s : State) (k : Nat) : State :=
  match (s.hop.slips.filter fun p => p.2.phase == .suspended)[k]? with
  | some p => failSlip s p.1 St.integrityFault
  | none => s

/-- A failed data line (R527). What the last region holds is restored from elsewhere (log 76). -/
def dataLineFailed (s : State) (line : Nat) : State :=
  let (ext, hop, ctx, rest, _) := regionLines s
  if line < ext then slotLineFailed s (line / 2)
  else if line < hop then
    match s.cat.slots.find? fun p => p.2.extent && decide (p.2.extentLine ≤ line - ext)
        && decide (line - ext < p.2.extentLine + extentLines p.2.keyLen) with
    | some p => slotLineFailed s p.1
    | none => s
  else if line < ctx then hopperLineFailed s (line - hop)
  else if line < rest then contextFailed s ((line - ctx) / 16)
  else s

/-- A failed line: a counter line fails the 64 lines it covers (R526). -/
def lineFailed (s : State) (line : Nat) : State :=
  let (_, _, _, _, l0) := regionLines s
  let s := { s with qdr := { s.qdr with integrity := s.qdr.integrity.hit, integTot := s.qdr.integTot + 1 } }
  if line < l0 then dataLineFailed s line
  else (List.range 64).foldl (fun s i => dataLineFailed s (64 * (line - l0) + i)) s

/-! ## CHECKER_REPORT (R436, R441, R445) -/

/-- What a source's event does beyond the collector. -/
def afterReport (s : State) (r : FaultReport) : State :=
  if r.source = 0x001 then fencePair s
  else if r.source = 0x182 then lineFailed s r.detail.toNat
  else if r.source = 0x183 then { s with qdr := { s.qdr with repairTot := s.qdr.repairTot + 1 } }
  else s

/-- The guard reports nothing once its keys are gone (R532). -/
def reported (s : State) (r : FaultReport) : Bool := s.qdr.guardKeys || !(decide (0x181 ≤ r.source) && decide (r.source ≤ 0x183))

/-- Some event of the list resets the chip. -/
def anyResets (s : State) (rs : List FaultReport) : Bool :=
  (strongest (rs.foldl (fun m r => m ||| eventMask s r) 0)).getLsbD 3

/-- CHECKER_REPORT: the events of one cycle. -/
def execCheckerReport (events : List FaultReport) (s : State) : Res :=
  let rs := events.filter (reported s)
  let t := reportAll s rs
  .next (if anyResets s rs then t else rs.foldl afterReport t)

/-! ## FLT_CONFIG (R450, R451) -/

/-- The operation in byte 0 of the payload. -/
def fltOp (s : State) (fn : Nat) : Nat := field (framePayload (s.mbx fn)) 0 1

def fltSpec (len : Nat → Bool) (rsv : Bytes → Bool := fun _ => true) : CmdSpec :=
  { code := 0x0105, role := .o, lenOk := len, rsvOk := rsv, returned := true }

/-- The sources that have a block reset target, units among them (R435, R438). -/
def hasTarget (n : Nat) : Bool :=
  (decide (0x100 ≤ n) && decide (n ≤ 0x13F)) || (decide (0x142 ≤ n) && decide (n ≤ 0x17F)) || (decide (0x1E0 ≤ n) && decide (n ≤ 0x2FF))

def parseSrcCfg (v : Nat) (locked : Bool) : SrcCfg :=
  { minor := BitVec.ofNat 5 v, severe := BitVec.ofNat 5 (v / 2 ^ 5), thresh := BitVec.ofNat 8 (v / 2 ^ 10)
    windowMs := BitVec.ofNat 22 (v / 2 ^ 18), locked := locked }

/-- A locked reaction stays as it is: every mask of a tamper source, `ERR_PIN` of `ENT_QUORUM_LOST` (R439). -/
def keepsLocked (old new : SrcCfg) (n : Nat) : Bool :=
  if isTamperSource n then new.minor == old.minor && new.severe == old.severe
  else n != 0x0C2 || (new.minor.getLsbD 4 == old.minor.getLsbD 4 && new.severe.getLsbD 4 == old.severe.getLsbD 4)

/-- One value of `SET_SOURCE` is in range. -/
def srcValueOk (s : State) (n v : Nat) : Bool :=
  let c := parseSrcCfg v false
  !bit v 40 && c.thresh != 0 && c.windowMs != 0 && decide (c.windowMs.toNat ≤ 3600000)
    && (!(c.minor.getLsbD 2 || c.severe.getLsbD 2) || hasTarget n) && keepsLocked (srcCfg s n) c n

/-- Source and value of each entry of the payload. -/
def srcValues (p : Bytes) : List (Nat × Nat) :=
  (List.range (field p 4 2)).map fun i => (field p 2 2 + i, field p (8 + 8 * i) 8)

def countOk (p : Bytes) : Bool := decide (1 ≤ field p 4 2) && decide (field p 4 2 ≤ 64)

/-- SET_SOURCE; an operation that R450 does not define is refused here (log 77). -/
def execSetSource (fn : Nat) (s : State) : Res :=
  let op := fltOp s fn
  if 2 ≤ op ∧ op ≤ 5 then .next s
  else if op ≠ 1 then .next (serve s fn (fltSpec fun _ => true) fun s _ => .done s (fail St.paramInvalid))
  else
    let c := fltSpec (fun l => decide (8 ≤ l) && l % 8 == 0) fun p =>
      field p 1 1 == 0 && field p 6 2 == 0 && (!countOk p || p.length == 8 + 8 * field p 4 2)
        && (!countOk p || (srcValues p).all fun x => decide (x.2 < 2 ^ 41))
    .next (serve s fn { c with folio := true } fun s p =>
      if !(countOk p && decide (field p 2 2 + field p 4 2 ≤ 1024) && (srcValues p).all fun x => srcValueOk s x.1 x.2) then
        .done s (fail St.paramInvalid)
      else
        let cfg := (srcValues p).foldl (fun t x => Tab.set t x.1 (parseSrcCfg x.2 (lockedSource x.1))) s.flt.cfg
        let s := { s with flt := { s.flt with cfg := cfg } }
        .done (queueRecord s (.faultCfg cfg)) {})

/-- SET_PROFILE (R440): a change of profile clears every count. -/
def execSetProfile (fn : Nat) (s : State) : Res :=
  if fltOp s fn ≠ 2 then .next s
  else .next (serve s fn (fltSpec (lenIs 3) fun p => field p 1 1 == 0) fun s p =>
    let on := field p 2 1 == 1
    if s.tmp.lcs ≠ .factory then .done s (lcsRejected s)
    else if 1 < field p 2 1 then .done s (fail St.paramInvalid)
    else .done { s with flt := { s.flt with counted := on, counts := if s.flt.counted = on then s.flt.counts else [] } } {})

/-- Sources that can be injected (R436, R512, R531). -/
def injectable (n : Nat) : Bool :=
  [0x001, 0x002, 0x10A, 0x142, 0x181, 0x182, 0x185, 0x186, 0x1E0, 0x1F2, 0x200, 0x202, 0x203, 0x204, 0x240, 0x241, 0x280, 0x281
   , 0x2C1, 0x2C2].contains n

/-- The life-cycle state lets the source be injected (R451, R491). -/
def injectState (s : State) (n : Nat) : Bool :=
  granted s 4 || match s.tmp.lcs with
    | .factory | .returned => true
    | .provisioned | .service => isUnitSource n
    | _ => false

/-- FI_ARM (R451). -/
def execFiArm (fn : Nat) (s : State) : Res :=
  if fltOp s fn ≠ 3 then .next s
  else .next (serve s fn (fltSpec (lenIs 7) fun p => field p 1 1 == 0 && decide (field p 6 1 < 2)) fun s p =>
    let n := field p 2 2
    let phys := field p 4 2
    let physOk := if isUnitSource n then decide (phys < physUnits (sourceEngine n)) else phys == 0xFFFF
    if !injectState s n then .done s (lcsRejected s)
    else if s.flt.fi.isSome then .done s (devRejected s)
    else if !(injectable n && physOk) then .done s (fail St.paramInvalid)
    else .done { s with flt := { s.flt with fi := some ⟨n, phys, bit (field p 6 1) 0⟩, fiCount := 0 } } {})

/-- FI_DISARM. -/
def execFiDisarm (fn : Nat) (s : State) : Res :=
  if fltOp s fn ≠ 4 then .next s
  else .next (serve s fn (fltSpec (lenIs 1)) fun s _ => .done { s with flt := { s.flt with fi := none } } {})

/-- RESET_COUNTS. -/
def execResetCounts (fn : Nat) (s : State) : Res :=
  if fltOp s fn ≠ 5 then .next s
  else .next (serve s fn (fltSpec (lenIs 1)) fun s _ => .done { s with flt := { s.flt with counts := [] } } {})

end Sys2Proof.Machine
end

