-- ==== Sys2Proof/Machine/Folio.lean ====
section
/-!
DEFINITION. Folio cartridges: identification, mounting against the RPMB shadow, the journal's records and the archive they
define, anchors, removal (chapter 21).
-/

namespace Sys2Proof.Machine

/-! ## Records (R507, R508) -/

/-- Changes of a list of hopper copies in a carrel record: 56 bytes each (log 80). -/
def parseHops (b : Bytes) (n : Nat) : List PeerHopper :=
  (List.range n).map fun i =>
    { hopper := field b (56 * i) 4, index := field b (56 * i + 4) 3, state := field b (56 * i + 7) 1
      block := slice b (56 * i + 8) 48 }

/-- A carrel record's payload: configuration record, state, export flag, number of hoppers, hoppers, enrolled keys by
position as shelfmarks, all ones for none (log 80). -/
def parseCarrelRec (c : Nat) (p : Bytes) : RecKind :=
  let n := field p 514 2
  let x := parseCfg {} (slice p 0 512)
  let keys := ((List.range 4).map fun i => (4 * c + i, field p (516 + 56 * n + 4 * i) 4)).filter fun k => k.2 != 0xFFFF_FFFF
  .carrel c { x with st := carrelStOf (field p 512 1), exported := field p 513 1 == 1 } (parseHops (p.drop 516) n) keys

/-- A fault-configuration record: 10 bytes for each source, its number and its `FLT_SRC_CFG` value (log 80). -/
def parseFltRec (p : Bytes) : RecKind :=
  .faultCfg ((List.range (p.length / 10)).foldl (fun t i =>
    let n := field p (10 * i) 2
    Tab.set t n (parseSrcCfg (field p (10 * i + 2) 8) (lockedSource n))) [])

/-- An image family map: 8 bytes for each image, `IMAGE_ID` and counter (log 80). -/
def parseFamilyRec (p : Bytes) : RecKind :=
  .familyMap ((List.range (p.length / 8)).map fun i => (BitVec.ofNat 32 (field p (8 * i) 4), field p (8 * i + 4) 4))

/-- What a record holds; `none` for a type that R507 does not list, whose header is not well formed. -/
def parseRec (r : FolRaw) : Option RecKind :=
  match r.recType with
  | 0x01 => some (.slot r.key (parseSlot (slice r.payload 0 128) (r.payload.drop 128)))
  | 0x02 => some (.tombstone (field r.payload 0 4) (BitVec.ofNat 32 (field r.payload 4 4)))
  | 0x03 => some (parseCarrelRec r.key r.payload)
  | 0x04 => some (.lease (field r.payload 0 4) (field r.payload 4 8))
  | 0x05 => some (.treeCache r.key)
  | 0x06 => some (parseFltRec r.payload)
  | 0x07 => some (parseFamilyRec r.payload)
  | 0x08 => some (.devSec (BitVec.ofNat 64 r.devSec))
  | 0x0A => some (.void (field r.payload 0 8))
  | _ => none

/-- A record found on a cartridge, with the validity of its two copies. -/
def fromRaw (r : FolRaw) : FolRecord :=
  match parseRec r with
  | some k => { seq := r.seq, kind := k, copyA := r.validA, copyB := r.validB, devSec := r.devSec }
  | none => { seq := r.seq, kind := .void 0 }

/-- Both copies are valid: the record is on this cartridge. -/
def recWhole (r : FolRecord) : Bool := r.copyA && r.copyB

/-- The object a record is about: kind and number. A slot and its tombstone are one object. -/
def recObject : RecKind → Nat × Nat
  | .slot n _ => (1, n)
  | .tombstone n _ => (1, n)
  | .carrel n _ _ _ => (3, n)
  | .lease n _ => (4, n)
  | .treeCache n => (5, n)
  | .faultCfg _ => (6, 0)
  | .familyMap _ => (7, 0)
  | .devSec _ => (8, 0)
  | .void n => (10, n)

/-- Add a record to a list in sequence order, unless it is there. -/
def insertRec (r : FolRecord) : List FolRecord → List FolRecord
  | [] => [r]
  | x :: xs => if x.seq = r.seq then x :: xs else if r.seq < x.seq then r :: x :: xs else x :: insertRec r xs

/-- Sequence numbers cancelled by void records. -/
def voided (rs : List FolRecord) : List Nat := rs.filterMap fun r => match r.kind with
  | .void n => some n
  | _ => none

/-- The records that stand (R508): of each object the one with the greatest sequence number, those cancelled left out. -/
def standing (rs : List FolRecord) : List FolRecord :=
  let gone := voided rs
  let live := rs.filter fun r => !gone.contains r.seq
  live.filter fun r => live.all fun x => recObject x.kind != recObject r.kind || decide (x.seq ≤ r.seq)

/-- The slot's cartridge can be read: its records are part of the archive. -/
def folReads (f : FolSlot) : Bool := f.state == .reconciling || f.state == .mounted || f.state == .readOnly

/-- Its class is current (R505); a cartridge new to the device has no tenure yet. -/
def folCurrent (f : FolSlot) : Bool := folReads f && !f.stale && f.tenure != 0

/-- The union of the valid records of the cartridges that can be read, in sequence order (R508). -/
def archiveUnion (s : State) : List FolRecord :=
  (s.folio.slots.flatMap fun p => if folReads p.2 then p.2.records.filter recWhole else []).foldl (fun l r => insertRec r l) []

/-- The greatest sequence number among a cartridge's whole records. -/
def highOf (rs : List FolRecord) : Nat := (rs.filter recWhole).foldl (fun m r => max m r.seq) 0

/-! ## Records that have come onto folio (R506) -/

/-- Record `n` has both copies on this cartridge. -/
def holdsRec (f : FolSlot) (n : Nat) : Bool := f.records.any fun r => r.seq == n && recWhole r

def heldMounted (s : State) (n : Nat) : Bool := s.folio.slots.any fun p => p.2.state == .mounted && holdsRec p.2 n

/-- What follows when a record is on folio: `ARCHIVED` and the block of uses (R334, R546), a tombstone's deaccession (R332),
`ARCHIVE_LAG`. -/
def recEffect (s : State) (r : FolRecord) : State :=
  match r.kind with
  | .slot n x =>
    let s := if s.now - r.due > 125000000 then catHitArchiveLag s else s
    let sl := s.slot n
    if sl.valid && sl.ownGen == x.ownGen then
      let ceil := if sl.useLimit = 0 then sl.folioCeil else max sl.folioCeil x.useCount
      s.setSlot n { sl with archived := true, folioCeil := ceil }
    else s
  | .tombstone n _ =>
    if (s.slot n).deacPending.isSome then tryDeac (s.setSlot n { s.slot n with deacTomb := true }) n else s
  | _ => s

/-- Queued records that have just come onto folio take effect once; those that every MOUNTED cartridge holds leave the queue
(R506, R509). -/
def settleQueue (s : State) : State :=
  let fresh := s.folio.queue.filter fun r => !r.copyB && heldMounted s r.seq
  let s := { s with folio := { s.folio with
      queue := s.folio.queue.map fun r => if fresh.any (·.seq == r.seq) then { r with copyA := true, copyB := true } else r } }
  let s := fresh.foldl recEffect s
  let behind (n : Nat) : Bool := s.folio.slots.any fun p => p.2.state == .mounted && !holdsRec p.2 n
  { s with folio := { s.folio with queue := s.folio.queue.filter fun r => !(r.copyB && !behind r.seq) } }

/-- The oldest queued record that a cartridge lacks. -/
def nextRec (s : State) (f : FolSlot) : Option FolRecord := s.folio.queue.find? fun r => !holdsRec f r.seq

/-- Write both copies of every queued record to a cartridge. -/
def writeAll (q : List FolRecord) (f : FolSlot) : FolSlot :=
  let rs := q.foldl (fun rs r => insertRec { r with copyA := true, copyB := true } (rs.filter fun x => x.seq != r.seq || recWhole x))
    f.records
  { f with records := rs, highSeq := highOf rs, writing := none }

/-- The journal flush of S4 and of a firmware activation (R462, R385): due archive records and tombstones join the queue, and
every MOUNTED cartridge takes the whole queue. -/
def archiveFlush (s : State) : State :=
  let s := s.cat.tombstones.foldl (fun s n => queueRecord s (.tombstone n (s.slot n).ownGen))
    { s with cat := { s.cat with tombstones := [] } }
  let due := s.cat.archivePending
  let s := { s with cat := { s.cat with archivePending := [] } }
  let s := due.foldl (fun s p =>
    if (s.slot p.1).valid && (s.slot p.1).persistent then queueRecord s (.slot p.1 (archiveSlot (s.slot p.1))) else s) s
  let q := s.folio.queue
  let slots := Tab.mapVals s.folio.slots fun _ f => if f.state == .mounted then writeAll q f else f
  settleQueue { s with folio := { s.folio with slots := slots } }

/-! ## Events and states of a slot (R498, R499) -/

/-- `EVT_FOLIO` (R380). -/
def folEvent (s : State) (slot code : Nat) : State := queueEvent s 0x0A [BitVec.ofNat 8 slot, BitVec.ofNat 8 code]

/-- The slot reaches a state that ends its mounting (R547). -/
def folSettles (s : State) (slot : Nat) (st : FolState) : State :=
  let f := s.folSlot slot
  if f.state = st then s else folEvent (s.setFolSlot slot { f with state := st }) slot 1

/-- Identification fails at a step (R496). -/
def idFails (s : State) (slot step : Nat) : State :=
  reportSrc (folSettles s slot .unusable) 0x1F0 0xFF (BitVec.ofNat 32 step)

/-- Pre-end-of-life information and the two life-time estimates of EXT_CSD, as `FOL_LIFE` holds them. -/
def preEol (life : W32) : Nat := life.toNat % 256

def lifeWorn (life : W32) : Bool := preEol life == 2 || decide (9 ≤ life.toNat / 256 % 256) || decide (9 ≤ life.toNat / 65536 % 256)

/-- A worn-out cartridge, or one whose RPMB counter is used up, is only read (R498). -/
def worn (f : FolSlot) : Bool := preEol f.life == 3 || f.rpmbCnt == 0xFFFF_FFFF#32

/-- The wear fields are read: `FOL_WEAR`, and READ_ONLY where the cartridge may no longer be written (R498). -/
def checkWear (s : State) (slot : Nat) : State :=
  let s := if lifeWorn (s.folSlot slot).life then reportSrc s 0x1F8 0xFF (BitVec.ofNat 32 slot) else s
  if folReads (s.folSlot slot) && worn (s.folSlot slot) then folSettles s slot .readOnly else s

/-- The shadow of a slot (R504). -/
def shadow (s : State) (slot : Nat) : Nat := ctrFinal s (288 + slot)

def shadowsZero (s : State) : Bool := (List.range 4).all fun n => shadow s n == 0

/-- Write the shadow after an RPMB write (R240, R504). -/
def writeShadow (s : State) (slot : Nat) : State :=
  let f := s.folSlot slot
  ledgerRaise s (288 + slot) (f.tenure * 2 ^ 32 + f.rpmbCnt.toNat)

/-! ## Insertion and identification (R496, R499) -/

/-- CARTRIDGE_INSERT (R499): the debounce has passed; the cartridge is identified. -/
def execCartridgeInsert (slot : Nat) (s : State) : Res :=
  let f := s.folSlot slot
  if 4 ≤ slot ∨ f.present = true then .next s
  else
    let s := s.setFolSlot slot { f with
      state := .identifying, present := true, inserted := f.inserted.hit, insertedAt := s.now, polls := 0, records := []
      highSeq := 0, anchorHigh := 0, anchorAt := none, tenure := 0, stale := false, adopt := false }
    .next (s.send (.folioCmd slot 0))

/-- CARTRIDGE_REMOVE (R499, R513): the slot is empty at once; a record being written stays pending unless another MOUNTED
cartridge holds it. The block address in the report is not tracked (log 81). -/
def execCartridgeRemove (slot : Nat) (s : State) : Res :=
  let f := s.folSlot slot
  if 4 ≤ slot ∨ f.present = false then .next s
  else
    let fresh : FolSlot := { inserted := f.inserted, removed := f.removed.hit, ioErr := f.ioErr }
    let s := s.setFolSlot slot fresh
    let s := if f.anchoring then reportSrc s 0x1F3 0xFF 0xFFFF_FFFF#32
      else if f.writing.isSome then reportSrc s 0x1F3 0xFF (BitVec.ofNat 32 (Config.freeNat 155 [slot, f.writing.getD 0]))
      else s
    .next (settleQueue (folEvent s slot 2))

/-- CMD1_POLL (R496 step 2): the OCR busy bit is asked for every 10 ms, for at most 1 s. -/
def execCmd1Poll (slot : Nat) (ready : Bool) (s : State) : Res :=
  let f := s.folSlot slot
  if f.state ≠ .identifying then .next s
  else
    let s := s.send (.folioCmd slot 1)
    if ready then .next s
    else if f.polls + 1 ≥ 100 then .next (idFails s slot 2)
    else .next (s.setFolSlot slot { f with polls := f.polls + 1 })

/-! ## Mounting (R502, R505) -/

/-- The journal is read: a record with one valid copy is mended, one with none is lost (R507). -/
def readJournal (s : State) (slot : Nat) (rs : List FolRecord) : State :=
  let s := rs.foldl (fun s r =>
    if recWhole r then s
    else if r.copyA || r.copyB then reportSrc s 0x1F4 0xFF (BitVec.ofNat 32 slot)
    else reportSrc s 0x1F5 0xFF (BitVec.ofNat 32 slot)) s
  let kept := (rs.filter fun r => r.copyA || r.copyB).foldl (fun l r => insertRec { r with copyA := true, copyB := true } l) []
  s.setFolSlot slot { s.folSlot slot with records := kept, highSeq := highOf kept, writing := none }

/-- The classes of R505. -/
inductive FolClass where
  | current | shadowLost | stale | inconsistent
  deriving DecidableEq, Repr

/-- Class of a cartridge by its anchor and its RPMB counter. -/
def classify (s : State) (r : MountInfo) : FolClass :=
  let t := shadow s r.ancSlot / 2 ^ 32
  let v := shadow s r.ancSlot % 2 ^ 32
  if r.serial ≠ s.reg.serial ∨ 4 ≤ r.ancSlot then .inconsistent
  else if r.tenure < t then .stale
  else if r.tenure = t ∧ r.counter = v then .current
  else if r.tenure = t ∧ r.counter = v + 1 then .shadowLost
  else .inconsistent

/-- A cartridge that may be mounted goes into RECONCILING, or stays READ_ONLY when it is worn (R498, R508). -/
def beginReconcile (s : State) (slot : Nat) (rs : List FolRecord) : State :=
  let s := s.setFolSlot slot { s.folSlot slot with state := .reconciling }
  checkWear (readJournal s slot rs) slot

/-- MOUNT (R502, R505): the RPMB write counter is read with its MAC, and the anchor classified against the shadow of its slot.
A cartridge that has not been removed since it was last read holds the records it held then (log 82). -/
def execMount (slot : Nat) (r : MountInfo) (s : State) : Res :=
  let f := s.folSlot slot
  if f.state ≠ .identifying ∨ s.boot.stage < 8 then .next s
  else
    let f := { f with
      capacity := r.secCount, rpmbCnt := BitVec.ofNat 32 r.counter, life := r.life, width := r.width, timing := r.timing
      tenure := 0, stale := false, adopt := false, anchorAt := none, anchoring := false }
    let rs := if f.records.isEmpty then r.records.map fromRaw else f.records
    let s := s.setFolSlot slot f
    if r.idFail ≠ 0 then .next (idFails s slot r.idFail)
    else if r.secCount.toNat < 67108864 then .next (idFails s slot 4)
    else match r.rpmb with
      | .keyNotProgrammed =>
        if s.tmp.lcs = .factory ∨ s.tmp.lcs = .provisioned ∨ s.tmp.lcs = .service then
          .next (beginReconcile (s.setFolSlot slot { f with adopt := true, anchorHigh := 0 }) slot [])
        else .next (folSettles s slot .foreign)
      | .macFails => .next (reportSrc (folSettles s slot .foreign) 0x1F6 0xFF (BitVec.ofNat 32 slot))
      | .ok =>
        let f := { f with tenure := r.tenure, anchorHigh := r.highSeq }
        match classify s r with
        | .current => .next (beginReconcile (s.setFolSlot slot { f with adopt := r.ancSlot != slot }) slot rs)
        | .shadowLost =>
          let s := ledgerRaise s (288 + r.ancSlot) (r.tenure * 2 ^ 32 + r.counter)
          .next (beginReconcile (s.setFolSlot slot { f with adopt := r.ancSlot != slot }) slot rs)
        | .stale =>
          let s := beginReconcile (s.setFolSlot slot { f with stale := true, adopt := true }) slot rs
          .next (reportSrc s 0x1F7 0xFF (BitVec.ofNat 32 slot))
        | .inconsistent => .next (reportSrc (folSettles s slot .foreign) 0x1F9 0xFF (BitVec.ofNat 32 slot))

/-- A cartridge may be adopted as it stands: a stale one, or a new one during boot, only where a current cartridge is there to
bring it up to date, or the device has no archive (R508). -/
def mayAdopt (s : State) (f : FolSlot) : Bool :=
  let alone := !(s.folio.slots.any fun p => folCurrent p.2) && !shadowsZero s && !s.folio.abandoned
  !(alone && (f.stale || (f.tenure == 0 && s.reg.dev == .booting)))

/-- RECONCILE_COMPLETE (R508): every standing record above the cartridge's own is copied to it, a fresh anchor is written, with
a new tenure where it is adopted, and it is MOUNTED. -/
def execReconcileComplete (slot : Nat) (s : State) : Res :=
  let f := s.folSlot slot
  if f.state ≠ .reconciling ∨ mayAdopt s f = false then .next s
  else if worn f then .next (folSettles s slot .readOnly)
  else
    let all := s.folio.queue.foldl (fun l r => insertRec r l) (archiveUnion s)
    let own := highOf f.records
    let missing := (standing all).filter fun r => decide (own < r.seq)
    let f := writeAll missing f
    let f := { f with
      rpmbCnt := f.rpmbCnt + 1, anchorHigh := f.highSeq, anchorAt := some s.now
      tenure := if f.adopt then shadow s slot / 2 ^ 32 + 1 else f.tenure, adopt := false, stale := false }
    let s := s.send (.rpmbWrite slot f.highSeq)
    let s := writeShadow (s.setFolSlot slot f) slot
    .next (settleQueue (folSettles s slot .mounted))

/-! ## Writing (R504, R506) -/

/-- RECORD_COPY_A_DONE (R506): copy A of the cartridge's next record is written, and copy B follows. -/
def execRecordCopyADone (slot : Nat) (s : State) : Res :=
  let f := s.folSlot slot
  match f.state, f.writing, nextRec s f with
  | .mounted, none, some r =>
    .next (s.setFolSlot slot { f with
      records := insertRec { r with copyA := true, copyB := false } (f.records.filter fun x => x.seq != r.seq)
      writing := some r.seq })
  | _, _, _ => .next s

/-- RECORD_ON_FOLIO (R506): copy B is written too. -/
def execRecordOnFolio (slot : Nat) (s : State) : Res :=
  let f := s.folSlot slot
  match f.writing with
  | none => .next s
  | some n =>
    let rs := f.records.map fun r => if r.seq = n then { r with copyB := true } else r
    .next (settleQueue (s.setFolSlot slot { f with records := rs, writing := none, highSeq := highOf rs }))

/-- ANCHOR_WRITE (R504, R240): at most once a second for each slot, when `ANC_HIGH_SEQ` has advanced; stopped from shed stage S1
on (R461). -/
def execAnchorWrite (slot : Nat) (s : State) : Res :=
  let f := s.folSlot slot
  let due := match f.anchorAt with
    | some t => decide (s.now - t ≥ 1250000000)
    | none => true
  if f.state = .mounted ∧ f.anchoring = false ∧ f.anchorHigh < f.highSeq ∧ due = true ∧ s.cel.stage = 0 then
    let s := s.setFolSlot slot { f with anchoring := true, anchorAt := some s.now, anchorHigh := f.highSeq }
    .next (s.send (.rpmbWrite slot f.highSeq))
  else .next s

/-- ANCHOR_WRITE_DONE (R504): the shadow follows; the last counter value makes the cartridge READ_ONLY (R498). -/
def execAnchorWriteDone (slot : Nat) (s : State) : Res :=
  let f := s.folSlot slot
  if f.anchoring = false then .next s
  else
    let f := { f with anchoring := false, rpmbCnt := f.rpmbCnt + 1 }
    let s := writeShadow (s.setFolSlot slot f) slot
    .next (if worn f then settleQueue (folSettles s slot .readOnly) else s)

/-- DEVSEC_MARK (R507): written every 60 s once the archive is open. -/
def execDevsecMark (s : State) : Res :=
  if s.boot.stage < 9 ∨ s.boot.waiting = true ∨ queueFull s = true then .next s
  else .next (queueRecord s (.devSec s.cel.devSec))

/-! ## Errors, tuning, wear -/

/-- FOL_IO_ERR (R499): a command times out or fails its CRC three times; its block reset identifies the cartridge again. -/
def execFolIoErr (slot : Nat) (s : State) : Res :=
  let f := s.folSlot slot
  if folReads f = false then .next s
  else
    let s := s.setFolSlot slot { f with ioErr := f.ioErr.hit }
    .next (settleQueue (reportSrc s 0x1F1 0xFF (BitVec.ofNat 32 slot)))

/-- RETUNE (R497): a slot in HS200 whose widest run of passing taps is narrower than 8 drops to high-speed SDR. -/
def execRetune (slot : Nat) (ok : Bool) (s : State) : Res :=
  let f := s.folSlot slot
  if folReads f = true ∧ f.timing = 2 ∧ ok = false then .next (s.setFolSlot slot { f with timing := 1 }) else .next s

/-- LIFE_CHECK (R498): the wear fields are read. -/
def execLifeCheck (slot : Nat) (life : W32) (s : State) : Res :=
  let f := s.folSlot slot
  if folReads f = false then .next s
  else .next (settleQueue (checkWear (s.setFolSlot slot { f with life := life }) slot))

/-! ## A new cellar key (R481, R508) -/

/-- Counters whose binding records lie under the cellar key that is gone (R243). -/
def boundCounters (s : State) : List Nat :=
  (s.ledger.counters.filter fun p => decide (1024 ≤ p.1) && (ctrContent p.1 p.2).state == .bound).map (·.1)

/-- A new cellar key is drawn: the archives cannot be opened, the counters bound under the old one are orphaned, no carrel is
homed anywhere by choice. -/
def newCellarKey (s : State) : State :=
  let slots := Tab.mapVals s.folio.slots fun _ f =>
    { f with records := f.records.map fun r => { r with copyA := false, copyB := false } }
  { s with
    cel := { s.cel with cellarKey := true }
    ledger := { s.ledger with orphanBound := boundCounters s }
    mirror := { s.mirror with home := [] }
    folio := { s.folio with queue := [], slots := slots } }

/-- The archive is abandoned (R508). -/
def abandonArchive (s : State) : State :=
  let s := newCellarKey (reportSrc s 0x1FA)
  { s with folio := { s.folio with abandoned := true } }

/-- FOL_ARCHIVE_ABANDONED (R508): after 600 s at stage 9 without a current cartridge. -/
def execFolArchiveAbandoned (s : State) : Res :=
  if s.boot.stage ≠ 9 ∨ s.boot.waiting = false ∨ s.folio.abandoned = true then .next s
  else .next (abandonArchive s)

end Sys2Proof.Machine
end

