-- ==== Sys2Proof/Machine/Operands.lean ====
section
/-!
DEFINITION. Operands of a microword (chapters 5 and 6): its fields, vector elements, scalar and modulus registers, scratch
addresses, queues, secret tags and share kinds.
-/

namespace Sys2Proof.Machine

/-! ## The microword (R143, R144) -/

/-- The fields of a stored microword (R143). -/
def unpackWord (b : BitVec 192) : Microword where
  seqOp := b.extractLsb' 0 4
  next := b.extractLsb' 4 14
  cond := b.extractLsb' 18 6
  ctr := b.extractLsb' 24 4
  safe := b.getLsbD 28
  trace := b.extractLsb' 29 8
  vop := b.extractLsb' 37 7
  vew := b.extractLsb' 44 2
  vsrcA := b.extractLsb' 46 5
  vsrcB := b.extractLsb' 51 5
  vdst := b.extractLsb' 56 5
  vmod := b.extractLsb' 61 5
  vperm := b.extractLsb' 66 6
  shr := b.extractLsb' 72 4
  vlop := b.extractLsb' 76 4
  tag := b.extractLsb' 80 2
  rnd := b.extractLsb' 82 4
  mld := b.extractLsb' 86 4
  mldAddr := b.extractLsb' 90 6
  mst := b.extractLsb' 96 3
  mstAddr := b.extractLsb' 99 6
  hcore := b.extractLsb' 105 6
  inq := b.extractLsb' 111 3
  outq := b.extractLsb' 114 3
  sop := b.extractLsb' 117 5
  sa := b.extractLsb' 122 4
  sb := b.extractLsb' 126 4
  sd := b.extractLsb' 130 4
  imm := b.extractLsb' 134 32
  reserved := b.extractLsb' 166 10
  check := b.extractLsb' 176 16

/-- A microword laid out as the control store holds it. -/
def packWord (w : Microword) : BitVec 192 :=
  w.check ++ w.reserved ++ w.imm ++ w.sd ++ w.sb ++ w.sa ++ w.sop ++ w.outq ++ w.inq ++ w.hcore ++ w.mstAddr ++ w.mst
    ++ w.mldAddr ++ w.mld ++ w.rnd ++ w.tag ++ w.vlop ++ w.shr ++ w.vperm ++ w.vmod ++ w.vdst ++ w.vsrcB ++ w.vsrcA
    ++ w.vew ++ w.vop ++ w.trace ++ BitVec.ofBool w.safe ++ w.ctr ++ w.cond ++ w.next ++ w.seqOp

/-- The check bits agree with the 22 payload bytes (R144). -/
def wordOk (b : BitVec 192) : Bool := crc16 (le 22 (b.toNat % 2 ^ 176)) == b.extractLsb' 176 16

/-! ## How a microword stops a routine -/

/-- `TAINT_VIOLATION` (R139) or `ROUTINE_FAULT`. -/
inductive TunStop where
  | taint | fault
  deriving DecidableEq, Repr

def TunStop.status : TunStop → Nat
  | .taint => St.taintViolation
  | .fault => St.routineFault

/-! ## Elements (R118, R119) -/

/-- Element width w of a `VEW` code. -/
def widthOf (vew : BitVec 2) : Nat := 2 ^ (3 + vew.toNat)

/-- VLMAX at width w. -/
def vlMax (w : Nat) : Nat := 8192 / w

/-- The effective count of a VL-governed operation (R119). -/
def effCount (x : Tun) (w : Nat) : Nat := min x.vl (vlMax w)

/-- Element `i` of width `w` of a register value. -/
def velem (w r i : Nat) : Nat := r / 2 ^ (w * i) % 2 ^ w

def velems (w n r : Nat) : List Nat := (List.range n).map (velem w r)

/-- The register value whose elements are given, each modulo 2^w. -/
def vpack (w : Nat) : List Nat → Nat
  | [] => 0
  | e :: es => e % 2 ^ w + 2 ^ w * vpack w es

/-- Two's complement reading of an element. -/
def sgn (w e : Nat) : Int := if e < 2 ^ (w - 1) then e else (e : Int) - 2 ^ w

/-- An integer modulo 2^w. -/
def wrap (w : Nat) (z : Int) : Nat := (z % 2 ^ w).toNat

/-! ## Registers, tags and kinds (R115, R116) -/

def vreg (x : Tun) (r : Nat) : Nat := (Tab.getD x.v r 0).toNat

/-- Membership of a number in a set kept as a list. -/
def setIn (l : List Nat) (n : Nat) (b : Bool) : List Nat :=
  if b then (if l.contains n then l else l ++ [n]) else l.filter (· != n)

def vTag (x : Tun) (r : Nat) : Bool := x.vtag.contains r

def vKind (x : Tun) (r : Nat) : ShareKind := Tab.getD x.vkind r .boolean

/-- S0 reads zero and is never tagged (R115). -/
def sreg (x : Tun) (r : Nat) : Nat := if r = 0 then 0 else (Tab.getD x.s r 0).toNat

def sTag (x : Tun) (r : Nat) : Bool := decide (r ≠ 0) && x.stag.contains r

def setS (x : Tun) (r v : Nat) (tag : Bool) : Tun :=
  if r = 0 then x else { x with s := Tab.set x.s r (BitVec.ofNat 64 v), stag := setIn x.stag r tag }

/-- Write the low `k` bits of a vector register. A partial write keeps the rest and ORs the tags (R119, R138); one of no bits
changes nothing. -/
def setV (x : Tun) (r k v : Nat) (tag : Bool) (kind : ShareKind) : Tun :=
  if k = 0 then x
  else
    let old := vreg x r
    let part := decide (k < 8192)
    let t := tag || (part && vTag x r)
    { x with
      v := Tab.set x.v r (BitVec.ofNat 8192 (if part then v % 2 ^ k + old / 2 ^ k * 2 ^ k else v))
      vtag := setIn x.vtag r t
      vkind := if tag then Tab.set x.vkind r kind else x.vkind }

/-- Modulus register Mi. -/
def mreg (x : Tun) (i : Nat) : Nat :=
  match i with
  | 0 => x.m0.toNat
  | 1 => x.m1.toNat
  | 2 => x.m2.toNat
  | _ => x.m3.toNat

def setM (x : Tun) (i : Nat) (v : BitVec 31) : Tun :=
  match i with
  | 0 => { x with m0 := v }
  | 1 => { x with m1 := v }
  | 2 => { x with m2 := v }
  | _ => { x with m3 := v }

/-- Loop counter CTn. -/
def ctr (x : Tun) (i : Nat) : BitVec 16 :=
  match i with
  | 0 => x.ct0
  | 1 => x.ct1
  | 2 => x.ct2
  | _ => x.ct3

def setCtr (x : Tun) (i : Nat) (v : BitVec 16) : Tun :=
  match i with
  | 0 => { x with ct0 := v }
  | 1 => { x with ct1 := v }
  | 2 => { x with ct2 := v }
  | _ => { x with ct3 := v }

/-! ## What a routine sees of its slip (R129, R153, R154) -/

structure TunEnv where
  inq : Bytes := []
  aux : Bytes := []
  param : Bytes := []
  key : Bytes := []
  carry : Bytes := []
  /-- Fresh bytes of the RNG queue, more than one transfer takes. -/
  rng : Bytes := []
  outMax : Nat := 0
  hold : Bool := false
  dest : Bool := false
  /-- The routine is a closed-stacks routine. -/
  closed : Bool := false
  /-- Bytes of scratch that the routine addresses: 512 KiB, or 2 MiB on a gang (R134). -/
  limit : Nat := 524288
  /-- Trace records are kept (R173). -/
  tracing : Bool := false

/-- One action of a microword: what it does, from the state before the word, to the state the word is building. -/
abbrev Act := TunEnv → Microword → Tun → Tun → Except TunStop Tun

/-! ## Scratch (R126 to R128) -/

/-- The scratch lines of `n` bytes from `a`. -/
def linesOf (a n : Nat) : List Nat := if n = 0 then [] else (List.range ((a + n - 1) / 64 + 1 - a / 64)).map (a / 64 + ·)

/-- A line lies wholly inside `n` bytes from `a`. -/
def fullLine (a n l : Nat) : Bool := decide (a ≤ 64 * l) && decide (64 * l + 64 ≤ a + n)

/-- The address of a load or store, with its faults: tagged register, misaligned, beyond the scratch, registers past V31. -/
def scratchAddr (e : TunEnv) (x : Tun) (f : BitVec 6) (w bytes first k : Nat) : Except TunStop Nat :=
  let r := f.toNat % 16
  if sTag x r then .error .taint
  else if sreg x r % (w / 8) ≠ 0 ∨ sreg x r + bytes > e.limit ∨ first + k > 32 then .error .fault
  else .ok (sreg x r)

/-- Post-increment of an address register by the bytes moved. -/
def postInc (x0 x : Tun) (f : BitVec 6) (bytes : Nat) : Tun :=
  if f.toNat / 16 = 1 then setS x (f.toNat % 16) (sreg x0 (f.toNat % 16) + bytes) false else x

/-- Element of a load: field `f` of element `i` of a `k`-field transfer at address `a`. -/
def loadElem (m : Mem) (a w k i f : Nat) : Nat := unle (Mem.readN m (a + (i * k + f) * (w / 8)) (w / 8))

/-- `n` elements of `k` registers, interleaved for a store (R126). -/
def storeBytes (x : Tun) (w n k first : Nat) : Bytes :=
  (List.range n).flatMap fun i => (List.range k).flatMap fun f => le (w / 8) (velem w (vreg x (first + f)) i)

/-- Tags and kinds of the lines a store of `n` bytes at `a` writes (R128). -/
def tagLines (x : Tun) (a n : Nat) (tag : Bool) (kind : ShareKind) : Tun :=
  (linesOf a n).foldl (fun x l => { x with
    ltag := setIn x.ltag l (tag || (!fullLine a n l && x.ltag.contains l))
    lkind := if tag then Tab.set x.lkind l kind else x.lkind
    written := setIn x.written l true }) x

/-! ## Queues (R153, R154) -/

/-- Contents and position of an input queue. -/
def queueOf (e : TunEnv) (x : Tun) : Nat → Bytes × Nat
  | 1 => (e.inq, x.inPos)
  | 2 => (e.aux, x.auxPos)
  | 3 => (e.param, x.paramPos)
  | 4 => (e.key, x.keyPos)
  | 5 => (e.carry, x.carryPos)
  | _ => (e.rng, 0)

def advanceQueue (x : Tun) (q n : Nat) : Tun :=
  match q with
  | 1 => { x with inPos := x.inPos + n }
  | 2 => { x with auxPos := x.auxPos + n }
  | 3 => { x with paramPos := x.paramPos + n }
  | 4 => { x with keyPos := x.keyPos + n }
  | 5 => { x with carryPos := x.carryPos + n }
  | _ => x

end Sys2Proof.Machine
end

