-- ==== Sys2Proof/Machine/Flags.lean ====
section
/-!
DEFINITION. The scalar unit with its flags (R130, R131) and the conditions of the sequencer (R148).
-/

namespace Sys2Proof.Machine

/-! ## Scalar operations (R130) -/

/-- Packed addition or subtraction in lanes of `w` bits of 64. -/
def packed (w : Nat) (f : Nat → Nat → Int) (a b : Nat) : Nat :=
  vpack w (List.zipWith (fun x y => wrap w (f x y)) (velems w (64 / w) a) (velems w (64 / w) b))

/-- What a scalar operation reads and gives: result, carry, whether A and B are sources. -/
structure SOut where
  res : Nat
  carry : Bool := false
  useA : Bool := true
  useB : Bool := true

/-- Result of a scalar operation on sources `a`, `b`, the immediate and VL; none for `SNOP`, `SMSET` and reserved codes. -/
def scalarOp (code a b imm vl : Nat) : Option SOut :=
  let sh := b % 64
  match code with
  | 0x01 => some { res := (a + b) % 2 ^ 64, carry := decide (2 ^ 64 ≤ a + b) }
  | 0x02 => some { res := wrap 64 ((a : Int) - b), carry := decide (a < b) }
  | 0x03 => some { res := a &&& b }
  | 0x04 => some { res := a ||| b }
  | 0x05 => some { res := a ^^^ b }
  | 0x06 => some { res := a * 2 ^ sh % 2 ^ 64 }
  | 0x07 => some { res := a / 2 ^ sh }
  | 0x08 => some { res := wrap 64 (sgn 64 a / 2 ^ sh) }
  | 0x09 => some { res := a * b % 2 ^ 64 }
  | 0x0A => some { res := imm, useA := false, useB := false }
  | 0x0C => some { res := b2n (decide (a < b)) }
  | 0x0D => some { res := b2n (a == b) }
  | 0x0E => some { res := packed 8 (fun x y => x + y) a b }
  | 0x0F => some { res := packed 16 (fun x y => x + y) a b }
  | 0x10 => some { res := packed 32 (fun x y => x + y) a b }
  | 0x11 => some { res := packed 8 (fun x y => (x : Int) - y) a b }
  | 0x12 => some { res := packed 16 (fun x y => (x : Int) - y) a b }
  | 0x13 => some { res := packed 32 (fun x y => (x : Int) - y) a b }
  | 0x14 => some { res := velem 8 a (imm % 8), useB := false }
  | 0x15 => some { res := vl % 2 ^ 64, useA := false, useB := false }
  | 0x16 => some { res := min a b }
  | 0x17 => some { res := max a b }
  | _ => none

/-- Flags of a result (R130): Z, N, C, with the result's tag. -/
def setFlags (x : Tun) (res : Nat) (carry tag : Bool) : Tun :=
  { x with fz := res == 0, fn := bit res 63, fc := carry, ftag := tag }

/-- The low half that `SLIH` leaves: what SA and SD both hold when they are one register; otherwise the manual does not say
which source, if any, it comes from, and it is free (log 60). -/
def slihLow (w : Microword) (a d : Nat) : Nat :=
  (if w.sa = w.sd then a else Config.freeNat 113 [a, d]) % 2 ^ 32

/-- The scalar action of a microword under operation code `code` (R130, R131). -/
def scalarAct (code : Nat) : Act := fun _ w x0 x =>
  let ra := w.sa.toNat
  let rb := w.sb.toNat
  let a := sreg x0 ra
  let b := sreg x0 rb
  if code = 0 then .ok x
  else if code = 0x0B then
    let tag := sTag x0 ra || sTag x0 w.sd.toNat
    let res := w.imm.toNat * 2 ^ 32 + slihLow w a (sreg x0 w.sd.toNat)
    .ok (setFlags (setS x w.sd.toNat res tag) res false tag)
  else if code = 0x18 then
    if sTag x0 ra then .error .taint
    else if a % 2 ^ 31 < 2 then .error .fault
    else .ok (setFlags (setM x (w.imm.toNat % 4) (BitVec.ofNat 31 a)) (a % 2 ^ 31) false false)
  else match scalarOp code a b w.imm.toNat x0.vl with
    | none => .error .fault
    | some o =>
      let tag := (o.useA && sTag x0 ra) || (o.useB && sTag x0 rb)
      .ok (setFlags (setS x w.sd.toNat o.res tag) o.res o.carry tag)

/-! ## Conditions (R148) -/

/-- The condition named by `COND`[4:0]; tagged flags stop the routine (R139). -/
def condRaw (e : TunEnv) (x : Tun) (c : Nat) : Except TunStop Bool :=
  let flag (b : Bool) : Except TunStop Bool := if x.ftag then .error .taint else .ok b
  match c with
  | 0x00 => .ok true
  | 0x01 => flag x.fz
  | 0x02 => flag x.fn
  | 0x03 => flag x.fc
  | 0x04 => .ok x.qsat
  | 0x05 => .ok x.qend
  | 0x06 => .ok (x.ct0 == 0)
  | 0x07 => .ok (x.ct1 == 0)
  | 0x08 => .ok (x.ct2 == 0)
  | 0x09 => .ok (x.ct3 == 0)
  | 0x0A => .ok (x.vl == 0)
  | 0x0B => .ok (decide (e.outMax ≤ x.outCount))
  | _ => .error .fault

/-- `COND` with its inversion bit. -/
def condHolds (e : TunEnv) (x : Tun) (c : BitVec 6) : Except TunStop Bool :=
  match condRaw e x (c.toNat % 32) with
  | .error f => .error f
  | .ok b => .ok (b != c.getLsbD 5)

/-- Testing `QSAT` or `QEND` clears it. -/
def clearTested (x : Tun) (c : BitVec 6) : Tun :=
  match c.toNat % 32 with
  | 0x04 => { x with qsat := false }
  | 0x05 => { x with qend := false }
  | _ => x

end Sys2Proof.Machine
end

