-- ==== Sys2Proof/Machine/TunVec.lean ====
section
/-!
DEFINITION. The vector operations (R121 to R125): what each computes, at which widths, from which sources, in which share
kind and at which cost (R136, R142).
-/

namespace Sys2Proof.Machine

/-- Cost classes of R142. -/
inductive CostCls where
  | linear | mul | nonlinear | fixed | conv
  deriving DecidableEq, Repr

/-- Share kind an operation works in (R136): a given one, that of the modulus `VMOD` names, or that of its first source. -/
inductive KindReq where
  | boolean | arith2w | modulus | same
  deriving DecidableEq, Repr

/-- What a vector operation reads: width, effective count, source and old destination registers. -/
structure VIn where
  w : Nat
  n : Nat
  a : Nat
  b : Nat
  d : Nat
  /-- Scalar register `VSRC_B`[3:0]. -/
  sc : Nat
  word : Microword
  /-- q of the modulus that `VMOD`[1:0] names. -/
  q : Nat

/-- What it gives: the low bits of `VDST`, a scalar result, whether a saturation clamped. -/
structure VOut where
  vec : Option (Nat × Nat) := none
  scal : Option Nat := none
  clamped : Bool := false

/-- A vector operation. -/
structure VOp where
  widths : List Nat := [8, 16, 32, 64]
  useA : Bool := true
  useB : Bool := false
  useD : Bool := false
  useS : Bool := false
  cls : CostCls := .linear
  kind : KindReq := .same
  /-- Result kind, where it differs from the kind it works in. -/
  outKind : Option KindReq := none
  /-- A tagged b raises `TAINT_VIOLATION` (R139). -/
  publicB : Bool := false
  /-- VL is ignored (R119). -/
  whole : Bool := false
  bad : VIn → Bool := fun _ => false
  run : VIn → VOut

/-! ## Shapes -/

/-- Write `n` elements of width `w`. -/
def vout (w : Nat) (es : List Nat) : VOut := { vec := some (w * es.length, vpack w es) }

def map1 (f : VIn → Nat → Nat) (i : VIn) : VOut := vout i.w ((velems i.w i.n i.a).map (f i))

def map2 (f : VIn → Nat → Nat → Nat) (i : VIn) : VOut :=
  vout i.w (List.zipWith (f i) (velems i.w i.n i.a) (velems i.w i.n i.b))

/-- A permutation of all VLMAX elements: element `j` is element `src j` of a, or zero. -/
def permute (src : Nat → Option Nat) (i : VIn) : VOut :=
  vout i.w ((List.range (vlMax i.w)).map fun j => match src j with
    | some k => velem i.w i.a k
    | none => 0)

/-! ## Integer, logic and shift -/

def ones (w : Nat) : Nat := 2 ^ w - 1

def shiftOf (i : VIn) : Nat := i.word.imm.toNat % 64

def rotl (w e k : Nat) : Nat := (e * 2 ^ (k % w)) % 2 ^ w + e / 2 ^ (w - k % w)

def popCount (w e : Nat) : Nat := ((List.range w).map fun i => e / 2 ^ i % 2).sum

def bitRev (w e : Nat) : Nat := ((List.range w).map fun i => e / 2 ^ i % 2 * 2 ^ (w - 1 - i)).sum

def byteRev (w e : Nat) : Nat := unle (be (w / 8) e)

def mask (w : Nat) (b : Bool) : Nat := if b then ones w else 0

/-! ## Modular (R122) -/

/-- The integer an input element stands for. -/
def modIn (i : VIn) (e : Nat) : Int := if i.word.vmod.getLsbD 2 then sgn i.w e else e

/-- The centred representative; an even q has none for q/2, whose value the manual does not state (log 61). -/
def centred (q r : Nat) : Int :=
  if 2 * r < q then r else if 2 * r = q then (Config.freeNat 111 [q] : Int) else (r : Int) - q

/-- A residue as a result element: in [0, q), or centred. -/
def modOut (i : VIn) (z : Int) : Nat :=
  let r := (z % i.q).toNat
  if i.word.vmod.getLsbD 3 then wrap i.w (centred i.q r) else r

/-- Half of `x` modulo an odd q. -/
def halve (q x : Nat) : Nat := if x % 2 = 0 then x / 2 else (x + q) / 2

/-- x × 2^(−k) modulo an odd q. -/
def halveN (q : Nat) : Nat → Nat → Nat
  | 0, x => x
  | k + 1, x => halveN q k (halve q x)

/-- a × b × R^−1 mod q, R = 2^w. -/
def mont (i : VIn) (a b : Int) : Int := halveN i.q i.w (((a * b) % i.q).toNat)

/-- The `ROUTINE_FAULT` conditions of R122; `odd` for the Montgomery operations. -/
def modBad (odd : Bool) (i : VIn) : Bool :=
  i.q == 0 || (i.w == 16 && decide (2 ^ 15 ≤ i.q)) || (odd && i.q % 2 == 0) || i.word.vmod.getLsbD 4

/-! ## Fixed-point (R123) -/

/-- Clamp to `[lo, hi]`, with whether it clamped. -/
def clamp (lo hi z : Int) : Int × Bool := if z < lo then (lo, true) else if z > hi then (hi, true) else (z, false)

/-- A saturating operation on every element. -/
def sat (signed : Bool) (f : Int → Int → Int) (i : VIn) : VOut :=
  let rd (e : Nat) : Int := if signed then sgn i.w e else e
  let lo : Int := if signed then -2 ^ (i.w - 1) else 0
  let hi : Int := if signed then 2 ^ (i.w - 1) - 1 else 2 ^ i.w - 1
  let rs := List.zipWith (fun a b => clamp lo hi (f (rd a) (rd b))) (velems i.w i.n i.a) (velems i.w i.n i.b)
  { vout i.w (rs.map fun r => wrap i.w r.1) with clamped := rs.any (·.2) }

/-- s of R123. -/
def roundShift (i : VIn) : Nat := i.word.shr.toNat + 1

/-! ## Permute and butterfly (R124, R125) -/

/-- The whole result of an operation whose value the manual does not state for these fields (log 61). -/
def freeVec (i : VIn) (code : Nat) : VOut :=
  { vec := some (8192, Config.freeNat code [i.w, i.a, i.b, i.word.vperm.toNat, i.word.imm.toNat]) }

def strideOf (i : VIn) : Nat := 2 ^ (i.word.vperm.toNat % 16)

/-- k too large for the register (R124). -/
def strideBad (i : VIn) : Bool := decide (vlMax i.w < 2 * strideOf i)

/-- One layer: lower and upper element of each pair from `f (a j) (a (j + s)) ω`. -/
def butterfly (f : VIn → Int → Int → Int → Int × Int) (i : VIn) : VOut :=
  if i.w = 8 ∨ i.word.vperm.toNat / 16 ≠ 0 then freeVec i 115
  else
    let s := strideOf i
    let rd (r k : Nat) : Int := modIn i (velem i.w r k)
    vout i.w ((List.range (vlMax i.w)).map fun j =>
      if j / s % 2 = 0 then modOut i (f i (rd i.a j) (rd i.a (j + s)) (rd i.b j)).1
      else modOut i (f i (rd i.a (j - s)) (rd i.a j) (rd i.b (j - s))).2)

/-- Source element of element `j` under a pattern of R125 with blocks of 2^k. -/
def patternSrc (pat k j : Nat) : Nat :=
  let base := j / 2 ^ k * 2 ^ k
  let o := j % 2 ^ k
  base + (match pat with
    | 0 => bitRev k o
    | 1 => if k = 0 then o else (o + 2 ^ (k - 1)) % 2 ^ k
    | 2 => (o + 1) % 2 ^ k
    | _ => 2 ^ k - 1 - o)

/-! ## Packing -/

/-- `VPACKB`: the low k bits of each element in one string. Bits of the active elements that the string does not reach, and
elements narrower than k, are not stated (log 61). -/
def packBits (i : VIn) : VOut :=
  let k := shiftOf i
  if i.w < k then { vec := some (min 8192 (i.w * i.n), Config.freeNat 116 [i.w, i.n, k, i.a]) }
  else
    let str := vpack k (velems i.w i.n i.a)
    { vec := some (i.w * i.n, str + 2 ^ (k * i.n) * Config.freeNat 117 [i.w, i.n, k, i.a]) }

def unpackBits (i : VIn) : VOut :=
  let k := shiftOf i
  if i.w < k then { vec := some (i.w * i.n, Config.freeNat 118 [i.w, i.n, k, i.a]) }
  else vout i.w ((List.range i.n).map fun j => i.a / 2 ^ (k * j) % 2 ^ k)

/-- `VCOMPRESS`: the chosen elements at the low end; the active elements above them are not stated (log 61). -/
def compressV (i : VIn) : VOut :=
  let sel := ((velems i.w i.n i.a).zip (velems i.w i.n i.b)).filter fun p => p.2 != 0
  let m := sel.length
  { vec := some (i.w * i.n, vpack i.w (sel.map (·.1)) + 2 ^ (i.w * m) * Config.freeNat 112 [i.w, i.n, i.a, i.b])
    scal := some m }

/-- Carry-less product. -/
def clmul (a b : Nat) : Nat := (List.range 64).foldl (fun p k => if bit b k then p ^^^ (a * 2 ^ k) else p) 0

/-- `VEXT`: one element to the scalar destination; an index at or above VLMAX names none, and its value is free (log 61). -/
def extractV (i : VIn) : VOut :=
  let k := i.word.imm.toNat % 1024
  { scal := some (if k < vlMax i.w then velem i.w i.a k else Config.freeNat 119 [i.w, i.a, k]) }

/-- `VSELB`. -/
def selectV (i : VIn) : VOut :=
  vout i.w ((List.range i.n).map fun j =>
    let d := velem i.w i.d j
    (velem i.w i.a j &&& d) ||| (velem i.w i.b j &&& (ones i.w - d)))

/-- `VREDOR`. -/
def reduceOr (i : VIn) : VOut := { scal := some ((velems i.w i.n i.a).foldl (· ||| ·) 0) }

/-- `VPERMV`: an index at or above VLMAX selects zero (R125). -/
def permuteBy (i : VIn) : VOut :=
  permute (fun j =>
    let k := velem i.w i.b j
    if k < vlMax i.w then some k else none) i

/-- `VWIDENS`. -/
def widenSigned (i : VIn) : VOut :=
  vout (2 * i.w) ((velems i.w (min i.n (vlMax i.w / 2)) i.a).map fun e => wrap (2 * i.w) (sgn i.w e))

/-! ## The table (R121) -/

def arith2 (f : VIn → Nat → Nat → Nat) (cls : CostCls := .linear) : VOp :=
  { useB := true, cls := cls, kind := .arith2w, run := map2 f }

def bool1 (f : VIn → Nat → Nat) (cls : CostCls := .linear) : VOp := { cls := cls, kind := .boolean, run := map1 f }

def bool2 (f : VIn → Nat → Nat → Nat) (cls : CostCls := .nonlinear) : VOp :=
  { useB := true, cls := cls, kind := .boolean, run := map2 f }

def modular (two : Bool) (cls : CostCls) (odd : Bool) (run : VIn → VOut) : VOp :=
  { widths := [16, 32], useB := two, cls := cls, kind := .modulus, bad := modBad odd, run := run }

def fixedPt (two : Bool) (run : VIn → VOut) : VOp :=
  { widths := [16, 32], useB := two, cls := .fixed, kind := .boolean, run := run }

def cmp (p : Nat → Nat → Nat → Bool) : VOp := bool2 fun i a b => mask i.w (p i.w a b)

def perm (two : Bool) (run : VIn → VOut) : VOp := { widths := [8, 16, 32], useB := two, whole := true, run := run }

def bfly (run : VIn → VOut) : VOp :=
  { widths := [8, 16, 32], useB := true, whole := true, cls := .mul, kind := .modulus, run := run
    bad := fun i => strideBad i || modBad true i }

/-- The operation of a `VOP` code; none for reserved codes. `VNOP` is no operation. -/
def vopOf (code : Nat) : Option VOp :=
  match code with
  | 0x01 => some (arith2 fun _ a b => a + b)
  | 0x02 => some (arith2 fun i a b => wrap i.w ((a : Int) - b))
  | 0x03 => some (arith2 (fun _ a b => a * b) .mul)
  | 0x04 => some (bool2 (fun i a b => a * b / 2 ^ i.w) .mul)
  | 0x05 => some (bool2 (fun i a b => wrap i.w (sgn i.w a * sgn i.w b / 2 ^ i.w)) .mul)
  | 0x06 => some (bool2 fun _ a b => min a b)
  | 0x07 => some (bool2 fun _ a b => max a b)
  | 0x08 => some (bool2 fun i a b => if sgn i.w b < sgn i.w a then b else a)
  | 0x09 => some (bool2 fun i a b => if sgn i.w a < sgn i.w b then b else a)
  | 0x0A => some { kind := .arith2w, run := map1 fun i a => wrap i.w (-(a : Int)) }
  | 0x0B => some { run := map1 fun _ a => a }
  | 0x0C => some { useA := false, run := fun i => vout i.w (List.replicate i.n i.word.imm.toNat) }
  | 0x0D => some { useA := false, useS := true, kind := .boolean, run := fun i => vout i.w (List.replicate i.n i.sc) }
  | 0x0E => some { run := extractV }
  | 0x10 => some (bool2 fun _ a b => a &&& b)
  | 0x11 => some (bool2 fun _ a b => a ||| b)
  | 0x12 => some (bool2 (fun _ a b => a ^^^ b) .linear)
  | 0x13 => some (bool1 fun i a => ones i.w - a)
  | 0x14 => some (bool2 fun i a b => a &&& (ones i.w - b))
  | 0x15 => some { useB := true, useD := true, cls := .nonlinear, kind := .boolean, run := selectV }
  | 0x16 => some (bool1 fun i a => a * 2 ^ shiftOf i)
  | 0x17 => some (bool1 fun i a => a / 2 ^ shiftOf i)
  | 0x18 => some (bool1 fun i a => wrap i.w (sgn i.w a / 2 ^ shiftOf i))
  | 0x19 => some (bool1 fun i a => rotl i.w a (shiftOf i))
  | 0x1A => some { bool2 (fun i a b => a * 2 ^ (b % i.w)) .linear with publicB := true }
  | 0x1B => some { bool2 (fun i a b => a / 2 ^ (b % i.w)) .linear with publicB := true }
  | 0x1C => some (bool1 (fun i a => popCount i.w a) .nonlinear)
  | 0x1D => some (bool1 fun i a => bitRev i.w a)
  | 0x1E => some (bool1 fun i a => byteRev i.w a)
  | 0x20 => some (modular true .linear false (map2 fun i a b => modOut i (modIn i a + modIn i b)))
  | 0x21 => some (modular true .linear false (map2 fun i a b => modOut i (modIn i a - modIn i b)))
  | 0x22 => some (modular false .linear false (map1 fun i a => modOut i (-modIn i a)))
  | 0x23 => some (modular true .mul true (map2 fun i a b => modOut i (mont i (modIn i a) (modIn i b))))
  | 0x24 => some (modular true .mul false (map2 fun i a b => modOut i (modIn i a * modIn i b)))
  | 0x25 => some (modular false .linear false (map1 fun i a => modOut i (modIn i a)))
  | 0x26 => some (modular false .linear false (map1 fun i a =>
      modOut i (if modIn i a ≥ i.q then modIn i a - i.q else modIn i a)))
  | 0x27 => some (modular false .linear false (map1 fun i a => wrap i.w (centred i.q (modIn i a % i.q).toNat)))
  | 0x30 => some (fixedPt true (sat true fun a b => a + b))
  | 0x31 => some (fixedPt true (sat true fun a b => a - b))
  | 0x32 => some (fixedPt true (sat false fun a b => a + b))
  | 0x33 => some (fixedPt true (sat false fun a b => a - b))
  | 0x34 => some (fixedPt false (map1 fun i a => wrap i.w ((sgn i.w a + 2 ^ (roundShift i - 1)) / 2 ^ roundShift i)))
  | 0x35 => some (fixedPt false (map1 fun i a => (a + 2 ^ (roundShift i - 1)) / 2 ^ roundShift i))
  | 0x36 => some (fixedPt true (map2 fun i a b => wrap i.w ((sgn i.w a * sgn i.w b + 2 ^ (i.w - 1)) / 2 ^ i.w)))
  | 0x37 => some (fixedPt true (map2 fun i a b => (a * b + 2 ^ (i.w - 1)) / 2 ^ i.w))
  | 0x40 => some (cmp fun _ a b => a == b)
  | 0x41 => some (cmp fun _ a b => a != b)
  | 0x42 => some (cmp fun _ a b => decide (a < b))
  | 0x43 => some (cmp fun w a b => decide (sgn w a < sgn w b))
  | 0x44 => some (cmp fun _ a b => decide (a ≤ b))
  | 0x45 => some (cmp fun w a b => decide (sgn w a ≤ sgn w b))
  | 0x46 => some { useB := true, cls := .nonlinear, kind := .boolean, run := compressV }
  | 0x47 => some { kind := .arith2w, run := fun i => { scal := some ((velems i.w i.n i.a).sum % 2 ^ 64) } }
  | 0x48 => some { cls := .nonlinear, kind := .boolean, run := reduceOr }
  | 0x50 => some (bfly (butterfly fun i a b ω => (a + mont i ω b, a - mont i ω b)))
  | 0x51 => some (bfly (butterfly fun i a b ω => (a + b, mont i (a - b) ω)))
  | 0x52 => some (perm false fun i =>
      let k := i.word.vperm.toNat % 16
      if vlMax i.w < 2 ^ k then freeVec i 114 else permute (fun j => some (patternSrc (i.word.vperm.toNat / 16) k j)) i)
  | 0x53 => some { perm true permuteBy with publicB := true }
  | 0x54 => some (perm false fun i =>
      let k := i.word.imm.toNat % 1024
      permute (fun j => if k ≤ j then some (j - k) else none) i)
  | 0x55 => some (perm false fun i =>
      let k := i.word.imm.toNat % 1024
      permute (fun j => if j + k < vlMax i.w then some (j + k) else none) i)
  | 0x56 => some (perm true fun i => vout i.w ((List.range (vlMax i.w)).map fun j =>
      velem i.w (if j % 2 = 0 then i.a else i.b) (j / 2)))
  | 0x57 => some (perm false fun i =>
      let h := vlMax i.w / 2
      permute (fun j => some (if j < h then 2 * j else 2 * (j - h) + 1)) i)
  | 0x60 => some { kind := .boolean, run := fun i => vout (2 * i.w) (velems i.w (min i.n (vlMax i.w / 2)) i.a) }
  | 0x61 => some { kind := .boolean, run := widenSigned }
  | 0x62 => some { kind := .boolean, run := fun i => vout (i.w / 2) (velems i.w i.n i.a) }
  | 0x63 => some { kind := .boolean, run := packBits }
  | 0x64 => some { kind := .boolean, run := unpackBits }
  | 0x68 => some { bool2 (fun _ a b => clmul a b % 2 ^ 64) .mul with widths := [64] }
  | 0x69 => some { bool2 (fun _ a b => clmul a b / 2 ^ 64) .mul with widths := [64] }
  | 0x70 => some { cls := .conv, outKind := some .boolean, run := map1 fun _ a => a }
  | 0x71 => some { cls := .conv, outKind := some .modulus, bad := fun i => i.q == 0 || i.word.vmod.getLsbD 4, run := map1 fun _ a => a }
  | 0x72 => some { run := map1 fun _ a => a }
  | _ => none

/-! ## Cost (R142) and the action -/

/-- Cycles of a class on `tags` tagged operands with `d` shares, at the table's rates. -/
def classCost (c : CostCls) (tags d : Nat) : Nat :=
  if tags = 0 then 1
  else match c with
    | .linear => d - 1
    | .mul => if tags = 1 then d - 1 else d * d
    | .nonlinear => if d = 2 then 2 else 6
    | .fixed => if d = 2 then 8 else 15
    | .conv => if d = 2 then 6 else 12

def kindOf (k : KindReq) (w : Microword) (own : ShareKind) : ShareKind :=
  match k with
  | .boolean => .boolean
  | .arith2w => .arith2w
  | .modulus => .arithM ⟨w.vmod.toNat % 4, Nat.mod_lt _ (by decide)⟩
  | .same => own

/-- Vector registers an operation reads as sources. -/
def vopSources (o : VOp) (w : Microword) : List Nat :=
  (if o.useA then [w.vsrcA.toNat] else []) ++ (if o.useB then [w.vsrcB.toNat] else [])
    ++ (if o.useD then [w.vdst.toNat] else [])

/-- Tag of the result: the OR of the tags of all its sources (R138). -/
def vopTag (o : VOp) (w : Microword) (x : Tun) : Bool :=
  (vopSources o w).any (vTag x) || (o.useS && sTag x (w.vsrcB.toNat % 16))

def vopIn (w : Microword) (x : Tun) : VIn :=
  let wd := widthOf w.vew
  { w := wd, n := effCount x wd, a := vreg x w.vsrcA.toNat, b := vreg x w.vsrcB.toNat, d := vreg x w.vdst.toNat
    sc := sreg x (w.vsrcB.toNat % 16), word := w, q := mreg x (w.vmod.toNat % 4) }

/-- Cycles of a vector operation, conversions of its operands included (R136, R142). -/
def vopCost (o : VOp) (w : Microword) (x : Tun) : Nat :=
  let srcs := (vopSources o w).filter (vTag x)
  let need := kindOf o.kind w (vKind x w.vsrcA.toNat)
  let conv := if o.cls == .fixed || o.cls == .conv then 0 else (srcs.filter fun r => vKind x r != need).length
  if !o.whole && (vopIn w x).n == 0 then 1 else classCost o.cls srcs.length x.shares + conv * classCost .conv 1 x.shares

/-- Run a vector operation: its faults, then its results (R119, R121, R138, R139). -/
def runVop (o : VOp) : Act := fun _ w x0 x =>
  let i := vopIn w x0
  if !o.widths.contains i.w then .error .fault
  else if o.publicB && vTag x0 w.vsrcB.toNat then .error .taint
  else if o.bad i then .error .fault
  else if !o.whole && i.n == 0 then .ok x
  else
    let r := o.run i
    let tag := vopTag o w x0
    let kind := kindOf (o.outKind.getD o.kind) w (vKind x0 w.vsrcA.toNat)
    let x := match r.vec with
      | some (k, v) => setV x w.vdst.toNat k v tag kind
      | none => x
    let x := match r.scal with
      | some v => setS x w.sd.toNat v tag
      | none => x
    .ok (if r.clamped && !tag then { x with qsat := true } else x)

/-- The vector action of a microword under operation code `code`. -/
def vectorAct (code : Nat) : Act := fun e w x0 x =>
  if code = 0 then .ok x
  else match vopOf code with
    | none => .error .fault
    | some o => runVop o e w x0 x

end Sys2Proof.Machine
end

