-- ==== Sys2Proof/Machine/TunOps.lean ====
section
/-!
DEFINITION. The other actions of a microword, the word as a whole, its sequencing, and how a routine starts and stops
(chapter 6).
-/

namespace Sys2Proof.Machine

/-! ## Scratch and queues (R126 to R128, R151 to R154) -/

/-- Bytes of a queue transfer or of one field of a load (R153, R126). -/
def moveBytes (w : Microword) (x : Tun) : Nat := effCount x (widthOf w.vew) * (widthOf w.vew / 8)

/-- Share kind of what a load reads: that of the first tagged line. -/
def loadKind (x : Tun) (ls : List Nat) : ShareKind :=
  match ls.find? x.ltag.contains with
  | some l => Tab.getD x.lkind l .boolean
  | none => .boolean

/-- A `k`-field load (R126). -/
def loadAct (k : Nat) : Act := fun e w x0 x =>
  let wd := widthOf w.vew
  let n := effCount x0 wd
  let len := n * k * (wd / 8)
  match scratchAddr e x0 w.mldAddr wd len w.vdst.toNat k with
  | .error f => .error f
  | .ok a =>
    let ls := linesOf a len
    let tag := ls.any x0.ltag.contains
    let x := (List.range k).foldl (fun x f =>
      setV x (w.vdst.toNat + f) (wd * n) (vpack wd ((List.range n).map fun i => loadElem x0.scratch a wd k i f)) tag
        (loadKind x0 ls)) x
    .ok (postInc x0 x w.mldAddr len)

/-- A broadcast load (R126, R151). -/
def broadcastAct : Act := fun e w x0 x =>
  let wd := widthOf w.vew
  let n := effCount x0 wd
  let len := if n = 0 then 0 else wd / 8
  match scratchAddr e x0 w.mldAddr wd len w.vdst.toNat 1 with
  | .error f => .error f
  | .ok a =>
    let ls := linesOf a len
    let v := vpack wd (List.replicate n (loadElem x0.scratch a wd 1 0 0))
    .ok (postInc x0 (setV x w.vdst.toNat (wd * n) v (ls.any x0.ltag.contains) (loadKind x0 ls)) w.mldAddr len)

/-- A `k`-field store (R126, R128). -/
def storeAct (k : Nat) : Act := fun e w x0 x =>
  let wd := widthOf w.vew
  let n := effCount x0 wd
  let first := w.vsrcB.toNat
  let len := n * k * (wd / 8)
  match scratchAddr e x0 w.mstAddr wd len first k with
  | .error f => .error f
  | .ok a =>
    let srcs := (List.range k).map (first + ·)
    let tag := srcs.any (vTag x0)
    let kind := ((srcs.find? (vTag x0)).map (vKind x0)).getD .boolean
    let x := { x with scratch := Mem.writeN x.scratch a (storeBytes x0 wd n k first) }
    .ok (postInc x0 (tagLines x a len tag kind) w.mstAddr len)

/-- The load action of a microword (R151). -/
def mldAct : Act := fun e w x0 x =>
  match w.mld.toNat with
  | 0 => .ok x
  | 1 => loadAct 1 e w x0 x
  | 2 => loadAct 2 e w x0 x
  | 3 => loadAct 3 e w x0 x
  | 4 => loadAct 4 e w x0 x
  | 5 => broadcastAct e w x0 x
  | _ => .error .fault

/-- The store action of a microword (R151). -/
def mstAct : Act := fun e w x0 x =>
  match w.mst.toNat with
  | 0 => .ok x
  | 1 => storeAct 1 e w x0 x
  | 2 => storeAct 2 e w x0 x
  | 3 => storeAct 3 e w x0 x
  | 4 => storeAct 4 e w x0 x
  | _ => .error .fault

/-- The input transfer of a microword (R153, R154): bytes past the end are zero and set QEND. -/
def inqAct : Act := fun e w x0 x =>
  let q := w.inq.toNat
  if q = 0 then .ok x
  else if q = 7 then .error .fault
  else
    let n := moveBytes w x0
    let (d, pos) := queueOf e x0 q
    let x := setV x w.vdst.toNat (8 * n) (unle (slice d pos n)) (decide (4 ≤ q)) .boolean
    .ok (advanceQueue { x with qend := x.qend || (decide (0 < n) && q != 6 && decide (d.length < pos + n)) } q n)

/-- Tagged bytes to OUT or RESULT stop the routine, but for an open routine with the declassify right (R140). -/
def releaseBarred (e : TunEnv) (x : Tun) : Bool := e.closed || !x.declassRight

/-- The output transfer of a microword (R153, R154, R140). -/
def outqAct : Act := fun e w x0 x =>
  let n := moveBytes w x0
  let tag := vTag x0 w.vsrcA.toNat && decide (0 < n)
  let d := le n (vreg x0 w.vsrcA.toNat)
  match w.outq.toNat with
  | 0 => .ok x
  | 1 =>
    if tag && releaseBarred e x0 then .error .taint
    else .ok { x with out := (x.out ++ d).take e.outMax, outCount := x.outCount + n, heldTagged := x.heldTagged || tag }
  | 2 =>
    if tag && releaseBarred e x0 then .error .taint
    else if x.result.length + n > 8 then .error .fault
    else .ok { x with result := x.result ++ d, heldTagged := x.heldTagged || tag }
  | 3 => if !e.hold || decide (x.hold.length + n > 64) then .error .fault else .ok { x with hold := x.hold ++ d }
  | 4 => if !e.dest || decide (x.slot.length + n > 64) then .error .fault else .ok { x with slot := x.slot ++ d }
  | _ => .error .fault

/-! ## Hash cores (R132, R133, R152) -/

def kecCore (x : Tun) (c : Nat) : KecCore := Tab.getD x.kec c {}
def shaCore (x : Tun) (c : Nat) : ShaCore := Tab.getD x.sha c {}
def setKec (x : Tun) (c : Nat) (k : KecCore) : Tun := { x with kec := Tab.set x.kec c k }
def setSha (x : Tun) (c : Nat) (k : ShaCore) : Tun := { x with sha := Tab.set x.sha c k }

/-- Bytes of a chaining value, and of a block, in a SHA mode. -/
def shaLen (mode : Nat) : Nat := if mode ≤ 1 then 32 else 64

def shaValue (k : ShaCore) : Bytes :=
  if k.h.isEmpty then fit (shaLen k.mode) (Config.compute (.shaIv k.mode) []) else k.h

/-- `n` bytes XORed into a Keccak state from byte `o`. -/
def xorState (st : BitVec 1600) (o : Nat) (d : Bytes) : BitVec 1600 := st ^^^ BitVec.ofNat 1600 (unle d * 2 ^ (8 * o))

/-- An action on Keccak core `c`. -/
def keccakAct (code c : Nat) : Act := fun _ w x0 x =>
  let k := kecCore x0 c
  let imm := w.imm.toNat
  let lo := imm % 256
  let mid := imm / 256 % 256
  let hi := imm / 65536 % 256
  let src := vreg x0 w.vsrcA.toNat
  let tagA := vTag x0 w.vsrcA.toNat
  match code with
  | 0 => if 1 ≤ lo ∧ lo ≤ 24 then .ok (setKec x c { st := 0, rate := lo, tag := false }) else .error .fault
  | 1 =>
    if lo + mid > 8 * k.rate then .error .fault
    else .ok (setKec x c { k with st := xorState k.st mid (le lo src), tag := k.tag || tagA })
  | 2 =>
    if hi = 0 ∨ 24 < hi ∨ 8 * hi ≤ mid then .error .fault
    else .ok (setKec x c { k with
      st := xorState (xorState k.st mid [BitVec.ofNat 8 lo]) (8 * hi - 1) [0x80#8], rate := hi })
  | 3 => .ok (setKec x c { k with st := BitVec.ofNat 1600 (unle (fit 200 (Config.compute .keccakF [le 200 k.st.toNat]))) })
  | 4 =>
    if lo + mid > 200 then .error .fault
    else .ok (setV x w.vdst.toNat (8 * lo) (k.st.toNat / 2 ^ (8 * mid) % 2 ^ (8 * lo)) k.tag .boolean)
  | 6 => .ok (setV x w.vdst.toNat 1600 k.st.toNat k.tag .boolean)
  | 7 => .ok (setKec x c { k with st := BitVec.ofNat 1600 src, tag := k.tag || tagA })
  | _ => .error .fault

/-- An action on SHA core `c`. -/
def shaAct (code c : Nat) : Act := fun _ w x0 x =>
  let k := shaCore x0 c
  let n := shaLen k.mode
  let src := vreg x0 w.vsrcA.toNat
  let tag := k.tag || vTag x0 w.vsrcA.toNat
  match code with
  | 0 => if w.imm.toNat % 8 ≤ 4 then .ok (setSha x c { mode := w.imm.toNat % 8, h := [], tag := false }) else .error .fault
  | 5 => .ok (setSha x c { k with h := fit n (Config.compute (.shaBlock k.mode) [shaValue k, le (2 * n) src]), tag := tag })
  | 6 => .ok (setV x w.vdst.toNat (8 * n) (unle (shaValue k)) k.tag .boolean)
  | 7 => .ok (setSha x c { k with h := le n src, tag := tag })
  | _ => .error .fault

/-- The hash-core action of a microword with action code `code` on the core the word names. -/
def coreAct (code : Nat) : Act := fun e w x0 x =>
  match w.hcore.toNat % 8 with
  | 0 => .ok x
  | 5 => shaAct code 0 e w x0 x
  | 6 => shaAct code 1 e w x0 x
  | 7 => .error .fault
  | c => keccakAct code (c - 1) e w x0 x

/-! ## Vector length, tags, counters, trace (R120, R149, R150, R173) -/

/-- The `VLOP` action with code `code`. -/
def vlopAct (code : Nat) : Act := fun _ w x0 x =>
  let m := vlMax (widthOf w.vew)
  let r := w.sb.toNat
  match code with
  | 0 => .ok x
  | 1 => .ok { x with vl := min (w.imm.toNat % 2048) m }
  | 2 => if sTag x0 r then .error .taint else .ok { x with vl := min (sreg x0 r) m }
  | 3 =>
    if sTag x0 r then .error .taint
    else
      let v := min (sreg x0 r) m
      .ok { setS x r (sreg x0 r - v) false with vl := v }
  | _ => .error .fault

/-- The vector registers a word writes. -/
def writtenRegs (w : Microword) : List Nat :=
  if 2 ≤ w.mld.toNat ∧ w.mld.toNat ≤ 4 then (List.range w.mld.toNat).map (w.vdst.toNat + ·) else [w.vdst.toNat]

/-- Kind of the shares into which `classify` splits; the manual does not name it (log 63). -/
def classifyKind (w : Microword) : ShareKind :=
  match Config.freeNat 121 [w.vop.toNat] % 3 with
  | 0 => .boolean
  | 1 => .arith2w
  | _ => .arithM ⟨Config.freeNat 122 [w.vop.toNat] % 4, Nat.mod_lt _ (by decide)⟩

/-- `classify`: the registers become tagged (R138). -/
def classifyAct : Act := fun _ w _ x =>
  .ok ((writtenRegs w).foldl (fun x r =>
    if vTag x r then x
    else { x with vtag := setIn x.vtag r true, vkind := Tab.set x.vkind r (classifyKind w) }) x)

/-- `declassify`: in closed stacks the tags are cleared; in open stacks it is a violation in every case (R140, R161). -/
def declassifyAct : Act := fun e w _ x =>
  if e.closed then .ok ((writtenRegs w).foldl (fun x r => { x with vtag := setIn x.vtag r false }) x)
  else .error .taint

/-- The `TAG` action of a microword. -/
def tagAct : Act := fun e w x0 x =>
  match w.tag.toNat with
  | 0 => .ok x
  | 1 => classifyAct e w x0 x
  | 2 => declassifyAct e w x0 x
  | _ => .error .fault

/-- `RND`: fresh shares of the same values; nothing that can be seen changes (R150). -/
def rndAct : Act := fun _ w _ x => if w.rnd.toNat < 4 then .ok x else .error .fault

/-- The `CTR` action with code `code` (R149). -/
def ctrAct (code : Nat) : Act := fun _ w x0 x =>
  match code with
  | 0 => .ok x
  | 1 => .ok (setCtr x (w.ctr.toNat % 4) (w.imm.extractLsb' 0 16))
  | 2 =>
    if sTag x0 w.sa.toNat then .error .taint
    else .ok (setCtr x (w.ctr.toNat % 4) (BitVec.ofNat 16 (sreg x0 w.sa.toNat)))
  | _ => .error .fault

/-- A trace record (R173): a tagged register is recorded as zero. -/
def traceRec (w : Microword) (x : Tun) : Bytes :=
  le 2 x.pc.toNat ++ [w.trace, 0] ++ le 4 x.cycles
    ++ le 8 (if w.trace.getLsbD 7 && !sTag x w.sa.toNat then sreg x w.sa.toNat else 0)

/-- The `TRACE` action: recorded while a grant allows it, the oldest of 4,096 overwritten (R173). -/
def traceAct : Act := fun e w x0 x =>
  if w.trace = 0 ∨ e.tracing = false then .ok x
  else
    let l := x.trace ++ [traceRec w x0]
    .ok { x with trace := l.drop (l.length - 4096) }

/-! ## The word as a whole (R145) -/

/-- Every action of a microword but its sequencing. -/
def wordActs (w : Microword) : List Act :=
  [vectorAct w.vop.toNat, mldAct, inqAct, coreAct (w.hcore.toNat / 8), tagAct, rndAct, scalarAct w.sop.toNat
   , vlopAct w.vlop.toNat, mstAct, outqAct, ctrAct (w.ctr.toNat / 4), traceAct]

/-- Run actions together: each reads the state before the word. A violation is reported before a fault (log 64). -/
def runActs (e : TunEnv) (w : Microword) (x0 : Tun) : List Act → Tun → Option TunStop → Except TunStop Tun
  | [], x, none => .ok x
  | [], _, some f => .error f
  | a :: as, x, f => match a e w x0 x with
    | .ok x => runActs e w x0 as x f
    | .error .taint => .error .taint
    | .error .fault => runActs e w x0 as x (some .fault)

/-- Cycles of a hash-core action (R132, R142). -/
def coreCost (w : Microword) (x : Tun) : Nat :=
  let c := w.hcore.toNat % 8
  let three := x.shares == 3
  if c = 0 then 1
  else if c ≤ 4 then
    let tag := (kecCore x (c - 1)).tag || (w.hcore.toNat / 8 == 1 && vTag x w.vsrcA.toNat)
    match w.hcore.toNat / 8 with
    | 3 => if tag && three then 4 else 2
    | _ => if tag && three then 2 else 1
  else
    let k := shaCore x (c - 5)
    let tag := k.tag || vTag x w.vsrcA.toNat
    match w.hcore.toNat / 8 with
    | 5 => (if k.mode ≤ 1 then 16 else 20) * (if tag && three then 2 else 1)
    | _ => if tag && three then 2 else 1

/-- Cycles of moves of tagged values (R142, R127). -/
def moveCost (w : Microword) (x : Tun) : Nat :=
  let wd := widthOf w.vew
  let n := effCount x wd
  let lin (tag : Bool) : Nat := if tag && x.shares == 3 then 2 else 1
  let wide (k : Nat) : Nat := max 1 ((n * k * (wd / 8) + 1023) / 1024)
  let ld := w.mld.toNat
  let st := w.mst.toNat
  let loadTag := (linesOf (sreg x (w.mldAddr.toNat % 16)) (n * (min ld 4) * (wd / 8))).any x.ltag.contains
  let storeTag := ((List.range (min st 4)).map (w.vsrcB.toNat + ·)).any (vTag x)
  max (max (if ld = 0 then 1 else (if ld ≤ 4 then wide ld else 1) * lin loadTag) (if st = 0 then 1 else wide st * lin storeTag))
    (max (if 4 ≤ w.inq.toNat then lin true else 1) (if w.outq = 0 then 1 else lin (vTag x w.vsrcA.toNat)))

/-- Cycles of a microword: the largest count among its actions; a refresh adds a linear operation (R145, R150). Stalls of
interlocks and of the mask generator are not counted (log 65). -/
def wordCost (w : Microword) (x : Tun) : Nat :=
  let v := match vopOf w.vop.toNat with
    | some o => vopCost o w x
    | none => 1
  let tag := match w.tag.toNat with
    | 1 => x.shares - 1
    | 2 => x.shares
    | _ => 1
  max (max v tag) (max (coreCost w x) (moveCost w x)) + (if w.rnd = 0 then 0 else x.shares - 1)

/-! ## Sequencing (R147, R148) -/

/-- Where the sequencer goes: to an address with a return stack, or to the end of the routine. -/
structure SeqOut where
  pc : BitVec 14 := 0
  stack : List (BitVec 14) := []
  ends : Option RoutineEnd := none

/-- Status with which `FAIL` ends a routine (R157). -/
def failStatus (closed : Bool) (imm : BitVec 32) : Nat :=
  let v := imm.toNat % 65536
  if closed ∨ (0x0401 ≤ v ∧ v ≤ 0x0408) then v else St.routineFault

def pushed (x : Tun) (next : BitVec 14) : Except TunStop SeqOut :=
  if x.stack.length ≥ 8 then .error .fault else .ok { pc := next, stack := (x.pc + 1) :: x.stack }

/-- The successor of a word, from the state before it (R147). -/
def successor (e : TunEnv) (w : Microword) (x : Tun) : Except TunStop SeqOut :=
  let on : SeqOut := { pc := x.pc + 1, stack := x.stack }
  match w.seqOp.toNat with
  | 0x0 => .ok on
  | 0x1 => .ok { on with pc := w.next }
  | 0x2 => match condHolds e x w.cond with
    | .error f => .error f
    | .ok b => .ok (if b then { on with pc := w.next } else on)
  | 0x3 => pushed x w.next
  | 0x4 => match condHolds e x w.cond with
    | .error f => .error f
    | .ok b => if b then pushed x w.next else .ok on
  | 0x5 => match x.stack with
    | [] => .error .fault
    | r :: rs => .ok { pc := r, stack := rs }
  | 0x6 => .ok (if (ctr x (w.ctr.toNat % 4)).toNat ≤ 1 then on else { on with pc := w.next })
  | 0x7 => .ok { on with ends := some .ok }
  | 0x8 => .ok { on with ends := some (.status (failStatus e.closed w.imm)) }
  | _ => .error .fault

/-- The loop counter's decrement (R147). -/
def loopStep (w : Microword) (x : Tun) : Tun :=
  let n := w.ctr.toNat % 4
  if w.seqOp = 6 ∧ ctr x n ≠ 0 then setCtr x n (ctr x n - 1) else x

/-- One microword on a tun: all its actions, then its successor; a stop has no effect but to end the routine. -/
def runWord (e : TunEnv) (w : Microword) (x0 : Tun) : Tun :=
  let base := if w.seqOp = 2 ∨ w.seqOp = 4 then clearTested x0 w.cond else x0
  match successor e w x0 with
  | .error .taint => { x0 with ended := some (.status St.taintViolation) }
  | nx => match runActs e w x0 (wordActs w) (loopStep w base) none, nx with
    | .error f, _ => { x0 with ended := some (.status f.status) }
    | .ok _, .error f => { x0 with ended := some (.status f.status) }
    | .ok x, .ok o =>
      let c := wordCost w x0
      { x with
        pc := o.pc, stack := o.stack, ended := o.ends, cycles := x0.cycles + c
        watchdog := if w.safe then 0 else x0.watchdog + c }

/-! ## A tun and its slip -/

/-- Physical tuns whose scratch a routine addresses: its gang's, in order (R134), or its own. -/
def gangOf (s : State) (t : Nat) (x : Tun) : List Nat :=
  match x.sid.bind s.slip? with
  | some sl => if x.openRoutine || sl.gang.isEmpty then [t] else physUnitsOf s sl
  | none => [t]

/-- Trace records are kept while a grant holds `TUN_TRACE` (R173, chapter 20). -/
def tracing (s : State) : Bool := s.tmp.grantActive && s.tmp.rights.getLsbD 1

/-- What the routine on a tun sees of its slip (R153, R154). -/
def envOf (s : State) (t : Nat) (x : Tun) : TunEnv :=
  let e : TunEnv := {
    rng := s.freeBytes 1024, closed := !x.openRoutine, tracing := tracing s, limit := 524288 * (gangOf s t x).length }
  match x.sid.bind s.slip? with
  | none => e
  | some sl => { e with
      inq := sl.inData, aux := ownAux sl, param := slipBytes sl.cs ++ sl.exts.flatten, key := keyMat sl, carry := carryIn s sl
      outMax := (cxOf s sl).outMax, hold := csHold sl.cs, dest := csDestUsed sl.cs }

/-- Member `i` of a gang whose members hold `n` entries each: its entries of the gang's table. -/
def gangPart {α : Type} (n i : Nat) (t : Tab α) : Tab α := (t.filter fun p => p.1 / n == i).map fun p => (p.1 % n, p.2)

/-- The gang's table: member `i` has the keys from n × i. -/
def gangJoin {α : Type} (n : Nat) : Nat → List (Tab α) → Tab α
  | _, [] => []
  | i, t :: ts => ((t.filter fun p => decide (p.1 < n)).map fun p => (p.1 + n * i, p.2)) ++ gangJoin n (i + 1) ts

/-- Sets of lines as tables, and back. -/
def lineTab (l : List Nat) : Tab Unit := l.map fun k => (k, ())

/-- The scratch of a gang as one address space of 512 KiB to a member (R134). -/
def gather (s : State) (ms : List Nat) (x : Tun) : Tun :=
  if ms.length ≤ 1 then x
  else
    let xs := ms.map s.tun
    { x with
      scratch := gangJoin 524288 0 (xs.map (·.scratch))
      lkind := gangJoin 8192 0 (xs.map (·.lkind))
      ltag := (gangJoin 8192 0 (xs.map fun y => lineTab y.ltag)).map (·.1)
      written := (gangJoin 8192 0 (xs.map fun y => lineTab y.written)).map (·.1) }

/-- Member `i` of the gang with its part of the gang's scratch, as it stands in `x`. -/
def gangMember (x y : Tun) (i : Nat) : Tun :=
  { y with
    scratch := gangPart 524288 i x.scratch
    lkind := gangPart 8192 i x.lkind
    ltag := (gangPart 8192 i (lineTab x.ltag)).map (·.1)
    written := (gangPart 8192 i (lineTab x.written)).map (·.1) }

/-- Put a gang's scratch back into its members, from member `i` on. -/
def scatterFrom (x : Tun) : Nat → List Nat → State → State
  | _, [], s => s
  | i, m :: ms, s => scatterFrom x (i + 1) ms (s.setTun m (gangMember x (s.tun m) i))

/-- Put a gang's scratch back into its members; the tun itself takes the rest of the new state. -/
def scatter (s : State) (t : Nat) (ms : List Nat) (x : Tun) : State :=
  if ms.length ≤ 1 then s.setTun t x else scatterFrom x 0 ms (s.setTun t x)

/-- A routine runs on the tun and has not ended. -/
def tunLive (x : Tun) : Bool := x.running && x.ended.isNone

/-- RNG bytes a word takes are drawn once. -/
def drawRng (s : State) (w : Microword) : State := if w.inq = 6 then s.drawn 1024 else s

/-- A tun at a microword: VEW is the word's (R115). -/
def atWord (w : Microword) (x : Tun) : Tun := { x with vew := w.vew }

/-- One action of a microword alone, on a tun that runs a routine, where the action touches no scratch. -/
def actOn (t : Nat) (w : Microword) (a : Act) (s : State) : State :=
  let x := s.tun t
  if !tunLive x then s
  else
    let x0 := atWord w x
    match a (envOf s t x) w x0 x0 with
    | .error f => s.setTun t { x with ended := some (.status f.status) }
    | .ok x1 => s.setTun t x1

/-- A load alone: it reads the scratch of the gang, and leaves all scratch as it is. -/
def loadOn (t : Nat) (w : Microword) (a : Act) (s : State) : State :=
  let x := s.tun t
  if !tunLive x then s
  else
    let x0 := atWord w (gather s (gangOf s t x) x)
    match a (envOf s t x) w x0 x0 with
    | .error f => s.setTun t { x with ended := some (.status f.status) }
    | .ok x1 => s.setTun t { x1 with scratch := x.scratch, ltag := x.ltag, lkind := x.lkind, written := x.written }

/-- A store alone: it writes the scratch of the gang. -/
def storeOn (t : Nat) (w : Microword) (a : Act) (s : State) : State :=
  let x := s.tun t
  if !tunLive x then s
  else
    let ms := gangOf s t x
    let x0 := atWord w (gather s ms x)
    match a (envOf s t x) w x0 x0 with
    | .error f => s.setTun t { x with ended := some (.status f.status) }
    | .ok x1 => scatter s t ms x1

/-! ## Safe points (R155, R157) -/

/-- Service what is pending for the routine on a tun, in the order of R155. A unit fault has already stopped the tun when it was
reported (R446). -/
def servicePending (s : State) (t : Nat) (dropLate : Bool) : State :=
  match (s.tun t).sid with
  | none => s
  | some sid => match s.slip? sid with
    | none => s
    | some sl =>
      if sl.phase ≠ .running then s
      else if s.ent.state = .failed then abortRunning s sid sl St.entropyFailed
      else if dropLate then s
      else if sl.abortReq then abortRunning s sid sl St.aborted
      else if sl.suspendReq && csClass sl.cs == 5 then suspend s sid sl
      else s

/-- The fault collector makes the control store's check fail (R144, R451). -/
def storeInjected (s : State) (t : Nat) : Bool := fiFires s { source := 0x200, phys := t }

/-- Fetch and run the word at PC, if its sequencer operation is `op` (R144, R147, R155). -/
def seqRow (t op : Nat) (s : State) : State :=
  let x := s.tun t
  if !tunLive x then s
  else
    let raw := Tab.getD s.tuns.store x.pc.toNat 0
    if !wordOk raw || storeInjected s t then unitFault s .tun t 0x200
    else
      let w := unpackWord raw
      if w.seqOp.toNat ≠ op then s
      else
        let ms := gangOf s t x
        let x1 := runWord (envOf s t x) w (atWord w (gather s ms x))
        let s := scatter (drawRng s w) t ms x1
        let last := decide (w.seqOp = 7) || decide (w.seqOp = 8)
        if w.safe || last then servicePending s t last else s

end Sys2Proof.Machine
end

