-- ==== Sys2Proof/Machine/TunSeq.lean ====
section
/-!
DEFINITION. Invoking open stacks, the sequencer operations, safe points, the watchdog and the mask generator (R137, R147,
R155 to R157, R171).
-/

namespace Sys2Proof.Machine

/-- OPEN_STACKS_INVOKE (R171, R115): the slip's tun starts at the entry of the active image that the operation byte names. -/
def execOpenStacksInvoke (sid : Nat) (s : State) : Res :=
  match opReady s sid 0xF fun _ => true with
  | none => .next s
  | some sl => match (physUnitsOf s sl).head?, s.tuns.active with
    | some t, some img =>
      if (s.tun t).running then .next s
      else match img.entries[csOp sl.cs]? with
        | none => .next s
        | some en =>
          let s := startUses s sid
          .next (startTun s t sid sl en.addr true img.declassify)
    | _, _ => .next s

/-- CONT (R147). -/
def execSeqCont (t : Nat) (s : State) : Res := .next (seqRow t 0x0 s)

/-- JUMP (R147). -/
def execSeqJump (t : Nat) (s : State) : Res := .next (seqRow t 0x1 s)

/-- BR (R147, R148). -/
def execSeqBr (t : Nat) (s : State) : Res := .next (seqRow t 0x2 s)

/-- CALL (R147). -/
def execSeqCall (t : Nat) (s : State) : Res := .next (seqRow t 0x3 s)

/-- CALLC (R147, R148). -/
def execSeqCallc (t : Nat) (s : State) : Res := .next (seqRow t 0x4 s)

/-- RET (R147). -/
def execSeqRet (t : Nat) (s : State) : Res := .next (seqRow t 0x5 s)

/-- LOOP (R147). -/
def execSeqLoop (t : Nat) (s : State) : Res := .next (seqRow t 0x6 s)

/-- EXIT (R157). -/
def execSeqExit (t : Nat) (s : State) : Res := .next (seqRow t 0x7 s)

/-- FAIL (R157). -/
def execSeqFail (t : Nat) (s : State) : Res := .next (seqRow t 0x8 s)

/-- SAFE_POINT (R155, R156): pending requests are serviced, and the watchdog starts again. -/
def execSafePoint (t : Nat) (s : State) : Res :=
  let x := s.tun t
  if tunLive x then .next (servicePending (s.setTun t { x with watchdog := 0 }) t false) else .next s

/-- TUN_WATCHDOG (R156): an open-stacks routine ends with `ROUTINE_FAULT`; a closed-stacks one is a unit fault. -/
def execTunWatchdog (t : Nat) (s : State) : Res :=
  let x := s.tun t
  if !tunLive x then .next s
  else if x.openRoutine then .next (s.setTun t { x with ended := some (.status St.routineFault) })
  else .next (unitFault s .tun t 0x201)

/-- MASKGEN_RESEED (R137, R346): 384 bits from the `MSK` instance whose turn it is; the mask generators stand still once the
entropy unit has failed. -/
def execMaskgenReseed (_t : Nat) (s : State) : Res :=
  let i := 17 + s.ent.nextMsk % 8
  if s.ent.state = .failed ∨ (drbg s i).live = false then .next s
  else
    let s := if reseedDue s i then reseed s i else s
    if (drbg s i).reseedDue then .next s
    else
      let d := drbg s i
      let s := setDrbg s i { d with requests := d.requests + 1 }
      .next { s with ent := { s.ent with nextMsk := s.ent.nextMsk + 1 } }

end Sys2Proof.Machine
end

