-- ==== Sys2Proof/Machine/Images.lean ====
section
/-!
DEFINITION. Open-stacks images and firmware: the checks at staging, activation, retirement, trial boots (R146, R162 to R169,
R382 to R386).
-/

namespace Sys2Proof.Machine

/-! ## The structural rules of a microword (R146) -/

/-- The hash-core action's static conditions (R152). -/
def coreStaticOk (w : Microword) : Bool :=
  let core := w.hcore.toNat % 8
  let act := w.hcore.toNat / 8
  let imm := w.imm.toNat
  let rate (r : Nat) : Bool := decide (1 ≤ r) && decide (r ≤ 24)
  if core = 0 then true
  else if core = 7 then false
  else if core ≤ 4 then
    match act with
    | 0 => rate (imm % 256)
    | 1 | 4 => decide (imm % 256 + imm / 256 % 256 ≤ 200)
    | 2 => rate (imm / 65536 % 256)
    | 5 => false
    | _ => true
  else
    match act with
    | 0 => decide (imm % 8 ≤ 4)
    | 5 | 6 | 7 => true
    | _ => false

/-- Rule 1: reserved bits are zero, every field holds a defined code, `VOP` and `SOP` excepted, and `CHECK` agrees (log 83). -/
def wordRule1 (b : BitVec 192) : Bool :=
  let w := unpackWord b
  wordOk b && w.reserved == 0 && decide (w.seqOp.toNat ≤ 8) && decide (w.cond.toNat % 32 ≤ 0x0B) && decide (w.ctr.toNat / 4 ≤ 2)
    && decide (w.vlop.toNat ≤ 3) && decide (w.tag.toNat ≤ 2) && decide (w.rnd.toNat ≤ 3) && decide (w.mld.toNat ≤ 5)
    && decide (w.mldAddr.toNat < 32) && decide (w.mst.toNat ≤ 4) && decide (w.mstAddr.toNat < 32) && coreStaticOk w
    && decide (w.inq.toNat ≤ 6) && decide (w.outq.toNat ≤ 4)

/-- `VOP` codes whose result goes to a scalar register; `VCOMPRESS` writes both. -/
def vopScalar (c : Nat) : Bool := c == 0x0E || c == 0x46 || c == 0x47 || c == 0x48

def vopVector (c : Nat) : Bool := c != 0 && (vopOf c).isSome && !(c == 0x0E || c == 0x47 || c == 0x48)

/-- How many actions write a vector register (rule 2). -/
def vectorWrites (w : Microword) : Nat :=
  let act := w.hcore.toNat / 8
  b2n (vopVector w.vop.toNat) + b2n (w.mld != 0) + b2n (w.inq != 0)
    + b2n (w.hcore.toNat % 8 != 0 && (act == 4 && decide (w.hcore.toNat % 8 ≤ 4) || act == 6))

/-- Scalar registers written, by each action that writes one (rule 3). -/
def scalarWrites (w : Microword) : List Nat :=
  (if w.sop.toNat = 0 ∨ 0x18 ≤ w.sop.toNat then [] else [w.sd.toNat])
    ++ (if vopScalar w.vop.toNat then [w.sd.toNat] else [])
    ++ (if w.vlop = 3 then [w.sb.toNat] else [])
    ++ (if w.mld ≠ 0 ∧ w.mldAddr.toNat / 16 = 1 then [w.mldAddr.toNat % 16] else [])
    ++ (if w.mst ≠ 0 ∧ w.mstAddr.toNat / 16 = 1 then [w.mstAddr.toNat % 16] else [])

/-- Rule 8: the targets that R162 allows in an image of `n` words. -/
def nextOk (n : Nat) (w : Microword) : Bool :=
  let own := decide (0x2000 ≤ w.next.toNat) && decide (w.next.toNat < 0x2000 + n)
  match w.seqOp.toNat with
  | 1 | 2 | 6 => own
  | 3 | 4 => own || decide (w.next.toNat ≤ 7)
  | _ => true

/-- The rules of R146 on one word of an image of `n` words. -/
def wordRules (n : Nat) (b : BitVec 192) : Bool :=
  let w := unpackWord b
  wordRule1 b && decide (vectorWrites w ≤ 1) && decide (scalarWrites w).Nodup && (!vopScalar w.vop.toNat || w.sop == 0)
    && ((w.tag == 0 && !w.rnd.getLsbD 0) || vectorWrites w == 1) && (!w.rnd.getLsbD 1 || w.mst != 0)
    && (w.cond == 0 || w.seqOp == 2 || w.seqOp == 4) && !(w.seqOp == 6 && w.ctr.toNat / 4 != 0) && nextOk n w

/-! ## The stack image (R162 to R164) -/

/-- Length of a signature of `SIG_ALG`, and the class of its public key. -/
def sigLen : Nat → Nat
  | 1 => 3309
  | 2 => 4627
  | 3 => 96
  | _ => 0

def sigClass : Nat → Nat
  | 1 => 0x19
  | 2 => 0x1A
  | _ => 0x6D

/-- A stack image's dispatch entry. -/
def imgEntry (b : Bytes) : OstkEntry :=
  { addr := BitVec.ofNat 14 (field b 0 2), flags := BitVec.ofNat 16 (field b 2 2), minCycles := field b 4 4
    estBase := field b 8 4, estPerKib := field b 12 2, keyUsage := BitVec.ofNat 10 (field b 14 2) }

def entryOk (n : Nat) (b : Bytes) : Bool :=
  decide (0x2000 ≤ field b 0 2) && decide (field b 0 2 < 0x2000 + n) && decide (field b 2 2 < 64) && decide (field b 14 2 < 1024)
    && (bit (field b 2 2) 0 || field b 14 2 == 0)

def imgWordCount (b : Bytes) : Nat := field b 16 2
def imgEntryCount (b : Bytes) : Nat := field b 18 2

/-- Bytes before the signature. -/
def imgSigned (b : Bytes) : Bytes := b.take (128 + 16 * imgEntryCount b + 24 * imgWordCount b)

def imgWords (b : Bytes) : List (BitVec 192) :=
  (List.range (imgWordCount b)).map fun i => BitVec.ofNat 192 (field b (128 + 16 * imgEntryCount b + 24 * i) 24)

/-- The header and the entry table are well formed and the parts fill the image (R162 to R164). -/
def imgHeaderOk (b : Bytes) : Bool :=
  let n := imgWordCount b
  let e := imgEntryCount b
  field b 0 4 == 0x4B54534F && field b 4 2 == 1 && field b 6 2 == 128 && decide (1 ≤ field b 12 4)
    && decide (1 ≤ n) && decide (n ≤ 4096) && decide (1 ≤ e) && decide (e ≤ 64) && decide (field b 20 4 < 2)
    && decide (1 ≤ field b 28 2) && decide (field b 28 2 ≤ 3) && field b 30 2 == 0 && decide (field b 32 4 < 2 ^ 21)
    && field b 36 4 == sigLen (field b 28 2) && allZero (slice b 72 56)
    && b.length == 128 + 16 * e + 24 * n + field b 36 4
    && (List.range e).all fun i => entryOk n (slice b (128 + 16 * i) 16)

/-- Index of the first word that fails a test. -/
def firstBad (p : Nat → BitVec 192 → Bool) : Nat → List (BitVec 192) → Option Nat
  | _, [] => none
  | i, w :: ws => if p i w then firstBad p (i + 1) ws else some i

/-- The control-flow rules of R162: targets, and the last word's sequencing. -/
def flowOk (n i : Nat) (b : BitVec 192) : Bool :=
  let w := unpackWord b
  nextOk n w && (i + 1 != n || [1, 5, 7, 8].contains w.seqOp.toNat)

/-- The image that these bytes spell. -/
def parseOstk (b : Bytes) : OstkImage :=
  { id := BitVec.ofNat 32 (field b 8 4), version := field b 12 4
    entries := (List.range (imgEntryCount b)).map fun i => imgEntry (slice b (128 + 16 * i) 16)
    declassify := bit (field b 20 4) 0, minLib := field b 24 4, signer := field b 32 4
    carrels := BitVec.ofNat 256 (field b 40 32), measure := fit 48 (Config.compute (.sha2 384) [imgSigned b])
    words := imgWords b, raw := b }

/-- Family counter of an image (R226). -/
def familyOf (s : State) (id : W32) : Option Nat := (s.ledger.families.find? fun p => p.1 == id).map (·.2)

/-- The signature verifies under the signer's public key (R165). -/
def imgSigOk (s : State) (b : Bytes) : Bool :=
  let key := (s.slot (field b 32 4)).material
  let msg := imgSigned b
  let sig := b.drop msg.length
  let ctx : Bytes := [0x54, 0x35, 0x31, 0x32, 0x30, 0x2D, 0x4F, 0x53, 0x54, 0x4B]
  match field b 28 2 with
  | 1 => dsaVerifies 5 key ctx msg sig
  | 2 => dsaVerifies 6 key ctx msg sig
  | _ => p384Verifies key msg sig

/-- The signer slot (check 2 of R167): valid, of the class that the algorithm names, with usage verify, and enrolled. -/
def signerCheck (s : State) (b : Bytes) : Option Nat :=
  let n := field b 32 4
  match keyCheck s 0 n (fun c => c == sigClass (field b 28 2)) (fun u => u.getLsbD 3) true with
  | some st => some st
  | none => if (s.slot n).ostkSigner then none else some St.keyUsageDenied

/-- The rollback check of a family, and the library version (check 4 of R167). -/
def versionOk (s : State) (x : OstkImage) : Bool :=
  decide (x.minLib ≤ s.reg.running.csVersion) &&
  match familyOf s x.id with
  | some c => decide (ctrFinal s c ≤ x.version)
  | none => decide (s.ledger.families.length < 16)

/-- The first check of R167 step 1 that fails: its number, the refusal, and the first offending word. -/
def imageCheck (s : State) (b : Bytes) : Option (Nat × Ans) :=
  let n := imgWordCount b
  let no (a : Ans) : Ans := { a with detail := 0xFFFF_FFFF }
  if !imgHeaderOk b then some (1, no (fail St.formatInvalid))
  else match firstBad (flowOk n) 0 (imgWords b) with
    | some i => some (1, { fail St.formatInvalid with detail := i })
    | none => match signerCheck s b with
      | some st => some (2, no (fail st))
      | none =>
        if !imgSigOk s b then some (3, no (fail St.signatureInvalid))
        else if !versionOk s (parseOstk b) then some (4, no (rejected 7 (ostkCode s)))
        else match firstBad (fun _ => wordRules n) 0 (imgWords b) with
          | some i => some (5, { fail St.formatInvalid with detail := i })
          | none => none

/-! ## OSTK_STAGE, OSTK_ACTIVATE, OSTK_RETIRE -/

/-- Change every MOUNTED cartridge. -/
def onMounted (s : State) (g : FolSlot → FolSlot) : State :=
  let slots := Tab.mapVals s.folio.slots fun _ f => if f.state == .mounted then g f else f
  { s with folio := { s.folio with slots := slots } }

/-- OSTK_STAGE (R167 step 1). -/
def execOstkStage (fn : Nat) (host : Bytes) (s : State) : Res :=
  .next (serve s fn { code := 0x0501, role := .o, lenOk := lenIs 12, s1 := false, s23 := false } fun s p =>
    let b := fit (field p 8 4) host
    match imageCheck s b with
    | some (_, a) => .done s a
    | none =>
      if !archiveOk s then .done s (folRejected s)
      else
        let x := parseOstk b
        .done (onMounted { s with tuns := { s.tuns with staged := some x } } fun f => { f with imgStaged := some x }) {})

/-- OSTK_ACTIVATE (R167 step 2): class 0xF slips stop starting, and the command waits for those running. -/
def execOstkActivate (fn : Nat) (s : State) : Res :=
  .next (serve s fn { code := 0x0502, role := .o, lenOk := lenIs 0, s23 := false, folio := true } fun s _ =>
    if s.tuns.staged.isNone || s.tuns.draining.isSome then .done s (rejected 7 (ostkCode s))
    else if !archiveOk s then .done s (folRejected s)
    else .wait { s with tuns := { s.tuns with draining := some (some fn, false) } } .ostkDrain)

/-- OSTK_RETIRE (R169): as activation. -/
def execOstkRetire (fn : Nat) (s : State) : Res :=
  .next (serve s fn { code := 0x0503, role := .o, lenOk := lenIs 0 } fun s _ =>
    if s.tuns.active.isNone || s.tuns.draining.isSome then .done s (rejected 7 (ostkCode s))
    else .wait { s with tuns := { s.tuns with draining := some (some fn, true) } } .ostkDrain)

/-- A class 0xF slip holds a tun. -/
def openBusy (s : State) : Bool := openRunning s || s.hop.slips.any fun p => csClass p.2.cs == 0xF && p.2.unit.isSome

/-- The family counter of an image, assigned in order of first use, and its record (R226). -/
def assignFamily (s : State) (x : OstkImage) : State :=
  match familyOf s x.id with
  | some _ => s
  | none =>
    let m := s.ledger.families ++ [(x.id, 16 + s.ledger.families.length)]
    queueRecord { s with ledger := { s.ledger with families := m } } (.familyMap m)

/-- The image's words stand in every tun; the counter of its family follows its version (R167). -/
def loadImage (s : State) (x : OstkImage) : State :=
  let s := if s.tuns.active.isNone then clearOpenStore s else s
  let s := assignFamily s x
  let s := match familyOf s x.id with
    | some c => ledgerRaise s c x.version
    | none => s
  let st := (x.words.zipIdx).foldl (fun t p => Tab.set t (0x2000 + p.2) p.1) s.tuns.store
  { s with tuns := { s.tuns with store := st, active := some x } }

/-- Every tun cluster with an unfenced tun is awake (R167). -/
def wakeTuns (s : State) : State :=
  let u := s.sched.tun
  (List.range 17).foldl (fun s c =>
    let any := (List.range 8).any fun i => !Tab.has u.fenced (8 * c + i)
    match any, clusterState u c with
    | true, .nap | true, .dormant | true, .waking _ => setCluster s .tun c .idle
    | _, _ => s) s

/-- OSTK_DRAIN_END (R167, R169): class 0xF routines have ended, or 100 ms have passed. A retirement that follows from a
deaccession goes on waiting. -/
def execOstkDrainEnd (s : State) : Res :=
  match s.tuns.draining with
  | none => .next s
  | some (fn, retire) =>
    let stop := { s with tuns := { s.tuns with draining := none } }
    let answer (s : State) (a : Ans) : State := match fn with
      | some f => answerWait s f .ostkDrain a
      | none => s
    if openBusy s then
      match fn with
      | some _ => .next (answer stop (rejected 7 (ostkCode s)))
      | none => .next s
    else if retire then
      .next (answer (unmarkImage (clearOpenStore { stop with tuns := { stop.tuns with active := none } })) {})
    else match s.tuns.staged with
      | none => .next (answer stop (rejected 7 (ostkCode s)))
      | some x =>
        if !archiveOk s then .next (answer stop (folRejected s))
        else
          let s := onMounted stop fun f => { f with imgActive := some x, imgStaged := none }
          let s := loadImage (wakeTuns s) x
          .next (answer { s with tuns := { s.tuns with staged := none } } {})

/-! ## Firmware (R382 to R386) -/

/-- The Dvorsum firmware keys, whose digests lie in registrar ROM (log 84). -/
def fwDsaKey : Bytes := (List.range 2592).map fun i => BitVec.ofNat 8 (Config.freeNat 151 [i])
def fwEcKey : Bytes := (List.range 97).map fun i => BitVec.ofNat 8 (Config.freeNat 152 [i])

/-- Header and body of a firmware image. -/
def fwSigned (b : Bytes) : Bytes := b.take (256 + field b 16 4)

/-- Format and `BODY_HASH` (check 1 of R384). -/
def fwFormatOk (b : Bytes) : Bool :=
  let n := field b 16 4
  field b 0 4 == 0x46575450 && field b 4 2 == 1 && field b 6 2 == 256 && decide (n ≤ 67108864) && allZero (slice b 68 188)
    && b.length == 256 + n + 4627 + 96 && slice b 20 48 == fit 48 (Config.compute (.sha2 384) [slice b 256 n])

/-- Both signatures verify (check 2). -/
def fwSigOk (b : Bytes) : Bool :=
  let msg := fwSigned b
  let o := msg.length
  let ctx : Bytes := [0x54, 0x35, 0x31, 0x32, 0x30, 0x2D, 0x46, 0x57]
  dsaVerifies 6 fwDsaKey ctx msg (slice b o 4627) && p384Verifies fwEcKey msg (slice b (o + 4627) 96)

/-- The image as the device keeps it; its microwords are named when it is booted (log 85). -/
def parseFw (b : Bytes) : FwImage :=
  { version := field b 8 4, csVersion := field b 12 4, measure := fit 48 (Config.compute (.sha2 384) [fwSigned b]) }

/-- The checks of R384, in order. -/
def fwCheck (s : State) (b : Bytes) : Option Ans :=
  let x := parseFw b
  let min := match s.tuns.active with
    | some i => i.minLib
    | none => 0
  if !fwFormatOk b then some (fail St.formatInvalid)
  else if !fwSigOk b then some (fail St.signatureInvalid)
  else if x.version < ctrFinal s 0 then some { devRejected s with detail := ctrFinal s 0 }
  else if x.csVersion < min then some { rejected 7 (ostkCode s) with detail := min }
  else none

/-- A cartridge takes the image: a MOUNTED one, or in RECOVERY any that ROM has identified (R383, R386). -/
def fwArchiveOk (s : State) : Bool :=
  archiveOk s || (s.reg.dev == .recovery && s.folio.slots.any fun p => p.2.present && p.2.state != .unusable)

/-- `DRES` area A takes a measurement (R256). -/
def setDresA (s : State) (source : BitVec 8) (m : Bytes) : State :=
  { s with dres := { s.dres with
      areaA := fit 64 m, areaB := [], func := 2, source := source, lenA := 48, lenB := 0, seq := s.dres.seq + 2 } }

/-- FW_STAGE (R384); in RECOVERY the image received is measured into `DRES` (R256, R386). -/
def execFwStage (fn : Nat) (host : Bytes) (s : State) : Res :=
  .next (serve s fn { code := 0x0510, role := .o, lenOk := lenIs 12, recovery := true, s1 := false, s23 := false } fun s p =>
    let b := fit (field p 8 4) host
    let s := if s.reg.dev = .recovery ∧ fwFormatOk b = true then setDresA s 3 (parseFw b).measure else s
    match fwCheck s b with
    | some a => .done s a
    | none =>
      if !fwArchiveOk s then .done s (folRejected s)
      else .done { s with reg := { s.reg with staged := some (parseFw b) } } {})

/-- FW_ACTIVATE (R385, R386): the staged bank is marked for a trial boot; with `RESET_NOW`, or in RECOVERY, the device resets. -/
def execFwActivate (fn : Nat) (s : State) : Res :=
  .next (serve s fn
    { code := 0x0511, role := .o, lenOk := lenIs 1, rsvOk := fun p => decide (field p 0 1 < 2), recovery := true, s23 := false }
    fun s p =>
    if s.reg.staged.isNone then .done s (devRejected s)
    else
      let s := { s with reg := { s.reg with trial := .marked } }
      if s.reg.dev = .recovery then .doneThen s {} chipReset
      else if bit (field p 0 1) 0 then .wait { s with hop := { s.hop with fetchStopped := true } } .fwReset
      else .done s {})

/-- FW_ACTIVATE_WAIT_END (R385, R427): slips have ended, or 100 ms have passed and those still running are abandoned; the
journal and the mirror are flushed, and the chip resets. -/
def execFwActivateWaitEnd (s : State) : Res :=
  match waiting s .fwReset with
  | [] => .next s
  | fns =>
    let s := (s.hop.slips.filter fun p => p.2.unit.isSome).foldl (fun s p => stopUnits s p.1 p.2) s
    let s := { s with hop := { s.hop with slips := [], carries := [] } }
    let s := resign (archiveFlush s)
    .next (chipReset (fns.foldl (fun s f => answerWait s f .fwReset {}) s))

/-- TRIAL_BOOT_TIMEOUT (R385): the trial image has not reached READY within 10 s of reset; the previous bank boots at the next
reset. -/
def execTrialBootTimeout (s : State) : Res :=
  if s.reg.trial = .running ∧ s.reg.dev ≠ .ready then
    .next { s with reg := { s.reg with trial := .none, trialReverted := true } }
  else .next s

end Sys2Proof.Machine
end

