-- ==== Sys2Proof/Machine/Life.lean ====
section
/-!
DEFINITION. Tamper response, life-cycle transitions and debug grants (chapter 20).
-/

namespace Sys2Proof.Machine

/-! ## Octets held down (R61, R491) -/

/-- Bring one octet to where `octForced` wants it: its links drop, or it seeks a link again. -/
def forceOctet (s : State) (n : Nat) : State :=
  let o := s.octet n
  if o.state = .off then s
  else if octForced s o then
    if o.state = .forcedDown then s
    else s.setOctet n { o with
      state := .forcedDown, portUp := 0, laneLock := 0, linkFlap := if o.portUp = 0 then o.linkFlap else o.linkFlap.hit }
  else if o.state = .forcedDown then s.setOctet n { o with state := .down }
  else s

def forceOctets (s : State) : State := (List.range 64).foldl forceOctet s

/-- The first carrel other than 0 that is neither ABSENT nor CONFIGURED, QUIESCED or FROZEN (R486, R492). -/
def busyCarrel (s : State) : Option Nat :=
  (s.carrels.find? fun p => p.1 != 0 && (p.2.st == .active || p.2.st == .quiescing)).map (·.1)

/-- Every session ends with a cause (R373). -/
def endSessions (s : State) (cause : Nat) : State := (Tab.keys s.reg.mbx).foldl (fun s f => endSession s f cause) s

/-! ## Tamper response (R472 to R479) -/

/-- Monitors are armed from FACTORY on (R472). -/
def armed (s : State) : Bool := s.tmp.lcs != .blank

/-- `TMP_CAUSE` (chapter 20 registers). -/
def tmpCause (s : State) (src detail : Nat) (vbat : Bool) : W64 :=
  BitVec.ofNat 64 (src % 256 + 2 ^ 8 * (detail % 256) + 2 ^ 16 * b2n vbat + 2 ^ 24 * (s.sec % 2 ^ 40))

/-- TAMPER_OUT_N is asserted (R476). -/
def assertOut (t : Tamper) (now : Nat) : Tamper := if t.outN then t else { t with outN := true, outSince := now }

/-- One evidence bit is programmed (R480). -/
def addEvidence (t : Tamper) : Tamper := { t with evidence := min (t.evidence + 1) 1024 }

/-- A monitor that fires together with the one already answered: the lowest source number is recorded (R479). -/
def lowerCause (s : State) (src detail : Nat) (vbat : Bool) : State :=
  if s.tmp.outSince = s.now ∧ src % 256 < (s.tmp.cause.toNat) % 256 then
    { s with tmp := { s.tmp with cause := tmpCause s src detail vbat } }
  else s

/-- Steps 1 to 5 of R476. Evidence is programmed at once where the limits allow it, and is pending otherwise; the fault log is
erased. A detection before stage 6 of the next boot is covered already: boot starts again, and nothing more is counted (R479,
R543). -/
def tamperMain (s : State) (src detail : Nat) (inLimits : Bool) : State :=
  if s.tmp.responded then
    if s.tmp.outSince = s.now then lowerCause s src detail false else chipReset { s with flt := { s.flt with log := [] } }
  else
    let s := endSessions s 6
    let t := { assertOut s.tmp s.now with cause := tmpCause s src detail false, responded := true }
    let t := if inLimits then addEvidence t else { t with pendingEv := true }
    chipReset { s with tmp := t, cel := { s.cel with cellarKey := false }, flt := { s.flt with log := [] } }

/-- On VBAT only the cellar is left to act (R477). -/
def tamperVbat (s : State) (src detail : Nat) : State :=
  if s.tmp.responded then lowerCause s src detail true
  else
    { s with
      tmp := { assertOut s.tmp s.now with cause := tmpCause s src detail true, responded := true, pendingEv := true }
      cel := { s.cel with cellarKey := false } }

/-- TMP_SHIELD (R472): a mismatch on a wire pair. -/
def execTmpShield (detail : Nat) (s : State) : Res :=
  if !armed s then .next s
  else .next (if s.cel.mainPower then tamperMain s 0x080 detail true else tamperVbat s 0x080 detail)

/-- Loop `n` is armed and enabled (R474). -/
def loopLive (s : State) (n : Nat) : Bool :=
  (match s.tmp.lcs with
   | .service | .returned | .scrap | .invalid => true
   | _ => false) && s.tmp.loopEn.getLsbD n

/-- TMP_LOOP (R474): two consecutive checks of an armed loop differ. -/
def execTmpLoop (loop : Nat) (s : State) : Res :=
  if !loopLive s loop then .next s
  else .next (if s.cel.mainPower then tamperMain s 0x081 loop true else tamperVbat s 0x081 loop)

/-- POR_N has been asserted, or shed stage S4 is complete: the rails may fall (R540). -/
def mayFall (s : State) : Bool := s.reg.dev == .off || s.cel.s4Done

/-- TMP_RAIL (R472): armed on main power; bit 8 of the detail marks an over-voltage, which alone is a tamper once the rails may
fall (R540). -/
def execTmpRail (detail : Nat) (s : State) : Res :=
  .next (if armed s && s.cel.mainPower && (detail.testBit 8 || !mayFall s) then tamperMain s 0x082 detail false else s)

/-- TMP_TEMP (R472). -/
def execTmpTemp (detail : Nat) (s : State) : Res :=
  .next (if armed s && s.cel.mainPower then tamperMain s 0x083 detail false else s)

/-- TMP_CLOCK (R472). -/
def execTmpClock (detail : Nat) (s : State) : Res :=
  .next (if armed s && s.cel.mainPower then tamperMain s 0x084 detail true else s)

/-- TMP_GLITCH (R472). -/
def execTmpGlitch (detail : Nat) (s : State) : Res :=
  .next (if armed s && s.cel.mainPower then tamperMain s 0x085 detail true else s)

/-- SHIELD_RESEED (R473): on main power the streams take a new seed from the `SYS` instance; without one they run on. -/
def execShieldReseed (s : State) : Res :=
  if s.cel.mainPower = false ∨ s.ent.state ≠ .ready ∨ (drbg s 0).live = false then .next s
  else
    let s := if reseedDue s 0 then reseed s 0 else s
    let d := drbg s 0
    if d.reseedDue then .next s
    else
      let s := setDrbg s 0 { d with requests := d.requests + 1 }
      .next { s with tmp := { s.tmp with reseeds := s.tmp.reseeds + 1 } }

/-- TAMPER_OUT_RELEASE (R476): after stage 6 of the boot, and at least 100 ms. -/
def execTamperOutRelease (s : State) : Res :=
  if s.tmp.outN = true ∧ s.tmp.responded = false ∧ 6 ≤ s.boot.stage ∧ s.now - s.tmp.outSince ≥ 125000000 then
    .next { s with tmp := { s.tmp with outN := false } }
  else .next s

/-! ## Life-cycle transitions (R483 to R488) -/

/-- The state after one more group, and the state of a code (R483). -/
def lcsNext : Lcs → Lcs
  | .blank => .factory
  | .factory => .provisioned
  | .provisioned => .service
  | .service => .returned
  | .returned => .scrap
  | .scrap => .scrap
  | .invalid => .invalid

def lcsOf : Nat → Option Lcs
  | 2 => some .provisioned
  | 3 => some .service
  | 4 => some .returned
  | 5 => some .scrap
  | _ => none

/-- The transitions that `LCS_TRANSITION` accepts (R485, R371). The DeviceID certificates are there from manufacture. -/
def lcsAccepts (s : State) (t : Lcs) : Bool :=
  match s.tmp.lcs, t with
  | .factory, .provisioned => !(enrolled s 0).isEmpty
  | .provisioned, .service => decide (s.tmp.evidence < 1024)
  | .provisioned, .returned | .service, .returned => true
  | .factory, .scrap | .provisioned, .scrap | .service, .scrap | .returned, .scrap => true
  | _, _ => false

/-- The four margins of R486: a bit for each that fails. -/
def lcsMargins (s : State) (railsOk : Bool) : Nat :=
  let temp := s.boot.dieTemp.toInt
  b2n (!railsOk) + 2 * b2n (decide (s.cel.vbatMv.toNat < 2600)) + 4 * b2n (s.cel.warn || s.cel.stage != 0)
    + 8 * b2n (decide (temp < 0) || decide (85 < temp))

/-- LCS_TRANSITION (R486): the checks, then the first group is programmed. -/
def execLcsTransition (fn : Nat) (railsOk : Bool) (vbatMv : BitVec 12) (dieTemp : BitVec 8) (s : State) : Res :=
  let s := { s with cel := { s.cel with vbatMv := vbatMv }, boot := { s.boot with dieTemp := dieTemp } }
  .next (serve s fn
    { code := 0x0110, role := .o, lenOk := lenIs 20, rsvOk := fun p => decide (field p 1 1 < 2) && field p 3 1 == 0
      returned := true, s23 := false }
    fun s p =>
    match lcsOf (field p 0 1) with
    | none => .done s (lcsRejected s)
    | some t =>
      if !lcsAccepts s t || s.tmp.busy then .done s (lcsRejected s)
      else match busyCarrel s with
        | some c => .done s (crlRejected s c)
        | none =>
          if lcsMargins s railsOk ≠ 0 then .done s { devRejected s with detail := lcsMargins s railsOk }
          else if ((t = .returned ∨ t = .scrap) ∧ bit (field p 1 1) 0 = false) ∨ slice p 4 16 ≠ fit 16 s.reg.serial then
            .done s (fail St.paramInvalid)
          else
            let tmp := { s.tmp with
              busy := true, lcsTarget := some t, groups := lcsCode t - lcsCode s.tmp.lcs, lcsFn := some fn, halted := false
              loopMask := if t = .service then BitVec.ofNat 8 (field p 2 1) else s.tmp.loopMask }
            .wait { s with tmp := tmp } .lcs)

/-- LCS_GROUP_DONE (R486): a group is programmed. The next one starts, unless a power warning, a reset or a tamper response
has come between; at the end the response is written and the chip resets. A transition cut off by a reset has no one to
answer. -/
def execLcsGroupDone (s : State) : Res :=
  if s.tmp.busy = false ∨ s.tmp.groups = 0 then .next s
  else
    let x := lcsNext s.tmp.lcs
    let tmp : Tamper := { s.tmp with
      lcs := x, groups := s.tmp.groups - 1
      loopEn := if x = .service ∧ s.tmp.lcsTarget = some .service then s.tmp.loopMask else s.tmp.loopEn }
    let s := { s with tmp := tmp }
    if tmp.groups ≠ 0 ∧ tmp.halted = false ∧ s.cel.warn = false then .next s
    else
      let s := { s with tmp := { tmp with busy := false, lcsTarget := none, groups := 0, lcsFn := none, halted := false } }
      match tmp.lcsFn with
      | none => .next s
      | some f =>
        let s := answerWait s f .lcs { detail := lcsCode x }
        .next (chipReset (endSessions s 6))

/-! ## Debug grants (R489 to R493) -/

/-- The debug-authority keys, whose digests lie in registrar ROM (log 84). -/
def dbgDsaKey : Bytes := (List.range 2592).map fun i => BitVec.ofNat 8 (Config.freeNat 153 [i])
def dbgEcKey : Bytes := (List.range 97).map fun i => BitVec.ofNat 8 (Config.freeNat 154 [i])

/-- DBG_NONCE (R375): a fresh device nonce. -/
def execDbgNonce (fn : Nat) (s : State) : Res :=
  .next (serve s fn { code := 0x0810, role := .d, lenOk := lenIs 0, returned := true } fun s _ =>
    if nonApprovedHere s fn then .done s (fail St.nonApprovedForbidden)
    else withRandom s 32 fun s n =>
      .done { s with tmp := { s.tmp with nonce := some (n, s.now), nonceUsed := false } } { payload := n })

/-- Length of the owner signature that a grant's algorithm names. -/
def ownerLen : Nat → Nat
  | 1 => 3309
  | 3 => 96
  | _ => 0

/-- Format and serial number (check 1 of R492). -/
def grantFormatOk (s : State) (b : Bytes) : Bool :=
  let alg := field b 72 2
  let len := field b 74 2
  let owner := if s.tmp.lcs = .returned then alg == 0 && len == 0 else (alg == 1 || alg == 3) && len == ownerLen alg
  field b 0 4 == 0x54474244 && field b 4 2 == 1 && field b 6 2 == 128 && slice b 8 16 == fit 16 s.reg.serial
    && decide (field b 56 8 < 512) && decide (60 ≤ field b 64 4) && decide (field b 64 4 ≤ 86400)
    && decide (field b 68 4 < 2 ^ 21) && owner && allZero (slice b 76 52) && b.length == 4851 + len

/-- The nonce is the latest, fresh and unused (check 2). -/
def grantNonceOk (s : State) (b : Bytes) : Bool :=
  match s.tmp.nonce with
  | none => false
  | some (n, t) => !s.tmp.nonceUsed && n == slice b 24 32 && decide (s.now - t < 375000000000)

/-- The three signatures (check 3). -/
def grantSigOk (s : State) (b : Bytes) : Bool :=
  let hdr := b.take 128
  let ctx : Bytes := [0x54, 0x35, 0x31, 0x32, 0x30, 0x2D, 0x44, 0x45, 0x42, 0x55, 0x47]
  let own : Bytes := ctx ++ [0x2D, 0x4F, 0x57, 0x4E, 0x45, 0x52]
  let msg := b.take 4851
  let sig := b.drop 4851
  let key := field b 68 4
  let k := s.slot key
  let std := (keyCheck s 0 key (fun c => c == 0x19 || c == 0x6D) (fun u => u.getLsbD 3) true).isNone && (enrolled s 0).contains key
  dsaVerifies 6 dbgDsaKey ctx hdr (slice b 128 4627) && p384Verifies dbgEcKey hdr (slice b 4755 96)
    && (s.tmp.lcs == .returned
        || (std && (if field b 72 2 = 1 then k.keyClass == 0x19 && dsaVerifies 5 k.material own msg sig
                    else k.keyClass == 0x6D && p384Verifies k.material msg sig)))

/-- A right that reaches secrets. -/
def reaching (rights : BitVec 9) : Bool := rights.getLsbD 7 || rights.getLsbD 8

/-- Steps 1 and 2 of R476 on a device that goes on: every secret outside OTP and the ledger is zeroised, and work in flight
ends (R492, log 86). -/
def eraseSecrets (s : State) : State :=
  let s := (s.hop.slips.filter fun p => p.2.unit.isSome).foldl (fun s p => stopUnits s p.1 p.2) s
  let s := abortSlips s (fun _ => true) St.aborted
  let s := endSessions ((busyPages s fun _ => true).foldl (fun s k => endPage s (k / 4) (k % 4) St.aborted) s) 4
  let pages := Tab.mapVals s.pipes.pages fun _ p => { p with key := [], keyLoaded := false, tag0 := 0, tag1 := 0 }
  let active := s.tuns.active.isSome
  let s := { s with
    cel := { s.cel with cellarKey := false }, qdr := { s.qdr with guardKeys := false }
    tuns := { s.tuns with tuns := [], contexts := [], active := none, draining := none }
    kilns := [], cat := { s.cat with slots := [], archivePending := [], tombstones := [] }
    pipes := { s.pipes with pages := pages }, hop := { s.hop with carries := [] }
    ent := { s.ent with drbgs := [], pool := 0 }, flt := { s.flt with log := [] }
    reg := { s.reg with aliasKeys := false, admins := [] }
    ledger := { s.ledger with keys := [] }, folio := { s.folio with queue := [] } }
  if active then unmarkImage (clearOpenStore s) else s

/-- Put a grant in force (R491, R492). -/
def applyGrant (s : State) (b : Bytes) : State × Ans :=
  let rights := BitVec.ofNat 9 (field b 56 8)
  let s :=
    if reaching rights && s.tmp.lcs != .returned then
      eraseSecrets { s with tmp := { s.tmp with eraseMark := true, erased := true } }
    else s
  let exp := s.sec + field b 64 4
  let s := { s with tmp := { s.tmp with
    rights := rights, grantActive := true, expiry := BitVec.ofNat 64 exp, nonceUsed := true } }
  (forceOctets s, { payload := le 8 rights.toNat ++ le 8 exp })

/-- DBG_GRANT (R492). -/
def execDbgGrant (fn : Nat) (host : Bytes) (s : State) : Res :=
  .next (serve s fn
    { code := 0x0811, role := .d, lenOk := lenIs 13, rsvOk := fun p => decide (field p 12 1 < 2), returned := true } fun s p =>
    let b := fit (field p 8 4) host
    let live := s.tmp.lcs == .provisioned || s.tmp.lcs == .service || s.tmp.lcs == .returned
    let erases := reaching (BitVec.ofNat 9 (field b 56 8)) && s.tmp.lcs != .returned
    if nonApprovedHere s fn then .done s (fail St.nonApprovedForbidden)
    else if !grantFormatOk s b then .done s (fail St.formatInvalid)
    else if !grantNonceOk s b then .done s (devRejected s)
    else if !grantSigOk s b then .done s (fail St.signatureInvalid)
    else if !live then .done s (lcsRejected s)
    else if erases && (!bit (field p 12 1) 0 || (busyCarrel s).isSome) then .done s (crlRejected s ((busyCarrel s).getD 0))
    else
      let r := applyGrant s b
      .done r.1 r.2)

/-- A grant ends: its trace records go, its octets return, and one that reached secrets resets the chip (R493). -/
def endGrant (s : State) : State :=
  if s.tmp.grantActive = false then s
  else
    let hard := reaching s.tmp.rights
    let tuns := Tab.mapVals s.tuns.tuns fun _ x => { x with trace := [] }
    let s := { s with
      tmp := { s.tmp with grantActive := false, rights := 0, expiry := 0 }, tuns := { s.tuns with tuns := tuns } }
    if hard then chipReset s else forceOctets s

/-- DBG_END (R493): with no grant in force it has nothing to do (log 87). -/
def execDbgEnd (fn : Nat) (s : State) : Res :=
  .next (serve s fn { code := 0x0812, role := .od, lenOk := lenIs 0, returned := true } fun s _ =>
    if nonApprovedHere s fn then .done s (fail St.nonApprovedForbidden) else .doneThen s {} endGrant)

/-- GRANT_EXPIRY (R493). -/
def execGrantExpiry (s : State) : Res :=
  .next (if s.tmp.grantActive && decide (s.tmp.expiry.toNat ≤ s.sec) then endGrant s else s)

end Sys2Proof.Machine
end

