-- ==== Sys2Proof/Machine/Pages.lean ====
section
/-!
DEFINITION. The direct register pages (chapter 11, R278 to R285).
-/

namespace Sys2Proof.Machine

/-! ## Registers of a page (R280, R281) -/

/-- The page exists: the Operator has given the function's carrel that many (R278). -/
def pageThere (s : State) (fn p : Nat) : Bool := decide (p < 4) && decide (p < (s.carrel fn).directPages)

/-- A write that R282 or R283 discards. -/
def ignoreWrite (s : State) (fn p : Nat) : State :=
  let x := s.page fn p
  s.setPage fn p { x with wrIgnored := x.wrIgnored.hit }

/-- A write to a page: nothing beyond the carrel's pages (R278); while `BUSY` it is discarded (R282). -/
def pageWrite (s : State) (fn p : Nat) (f : Page → Page) : State :=
  if pageThere s fn p then
    if (s.page fn p).busy then ignoreWrite s fn p else s.setPage fn p (f (s.page fn p))
  else s

def pgOpcode (x : Page) : Nat := bits x.ctrl.toNat 15 0
def pgSet (x : Page) : Nat := pgOpcode x / 256 % 16
/-- Mode and direction; none of another class, or not listed (R266, R278). -/
def pgMode (x : Page) : Option (PipeMode × Bool) :=
  if pgOpcode x / 4096 = 4 then pipeMode (pgSet x) (pgOpcode x % 256) else none
/-- The fields of `DPG_CTRL` at their places in the `OP_PARAM` of R268. -/
def pgParam (x : Page) : Nat :=
  let c := x.ctrl.toNat
  bits c 31 24 + 256 * bits c 32 32 + 2 ^ 16 * bits c 23 16 + 2 ^ 24 * bits c 44 40
def pgInLen (x : Page) : Nat := bits x.len.toNat 24 0
def pgAadLen (x : Page) : Nat := bits x.len.toNat 52 32
def pgIv (x : Page) : Bytes := le 8 x.iv0.toNat ++ le 8 x.iv1.toNat
def pgTag (x : Page) : Bytes := le 8 x.tag0.toNat ++ le 8 x.tag1.toNat
def pgKey (x : Page) (n : Nat) : Bytes := fit n (x.key.flatMap fun w => le 8 w.toNat)

/-- The first bytes of the tag registers are replaced. -/
def putTag (x : Page) (t : Bytes) : Page :=
  let b := splice (pgTag x) 0 t
  { x with tag0 := BitVec.ofNat 64 (field b 0 8), tag1 := BitVec.ofNat 64 (field b 8 8) }

def putIv (x : Page) (t : Bytes) : Page :=
  let b := splice (pgIv x) 0 t
  { x with iv0 := BitVec.ofNat 64 (field b 0 8), iv1 := BitVec.ofNat 64 (field b 8 8) }

/-! ## START (R282) -/

/-- The page operation reads its input twice: an `AEAD_DECRYPT` of more than 64 KiB. -/
def pgTwoPass (m : PipeMode) (back : Bool) (n : Nat) : Bool := m == .aead && back && decide (65536 < n)

/-- Block rules: a page's tag stands in its registers, so `IN` is all data (R270, R282). -/
def pgBlocks (m : PipeMode) (back : Bool) (p n : Nat) : Bool := if m = .aead then true else pipeBlocks m back p n

/-- The status with which `START` is refused: the conditions of R282, then the checks of R81 in their order. -/
def startRefusal (s : State) (fn : Nat) (x : Page) : Option Nat :=
  if (s.mbx fn).session.isNone ∨ (s.carrel fn).st ≠ .active ∨ s.pipes.directCnt = 0 ∨ x.keyLoaded = false then
    some St.stateRejected
  else if s.cel.stage ≥ 4 then some St.powerShed
  else
    let p := pgParam x
    let n := pgInLen x
    match pgMode x with
    | none => some St.opcodeUnknown
    | some (m, back) =>
      let tagUsed := m == .aead || m == .cmac
      let ivUsed := !(m == .cmac || m == .kw || m == .kwp)
      if !((tagUsed || pTagLen p == 0) && (ivUsed || pIvLen p == 0) && (!pIvGen p || (m == .aead && !back))
          && (m == .xts || pDu p == 0)) then some St.formatInvalid
      else if (s.carrel fn).approvedOnly && !pipeApproved (pgSet x) m back p then some St.nonApprovedForbidden
      else if pipeLimit (pgSet x) m back (pgTwoPass m back n) false < n ∨ mib < pgAadLen x then some St.lengthLimit
      else if !(ivLenOk (pgSet x) m back p && decide (pIvLen p ≤ 16) && tagLenOk (pgSet x) m p
          && (m != .xts || (decide (4 ≤ pDu p) && decide (pDu p ≤ 24)))) then some St.paramInvalid
      else if !pgBlocks m back p n || (m != .aead && pgAadLen x != 0) then some St.lengthMismatch
      else if s.ent.state = .failed then some St.entropyFailed
      else none

/-- START (R282): refused with a status and `DONE`, or the page waits for a direct pipe. -/
def execDpgStart (fn page : Nat) (s : State) : Res :=
  if !pageThere s fn page then .next s
  else
    let x := s.page fn page
    if x.busy then .next (ignoreWrite s fn page)
    else
      let x := { x with retried := false, approved := false, outLen := 0 }
      match startRefusal s fn x with
      | some st => .next (endPage (s.setPage fn page x) fn page st)
      | none =>
        let last := (s.pipes.pages.map fun y => y.2.startedAt).foldl max 0
        .next (servePages (s.setPage fn page { x with busy := true, queued := true, startedAt := last + 1 }))

/-- ABORT (R282). -/
def execDpgAbort (fn page : Nat) (s : State) : Res := .next (if pageThere s fn page then abortPage s fn page else s)

/-- CLEAR_KEY (R283). -/
def execDpgClearKey (fn page : Nat) (s : State) : Res :=
  .next (pageWrite s fn page fun x => { x with key := [], keyLoaded := false })

/-- A write to `DPG_KEY_idx` (R283): discarded without a session of the carrel. -/
def execDpgKey (fn page idx : Nat) (value : W64) (s : State) : Res :=
  if !pageThere s fn page || decide (8 ≤ idx) then .next s
  else if (s.mbx fn).session.isNone then .next (ignoreWrite s fn page)
  else .next (pageWrite s fn page fun x =>
    let key := if x.key.isEmpty then List.replicate 8 0#64 else x.key
    { x with key := key.set idx value, keyLoaded := true })

/-! ## DONE (R282, R285) -/

/-- What a page operation ends with: status, output, tag for the registers. -/
structure PageEnd where
  status : Nat := 0
  out : Bytes := []
  tag : Bytes := []
  deriving DecidableEq, Repr

/-- The operation on its data (R266, R269, R282). -/
def pageResult (set : Nat) (m : PipeMode) (back : Bool) (p : Nat) (key iv tag aad d : Bytes) : PageEnd :=
  if xtsEqual m key then { status := St.inputMalformed }
  else match m with
    | .aead =>
      if back then
        if aeadTag set key iv aad d (pTagLen p) == tag.take (pTagLen p) then { out := aeadCrypt set key iv d }
        else { status := St.signatureInvalid }
      else
        let c := aeadCrypt set key iv d
        { out := c, tag := aeadTag set key iv aad c (pTagLen p) }
    | .cmac =>
      if back then
        { status := if pipeCmac key d (pTagLen p) == tag.take (pTagLen p) then St.ok else St.signatureInvalid }
      else { tag := pipeCmac key d (pTagLen p) }
    | .kw | .kwp =>
      match pipeWrap m back key d with
      | some o => { out := o }
      | none => { status := St.signatureInvalid }
    | _ => { out := pipeCrypt m back p key iv d }

/-- The reads of a page operation, as data of the lengths asked for, or the status of their failure. -/
def pageReads (x : Page) (m : PipeMode) (r : PageData) : Nat × Bytes × Bytes :=
  match r.src, r.aad with
  | .data d, .data a =>
    let a := if m = .aead ∧ pgAadLen x ≠ 0 then a else []
    if d.length = pgInLen x ∧ a.length = (if m = .aead then pgAadLen x else 0) then (St.ok, d, a)
    else (St.lengthMismatch, [], [])
  | .data d, _ =>
    if m = .aead ∧ pgAadLen x ≠ 0 then (St.remoteAccessError, [], [])
    else if d.length = pgInLen x then (St.ok, d, [])
    else (St.lengthMismatch, [], [])
  | _, _ => (St.remoteAccessError, [], [])

/-- The running operation ends (R282): aborted, its reads failed, its input changed between passes, or with its result. -/
def finishPage (s : State) (fn page : Nat) (r : PageData) : State :=
  let x := s.page fn page
  match pgMode x with
  | none => s
  | some (m, back) =>
    if x.abortReq then endPage s fn page St.aborted
    else
      let rd := pageReads x m r
      if rd.1 ≠ St.ok then endPage s fn page rd.1
      else if pgTwoPass m back rd.2.1.length && !r.unchanged then endPage s fn page St.inputMalformed
      else
        let set := pgSet x
        let p := pgParam x
        let iv := if pIvGen p then s.freeBytes 12 else (pgIv x).take (pIvLen p)
        let s := if pIvGen p then s.drawn 12 else s
        let e := pageResult set m back p (pgKey x (pipeKeyLen set m)) iv (pgTag x) rd.2.2 rd.2.1
        let x := if pIvGen p then putIv x iv else x
        let x := if e.tag.isEmpty then x else putTag x e.tag
        let x := { x with
          outLen := BitVec.ofNat 32 e.out.length
          approved := pipeApproved set m back p && approvable e.status && !testPattern s }
        let s := s.setPage fn page x
        let s := if e.out.isEmpty then s else s.send (.dmaWrite fn x.dst e.out)
        endPage s fn page e.status

/-- The pipe that runs the page is awake. -/
def pageRuns (s : State) (x : Page) : Bool :=
  match x.unit.bind (physOf (s.units .pipe)) with
  | none => false
  | some p => match clusterState (s.units .pipe) (clusterOf .pipe p) with
    | .waking _ => false
    | _ => true

/-- DONE (R282): an operation that runs ends; the direct group takes the next (R279). -/
def execDpgDone (fn page : Nat) (r : PageData) (s : State) : Res :=
  let x := s.page fn page
  if x.busy && !x.queued && pageRuns s x then .next (servePages (finishPage s fn page r)) else .next s

end Sys2Proof.Machine
end

