-- ==== Sys2Proof/Machine/Regs.lean ====
section
/-!
DEFINITION. Accesses to the registers of the host link (R6 to R10) and the resets of PCIe functions (R392, R541).
-/

namespace Sys2Proof.Machine

/-! ## Accesses that fail (R6) -/

/-- HOST_ACCESS (R6): a read returns all ones of its width, a write is discarded, an error is recorded. -/
def execHostAccess (fn : Nat) (write : Bool) (width : Nat) (s : State) : Res :=
  let s := if write then s else s.send (.regRead (BitVec.ofNat 64 (2 ^ (8 * width) - 1)))
  .next (reportSrc s 0x000 fn)

/-! ## Writes (R7 to R9) -/

/-- A W1C bit at place `i` of a register (R8, R9): software's word, and what hardware sets in the same cycle. -/
def w1cAt (v hw : W64) (i : Nat) (e : EvtBit) : EvtBit := e.w1c (v.getLsbD i) (hw.getLsbD i)

/-- A write to the command window: discarded while `BUSY` (R362). -/
def windowWrite (s : State) (fn off width : Nat) (v : W64) : State :=
  let m := s.mbx fn
  if m.busy then s.setMbx fn { m with wrIgnored := m.wrIgnored.hit }
  else if width ≤ 8 ∧ off + width ≤ 4096 then s.setMbx fn { m with cmdWin := splice m.cmdWin off (le width v.toNat) }
  else s

/-- `GO` (R362): the frame is submitted; the row of its command serves it. A device FAILED under R358 discards the write. -/
def goWrite (s : State) (fn : Nat) (v : W64) : State :=
  let m := s.mbx fn
  if mbxDead s then s
  else if m.busy then s.setMbx fn { m with wrIgnored := m.wrIgnored.hit }
  else if v.getLsbD 0 then s.setMbx fn { m with busy := true }
  else s

def evqBaseWrite (s : State) (fn : Nat) (v : W64) : State :=
  let m := s.mbx fn
  if m.busy || m.evqCfg.getLsbD 0 then s.setMbx fn { m with wrIgnored := m.wrIgnored.hit }
  else s.setMbx fn { m with evqBase := v }

/-- A write to a register of the mailbox region. -/
def mbxWrite (s : State) (fn : Nat) (r : RegName) (v hw : W64) : State :=
  let m := s.mbx fn
  match r with
  | .mbxCmd off width => windowWrite s fn off width v
  | .mbxGo => goWrite s fn v
  | .mbxSts => s.setMbx fn { m with
      rspReady := w1cAt v hw 1 m.rspReady, wrIgnored := w1cAt v hw 2 m.wrIgnored, evqOverflow := w1cAt v hw 4 m.evqOverflow }
  | .mbxEvqBase => evqBaseWrite s fn v
  | .mbxEvqCfg => s.setMbx fn { m with evqCfg := BitVec.ofNat 32 (v.toNat % 2 ^ 13) }
  | .mbxEvqHead => s.setMbx fn { m with evqHead := v.setWidth 32 }
  | _ => s

/-- A write to a register of a direct page (R280 to R282). -/
def dpgWrite (s : State) (fn : Nat) (r : RegName) (v hw : W64) : State :=
  match r with
  | .dpgIv0 p => pageWrite s fn p fun x => { x with iv0 := v }
  | .dpgIv1 p => pageWrite s fn p fun x => { x with iv1 := v }
  | .dpgCtrl p => pageWrite s fn p fun x => { x with ctrl := v &&& 0x0000_1FFF_FFFF_FFFF#64 }
  | .dpgSrc p => pageWrite s fn p fun x => { x with src := v }
  | .dpgDst p => pageWrite s fn p fun x => { x with dst := v }
  | .dpgAad p => pageWrite s fn p fun x => { x with aad := v }
  | .dpgLen p => pageWrite s fn p fun x => { x with len := v &&& 0x001F_FFFF_01FF_FFFF#64 }
  | .dpgTag0 p => pageWrite s fn p fun x => { x with tag0 := v }
  | .dpgTag1 p => pageWrite s fn p fun x => { x with tag1 := v }
  | .dpgSts p => pageWrite s fn p fun x => { x with done := w1cAt v hw 1 x.done, wrIgnored := w1cAt v hw 2 x.wrIgnored }
  | _ => s

/-- A write to a W1C register of the PF's regions; an event that follows from a bit hardware sets is queued (R547). -/
def pfWrite (s : State) (r : RegName) (v hw : W64) : State :=
  match r with
  | .octSts n =>
    if n < 64 then
      let o := s.octet n
      s.setOctet n { o with
        linkFlap := w1cAt v hw 18 o.linkFlap, fecHigh := w1cAt v hw 19 o.fecHigh, pfcStorm := w1cAt v hw 20 o.pfcStorm }
    else s
  | .hopDlSts c =>
    if c < 256 then
      let d := s.dl c
      s.setDl c { d with missed := w1cAt v hw 0 d.missed, shed := w1cAt v hw 1 d.shed }
    else s
  | .ledSts =>
    let put (hw : W64) : State :=
      let l := s.ledger
      { s with ledger := { l with
          cellInvalid := w1cAt v hw 0 l.cellInvalid, writeRetry := w1cAt v hw 1 l.writeRetry
          counterLost := w1cAt v hw 2 l.counterLost, retired := w1cAt v hw 3 l.retired, lowFree := w1cAt v hw 4 l.lowFree } }
    ledEvent (put 0) (put hw)
  | .catSts =>
    let put (hw : W64) : State :=
      let c := s.cat
      { s with cat := { c with
          weedFound := w1cAt v hw 1 c.weedFound, extentLow := w1cAt v hw 2 c.extentLow
          archiveLag := w1cAt v hw 3 c.archiveLag, genRetired := w1cAt v hw 4 c.genRetired } }
    catEvent (put 0) (put hw)
  | .entSts =>
    { s with ent := { s.ent with srcFail := w1cAt v hw 2 s.ent.srcFail, poolEmpty := w1cAt v hw 3 s.ent.poolEmpty } }
  | .mirSts =>
    let m := s.mirror
    { s with mirror := { m with
        linkLost := w1cAt v hw 5 m.linkLost, hbLost := w1cAt v hw 6 m.hbLost, syncRefused := w1cAt v hw 7 m.syncRefused
        takeover := w1cAt v hw 8 m.takeover } }
  | .fltSts =>
    let f := s.flt
    { s with flt := { f with
        event := w1cAt v hw 1 f.event, severe := w1cAt v hw 2 f.severe, errLatch := w1cAt v hw 3 f.errLatch
        logWrap := w1cAt v hw 4 f.logWrap } }
  | .celSts =>
    let c := s.cel
    { s with cel := { c with
        vbatLow := w1cAt v hw 5 c.vbatLow, xtalFail := w1cAt v hw 6 c.xtalFail, shedEntered := w1cAt v hw 7 c.shedEntered } }
  | .tmpSts => { s with tmp := { s.tmp with unexplained := w1cAt v hw 12 s.tmp.unexplained } }
  | .qdrMode =>
    { s with qdr := { s.qdr with integrity := w1cAt v hw 10 s.qdr.integrity, chLost := w1cAt v hw 11 s.qdr.chLost } }
  | .folSlotSts n =>
    if n < 4 then
      let f := s.folSlot n
      s.setFolSlot n { f with
        inserted := w1cAt v hw 8 f.inserted, removed := w1cAt v hw 9 f.removed, ioErr := w1cAt v hw 10 f.ioErr }
    else s
  | _ => s

/-- REGISTER_WRITE (R7, R8): every function has its mailbox and its pages; the other regions are the PF's. -/
def execRegisterWrite (fn : Nat) (reg : RegName) (value hwSet : W64) (s : State) : Res :=
  .next (match reg with
    | .mbxCmd _ _ | .mbxGo | .mbxSts | .mbxEvqBase | .mbxEvqCfg | .mbxEvqHead => mbxWrite s fn reg value hwSet
    | .dpgIv0 _ | .dpgIv1 _ | .dpgCtrl _ | .dpgSrc _ | .dpgDst _ | .dpgAad _ | .dpgLen _ | .dpgTag0 _ | .dpgTag1 _
    | .dpgSts _ => dpgWrite s fn reg value hwSet
    | .readOnly => s
    | _ => if fn = 0 then pfWrite s reg value hwSet else s)

/-! ## RC reads (R10) -/

/-- The word that a read of up to four event counters returns, the first in bits 7 to 0. -/
def cntWord (es : List EvtBit) : W64 := BitVec.ofNat 64 (unle (es.map (·.cnt)))

/-- Counter `i` of the word is cleared; an event that hardware counts in the same cycle goes to the next read. -/
def rcAt (hw : W32) (i : Nat) (e : EvtBit) : EvtBit := e.rc (hw.getLsbD i)

/-- The read's answer. -/
def answerRead (s : State) (es : List EvtBit) : State := s.send (.regRead (cntWord es))

def execPrtOctEvt (octet : Nat) (hw : W32) (s : State) : Res :=
  if octet < 64 then
    let o := s.octet octet
    .next (answerRead (s.setOctet octet { o with
      linkFlap := rcAt hw 0 o.linkFlap, fecHigh := rcAt hw 1 o.fecHigh, pfcStorm := rcAt hw 2 o.pfcStorm })
      [o.linkFlap, o.fecHigh, o.pfcStorm])
  else .next s

def execHopDlEvt (carrel : Nat) (hw : W32) (s : State) : Res :=
  if carrel < 256 then
    let d := s.dl carrel
    .next (answerRead (s.setDl carrel { d with missed := rcAt hw 0 d.missed, shed := rcAt hw 1 d.shed }) [d.missed, d.shed])
  else .next s

def execLedEvt (hw : W32) (s : State) : Res :=
  let l := s.ledger
  let s1 (hw : W32) : State := { s with ledger := { l with
    cellInvalid := rcAt hw 0 l.cellInvalid, writeRetry := rcAt hw 1 l.writeRetry, counterLost := rcAt hw 2 l.counterLost
    retired := rcAt hw 3 l.retired } }
  .next (answerRead (ledEvent (s1 0) (s1 hw)) [l.cellInvalid, l.writeRetry, l.counterLost, l.retired])

def execLedEvt2 (hw : W32) (s : State) : Res :=
  let l := s.ledger
  let s1 (hw : W32) : State := { s with ledger := { l with lowFree := rcAt hw 0 l.lowFree } }
  .next (answerRead (ledEvent (s1 0) (s1 hw)) [l.lowFree])

/-- `DPG_EVT` of a page; one beyond the carrel's pages reads as zero (R278). -/
def execDpgEvt (fn page : Nat) (hw : W32) (s : State) : Res :=
  if pageThere s fn page then
    let x := s.page fn page
    .next (answerRead (s.setPage fn page { x with done := rcAt hw 0 x.done, wrIgnored := rcAt hw 1 x.wrIgnored })
      [x.done, x.wrIgnored])
  else .next (s.send (.regRead 0))

def execCatEvt (hw : W32) (s : State) : Res :=
  let c := s.cat
  let s1 (hw : W32) : State := { s with cat := { c with
    weedFound := rcAt hw 0 c.weedFound, extentLow := rcAt hw 1 c.extentLow, archiveLag := rcAt hw 2 c.archiveLag
    genRetired := rcAt hw 3 c.genRetired } }
  .next (answerRead (catEvent (s1 0) (s1 hw)) [c.weedFound, c.extentLow, c.archiveLag, c.genRetired])

def execEntEvt (hw : W32) (s : State) : Res :=
  let e := s.ent
  .next (answerRead { s with ent := { e with srcFail := rcAt hw 0 e.srcFail, poolEmpty := rcAt hw 1 e.poolEmpty } }
    [e.srcFail, e.poolEmpty])

def execMbxEvt (fn : Nat) (hw : W32) (s : State) : Res :=
  let m := s.mbx fn
  .next (answerRead (s.setMbx fn { m with
    rspReady := rcAt hw 0 m.rspReady, wrIgnored := rcAt hw 1 m.wrIgnored, evqOverflow := rcAt hw 2 m.evqOverflow })
    [m.rspReady, m.wrIgnored, m.evqOverflow])

def execMirEvt (hw : W32) (s : State) : Res :=
  let m := s.mirror
  .next (answerRead { s with mirror := { m with
    linkLost := rcAt hw 0 m.linkLost, hbLost := rcAt hw 1 m.hbLost, syncRefused := rcAt hw 2 m.syncRefused
    takeover := rcAt hw 3 m.takeover } } [m.linkLost, m.hbLost, m.syncRefused, m.takeover])

def execFltEvt (hw : W32) (s : State) : Res :=
  let f := s.flt
  .next (answerRead { s with flt := { f with
    event := rcAt hw 0 f.event, severe := rcAt hw 1 f.severe, errLatch := rcAt hw 2 f.errLatch
    logWrap := rcAt hw 3 f.logWrap } } [f.event, f.severe, f.errLatch, f.logWrap])

/-- `CEL_EVT`: the read also begins a new period of `ON_VBAT` (chapter 19 registers). -/
def execCelEvt (hw : W32) (s : State) : Res :=
  let c := s.cel
  .next (answerRead { s with cel := { c with
    vbatLow := rcAt hw 0 c.vbatLow, xtalFail := rcAt hw 1 c.xtalFail, shedEntered := rcAt hw 2 c.shedEntered
    ranVbat := c.onVbat } } [c.vbatLow, c.xtalFail, c.shedEntered])

def execTmpEvt (hw : W32) (s : State) : Res :=
  let t := s.tmp
  .next (answerRead { s with tmp := { t with unexplained := rcAt hw 0 t.unexplained } } [t.unexplained])

def execQdrEvt (hw : W32) (s : State) : Res :=
  let q := s.qdr
  .next (answerRead { s with qdr := { q with integrity := rcAt hw 0 q.integrity, chLost := rcAt hw 1 q.chLost } }
    [q.integrity, q.chLost])

def execFolSlotEvt (slot : Nat) (hw : W32) (s : State) : Res :=
  if slot < 4 then
    let f := s.folSlot slot
    .next (answerRead (s.setFolSlot slot { f with
      inserted := rcAt hw 0 f.inserted, removed := rcAt hw 1 f.removed, ioErr := rcAt hw 2 f.ioErr })
      [f.inserted, f.removed, f.ioErr])
  else .next s

/-! ## Resets of functions (R392, R541) -/

/-- The mailbox of a function after its reset; the login lock and the challenge are the registrar's own and stay. -/
def freshMbx (m : Mbx) : Mbx := { nonce := m.nonce, fails := m.fails, lockUntil := m.lockUntil }

/-- A command under way when its function is reset reaches its commit or none (R390): one that waits for the standby or for a
tombstone commits when that has come, one that waits for FW_ACTIVATE's reset is given up. -/
def cutCommand (s : State) (fn : Nat) (m : Mbx) : State :=
  match m.wait with
  | .mirror _ | .deaccession _ => { s with reg := { s.reg with cutOff := s.reg.cutOff ++ [(fn, { m with busy := false })] } }
  | .fwReset => { s with hop := { s.hop with fetchStopped := false } }
  | _ => s

/-- The `HOST` hoppers of a function begin to stop, as by `HOP_STOP`. -/
def stopHostHoppers (s : State) (fn : Nat) : State :=
  let hs := (s.hop.hoppers.filter fun p => p.2.carrel == fn && p.2.attach == .host && p.2.state == .active).map (·.1)
  let s := hs.foldl (fun s hn => breakOpenChain (setHopState s hn .stopping) hn) s
  if hs.isEmpty then s else archiveCarrel s fn

/-- A function-level reset (R392, R359, R283): its session ends, its mailbox returns to its reset values, its page keys go,
its `HOST` hoppers stop. -/
def resetFunction (s : State) (fn : Nat) : State :=
  let s := clearPageKeys (endSession s fn 3) fn
  let m := s.mbx fn
  let s := cutCommand s fn m
  let s := if Tab.has s.reg.mbx fn then s.setMbx fn (freshMbx m) else s
  stopHostHoppers s fn

/-- FLR (R392). -/
def execFlr (fn : Nat) (s : State) : Res := .next (resetFunction s fn)

/-- VF_DISABLE (R392). -/
def execVfDisable (fns : List Nat) (s : State) : Res :=
  .next ((fns.filter fun n => decide (1 ≤ n) && decide (n ≤ 255)).foldl resetFunction s)

/-- PERST_N (R541): every function is reset. -/
def execPerstN (s : State) : Res :=
  .next ((Tab.keys s.reg.mbx ++ (s.hop.hoppers.map fun p => p.2.carrel)).dedup.foldl resetFunction s)

end Sys2Proof.Machine
end

