-- ==== Sys2Proof/Machine/Power.lean ====
section
/-!
DEFINITION. The cellar, the clocks, the shed stages and the loss of power (chapter 19).
-/

namespace Sys2Proof.Machine

/-! ## Entering a shed stage (R459 to R462) -/

/-- `CEL_SHED_TOT` counts one entry. -/
def countShed (c : Cellar) : Nat → Cellar
  | 1 => { c with shedTot1 := c.shedTot1 + 1 }
  | 2 => { c with shedTot2 := c.shedTot2 + 1 }
  | 3 => { c with shedTot3 := c.shedTot3 + 1 }
  | _ => { c with shedTot4 := c.shedTot4 + 1 }

/-- `PWR_SHED`, with the stage, the cause and whether it is an exit (R460). -/
def shedReport (s : State) (n cause : Nat) (exit : Bool) : State :=
  reportSrc s 0x040 0xFF (BitVec.ofNat 32 (n % 8 + 256 * (cause % 4) + 32768 * b2n exit))

/-- Running LONG messages that satisfy `which` are asked to suspend at their next check (R461). -/
def suspendWhere (s : State) (which : Slip → Bool) : State :=
  { s with hop := { s.hop with slips := Tab.mapVals s.hop.slips fun _ sl =>
    if sl.phase == .running && suspendable sl && which sl then { sl with suspendReq := true } else sl } }

/-- End what a function's mailbox command waits for at shed stage S4: not yet at its commit, it has no effect (R390, R462). -/
def shedCommand (s : State) (fn : Nat) : State :=
  let a := fail St.powerShed
  let w := (s.mbx fn).wait
  match w with
  | .entropy _ | .rehome _ _ => answerWait s fn w a
  | .deaccession n => answerWait (cancelDeac s n) fn w a
  | .mirror n =>
    let s := dropClaim s fn
    answerWait { s with mirror := { s.mirror with waits := Tab.erase s.mirror.waits n } } fn w a
  | .ostkDrain => answerWait { s with tuns := { s.tuns with draining := none } } fn w a
  | .pairing => answerWait (setPair s .unpaired) fn w a
  | .fwReset => answerWait { s with reg := { s.reg with trial := .none } } fn w a
  | .none | .lcs => s

/-- The same of a command whose function has been reset. -/
def shedCut (s : State) (p : Nat × Mbx) : State :=
  match p.2.wait with
  | .deaccession n => dropCut (cancelDeac s n) p.2.wait
  | w => dropCut s w

/-- Entry to S4 (R462, time 0): fetching stops, what has not started is shed, commands not yet at their commit end; a device
with nothing to resign stops its heartbeat (R417). -/
def enterS4 (s : State) : State :=
  let s := { s with hop := { s.hop with fetchStopped := true } }
  let s := abortSlips s (fun sl => sl.phase == .staged && sl.stage == 0 && !sl.opened) St.powerShed
  let s := (s.pipes.pages.filter fun x => x.2.queued).foldl (fun s x => endPage s (x.1 / 4) (x.1 % 4) St.powerShed) s
  let s := (Tab.keys s.reg.mbx).foldl shedCommand s
  let s := s.reg.cutOff.foldl shedCut s
  if !pairLive s || (homedHere s).isEmpty then stopHeartbeat s else s

/-- The actions of a stage (R461, R462). What S1 stops is stopped where each such work begins. -/
def stageActions (s : State) : Nat → State
  | 2 => suspendWhere s fun sl => !admitted s sl
  | 3 => suspendWhere (forceOctets s) fun sl => (heldUnits sl).any fun l => !retained s sl.engine l
  | 4 => enterS4 s
  | _ => s

/-- Enter one stage that is not yet in force. -/
def enterStage (cause : Nat) (s : State) (n : Nat) : State :=
  if n ≤ s.cel.stage ∨ s.boot.stage < 13 then s
  else
    let c := countShed { s.cel with stage := n, cause := cause, shedEntered := s.cel.shedEntered.hit } n
    let t := stageActions { s with cel := { c with warn := c.warn || bit cause 0 } } n
    shedReport (noteDev s t) n cause false

/-- Before READY a shed condition holds the boot where it stands; after 14 ms PLLs 0 to 4 and 7 stop (R543). -/
def holdBoot (s : State) (n cause : Nat) : State :=
  { s with
    boot := { s.boot with shedHold := true }
    cel := { s.cel with
      warn := s.cel.warn || bit cause 0
      stopped := if 4 ≤ n then [0, 1, 2, 3, 4, 7] else s.cel.stopped } }

/-- A stage's entry condition is met: it is entered with every lower one, in stage order (R459). -/
def shed (s : State) (n cause : Nat) : State :=
  if !s.cel.mainPower then s
  else if s.boot.stage < 13 then holdBoot s n cause
  else ([1, 2, 3, 4].filter fun k => decide (k ≤ n)).foldl (enterStage cause) s

def execShedS1 (cause : Nat) (s : State) : Res := .next (shed s 1 cause)
def execShedS2 (cause : Nat) (s : State) : Res := .next (shed s 2 cause)
def execShedS3 (cause : Nat) (s : State) : Res := .next (shed s 3 cause)
def execShedS4 (cause : Nat) (s : State) : Res := .next (shed s 4 cause)

/-- SHED_STAGE_EXIT (R460, R461): the highest of S1 to S3 in force is left and its actions are undone. -/
def execShedStageExit (s : State) : Res :=
  let n := s.cel.stage
  if n = 0 ∨ 4 ≤ n then .next s
  else
    let t := { s with cel := { s.cel with
      stage := n - 1, warn := s.cel.warn && !(bit s.cel.cause 0) && n != 1, cause := if n = 1 then 0 else s.cel.cause } }
    let t := if n = 3 then servePages (forceOctets t) else t
    .next (shedReport (noteDev s t) n s.cel.cause true)

/-! ## Shed stage S4 (R462, R464) -/

/-- S4_ABANDON (R462, 1 ms): whatever still runs, or waits for its commit, ends with `ABORTED`. -/
def execS4Abandon (s : State) : Res :=
  if s.cel.stage ≠ 4 ∨ s.cel.s4Abandoned = true then .next s
  else
    let s := (s.hop.slips.filter fun p => p.2.unit.isSome).foldl (fun s p => stopUnits s p.1 p.2) s
    let s := abortSlips s (fun _ => true) St.aborted
    let heads := ((s.hop.slips.filter fun p => p.2.phase == .waitCommit).map fun p => p.2.head).dedup
    let s := heads.foldl (fun s h => refuseChain s h (fail St.aborted)) s
    let s := { s with mirror := { s.mirror with waits := s.mirror.waits.filter fun w => match w.2 with
      | .chain _ => false
      | _ => true } }
    let s := (busyPages s fun _ => true).foldl (fun s k => endPage s (k / 4) (k % 4) St.aborted) s
    .next { s with cel := { s.cel with s4Abandoned := true } }

/-- The anchor that S4 writes to a MOUNTED cartridge (R462, R504): one in progress completes; its shadow is not written, since
the ledger takes no write (R224). -/
def anchorS4 (s : State) (slot : Nat) : State :=
  let f := s.folSlot slot
  if f.state ≠ .mounted then s
  else if f.anchoring then s.setFolSlot slot { f with anchoring := false, rpmbCnt := f.rpmbCnt + 1 }
  else if f.anchorHigh < f.highSeq then
    (s.setFolSlot slot { f with rpmbCnt := f.rpmbCnt + 1, anchorHigh := f.highSeq }).send (.rpmbWrite slot f.highSeq)
  else s

/-- S4_FLUSH_DONE (R462): records and anchors are written, the peer has the carrels, the guard's keys are zeroised and with them
what QDR holds is lost; PLLs 0 to 5 and 7 stop, every octet is `OFF`. -/
def execS4FlushDone (s : State) : Res :=
  if s.cel.stage ≠ 4 ∨ s.cel.s4Abandoned = false ∨ s.cel.s4Done = true then .next s
  else
    let s := resign ([0, 1, 2, 3].foldl anchorS4 (archiveFlush s))
    let hops := Tab.mapVals s.hop.hoppers fun _ h => { h with held := [], statusPending := 0 }
    let octs := Tab.mapVals s.ports.octets fun _ o => { o with state := .off, portUp := 0, laneLock := 0 }
    .next { s with
      hop := { s.hop with slips := [], carries := [], hoppers := hops }
      cat := { s.cat with slots := [], archivePending := [], tombstones := [] }
      qdr := { s.qdr with guardKeys := false }
      ports := { s.ports with octets := octs }
      cel := { s.cel with s4Done := true, stopped := [0, 1, 2, 3, 4, 5, 7] } }

/-- S4_RESTART (R464): power has been good for 100 ms, and the chip resets. -/
def execS4Restart (s : State) : Res :=
  .next (if s.cel.s4Done then chipReset { s with cel := { s.cel with warn := false } } else s)

/-! ## The loss of main power (R452, R463, R464) -/

/-- What is left of an OTP group that a sudden loss of power cuts off: unchanged, programmed, or a word that decodes as INVALID
(R488); which of these is open. -/
def tornGroup (s : State) : Tamper :=
  let t := s.tmp
  let x := match Config.freeNat 160 [s.freeCtr] % 3 with
    | 0 => t.lcs
    | 1 => lcsNext t.lcs
    | _ => .invalid
  { t with lcs := x, busy := false, lcsTarget := none, groups := 0, lcsFn := none }

/-- MAIN_POWER_LOSS (R463): the cellar alone goes on, on VBAT; a ledger write that has started completes (R224). -/
def execMainPowerLoss (warned : Bool) (s : State) : Res :=
  if !s.cel.mainPower then .next s
  else
    let s := if !warned && s.tmp.busy && s.tmp.groups != 0 then { (s.drawn 1) with tmp := tornGroup s } else s
    let t := chipReset s
    .next { t with
      reg := { t.reg with dev := .cellarOnly }
      mirror := { t.mirror with hbOut := false }
      cel := { t.cel with mainPower := false, onVbat := true, ranVbat := true, warn := false } }

/-- MAIN_POWER_RETURN (R464): the cellar resets the chip, and boot starts. -/
def execMainPowerReturn (s : State) : Res :=
  if s.cel.mainPower then .next s
  else .next (chipReset { s with cel := { s.cel with mainPower := true } })

/-- VDD_CELLAR_LOSS (R452): the cellar switches to VBAT. -/
def execVddCellarLoss (s : State) : Res := .next { s with cel := { s.cel with onVbat := true, ranVbat := true } }

/-- VDD_CELLAR_RESTORED (R452). -/
def execVddCellarRestored (s : State) : Res := .next { s with cel := { s.cel with onVbat := false } }

/-- CEL_VBAT_LOW (R453): VBAT is below 2.6 V; by how much is open. -/
def execCelVbatLow (s : State) : Res :=
  if !s.cel.mainPower then .next s
  else
    let s := { s with cel := { s.cel with
      vbatLow := s.cel.vbatLow.hit, vbatMv := BitVec.ofNat 12 (Config.freeNat 161 [s.sec] % 2600) } }
    .next (reportSrc s 0x043)

/-- CEL_XTAL_FAIL (R454): the cellar runs from its oscillator. Without main power there is no collector to report to. -/
def execCelXtalFail (s : State) : Res :=
  if !s.cel.xtalOk then .next s
  else
    let s := { s with cel := { s.cel with xtalOk := false, xtalFail := s.cel.xtalFail.hit } }
    .next (if s.cel.mainPower then reportSrc s 0x044 else s)

/-- CRYSTAL_RESTART (R454). -/
def execCrystalRestart (s : State) : Res := .next { s with cel := { s.cel with xtalOk := true } }

/-! ## Clocks (R455 to R457) -/

/-- Slips that run on a unit which a PLL feeds. -/
def fedSlips (s : State) (pll : Nat) : List Nat :=
  (s.hop.slips.filter fun p => p.2.engine != .none && ((physUnitsOf s p.2).any fun u => pllOf p.2.engine u == pll)).map (·.1)

/-- Abandon the work on the units an engine PLL feeds: each slip and page operation runs once more, after the relock. -/
def rerunFed (s : State) (pll : Nat) : State :=
  let s := (fedSlips s pll).foldl (fun s sid => (rerun s sid).modSlip sid fun sl =>
    if sl.phase == .staged then { sl with pllWait := some pll } else sl) s
  if pll = 3 then (s.pipes.pages.filter fun x => x.2.unit.isSome).foldl (fun s x => rerunPage s x.1) s else s

/-- A PLL whose unlock changes nothing: there is no such PLL, it is unlocked already or stopped, or main power is gone. -/
def pllIdle (s : State) (pll : Nat) : Bool :=
  decide (7 < pll) || s.cel.unlocked.contains pll || s.cel.stopped.contains pll || !s.cel.mainPower

/-- An engine or fabric clock's PLL is noted as unlocked, and what it fed is abandoned. -/
def pllLost (s : State) (pll : Nat) : State :=
  let c : Cellar := { s.cel with unlocked := s.cel.unlocked ++ [pll] }
  if 4 ≤ s.cel.stage then { s with cel := c } else rerunFed { s with cel := c } pll

/-- What an unlock does after its report: PLLs 5 to 7 reset the chip. -/
def pllEffect (s : State) (pll : Nat) : State := if 5 ≤ pll then chipReset s else pllLost s pll

/-- PLL_UNLOCK (R457, R465). -/
def execPllUnlock (pll : Nat) (s : State) : Res :=
  if pllIdle s pll then .next s
  else if resets s 0x041 then .next (reportSrc s 0x041 0xFF (BitVec.ofNat 32 pll))
  else .next (pllEffect (reportSrc s 0x041 0xFF (BitVec.ofNat 32 pll)) pll)

/-- PLL_RELOCK (R457): the clock is back, and what waited for it may run; at S4 nothing relocks (R465). -/
def execPllRelock (pll : Nat) (s : State) : Res :=
  if s.cel.stage ≥ 4 then .next s
  else
    let slips := Tab.mapVals s.hop.slips fun _ sl => if sl.pllWait = some pll then { sl with pllWait := none } else sl
    .next (servePages { s with
      hop := { s.hop with slips := slips }
      cel := { s.cel with unlocked := s.cel.unlocked.filter (· != pll) } })

/-- REFCLK_LOSS (R457): a lane reference takes the links of its octets down. -/
def execRefclkLoss (ref : Nat) (s : State) : Res :=
  let gone := resets s 0x042
  let s := reportSrc s 0x042 0xFF (BitVec.ofNat 32 ref)
  if gone ∨ 7 < ref then .next s
  else .next (((List.range 64).map (64 * ref + ·)).foldl portDown s)

end Sys2Proof.Machine
end

