-- ==== Sys2Proof/Machine/Boot.lean ====
section
/-!
DEFINITION. Power-on reset and the boot stages (chapter 23, with R227, R348, R412, R446, R470, R481, R487, R508, R517).
-/

namespace Sys2Proof.Machine

/-! ## Power-on reset (R541, R543) -/

/-- POR_N is low: as a chip reset, and `ERR_LATCH`, `CEL_SHED_TOT` and the fault log go too (R443, R444, R541). -/
def porReset (s : State) : State :=
  let t := chipReset s
  { t with
    reg := { t.reg with dev := .off }
    mirror := { t.mirror with hbOut := false }
    flt := { t.flt with errLatch := {}, log := [] }
    cel := { t.cel with shedTot1 := 0, shedTot2 := 0, shedTot3 := 0, shedTot4 := 0 } }

/-- The release of POR_N samples the strap and starts boot stage 2 (R515, R417). -/
def porRelease (s : State) (paired : Bool) : State :=
  if s.reg.dev = .off then
    { s with
      reg := { s.reg with dev := .booting }, mirror := { s.mirror with hbOut := true }, qdr := { s.qdr with paired := paired } }
  else s

/-- POR_N. -/
def execPorN (release paired : Bool) (s : State) : Res :=
  if !s.cel.mainPower then .next s
  else if release then .next (porRelease s paired)
  else .next (porReset s)

/-- BOOT_HOLD_END (R543): the condition has been false for 100 ms; a chip reset restarts boot. -/
def execBootHoldEnd (s : State) : Res :=
  if s.boot.shedHold then .next (chipReset { s with cel := { s.cel with warn := false } }) else .next s

/-! ## Stages -/

/-- Boot ends after stage 5 in these life-cycle states (R484). -/
def bootEnds (s : State) : Bool :=
  match s.tmp.lcs with
  | .blank | .scrap | .invalid => true
  | .factory | .provisioned | .service | .returned => false

/-- A device in SERVICE whose evidence is full ends its boot at stage 6 (R480). -/
def evidenceEnds (s : State) : Bool := s.tmp.lcs == .service && decide (1024 ≤ s.tmp.evidence)

/-- Stage `n` has been done and the next may begin: nothing holds the boot (R543). -/
def bootAt (s : State) (n : Nat) : Bool :=
  s.reg.dev == .booting && s.boot.stage == n && !s.boot.shedHold && !s.boot.coldWait && s.cel.mainPower
    && !(decide (5 ≤ n) && bootEnds s) && !(decide (6 ≤ n) && evidenceEnds s)

/-- Boot is still in stage `n`: no report of the stage has reset the chip, and the device has not failed. -/
def inStage (n : Nat) (s : State) (f : State → State) : State :=
  if s.reg.dev = .booting ∧ s.boot.stage = n then f s else s

def bootTo (s : State) (n : Nat) : State := { s with boot := { s.boot with stage := n } }

/-- The device becomes FAILED, with ERR_N (R444, R529). -/
def failDevice (s : State) : State :=
  noteDev s (assertErrN { s with reg := { s.reg with dev := .failed }, hop := { s.hop with fetchStopped := true } })

/-- The registrar runs the ROM RECOVERY image: its mailbox is served, no Alias keys change (R386, R387). -/
def toRecovery (s : State) : State :=
  noteDev s { s with reg := { s.reg with dev := .recovery, served := true, aliasKeys := true } }

/-! ### Stage 3 -/

/-- ROM has identified a cartridge, or a step of R496 has failed. -/
def stage3Folio (s : State) (r : Stage3) : State :=
  let s := r.identified.foldl (fun s p => s.setFolSlot p.1 { s.folSlot p.1 with capacity := p.2 }) s
  r.failed.foldl (fun s p => if (s.folSlot p.1).state = .identifying then idFails s p.1 p.2 else s) s

/-- BOOT_STAGE_3: PLLs 5 and 6, the ROM check, folio identification; below 0 °C boot waits (R543). -/
def execBootStage3 (r : Stage3) (s : State) : Res :=
  if !bootAt s 2 then .next s
  else
    let cold := decide (r.dieTemp.toInt < 0)
    let s := { s with boot := { s.boot with stage := 3, dieTemp := r.dieTemp, coldWait := cold, waiting := cold } }
    if !(r.pllsLocked && r.romOk) then .next (failDevice s) else .next (stage3Folio s r)

/-- BOOT_DIE_TEMP_REACHED (R543). -/
def execBootDieTempReached (s : State) : Res :=
  if s.boot.coldWait then .next { s with boot := { s.boot with coldWait := false, waiting := false, dieTemp := 0 } }
  else .next s

/-! ### Stage 4 -/

/-- A trial that did not reach READY before the reset has failed; a marked one is under way (R385). -/
def trialAt (r : Registrar) : Registrar :=
  match r.trial with
  | .running => { r with trial := .none, trialReverted := true }
  | .marked => { r with trial := .running }
  | .none => r

/-- The image that runs: that of the bank booted, with the microwords it carries (log 85). -/
def bootImage (s : State) (x : FwImage) : FwImage :=
  match s.reg.trial, s.reg.staged with
  | .running, some y => { y with words := x.words }
  | _, _ => x

/-- BOOT_STAGE_4 (R227, R382): the version is compared with counter 0, and the measurement goes to `DRES`. -/
def execBootStage4 (r : Stage4) (s : State) : Res :=
  if !bootAt s 3 then .next s
  else
    let s := bootTo { s with reg := trialAt s.reg } 4
    match r.image with
    | none => .next (toRecovery s)
    | some x =>
      let y := bootImage s x
      if y.version < ctrFinal s 0 then .next (toRecovery s)
      else
        let bank := if s.reg.trial = .running then s.reg.activeBank else y
        .next (setDresA { s with reg := { s.reg with running := y, activeBank := bank, aliasKeys := true } } 1 y.measure)

/-! ### Stage 5 -/

/-- Cells whose SECDED decode fails. -/
def markBad (s : State) (bad : List (Nat × Nat)) : State :=
  bad.foldl (fun s p =>
    let c := counter s p.1
    setCounter s p.1 { c with cells := c.cells.set p.2 { cellAt c p.2 with eccOk := false } }) s

/-- One invalid cell is reported (R223). -/
def cellReport (s : State) (n : Nat) : State :=
  inStage 5 s fun s => reportSrc (ledHitInvalid s) 0x1C0 0xFF (BitVec.ofNat 32 n)

/-- A counter with no valid cell is lost (R223). -/
def lostReport (s : State) (n : Nat) : State :=
  inStage 5 s fun s =>
    reportSrc (ledHitLost (setCounter s n { counter s n with lost := true })) 0x1C2 0xFF (BitVec.ofNat 32 n)

/-- Check one counter (R227). -/
def checkCounter (s : State) (n : Nat) : State :=
  let c := counter s n
  if c.lost then s
  else
    let bad := (c.cells.filter fun x => !cellValid n x).length
    let s := (List.replicate bad n).foldl cellReport s
    if bad = c.cells.length then lostReport s n else s

/-- The erasure that a boot in RETURNED, SCRAP or INVALID completes (R487). -/
def eraseAtBoot (s : State) : State :=
  let slots := Tab.mapVals s.folio.slots fun _ f => { f with imgActive := none, imgStaged := none }
  let s := { s with
    cel := { s.cel with cellarKey := false }, folio := { s.folio with slots := slots }
    tmp := { s.tmp with eraseMark := true, seedGone := s.tmp.seedGone || s.tmp.lcs != .returned } }
  (boundCounters s).foldl ledgerRelease s

/-- BOOT_STAGE_5 (R227, R369, R442, R487). -/
def execBootStage5 (r : Stage5) (s : State) : Res :=
  if !bootAt s 4 then .next s
  else
    let s := markBad (loadDefaults (bootTo s 5)) r.badCells
    let s := (Tab.keys s.ledger.counters).foldl checkCounter s
    if (counter s 0).lost then .next (inStage 5 s toRecovery)
    else
      let erases := s.tmp.lcs == .returned || s.tmp.lcs == .scrap || s.tmp.lcs == .invalid
      .next (inStage 5 s fun s =>
        let s := { s with reg := { s.reg with served := true } }
        if erases then eraseAtBoot s else s)

/-! ### Stage 6 -/

/-- Steps 1 and 2 of R481; the loss of the key that a response has just counted is explained (R479). -/
def reconcileEvidence (s : State) : State :=
  if s.tmp.pendingEv then { s with tmp := { addEvidence s.tmp with pendingEv := false } }
  else if !s.cel.cellarKey && !s.tmp.eraseMark && !s.tmp.responded then
    let t := addEvidence s.tmp
    let s := { s with tmp := { t with unexplained := t.unexplained.hit } }
    reportSrc s 0x086 0xFF (BitVec.ofNat 32 s.tmp.evidence)
  else s

/-- Step 4: the response's source is logged from `TMP_CAUSE`, with the reaction it had. -/
def logResponse (s : State) : State :=
  if s.tmp.responded then
    let c := s.tmp.cause.toNat
    let r : FaultReport := { source := c % 256, detail := BitVec.ofNat 32 (c / 256 % 256) }
    collect { s with tmp := { s.tmp with responded := false } } r 0x20 false false false
  else s

/-- BOOT_STAGE_6 (R480, R481, R494). -/
def execBootStage6 (s : State) : Res :=
  if !bootAt s 5 then .next s
  else
    let s := inStage 6 (reconcileEvidence (bootTo s 6)) logResponse
    .next (inStage 6 s fun s => if 1024 ≤ s.tmp.evidence then reportSrc s 0x087 0xFF 1024#32 else s)

/-! ### Stage 7 -/

/-- All eight sources begin (R348, R351). -/
def startSources (s : State) : State :=
  (List.range 8).foldl (fun s i => s.setSrc i { s.src i with inService := true, cause := 0, windows := 1 }) s

/-- The unit is ready: windows enough for the 41 instances have been drawn (R345, R348). -/
def instantiate (s : State) : State :=
  let n := srcCount s
  let w := (41 + n - 1) / n
  let d : Drbg := { live := true, seededAt := s.now }
  let s := { s with ent := { s.ent with
    state := .ready, drbgs := (List.range 41).map fun i => (i, d), pool := n * w - 41
    blockTot := s.ent.blockTot + BitVec.ofNat 64 (n * w) } }
  let s := (List.range 8).foldl (fun s i =>
    if (s.src i).inService then s.setSrc i { s.src i with windows := w } else s) s
  entEvent s

/-- A new cellar key where it is absent; a grant-erasure mark is cleared (R481). -/
def renewKey (s : State) : State :=
  if s.cel.cellarKey then s
  else
    let t := newCellarKey s
    { t with tmp := { t.tmp with eraseMark := false } }

/-- BOOT_STAGE_7 (R348). -/
def execBootStage7 (r : Stage7) (s : State) : Res :=
  if !bootAt s 6 then .next s
  else
    let s := startSources (bootTo s 7)
    let s := if r.katOk then s else inStage 7 (reportSrc s 0x0C1) entropyFail
    let s := r.failed.foldl (fun s p => inStage 7 s fun s => latchOut s p.1 p.2) s
    .next (inStage 7 s fun s => renewKey (noteDev s (instantiate s)))

/-! ### Stage 8 -/

/-- Channel `k` passes: both eyes at least 0.30 UI and the training region verifies (R517). -/
def channelPasses (r : Stage8) (k : Nat) : Bool :=
  match r.channels[k]? with
  | some (rd, wr, ok) => decide (77 ≤ rd) && decide (77 ≤ wr) && ok
  | none => false

/-- `QDR_CH_EYE` of a channel. -/
def eyeOf (r : Stage8) (k : Nat) : W32 :=
  match r.channels[k]? with
  | some (rd, wr, _) => BitVec.ofNat 32 (rd % 256 + 256 * (wr % 256))
  | none => 0

/-- The channels that remain leave the device with no partner for some line (R529). -/
def qdrGone (paired : Bool) (good : List Nat) : Bool :=
  if paired then (List.range 4).any fun k => !good.contains (2 * k) && !good.contains (2 * k + 1) else decide (good.length < 8)

/-- BOOT_STAGE_8 (R517, R529, R520). -/
def execBootStage8 (r : Stage8) (s : State) : Res :=
  if !bootAt s 7 then .next s
  else
    let s := bootTo s 8
    if !r.katOk then .next (failDevice s)
    else
      let good := (List.range 8).filter (channelPasses r)
      let lost := (List.range 8).filter fun k => !good.contains k
      let ok := BitVec.ofNat 8 ((good.map fun k => 2 ^ k).sum)
      let s := { s with qdr := { s.qdr with trained := true, chOk := ok, eyes := (List.range 8).map fun k => (k, eyeOf r k) } }
      let s := lost.foldl (fun s k => inStage 8 s fun s =>
        let s := reportSrc s 0x180 0xFF (BitVec.ofNat 32 k)
        reportSrc { s with qdr := { s.qdr with chLost := s.qdr.chLost.hit } } 0x184 0xFF (BitVec.ofNat 32 k)) s
      .next (inStage 8 s fun s =>
        if qdrGone s.qdr.paired good then failDevice s else { s with qdr := { s.qdr with guardKeys := true } })

/-! ### Stage 9 -/

/-- A slot that the archive holds (R334): archived, unclaimed, no use reserved. -/
def restoreSlot (s : State) (n : Nat) (x : Slot) : State :=
  s.setSlot n { x with
    archived := true, reserved := 0, claimed := false, peerCeil := 0, folioCeil := x.useCount, deacPending := none
    deacPeer := false, deacTomb := false }

/-- The state a carrel returns in (R412). -/
def returnState : CarrelState → CarrelState
  | .active | .quiescing | .quiesced => .quiesced
  | .frozen => .frozen
  | .configured => .configured
  | .absent => .absent

/-- A carrel returns with its hoppers and enrolled keys, and its epoch advances (R411, R412). -/
def restoreCarrel (s : State) (c : Nat) (x : Carrel) (hs : List PeerHopper) (keys : Tab Nat) : State :=
  let st := returnState x.st
  let y : Carrel := { x with st := (s.carrel c).st, stats := {}, migration := none, exported := x.exported && x.st == .frozen }
  let s := assignBlocks (s.setCarrel c y) c
  let s := hs.foldl (fun s p => s.setHopper p.hopper { fromPeerHopper c p with state := .stopped }) s
  let s := { s with reg := { s.reg with admins := keys.foldl (fun t k => Tab.set t k.1 k.2) s.reg.admins } }
  let s := if st = .absent then s else bumpEpoch s c
  setCarrelState s c st

/-- One record that stands (R508). -/
def restoreRec (s : State) (r : FolRecord) : State :=
  match r.kind with
  | .slot n x => restoreSlot s n x
  | .tombstone n g => s.setSlot n { ownGen := g }
  | .carrel c x hs keys => if x.st = .absent then s else restoreCarrel s c x hs keys
  | .lease _ _ | .void _ | .devSec _ => s
  | .treeCache n => { s with ledger := { s.ledger with keys := Tab.set s.ledger.keys n { cached := true } } }
  | .faultCfg t => { s with flt := { s.flt with cfg := t.foldl (fun c p => Tab.set c p.1 p.2) s.flt.cfg } }
  | .familyMap m => { s with ledger := { s.ledger with families := m } }

/-- A journal ceiling above a counter's raises the counter; a lower one is ignored (R239). -/
def restoreLease (s : State) (r : FolRecord) : State :=
  match r.kind with
  | .lease shelf ceiling =>
    let sl := s.slot shelf
    match sl.ledger with
    | some (c, g) =>
      if sl.valid && ctrSt s c == .bound && ctrGen s c == g then ledgerRaise s c (sl.ledgerBase + ceiling) else s
    | none => s
  | _ => s

/-- The device-seconds counter never runs backward (R454). -/
def restoreDevSec (s : State) (all : List FolRecord) : State :=
  let top := all.foldl (fun m r => max m r.devSec) 0
  if s.sec < top then
    reportSrc { s with cel := { s.cel with devSec := BitVec.ofNat 64 (top + 1), subSec := 0 } } 0x045
  else s

/-- The open-stacks image marked active on a current cartridge. -/
def markedImage (s : State) : Option OstkImage :=
  ((s.folio.slots.filter fun p => folCurrent p.2).filterMap fun p => p.2.imgActive).head?

/-- The image marked active is checked again and loaded, or an event names the check that fails (R168). -/
def reloadImage (s : State) : State :=
  match markedImage s with
  | none => s
  | some x =>
    match imageCheck s x.raw with
    | some (k, _) => queueEvent s 6 (le 4 x.id.toNat ++ [BitVec.ofNat 8 k])
    | none =>
      let s := loadImage s x
      { s with dres := { s.dres with areaB := fit 48 x.measure, lenB := 48, source := 1, seq := s.dres.seq + 2 } }

/-- The archive is read: every record that stands takes effect, restored orphans are zeroised, the image is reloaded. -/
def restore (s : State) : State :=
  let all := archiveUnion s
  let rs := standing all
  let s := { s with folio := { s.folio with nextSeq := max s.folio.nextSeq (all.foldl (fun m r => max m r.seq) 0 + 1) } }
  let s := rs.foldl restoreLease (rs.foldl restoreRec s)
  let s := (orphans s).foldl emptySlot s
  inStage 9 (restoreDevSec s all) reloadImage

/-- The final modes of the slots. -/
def setModes (s : State) (ms : List (Nat × BitVec 2 × BitVec 2)) : State :=
  ms.foldl (fun s m => s.setFolSlot m.1 { s.folSlot m.1 with width := m.2.1, timing := m.2.2 }) s

/-- Restore may proceed (R508). -/
def mayRestore (s : State) : Bool := s.folio.abandoned || shadowsZero s || s.folio.slots.any fun p => folCurrent p.2

/-- Carrel 0 is never without its anchor: where no archive has restored one it is made, with a fresh secret (R316, R397,
log 88). -/
def ensureAnchor (s : State) : State :=
  if (s.slot 0).valid then s else createAt (s.drawn 32) 0 { anchorSlot s 0 with material := s.freeBytes 32 }

/-- BOOT_STAGE_9 (R334, R412, R508). -/
def execBootStage9 (r : Stage9) (s : State) : Res :=
  if !(bootAt s 8 || (bootAt s 9 && s.boot.waiting)) then .next s
  else
    let s := setModes (bootTo s 9) r.modes
    let s := if r.timedOut && s.boot.waiting && !mayRestore s then abandonArchive s else s
    .next (inStage 9 s fun s =>
      if mayRestore s then
        inStage 9 (restore s) fun s => ensureAnchor { s with boot := { s.boot with waiting := false } }
      else { s with boot := { s.boot with waiting := true } })

/-! ### Stages 10 to 13 -/

/-- A unit that fails its known-answer test is fenced until chip reset (R446). -/
def failUnit (s : State) (u : EngineType × Nat) : State :=
  inStage 10 s fun s =>
    report (fenceUnit s u.1 u.2 .severe) { source := 0x302, unitType := unitTypeCode u.1, phys := u.2 }

/-- Logical indices in ascending order over the units that pass; an index that no unit serves stays vacant (R446). -/
def assignIndices (s : State) (e : EngineType) : State :=
  let u := s.units e
  let pass := (List.range (physUnits e)).filter fun p => !Tab.has u.fenced p
  let m := (List.range (activeUnits e)).map fun l => (l, pass[l]?)
  s.setUnits e { u with map := m.filter fun p => p.2 != some p.1 }

/-- BOOT_STAGE_10 (R446, R470, R166). -/
def execBootStage10 (r : Stage10) (s : State) : Res :=
  if !bootAt s 9 || s.boot.waiting then .next s
  else
    let s := bootTo s 10
    let bad := r.failed.filter fun u => decide (u.2 < physUnits u.1)
    .next (inStage 10 (bad.foldl failUnit s) fun s =>
      let t := [EngineType.tun, .floor, .pipe, .kiln].foldl assignIndices s
      let store := (t.reg.running.words.zipIdx).foldl (fun m p => Tab.set m p.2 p.1) t.tuns.store
      { t with tuns := { t.tuns with store := store } })

/-- BOOT_STAGE_11 (R542, R420): a pair that no command has rejoined since the reset stays UNPAIRED. -/
def execBootStage11 (s : State) : Res := .next (if bootAt s 10 then bootTo s 11 else s)

/-- An octet as it was configured, its counters and events fresh. -/
def freshOctet (s : State) (o : Octet) : Octet :=
  let x : Octet :=
    { mode := o.mode, media := o.media, anEn := o.anEn, keepAlive := o.keepAlive, pfcEn := o.pfcEn, pfcIgnore := o.pfcIgnore
      fecTh := o.fecTh }
  { x with state := if o.state = .off then .off else if octForced s x then .forcedDown else .down }

/-- BOOT_STAGE_12 (R13, R542): no service ports in RETURNED (R484). -/
def execBootStage12 (s : State) : Res :=
  if !bootAt s 11 then .next s
  else
    let s := bootTo s 12
    if s.tmp.lcs = .returned then .next s
    else .next { s with ports := { s.ports with octets := Tab.mapVals s.ports.configured fun _ o => freshOctet s o } }

/-- A trial that reaches READY is committed; one that has been reverted is announced (R385). -/
def endTrial (s : State) : State :=
  let ev (s : State) (cause : Nat) : State :=
    queueEvent s 7 ([BitVec.ofNat 8 cause] ++ le 4 s.reg.running.version)
  match s.reg.trial with
  | .running =>
    let s := ledgerRaise s 0 s.reg.running.version
    ev { s with reg := { s.reg with trial := .none, activeBank := s.reg.running, staged := none } } 1
  | _ =>
    if s.reg.trialReverted then ev { s with reg := { s.reg with trialReverted := false } } 2 else s

/-- `EVT_FAULT` of the events that reset the chip, from the preserved entries, oldest first (R437). -/
def preservedEvents (s : State) : State :=
  (s.flt.log.reverse.filter fun e => e.preserved && e.applied.getLsbD 3).foldl (fun s e =>
    queueEvent s 2 (le 2 e.source ++ [BitVec.ofNat 8 (b2n e.severe), e.applied, BitVec.ofNat 8 e.carrel]) (some e.carrel)) s

/-- BOOT_STAGE_13: READY. -/
def execBootStage13 (s : State) : Res :=
  if !bootAt s 12 then .next s
  else
    let t := bootTo { s with reg := { s.reg with dev := .ready } } 13
    .next (endTrial (preservedEvents (noteDev s t)))

end Sys2Proof.Machine
end

