-- ==== Sys2Proof/Machine/Qdr.lean ====
section
/-!
DEFINITION. QDR channels, re-encryption, the recovery of failed slots (R518, R522, R528, R529, R532).
-/

namespace Sys2Proof.Machine

/-- QDR_RETRACK (R518): a pass over every channel's capture delays; it stops at shed stage S4. -/
def execQdrRetrack (s : State) : Res :=
  .next (if s.qdr.trained && decide (s.cel.stage < 4) then { s with qdr := { s.qdr with retracks := s.qdr.retracks + 1 } } else s)

/-- A device without QDR is FAILED: every staged and running slip ends with `INTEGRITY_FAULT` (R529). -/
def qdrFail (s : State) : State :=
  let s := (s.hop.slips.filter fun p => p.2.unit.isSome).foldl (fun s p => stopUnits s p.1 p.2) s
  failDevice (abortSlips s (fun _ => true) St.integrityFault)

/-- Channel `ch` is out of service: alone, or with its partner, it takes the device down; otherwise its partner serves
(R529). -/
def loseChannel (s : State) (ch : Nat) : State :=
  let ok := s.qdr.chOk &&& ~~~(BitVec.ofNat 8 (2 ^ ch))
  let t := { s with qdr := { s.qdr with chOk := ok } }
  if qdrGone s.qdr.paired ((List.range 8).filter fun k => ok.getLsbD k) then qdrFail t else noteDev s t

/-- QDR_CHANNEL_LOST (R529). -/
def execQdrChannelLost (ch : Nat) (s : State) : Res :=
  if 8 ≤ ch ∨ s.qdr.trained = false ∨ s.qdr.chOk.getLsbD ch = false then .next s
  else
    let gone := resets s 0x184
    let s := reportSrc { s with qdr := { s.qdr with chLost := s.qdr.chLost.hit } } 0x184 0xFF (BitVec.ofNat 32 ch)
    .next (if gone then s else loseChannel s ch)

/-- GROUP_REENCRYPTION_DONE (R522): the group's major counter is one higher, its 64 minor counters are 0. -/
def execGroupReencryptionDone (group : Nat) (s : State) : Res :=
  if s.qdr.guardKeys = false ∨ (if s.qdr.paired then 64512 else 129024) ≤ group then .next s
  else
    let q := s.qdr
    .next { s with qdr := { q with
      majors := Tab.set q.majors group (Tab.getD q.majors group 0 + 1)
      minors := q.minors.filter fun p => p.1 / 64 != group
      writtenGroups := if q.writtenGroups.contains group then q.writtenGroups else q.writtenGroups ++ [group]
      reencTot := q.reencTot + 1 } }

/-- SLOT_RECOVERY_REQUEST (R528): the slot is sent to the peer that has lost it. -/
def execSlotRecoveryRequest (slot : Nat) (s : State) : Res :=
  let sl := s.slot slot
  .next (if s.mirror.state == .paired && sl.valid && sl.mirrored && !s.qdr.recovering.contains slot then
    s.send (.slotSend (peerSlot slot sl)) else s)

/-- A slot whose header is lost is retired until chip reset (R325, R528). -/
def retireSlot (s : State) (n : Nat) : State :=
  let sl := s.slot n
  let s := s.setSlot n { ownGen := sl.ownGen, owner := sl.owner, retired := true }
  catHitGenRetired { s with
    qdr := { s.qdr with recovering := s.qdr.recovering.filter (· != n) }
    cat := { s.cat with archivePending := Tab.erase s.cat.archivePending n } }

/-- A slot of which only the extent is lost is deaccessioned at its known generation (R332, R528). -/
def giveUpSlot (s : State) (n : Nat) : State :=
  let sl := s.slot n
  if sl.mirrored && mirrors s sl.owner then sendSync s [.slotGone n (raiseGen sl 1).ownGen none] (.weed n)
  else
    let s := if sl.persistent then queueRecord s (.tombstone n (raiseGen sl 1).ownGen) else s
    deaccessionCommit s n

/-- A source that holds the slot gives it back as it was last committed. -/
def recovered (s : State) (n : Nat) : State :=
  { s with qdr := { s.qdr with recovering := s.qdr.recovering.filter (· != n) } }

/-- SLOT_RECOVERY_DONE (R528): the peer holds only a mirrored slot of a PAIRED pair, the archive only an archived one. -/
def execSlotRecoveryDone (slot : Nat) (r : RecoverySource) (s : State) : Res :=
  if !s.qdr.recovering.contains slot then .next s
  else match r with
    | .peer => .next (if (s.slot slot).mirrored && s.mirror.state == .paired then recovered s slot else s)
    | .archive => .next (if (s.slot slot).persistent then recovered s slot else s)
    | .none header => .next (if header then retireSlot s slot else giveUpSlot s slot)

end Sys2Proof.Machine
end

