-- ==== Sys2Proof/Machine/Acks.lean ====
section
/-!
DEFINITION. The standby's acknowledgement of a synchronous record: what waited for it takes effect (R423, R235, R322, R332).
-/

namespace Sys2Proof.Machine

/-- The mirrored command that a function's window holds (R375). -/
def syncCmdOf (code : Nat) : Option SyncCmd :=
  match code with
  | 0x0201 => some createCmd
  | 0x0202 => some configCmd
  | 0x0203 => some activateCmd
  | 0x0204 => some quiesceCmd
  | 0x0205 => some freezeCmd
  | 0x0207 => some importCarrelCmd
  | 0x0209 => some resetCmd
  | 0x0301 => some hopCreateCmd
  | 0x0302 => some hopConfigCmd
  | 0x0303 => some hopStartCmd
  | 0x0304 => some hopStopCmd
  | 0x0305 => some hopDeleteCmd
  | 0x0306 => some hopResetCmd
  | 0x0310 => some tokenIssueCmd
  | 0x0311 => some tokenRevokeCmd
  | 0x0312 => some bindStaticCmd
  | 0x0313 => some bindReleaseCmd
  | 0x0404 => some setAttrCmd
  | _ => none

/-- Commit the mirrored command in a function's window. -/
def commitMirrored (s : State) (fn : Nat) : State :=
  let code := field (s.mbx fn).cmdWin 0 2
  if code = 0x0401 then importAcked s fn
  else match syncCmdOf code with
    | some c => commitSync s fn c
    | none => s

/-- Every deaccession of a chain has the peer's acknowledgement. -/
def chainPeer (s : State) (head : Nat) : State :=
  let ns := ((chainOf s head).flatMap fun p => p.2.slotOps).filterMap fun o => match o with
    | .deaccession n => some n
    | .create _ _ | .dres _ _ => none
  tryChain (ns.foldl (fun s n => s.setSlot n { s.slot n with deacPeer := true }) s) head

/-- What waited takes effect. -/
def acked (s : State) (n : Nat) (w : SyncWait) : State :=
  match w with
  | .chain head => chainPeer s head
  | .deaccession slot => tryDeac (s.setSlot slot { s.slot slot with deacPeer := true }) slot
  | .lease slot => leaseReady (setStfKey s slot { stfKey s slot with peerDone := true }) slot
  | .mailbox fn => underMbx s fn (.mirror n) fun s => commitMirrored s fn
  | .weed slot => if (s.slot slot).valid then releaseBlocks (weedSlot s slot) else s
  | .useBlock slot ceiling =>
    requestBlock (s.setSlot slot { s.slot slot with peerCeil := max (s.slot slot).peerCeil ceiling }) slot
  | .quiesced c => if (s.carrel c).st = .quiescing then setCarrelState s c .quiesced else s

/-- What a refusal by the standby itself answers: it has no `FREE` counter (R235), or a carrel of that number is not its copy. -/
def refusedAns (s : State) (w : SyncWait) : Ans :=
  match w with
  | .mailbox fn => if field (s.mbx fn).cmdWin 0 2 = 0x0201 then pairRejected s else fail St.ledgerExhausted
  | _ => fail St.ledgerExhausted

/-- The acknowledgement has come: the time it took is kept (chapter 17 registers). -/
def noteAck (s : State) (n : Nat) : State :=
  let ns := (s.now - Tab.getD s.mirror.sentAt n s.now) * 4 / 5
  { s with mirror := { s.mirror with
      waits := Tab.erase s.mirror.waits n, sentAt := Tab.erase s.mirror.sentAt n, syncTot := s.mirror.syncTot + 1
      lastSyncNs := BitVec.ofNat 32 ns } }

/-- MIRROR_SYNC_ACK (R423). -/
def execMirrorSyncAck (seq : Nat) (refused : Bool) (s : State) : Res :=
  match Tab.get? s.mirror.waits seq with
  | none => .next s
  | some w =>
    let s := noteAck s seq
    .next (if refused then endWait s seq w (refusedAns s w) else acked s seq w)

end Sys2Proof.Machine
end

