-- ==== Sys2Proof/Machine/TunRows.lean ====
section
/-!
DEFINITION. The scalar operations and the other actions of a microword as commands: each is that action of the given
microword on a tun that runs a routine (R126 to R133, R138 to R140, R149 to R153, R173).
-/

namespace Sys2Proof.Machine

/-- SNOP (R130). -/
def execSnop (t : Nat) (w : Microword) (s : State) : Res := .next (actOn t w (scalarAct 0x00) s)

/-- SADD (R130). -/
def execSadd (t : Nat) (w : Microword) (s : State) : Res := .next (actOn t w (scalarAct 0x01) s)

/-- SSUB (R130). -/
def execSsub (t : Nat) (w : Microword) (s : State) : Res := .next (actOn t w (scalarAct 0x02) s)

/-- SAND (R130). -/
def execSand (t : Nat) (w : Microword) (s : State) : Res := .next (actOn t w (scalarAct 0x03) s)

/-- SOR (R130). -/
def execSor (t : Nat) (w : Microword) (s : State) : Res := .next (actOn t w (scalarAct 0x04) s)

/-- SXOR (R130). -/
def execSxor (t : Nat) (w : Microword) (s : State) : Res := .next (actOn t w (scalarAct 0x05) s)

/-- SSHL (R130). -/
def execSshl (t : Nat) (w : Microword) (s : State) : Res := .next (actOn t w (scalarAct 0x06) s)

/-- SSHR (R130). -/
def execSshr (t : Nat) (w : Microword) (s : State) : Res := .next (actOn t w (scalarAct 0x07) s)

/-- SSRA (R130). -/
def execSsra (t : Nat) (w : Microword) (s : State) : Res := .next (actOn t w (scalarAct 0x08) s)

/-- SMUL (R130). -/
def execSmul (t : Nat) (w : Microword) (s : State) : Res := .next (actOn t w (scalarAct 0x09) s)

/-- SLI (R130). -/
def execSli (t : Nat) (w : Microword) (s : State) : Res := .next (actOn t w (scalarAct 0x0A) s)

/-- SLIH (R130). -/
def execSlih (t : Nat) (w : Microword) (s : State) : Res := .next (actOn t w (scalarAct 0x0B) s)

/-- SCMPLTU (R130). -/
def execScmpltu (t : Nat) (w : Microword) (s : State) : Res := .next (actOn t w (scalarAct 0x0C) s)

/-- SCMPEQ (R130). -/
def execScmpeq (t : Nat) (w : Microword) (s : State) : Res := .next (actOn t w (scalarAct 0x0D) s)

/-- SADD8 (R130). -/
def execSadd8 (t : Nat) (w : Microword) (s : State) : Res := .next (actOn t w (scalarAct 0x0E) s)

/-- SADD16 (R130). -/
def execSadd16 (t : Nat) (w : Microword) (s : State) : Res := .next (actOn t w (scalarAct 0x0F) s)

/-- SADD32 (R130). -/
def execSadd32 (t : Nat) (w : Microword) (s : State) : Res := .next (actOn t w (scalarAct 0x10) s)

/-- SSUB8 (R130). -/
def execSsub8 (t : Nat) (w : Microword) (s : State) : Res := .next (actOn t w (scalarAct 0x11) s)

/-- SSUB16 (R130). -/
def execSsub16 (t : Nat) (w : Microword) (s : State) : Res := .next (actOn t w (scalarAct 0x12) s)

/-- SSUB32 (R130). -/
def execSsub32 (t : Nat) (w : Microword) (s : State) : Res := .next (actOn t w (scalarAct 0x13) s)

/-- SEXTB (R130). -/
def execSextb (t : Nat) (w : Microword) (s : State) : Res := .next (actOn t w (scalarAct 0x14) s)

/-- SGETVL (R130). -/
def execSgetvl (t : Nat) (w : Microword) (s : State) : Res := .next (actOn t w (scalarAct 0x15) s)

/-- SMIN (R130). -/
def execSmin (t : Nat) (w : Microword) (s : State) : Res := .next (actOn t w (scalarAct 0x16) s)

/-- SMAX (R130). -/
def execSmax (t : Nat) (w : Microword) (s : State) : Res := .next (actOn t w (scalarAct 0x17) s)

/-- SMSET (R131). -/
def execSmset (t : Nat) (w : Microword) (s : State) : Res := .next (actOn t w (scalarAct 0x18) s)

/-- RESET (R152). -/
def execHcoreReset (t : Nat) (w : Microword) (s : State) : Res := .next (actOn t w (coreAct 0) s)

/-- ABSORB (R132). -/
def execHcoreAbsorb (t : Nat) (w : Microword) (s : State) : Res := .next (actOn t w (coreAct 1) s)

/-- PAD (R132). -/
def execHcorePad (t : Nat) (w : Microword) (s : State) : Res := .next (actOn t w (coreAct 2) s)

/-- PERMUTE (R132). -/
def execHcorePermute (t : Nat) (w : Microword) (s : State) : Res := .next (actOn t w (coreAct 3) s)

/-- SQUEEZE (R132). -/
def execHcoreSqueeze (t : Nat) (w : Microword) (s : State) : Res := .next (actOn t w (coreAct 4) s)

/-- COMPRESS (R132). -/
def execHcoreCompress (t : Nat) (w : Microword) (s : State) : Res := .next (actOn t w (coreAct 5) s)

/-- SAVE (R132). -/
def execHcoreSave (t : Nat) (w : Microword) (s : State) : Res := .next (actOn t w (coreAct 6) s)

/-- RESTORE (R132). -/
def execHcoreRestore (t : Nat) (w : Microword) (s : State) : Res := .next (actOn t w (coreAct 7) s)

/-- MLD_LOAD (R126). -/
def execMldLoad (t : Nat) (w : Microword) (s : State) : Res :=
  .next (if 1 ≤ w.mld.toNat ∧ w.mld.toNat ≤ 4 then loadOn t w (loadAct w.mld.toNat) s else s)

/-- MLD_BROADCAST (R151). -/
def execMldBroadcast (t : Nat) (w : Microword) (s : State) : Res := .next (loadOn t w broadcastAct s)

/-- MST_STORE (R128). -/
def execMstStore (t : Nat) (w : Microword) (s : State) : Res :=
  .next (if 1 ≤ w.mst.toNat ∧ w.mst.toNat ≤ 4 then storeOn t w (storeAct w.mst.toNat) s else s)

/-- INQ (R153). -/
def execInq (t : Nat) (w : Microword) (s : State) : Res := .next (if tunLive (s.tun t) then drawRng (actOn t w inqAct s) w else s)

/-- OUTQ (R153). -/
def execOutq (t : Nat) (w : Microword) (s : State) : Res := .next (actOn t w outqAct s)

/-- VLOP_CONST (R150). -/
def execVlopConst (t : Nat) (w : Microword) (s : State) : Res := .next (actOn t w (vlopAct 1) s)

/-- VLOP_REG (R150). -/
def execVlopReg (t : Nat) (w : Microword) (s : State) : Res := .next (actOn t w (vlopAct 2) s)

/-- VLOP_STRIP (R150). -/
def execVlopStrip (t : Nat) (w : Microword) (s : State) : Res := .next (actOn t w (vlopAct 3) s)

/-- CLASSIFY (R138). -/
def execClassify (t : Nat) (w : Microword) (s : State) : Res := .next (actOn t w classifyAct s)

/-- DECLASSIFY (R140). -/
def execDeclassify (t : Nat) (w : Microword) (s : State) : Res := .next (actOn t w declassifyAct s)

/-- RND_REFRESH (R150). -/
def execRndRefresh (t : Nat) (w : Microword) (s : State) : Res := .next (actOn t w rndAct s)

/-- CTR_LOAD_IMM (R149). -/
def execCtrLoadImm (t : Nat) (w : Microword) (s : State) : Res := .next (actOn t w (ctrAct 1) s)

/-- CTR_LOAD_REG (R149). -/
def execCtrLoadReg (t : Nat) (w : Microword) (s : State) : Res := .next (actOn t w (ctrAct 2) s)

/-- TRACE_RECORD (R173). -/
def execTraceRecord (t : Nat) (w : Microword) (s : State) : Res := .next (actOn t w traceAct s)

end Sys2Proof.Machine
end

