-- ==== Sys2Proof/Machine/TunVecRows.lean ====
section
/-!
DEFINITION. The vector operations as commands: each is that action of the given microword on a tun that runs a routine
(R121 to R125, R136).
-/

namespace Sys2Proof.Machine

/-- VNOP (R121). -/
def execVnop (t : Nat) (w : Microword) (s : State) : Res := .next (actOn t w (vectorAct 0x00) s)

/-- VADD (R121). -/
def execVadd (t : Nat) (w : Microword) (s : State) : Res := .next (actOn t w (vectorAct 0x01) s)

/-- VSUB (R121). -/
def execVsub (t : Nat) (w : Microword) (s : State) : Res := .next (actOn t w (vectorAct 0x02) s)

/-- VMULL (R121). -/
def execVmull (t : Nat) (w : Microword) (s : State) : Res := .next (actOn t w (vectorAct 0x03) s)

/-- VMULHU (R121). -/
def execVmulhu (t : Nat) (w : Microword) (s : State) : Res := .next (actOn t w (vectorAct 0x04) s)

/-- VMULHS (R121). -/
def execVmulhs (t : Nat) (w : Microword) (s : State) : Res := .next (actOn t w (vectorAct 0x05) s)

/-- VMINU (R121). -/
def execVminu (t : Nat) (w : Microword) (s : State) : Res := .next (actOn t w (vectorAct 0x06) s)

/-- VMAXU (R121). -/
def execVmaxu (t : Nat) (w : Microword) (s : State) : Res := .next (actOn t w (vectorAct 0x07) s)

/-- VMINS (R121). -/
def execVmins (t : Nat) (w : Microword) (s : State) : Res := .next (actOn t w (vectorAct 0x08) s)

/-- VMAXS (R121). -/
def execVmaxs (t : Nat) (w : Microword) (s : State) : Res := .next (actOn t w (vectorAct 0x09) s)

/-- VNEG (R121). -/
def execVneg (t : Nat) (w : Microword) (s : State) : Res := .next (actOn t w (vectorAct 0x0A) s)

/-- VMOV (R121). -/
def execVmov (t : Nat) (w : Microword) (s : State) : Res := .next (actOn t w (vectorAct 0x0B) s)

/-- VBCAST (R121). -/
def execVbcast (t : Nat) (w : Microword) (s : State) : Res := .next (actOn t w (vectorAct 0x0C) s)

/-- VBCASTS (R121). -/
def execVbcasts (t : Nat) (w : Microword) (s : State) : Res := .next (actOn t w (vectorAct 0x0D) s)

/-- VEXT (R121). -/
def execVext (t : Nat) (w : Microword) (s : State) : Res := .next (actOn t w (vectorAct 0x0E) s)

/-- VAND (R121). -/
def execVand (t : Nat) (w : Microword) (s : State) : Res := .next (actOn t w (vectorAct 0x10) s)

/-- VOR (R121). -/
def execVor (t : Nat) (w : Microword) (s : State) : Res := .next (actOn t w (vectorAct 0x11) s)

/-- VXOR (R121). -/
def execVxor (t : Nat) (w : Microword) (s : State) : Res := .next (actOn t w (vectorAct 0x12) s)

/-- VNOT (R121). -/
def execVnot (t : Nat) (w : Microword) (s : State) : Res := .next (actOn t w (vectorAct 0x13) s)

/-- VANDN (R121). -/
def execVandn (t : Nat) (w : Microword) (s : State) : Res := .next (actOn t w (vectorAct 0x14) s)

/-- VSELB (R121). -/
def execVselb (t : Nat) (w : Microword) (s : State) : Res := .next (actOn t w (vectorAct 0x15) s)

/-- VSHL (R121). -/
def execVshl (t : Nat) (w : Microword) (s : State) : Res := .next (actOn t w (vectorAct 0x16) s)

/-- VSHR (R121). -/
def execVshr (t : Nat) (w : Microword) (s : State) : Res := .next (actOn t w (vectorAct 0x17) s)

/-- VSRA (R121). -/
def execVsra (t : Nat) (w : Microword) (s : State) : Res := .next (actOn t w (vectorAct 0x18) s)

/-- VROL (R121). -/
def execVrol (t : Nat) (w : Microword) (s : State) : Res := .next (actOn t w (vectorAct 0x19) s)

/-- VSHLV (R121). -/
def execVshlv (t : Nat) (w : Microword) (s : State) : Res := .next (actOn t w (vectorAct 0x1A) s)

/-- VSHRV (R121). -/
def execVshrv (t : Nat) (w : Microword) (s : State) : Res := .next (actOn t w (vectorAct 0x1B) s)

/-- VPOPC (R121). -/
def execVpopc (t : Nat) (w : Microword) (s : State) : Res := .next (actOn t w (vectorAct 0x1C) s)

/-- VBITREV (R121). -/
def execVbitrev (t : Nat) (w : Microword) (s : State) : Res := .next (actOn t w (vectorAct 0x1D) s)

/-- VBSWAP (R121). -/
def execVbswap (t : Nat) (w : Microword) (s : State) : Res := .next (actOn t w (vectorAct 0x1E) s)

/-- VMADD (R122). -/
def execVmadd (t : Nat) (w : Microword) (s : State) : Res := .next (actOn t w (vectorAct 0x20) s)

/-- VMSUB (R122). -/
def execVmsub (t : Nat) (w : Microword) (s : State) : Res := .next (actOn t w (vectorAct 0x21) s)

/-- VMNEG (R122). -/
def execVmneg (t : Nat) (w : Microword) (s : State) : Res := .next (actOn t w (vectorAct 0x22) s)

/-- VMMONT (R122). -/
def execVmmont (t : Nat) (w : Microword) (s : State) : Res := .next (actOn t w (vectorAct 0x23) s)

/-- VMBAR (R122). -/
def execVmbar (t : Nat) (w : Microword) (s : State) : Res := .next (actOn t w (vectorAct 0x24) s)

/-- VMRED (R122). -/
def execVmred (t : Nat) (w : Microword) (s : State) : Res := .next (actOn t w (vectorAct 0x25) s)

/-- VMCSUB (R122). -/
def execVmcsub (t : Nat) (w : Microword) (s : State) : Res := .next (actOn t w (vectorAct 0x26) s)

/-- VMCENT (R122). -/
def execVmcent (t : Nat) (w : Microword) (s : State) : Res := .next (actOn t w (vectorAct 0x27) s)

/-- VQADDS (R123). -/
def execVqadds (t : Nat) (w : Microword) (s : State) : Res := .next (actOn t w (vectorAct 0x30) s)

/-- VQSUBS (R123). -/
def execVqsubs (t : Nat) (w : Microword) (s : State) : Res := .next (actOn t w (vectorAct 0x31) s)

/-- VQADDU (R123). -/
def execVqaddu (t : Nat) (w : Microword) (s : State) : Res := .next (actOn t w (vectorAct 0x32) s)

/-- VQSUBU (R123). -/
def execVqsubu (t : Nat) (w : Microword) (s : State) : Res := .next (actOn t w (vectorAct 0x33) s)

/-- VRSHRS (R123). -/
def execVrshrs (t : Nat) (w : Microword) (s : State) : Res := .next (actOn t w (vectorAct 0x34) s)

/-- VRSHRU (R123). -/
def execVrshru (t : Nat) (w : Microword) (s : State) : Res := .next (actOn t w (vectorAct 0x35) s)

/-- VRMULHS (R123). -/
def execVrmulhs (t : Nat) (w : Microword) (s : State) : Res := .next (actOn t w (vectorAct 0x36) s)

/-- VRMULHU (R123). -/
def execVrmulhu (t : Nat) (w : Microword) (s : State) : Res := .next (actOn t w (vectorAct 0x37) s)

/-- VCMPEQ (R121). -/
def execVcmpeq (t : Nat) (w : Microword) (s : State) : Res := .next (actOn t w (vectorAct 0x40) s)

/-- VCMPNE (R121). -/
def execVcmpne (t : Nat) (w : Microword) (s : State) : Res := .next (actOn t w (vectorAct 0x41) s)

/-- VCMPLTU (R121). -/
def execVcmpltu (t : Nat) (w : Microword) (s : State) : Res := .next (actOn t w (vectorAct 0x42) s)

/-- VCMPLTS (R121). -/
def execVcmplts (t : Nat) (w : Microword) (s : State) : Res := .next (actOn t w (vectorAct 0x43) s)

/-- VCMPLEU (R121). -/
def execVcmpleu (t : Nat) (w : Microword) (s : State) : Res := .next (actOn t w (vectorAct 0x44) s)

/-- VCMPLES (R121). -/
def execVcmples (t : Nat) (w : Microword) (s : State) : Res := .next (actOn t w (vectorAct 0x45) s)

/-- VCOMPRESS (R121). -/
def execVcompress (t : Nat) (w : Microword) (s : State) : Res := .next (actOn t w (vectorAct 0x46) s)

/-- VREDADD (R121). -/
def execVredadd (t : Nat) (w : Microword) (s : State) : Res := .next (actOn t w (vectorAct 0x47) s)

/-- VREDOR (R121). -/
def execVredor (t : Nat) (w : Microword) (s : State) : Res := .next (actOn t w (vectorAct 0x48) s)

/-- VBFLY (R124). -/
def execVbfly (t : Nat) (w : Microword) (s : State) : Res := .next (actOn t w (vectorAct 0x50) s)

/-- VBFLYI (R124). -/
def execVbflyi (t : Nat) (w : Microword) (s : State) : Res := .next (actOn t w (vectorAct 0x51) s)

/-- VPERMF (R125). -/
def execVpermf (t : Nat) (w : Microword) (s : State) : Res := .next (actOn t w (vectorAct 0x52) s)

/-- VPERMV (R125). -/
def execVpermv (t : Nat) (w : Microword) (s : State) : Res := .next (actOn t w (vectorAct 0x53) s)

/-- VSLIDEUP (R121). -/
def execVslideup (t : Nat) (w : Microword) (s : State) : Res := .next (actOn t w (vectorAct 0x54) s)

/-- VSLIDEDN (R121). -/
def execVslidedn (t : Nat) (w : Microword) (s : State) : Res := .next (actOn t w (vectorAct 0x55) s)

/-- VZIP (R121). -/
def execVzip (t : Nat) (w : Microword) (s : State) : Res := .next (actOn t w (vectorAct 0x56) s)

/-- VUNZIP (R121). -/
def execVunzip (t : Nat) (w : Microword) (s : State) : Res := .next (actOn t w (vectorAct 0x57) s)

/-- VWIDENU (R121). -/
def execVwidenu (t : Nat) (w : Microword) (s : State) : Res := .next (actOn t w (vectorAct 0x60) s)

/-- VWIDENS (R121). -/
def execVwidens (t : Nat) (w : Microword) (s : State) : Res := .next (actOn t w (vectorAct 0x61) s)

/-- VNARROW (R121). -/
def execVnarrow (t : Nat) (w : Microword) (s : State) : Res := .next (actOn t w (vectorAct 0x62) s)

/-- VPACKB (R121). -/
def execVpackb (t : Nat) (w : Microword) (s : State) : Res := .next (actOn t w (vectorAct 0x63) s)

/-- VUNPACKB (R121). -/
def execVunpackb (t : Nat) (w : Microword) (s : State) : Res := .next (actOn t w (vectorAct 0x64) s)

/-- VCLMULL (R121). -/
def execVclmull (t : Nat) (w : Microword) (s : State) : Res := .next (actOn t w (vectorAct 0x68) s)

/-- VCLMULH (R121). -/
def execVclmulh (t : Nat) (w : Microword) (s : State) : Res := .next (actOn t w (vectorAct 0x69) s)

/-- VA2B (R136). -/
def execVa2b (t : Nat) (w : Microword) (s : State) : Res := .next (actOn t w (vectorAct 0x70) s)

/-- VB2A (R136). -/
def execVb2a (t : Nat) (w : Microword) (s : State) : Res := .next (actOn t w (vectorAct 0x71) s)

/-- VREFRESH (R136). -/
def execVrefresh (t : Nat) (w : Microword) (s : State) : Res := .next (actOn t w (vectorAct 0x72) s)

end Sys2Proof.Machine
end

