-- ==== Sys2Proof/Machine/Dispatch.lean ====
section
/-!
DEFINITION. The meaning of every command: one arm per constructor, each one direct call.
-/

namespace Sys2Proof.Machine

def exec (i : Instr) (s : State) : Host.Outcome State Fault Refusal :=
  match i with
  | .doorbellWrite qpn psn ce rkey off data => Sys2Proof.Machine.execDoorbellWrite qpn psn ce rkey off data s
  | .hostDoorbell fn off data => Sys2Proof.Machine.execHostDoorbell fn off data s
  | .cmReq r => Sys2Proof.Machine.execCmReq r s
  | .rebindDrainDone qpn => Sys2Proof.Machine.execRebindDrainDone qpn s
  | .rebindDrainTimeout qpn => Sys2Proof.Machine.execRebindDrainTimeout qpn s
  | .cmRtu qpn => Sys2Proof.Machine.execCmRtu qpn s
  | .cmDreq qpn => Sys2Proof.Machine.execCmDreq qpn s
  | .cmDrep qpn => Sys2Proof.Machine.execCmDrep qpn s
  | .rdmaReadResponse qpn rid ce data => Sys2Proof.Machine.execRdmaReadResponse qpn rid ce data s
  | .rdmaWriteAck qpn rid ce => Sys2Proof.Machine.execRdmaWriteAck qpn rid ce s
  | .nakRemoteAccessError qpn rid => Sys2Proof.Machine.execNakRemoteAccessError qpn rid s
  | .nakPsnSequenceError qpn rid => Sys2Proof.Machine.execNakPsnSequenceError qpn rid s
  | .nakInvalidRequest qpn rid => Sys2Proof.Machine.execNakInvalidRequest qpn rid s
  | .rnrNak qpn rid => Sys2Proof.Machine.execRnrNak qpn rid s
  | .rnrRetry qpn rid => Sys2Proof.Machine.execRnrRetry qpn rid s
  | .ackTimeout qpn => Sys2Proof.Machine.execAckTimeout qpn s
  | .invalidRequestPacket qpn psn => Sys2Proof.Machine.execInvalidRequestPacket qpn psn s
  | .cnpReceived qpn => Sys2Proof.Machine.execCnpReceived qpn s
  | .ratePeriod qpn => Sys2Proof.Machine.execRatePeriod qpn s
  | .frameDiscarded port vlan why => Sys2Proof.Machine.execFrameDiscarded port vlan why s
  | .portFecUncorr port => Sys2Proof.Machine.execPortFecUncorr port s
  | .arpRequest port vlan senderMac senderIp targetIp => Sys2Proof.Machine.execArpRequest port vlan senderMac senderIp targetIp s
  | .neighborSolicitation port vlan senderMac senderIp targetIp => Sys2Proof.Machine.execNeighborSolicitation port vlan senderMac senderIp targetIp s
  | .nextHopResolved carrel ip mac => Sys2Proof.Machine.execNextHopResolved carrel ip mac s
  | .resolutionRetry carrel ip => Sys2Proof.Machine.execResolutionRetry carrel ip s
  | .nextHopCacheExpiry carrel ip => Sys2Proof.Machine.execNextHopCacheExpiry carrel ip s
  | .gratuitousArp carrel => Sys2Proof.Machine.execGratuitousArp carrel s
  | .pauseFrame port prio quanta => Sys2Proof.Machine.execPauseFrame port prio quanta s
  | .portPfcStorm port prio => Sys2Proof.Machine.execPortPfcStorm port prio s
  | .pfcIgnoreRelease port prio => Sys2Proof.Machine.execPfcIgnoreRelease port prio s
  | .linkDown port => Sys2Proof.Machine.execLinkDown port s
  | .linkUp port => Sys2Proof.Machine.execLinkUp port s
  | .hostDmaCompletion fn rid r => Sys2Proof.Machine.execHostDmaCompletion fn rid r s
  | .hopperFetch hopper n => Sys2Proof.Machine.execHopperFetch hopper n s
  | .dispatch e => Sys2Proof.Machine.execDispatch e s
  | .wakeComplete e cluster => Sys2Proof.Machine.execWakeComplete e cluster s
  | .clusterNap e cluster => Sys2Proof.Machine.execClusterNap e cluster s
  | .clusterDormant e cluster => Sys2Proof.Machine.execClusterDormant e cluster s
  | .longQuantumEnd sid => Sys2Proof.Machine.execLongQuantumEnd sid s
  | .longSuspend sid => Sys2Proof.Machine.execLongSuspend sid s
  | .executionComplete sid actualNs => Sys2Proof.Machine.execExecutionComplete sid actualNs s
  | .hopperStopped hopper => Sys2Proof.Machine.execHopperStopped hopper s
  | .unitFault e phys source => Sys2Proof.Machine.execUnitFault e phys source s
  | .hopperEngineResetDone => Sys2Proof.Machine.execHopperEngineResetDone s
  | .retestComplete e phys fail => Sys2Proof.Machine.execRetestComplete e phys fail s
  | .errNRelease => Sys2Proof.Machine.execErrNRelease s
  | .tunWatchdog t => Sys2Proof.Machine.execTunWatchdog t s
  | .tunScrubDone t => Sys2Proof.Machine.execTunScrubDone t s
  | .maskgenReseed t => Sys2Proof.Machine.execMaskgenReseed t s
  | .kilnWipeDone k => Sys2Proof.Machine.execKilnWipeDone k s
  | .pass1Done sid => Sys2Proof.Machine.execPass1Done sid s
  | .ctlNop sid => Sys2Proof.Machine.execCtlNop sid s
  | .ctlStatus sid => Sys2Proof.Machine.execCtlStatus sid s
  | .ctlRandom sid => Sys2Proof.Machine.execCtlRandom sid s
  | .ctlFence sid => Sys2Proof.Machine.execCtlFence sid s
  | .kemKeygen sid => Sys2Proof.Machine.execKemKeygen sid s
  | .kemEncaps sid => Sys2Proof.Machine.execKemEncaps sid s
  | .kemDecaps sid => Sys2Proof.Machine.execKemDecaps sid s
  | .kemPubkey sid => Sys2Proof.Machine.execKemPubkey sid s
  | .dsaKeygen sid => Sys2Proof.Machine.execDsaKeygen sid s
  | .dsaPubkey sid => Sys2Proof.Machine.execDsaPubkey sid s
  | .dsaSign sid => Sys2Proof.Machine.execDsaSign sid s
  | .dsaSignPh sid => Sys2Proof.Machine.execDsaSignPh sid s
  | .dsaSignMu sid => Sys2Proof.Machine.execDsaSignMu sid s
  | .dsaVerify sid => Sys2Proof.Machine.execDsaVerify sid s
  | .dsaVerifyPh sid => Sys2Proof.Machine.execDsaVerifyPh sid s
  | .dsaVerifyMu sid => Sys2Proof.Machine.execDsaVerifyMu sid s
  | .kemKeygenKat sid => Sys2Proof.Machine.execKemKeygenKat sid s
  | .kemEncapsKat sid => Sys2Proof.Machine.execKemEncapsKat sid s
  | .kemDecapsKat sid => Sys2Proof.Machine.execKemDecapsKat sid s
  | .dsaKeygenKat sid => Sys2Proof.Machine.execDsaKeygenKat sid s
  | .dsaSignKat sid => Sys2Proof.Machine.execDsaSignKat sid s
  | .dsaVerifyKat sid => Sys2Proof.Machine.execDsaVerifyKat sid s
  | .slhKeygen sid => Sys2Proof.Machine.execSlhKeygen sid s
  | .slhPubkey sid => Sys2Proof.Machine.execSlhPubkey sid s
  | .slhSign sid => Sys2Proof.Machine.execSlhSign sid s
  | .slhSignPh sid => Sys2Proof.Machine.execSlhSignPh sid s
  | .slhVerify sid => Sys2Proof.Machine.execSlhVerify sid s
  | .slhVerifyPh sid => Sys2Proof.Machine.execSlhVerifyPh sid s
  | .slhKeygenKat sid => Sys2Proof.Machine.execSlhKeygenKat sid s
  | .slhSignKat sid => Sys2Proof.Machine.execSlhSignKat sid s
  | .stfKeygen sid => Sys2Proof.Machine.execStfKeygen sid s
  | .stfPubkey sid => Sys2Proof.Machine.execStfPubkey sid s
  | .stfSign sid => Sys2Proof.Machine.execStfSign sid s
  | .stfVerify sid => Sys2Proof.Machine.execStfVerify sid s
  | .stfRemain sid => Sys2Proof.Machine.execStfRemain sid s
  | .ckemKeygen sid => Sys2Proof.Machine.execCkemKeygen sid s
  | .ckemEncaps sid => Sys2Proof.Machine.execCkemEncaps sid s
  | .ckemDecaps sid => Sys2Proof.Machine.execCkemDecaps sid s
  | .ckemPubkey sid => Sys2Proof.Machine.execCkemPubkey sid s
  | .ckemKeygenKat sid => Sys2Proof.Machine.execCkemKeygenKat sid s
  | .ckemEncapsKat sid => Sys2Proof.Machine.execCkemEncapsKat sid s
  | .ckemDecapsKat sid => Sys2Proof.Machine.execCkemDecapsKat sid s
  | .dig sid => Sys2Proof.Machine.execDig sid s
  | .digStart sid => Sys2Proof.Machine.execDigStart sid s
  | .digUpdate sid => Sys2Proof.Machine.execDigUpdate sid s
  | .digFinish sid => Sys2Proof.Machine.execDigFinish sid s
  | .kdfHkdf sid => Sys2Proof.Machine.execKdfHkdf sid s
  | .kdfHkdfExpand sid => Sys2Proof.Machine.execKdfHkdfExpand sid s
  | .kdf108 sid => Sys2Proof.Machine.execKdf108 sid s
  | .macGen sid => Sys2Proof.Machine.execMacGen sid s
  | .macVerify sid => Sys2Proof.Machine.execMacVerify sid s
  | .aeadEncrypt sid => Sys2Proof.Machine.execAeadEncrypt sid s
  | .aeadDecrypt sid => Sys2Proof.Machine.execAeadDecrypt sid s
  | .ctrEncrypt sid => Sys2Proof.Machine.execCtrEncrypt sid s
  | .ctrDecrypt sid => Sys2Proof.Machine.execCtrDecrypt sid s
  | .cbcEncrypt sid => Sys2Proof.Machine.execCbcEncrypt sid s
  | .cbcDecrypt sid => Sys2Proof.Machine.execCbcDecrypt sid s
  | .xtsEncrypt sid => Sys2Proof.Machine.execXtsEncrypt sid s
  | .xtsDecrypt sid => Sys2Proof.Machine.execXtsDecrypt sid s
  | .cmacGen sid => Sys2Proof.Machine.execCmacGen sid s
  | .cmacVerify sid => Sys2Proof.Machine.execCmacVerify sid s
  | .kwWrap sid => Sys2Proof.Machine.execKwWrap sid s
  | .kwUnwrap sid => Sys2Proof.Machine.execKwUnwrap sid s
  | .kwpWrap sid => Sys2Proof.Machine.execKwpWrap sid s
  | .kwpUnwrap sid => Sys2Proof.Machine.execKwpUnwrap sid s
  | .pkKeygen sid => Sys2Proof.Machine.execPkKeygen sid s
  | .pkPubkey sid => Sys2Proof.Machine.execPkPubkey sid s
  | .pkAgree sid => Sys2Proof.Machine.execPkAgree sid s
  | .pkSign sid => Sys2Proof.Machine.execPkSign sid s
  | .pkVerify sid => Sys2Proof.Machine.execPkVerify sid s
  | .rsaEncrypt sid => Sys2Proof.Machine.execRsaEncrypt sid s
  | .rsaDecrypt sid => Sys2Proof.Machine.execRsaDecrypt sid s
  | .curveLoad sid => Sys2Proof.Machine.execCurveLoad sid s
  | .modadd sid => Sys2Proof.Machine.execModadd sid s
  | .modsub sid => Sys2Proof.Machine.execModsub sid s
  | .modmul sid => Sys2Proof.Machine.execModmul sid s
  | .modinv sid => Sys2Proof.Machine.execModinv sid s
  | .modexp sid => Sys2Proof.Machine.execModexp sid s
  | .padd sid => Sys2Proof.Machine.execPadd sid s
  | .pdbl sid => Sys2Proof.Machine.execPdbl sid s
  | .pmul sid => Sys2Proof.Machine.execPmul sid s
  | .catGenerate sid => Sys2Proof.Machine.execCatGenerate sid s
  | .catNarrow sid => Sys2Proof.Machine.execCatNarrow sid s
  | .catUnwrap sid => Sys2Proof.Machine.execCatUnwrap sid s
  | .catWrapOut sid => Sys2Proof.Machine.execCatWrapOut sid s
  | .catDeaccession sid => Sys2Proof.Machine.execCatDeaccession sid s
  | .catInfo sid => Sys2Proof.Machine.execCatInfo sid s
  | .openStacksInvoke sid => Sys2Proof.Machine.execOpenStacksInvoke sid s
  | .seqCont t => Sys2Proof.Machine.execSeqCont t s
  | .seqJump t => Sys2Proof.Machine.execSeqJump t s
  | .seqBr t => Sys2Proof.Machine.execSeqBr t s
  | .seqCall t => Sys2Proof.Machine.execSeqCall t s
  | .seqCallc t => Sys2Proof.Machine.execSeqCallc t s
  | .seqRet t => Sys2Proof.Machine.execSeqRet t s
  | .seqLoop t => Sys2Proof.Machine.execSeqLoop t s
  | .seqExit t => Sys2Proof.Machine.execSeqExit t s
  | .seqFail t => Sys2Proof.Machine.execSeqFail t s
  | .safePoint t => Sys2Proof.Machine.execSafePoint t s
  | .vnop t w => Sys2Proof.Machine.execVnop t w s
  | .vadd t w => Sys2Proof.Machine.execVadd t w s
  | .vsub t w => Sys2Proof.Machine.execVsub t w s
  | .vmull t w => Sys2Proof.Machine.execVmull t w s
  | .vmulhu t w => Sys2Proof.Machine.execVmulhu t w s
  | .vmulhs t w => Sys2Proof.Machine.execVmulhs t w s
  | .vminu t w => Sys2Proof.Machine.execVminu t w s
  | .vmaxu t w => Sys2Proof.Machine.execVmaxu t w s
  | .vmins t w => Sys2Proof.Machine.execVmins t w s
  | .vmaxs t w => Sys2Proof.Machine.execVmaxs t w s
  | .vneg t w => Sys2Proof.Machine.execVneg t w s
  | .vmov t w => Sys2Proof.Machine.execVmov t w s
  | .vbcast t w => Sys2Proof.Machine.execVbcast t w s
  | .vbcasts t w => Sys2Proof.Machine.execVbcasts t w s
  | .vext t w => Sys2Proof.Machine.execVext t w s
  | .vand t w => Sys2Proof.Machine.execVand t w s
  | .vor t w => Sys2Proof.Machine.execVor t w s
  | .vxor t w => Sys2Proof.Machine.execVxor t w s
  | .vnot t w => Sys2Proof.Machine.execVnot t w s
  | .vandn t w => Sys2Proof.Machine.execVandn t w s
  | .vselb t w => Sys2Proof.Machine.execVselb t w s
  | .vshl t w => Sys2Proof.Machine.execVshl t w s
  | .vshr t w => Sys2Proof.Machine.execVshr t w s
  | .vsra t w => Sys2Proof.Machine.execVsra t w s
  | .vrol t w => Sys2Proof.Machine.execVrol t w s
  | .vshlv t w => Sys2Proof.Machine.execVshlv t w s
  | .vshrv t w => Sys2Proof.Machine.execVshrv t w s
  | .vpopc t w => Sys2Proof.Machine.execVpopc t w s
  | .vbitrev t w => Sys2Proof.Machine.execVbitrev t w s
  | .vbswap t w => Sys2Proof.Machine.execVbswap t w s
  | .vmadd t w => Sys2Proof.Machine.execVmadd t w s
  | .vmsub t w => Sys2Proof.Machine.execVmsub t w s
  | .vmneg t w => Sys2Proof.Machine.execVmneg t w s
  | .vmmont t w => Sys2Proof.Machine.execVmmont t w s
  | .vmbar t w => Sys2Proof.Machine.execVmbar t w s
  | .vmred t w => Sys2Proof.Machine.execVmred t w s
  | .vmcsub t w => Sys2Proof.Machine.execVmcsub t w s
  | .vmcent t w => Sys2Proof.Machine.execVmcent t w s
  | .vqadds t w => Sys2Proof.Machine.execVqadds t w s
  | .vqsubs t w => Sys2Proof.Machine.execVqsubs t w s
  | .vqaddu t w => Sys2Proof.Machine.execVqaddu t w s
  | .vqsubu t w => Sys2Proof.Machine.execVqsubu t w s
  | .vrshrs t w => Sys2Proof.Machine.execVrshrs t w s
  | .vrshru t w => Sys2Proof.Machine.execVrshru t w s
  | .vrmulhs t w => Sys2Proof.Machine.execVrmulhs t w s
  | .vrmulhu t w => Sys2Proof.Machine.execVrmulhu t w s
  | .vcmpeq t w => Sys2Proof.Machine.execVcmpeq t w s
  | .vcmpne t w => Sys2Proof.Machine.execVcmpne t w s
  | .vcmpltu t w => Sys2Proof.Machine.execVcmpltu t w s
  | .vcmplts t w => Sys2Proof.Machine.execVcmplts t w s
  | .vcmpleu t w => Sys2Proof.Machine.execVcmpleu t w s
  | .vcmples t w => Sys2Proof.Machine.execVcmples t w s
  | .vcompress t w => Sys2Proof.Machine.execVcompress t w s
  | .vredadd t w => Sys2Proof.Machine.execVredadd t w s
  | .vredor t w => Sys2Proof.Machine.execVredor t w s
  | .vbfly t w => Sys2Proof.Machine.execVbfly t w s
  | .vbflyi t w => Sys2Proof.Machine.execVbflyi t w s
  | .vpermf t w => Sys2Proof.Machine.execVpermf t w s
  | .vpermv t w => Sys2Proof.Machine.execVpermv t w s
  | .vslideup t w => Sys2Proof.Machine.execVslideup t w s
  | .vslidedn t w => Sys2Proof.Machine.execVslidedn t w s
  | .vzip t w => Sys2Proof.Machine.execVzip t w s
  | .vunzip t w => Sys2Proof.Machine.execVunzip t w s
  | .vwidenu t w => Sys2Proof.Machine.execVwidenu t w s
  | .vwidens t w => Sys2Proof.Machine.execVwidens t w s
  | .vnarrow t w => Sys2Proof.Machine.execVnarrow t w s
  | .vpackb t w => Sys2Proof.Machine.execVpackb t w s
  | .vunpackb t w => Sys2Proof.Machine.execVunpackb t w s
  | .vclmull t w => Sys2Proof.Machine.execVclmull t w s
  | .vclmulh t w => Sys2Proof.Machine.execVclmulh t w s
  | .va2b t w => Sys2Proof.Machine.execVa2b t w s
  | .vb2a t w => Sys2Proof.Machine.execVb2a t w s
  | .vrefresh t w => Sys2Proof.Machine.execVrefresh t w s
  | .snop t w => Sys2Proof.Machine.execSnop t w s
  | .sadd t w => Sys2Proof.Machine.execSadd t w s
  | .ssub t w => Sys2Proof.Machine.execSsub t w s
  | .sand t w => Sys2Proof.Machine.execSand t w s
  | .sor t w => Sys2Proof.Machine.execSor t w s
  | .sxor t w => Sys2Proof.Machine.execSxor t w s
  | .sshl t w => Sys2Proof.Machine.execSshl t w s
  | .sshr t w => Sys2Proof.Machine.execSshr t w s
  | .ssra t w => Sys2Proof.Machine.execSsra t w s
  | .smul t w => Sys2Proof.Machine.execSmul t w s
  | .sli t w => Sys2Proof.Machine.execSli t w s
  | .slih t w => Sys2Proof.Machine.execSlih t w s
  | .scmpltu t w => Sys2Proof.Machine.execScmpltu t w s
  | .scmpeq t w => Sys2Proof.Machine.execScmpeq t w s
  | .sadd8 t w => Sys2Proof.Machine.execSadd8 t w s
  | .sadd16 t w => Sys2Proof.Machine.execSadd16 t w s
  | .sadd32 t w => Sys2Proof.Machine.execSadd32 t w s
  | .ssub8 t w => Sys2Proof.Machine.execSsub8 t w s
  | .ssub16 t w => Sys2Proof.Machine.execSsub16 t w s
  | .ssub32 t w => Sys2Proof.Machine.execSsub32 t w s
  | .sextb t w => Sys2Proof.Machine.execSextb t w s
  | .sgetvl t w => Sys2Proof.Machine.execSgetvl t w s
  | .smin t w => Sys2Proof.Machine.execSmin t w s
  | .smax t w => Sys2Proof.Machine.execSmax t w s
  | .smset t w => Sys2Proof.Machine.execSmset t w s
  | .hcoreReset t w => Sys2Proof.Machine.execHcoreReset t w s
  | .hcoreAbsorb t w => Sys2Proof.Machine.execHcoreAbsorb t w s
  | .hcorePad t w => Sys2Proof.Machine.execHcorePad t w s
  | .hcorePermute t w => Sys2Proof.Machine.execHcorePermute t w s
  | .hcoreSqueeze t w => Sys2Proof.Machine.execHcoreSqueeze t w s
  | .hcoreCompress t w => Sys2Proof.Machine.execHcoreCompress t w s
  | .hcoreSave t w => Sys2Proof.Machine.execHcoreSave t w s
  | .hcoreRestore t w => Sys2Proof.Machine.execHcoreRestore t w s
  | .mldLoad t w => Sys2Proof.Machine.execMldLoad t w s
  | .mldBroadcast t w => Sys2Proof.Machine.execMldBroadcast t w s
  | .mstStore t w => Sys2Proof.Machine.execMstStore t w s
  | .inq t w => Sys2Proof.Machine.execInq t w s
  | .outq t w => Sys2Proof.Machine.execOutq t w s
  | .vlopConst t w => Sys2Proof.Machine.execVlopConst t w s
  | .vlopReg t w => Sys2Proof.Machine.execVlopReg t w s
  | .vlopStrip t w => Sys2Proof.Machine.execVlopStrip t w s
  | .classify t w => Sys2Proof.Machine.execClassify t w s
  | .declassify t w => Sys2Proof.Machine.execDeclassify t w s
  | .rndRefresh t w => Sys2Proof.Machine.execRndRefresh t w s
  | .ctrLoadImm t w => Sys2Proof.Machine.execCtrLoadImm t w s
  | .ctrLoadReg t w => Sys2Proof.Machine.execCtrLoadReg t w s
  | .traceRecord t w => Sys2Proof.Machine.execTraceRecord t w s
  | .ledgerWriteDone counter ok => Sys2Proof.Machine.execLedgerWriteDone counter ok s
  | .leaseGranted slot => Sys2Proof.Machine.execLeaseGranted slot s
  | .ledgerRefresh => Sys2Proof.Machine.execLedgerRefresh s
  | .treeBuildQuantum slot level => Sys2Proof.Machine.execTreeBuildQuantum slot level s
  | .treeCacheRestored slot => Sys2Proof.Machine.execTreeCacheRestored slot s
  | .deaccessionCommit slot => Sys2Proof.Machine.execDeaccessionCommit slot s
  | .weedingPass => Sys2Proof.Machine.execWeedingPass s
  | .archiveRecordDue slot => Sys2Proof.Machine.execArchiveRecordDue slot s
  | .entWindowComplete src samples => Sys2Proof.Machine.execEntWindowComplete src samples s
  | .entSrcFail src cause => Sys2Proof.Machine.execEntSrcFail src cause s
  | .drbgReseed inst => Sys2Proof.Machine.execDrbgReseed inst s
  | .mbxNop fn => Sys2Proof.Machine.execMbxNop fn s
  | .devInfo fn => Sys2Proof.Machine.execDevInfo fn s
  | .algTable fn => Sys2Proof.Machine.execAlgTable fn s
  | .authChallenge fn => Sys2Proof.Machine.execAuthChallenge fn s
  | .authLogin fn => Sys2Proof.Machine.execAuthLogin fn s
  | .authLogout fn => Sys2Proof.Machine.execAuthLogout fn s
  | .sessionCfg fn => Sys2Proof.Machine.execSessionCfg fn s
  | .admEnrol fn => Sys2Proof.Machine.execAdmEnrol fn s
  | .admRemove fn => Sys2Proof.Machine.execAdmRemove fn s
  | .octConfig fn => Sys2Proof.Machine.execOctConfig fn s
  | .fecthOnly fn => Sys2Proof.Machine.execFecthOnly fn s
  | .warmMinSet fn => Sys2Proof.Machine.execWarmMinSet fn s
  | .directCntSet fn => Sys2Proof.Machine.execDirectCntSet fn s
  | .ledLowThSet fn => Sys2Proof.Machine.execLedLowThSet fn s
  | .setSource fn => Sys2Proof.Machine.execSetSource fn s
  | .setProfile fn => Sys2Proof.Machine.execSetProfile fn s
  | .fiArm fn => Sys2Proof.Machine.execFiArm fn s
  | .fiDisarm fn => Sys2Proof.Machine.execFiDisarm fn s
  | .resetCounts fn => Sys2Proof.Machine.execResetCounts fn s
  | .lcsTransition fn railsOk vbatMv dieTemp => Sys2Proof.Machine.execLcsTransition fn railsOk vbatMv dieTemp s
  | .lcsGroupDone => Sys2Proof.Machine.execLcsGroupDone s
  | .crlCreate fn => Sys2Proof.Machine.execCrlCreate fn s
  | .crlConfig fn => Sys2Proof.Machine.execCrlConfig fn s
  | .crlActivate fn => Sys2Proof.Machine.execCrlActivate fn s
  | .crlQuiesce fn => Sys2Proof.Machine.execCrlQuiesce fn s
  | .quiesceComplete carrel => Sys2Proof.Machine.execQuiesceComplete carrel s
  | .crlFreeze fn => Sys2Proof.Machine.execCrlFreeze fn s
  | .crlSaveAccept fn host certs => Sys2Proof.Machine.execCrlSaveAccept fn host certs s
  | .crlSaveExport fn host certs => Sys2Proof.Machine.execCrlSaveExport fn host certs s
  | .crlRestoreOffer fn => Sys2Proof.Machine.execCrlRestoreOffer fn s
  | .crlRestoreConfirm fn host certs => Sys2Proof.Machine.execCrlRestoreConfirm fn host certs s
  | .crlRestoreImport fn host certs => Sys2Proof.Machine.execCrlRestoreImport fn host certs s
  | .migrationExpiry carrel => Sys2Proof.Machine.execMigrationExpiry carrel s
  | .crlDestroy fn => Sys2Proof.Machine.execCrlDestroy fn s
  | .crlReset fn => Sys2Proof.Machine.execCrlReset fn s
  | .crlStats fn => Sys2Proof.Machine.execCrlStats fn s
  | .crlAnchorRenew fn => Sys2Proof.Machine.execCrlAnchorRenew fn s
  | .hopCreate fn => Sys2Proof.Machine.execHopCreate fn s
  | .hopConfig fn => Sys2Proof.Machine.execHopConfig fn s
  | .hopStart fn => Sys2Proof.Machine.execHopStart fn s
  | .hopStop fn => Sys2Proof.Machine.execHopStop fn s
  | .hopDelete fn => Sys2Proof.Machine.execHopDelete fn s
  | .hopResetIdx fn => Sys2Proof.Machine.execHopResetIdx fn s
  | .hopQuery fn => Sys2Proof.Machine.execHopQuery fn s
  | .bindTokenIssue fn => Sys2Proof.Machine.execBindTokenIssue fn s
  | .bindTokenRevoke fn => Sys2Proof.Machine.execBindTokenRevoke fn s
  | .bindStatic fn => Sys2Proof.Machine.execBindStatic fn s
  | .bindRelease fn => Sys2Proof.Machine.execBindRelease fn s
  | .catImport fn host => Sys2Proof.Machine.execCatImport fn host s
  | .catReplace fn host => Sys2Proof.Machine.execCatReplace fn host s
  | .catDeaccessionCmd fn => Sys2Proof.Machine.execCatDeaccessionCmd fn s
  | .catSetAttr fn => Sys2Proof.Machine.execCatSetAttr fn s
  | .catQuery fn => Sys2Proof.Machine.execCatQuery fn s
  | .catEnrolSigner fn => Sys2Proof.Machine.execCatEnrolSigner fn s
  | .ledQuery fn => Sys2Proof.Machine.execLedQuery fn s
  | .ledReclaim fn => Sys2Proof.Machine.execLedReclaim fn s
  | .ostkStage fn host => Sys2Proof.Machine.execOstkStage fn host s
  | .ostkActivate fn => Sys2Proof.Machine.execOstkActivate fn s
  | .ostkDrainEnd => Sys2Proof.Machine.execOstkDrainEnd s
  | .ostkRetire fn => Sys2Proof.Machine.execOstkRetire fn s
  | .fwStage fn host => Sys2Proof.Machine.execFwStage fn host s
  | .fwActivate fn => Sys2Proof.Machine.execFwActivate fn s
  | .fwActivateWaitEnd => Sys2Proof.Machine.execFwActivateWaitEnd s
  | .trialBootTimeout => Sys2Proof.Machine.execTrialBootTimeout s
  | .mirPair fn => Sys2Proof.Machine.execMirPair fn s
  | .mirPairRejoin fn => Sys2Proof.Machine.execMirPairRejoin fn s
  | .pairingComplete r => Sys2Proof.Machine.execPairingComplete r s
  | .mirUnpair fn => Sys2Proof.Machine.execMirUnpair fn s
  | .mirArbitrate fn => Sys2Proof.Machine.execMirArbitrate fn s
  | .mirRehome fn => Sys2Proof.Machine.execMirRehome fn s
  | .mirStatus fn => Sys2Proof.Machine.execMirStatus fn s
  | .entTestPattern fn => Sys2Proof.Machine.execEntTestPattern fn s
  | .entRawCapture fn samples => Sys2Proof.Machine.execEntRawCapture fn samples s
  | .attQuote fn => Sys2Proof.Machine.execAttQuote fn s
  | .attCerts fn => Sys2Proof.Machine.execAttCerts fn s
  | .dbgNonce fn => Sys2Proof.Machine.execDbgNonce fn s
  | .dbgGrant fn host => Sys2Proof.Machine.execDbgGrant fn host s
  | .dbgEnd fn => Sys2Proof.Machine.execDbgEnd fn s
  | .grantExpiry => Sys2Proof.Machine.execGrantExpiry s
  | .sessionIdleTimeout fn => Sys2Proof.Machine.execSessionIdleTimeout fn s
  | .regLockstep => Sys2Proof.Machine.execRegLockstep s
  | .registrarSwitchDone => Sys2Proof.Machine.execRegistrarSwitchDone s
  | .dpgStart fn page => Sys2Proof.Machine.execDpgStart fn page s
  | .dpgAbort fn page => Sys2Proof.Machine.execDpgAbort fn page s
  | .dpgClearKey fn page => Sys2Proof.Machine.execDpgClearKey fn page s
  | .dpgKey fn page idx value => Sys2Proof.Machine.execDpgKey fn page idx value s
  | .dpgDone fn page r => Sys2Proof.Machine.execDpgDone fn page r s
  | .hostAccess fn write width => Sys2Proof.Machine.execHostAccess fn write width s
  | .registerWrite fn reg value hwSet => Sys2Proof.Machine.execRegisterWrite fn reg value hwSet s
  | .prtOctEvt octet hw => Sys2Proof.Machine.execPrtOctEvt octet hw s
  | .hopDlEvt carrel hw => Sys2Proof.Machine.execHopDlEvt carrel hw s
  | .ledEvt hw => Sys2Proof.Machine.execLedEvt hw s
  | .ledEvt2 hw => Sys2Proof.Machine.execLedEvt2 hw s
  | .dpgEvt fn page hw => Sys2Proof.Machine.execDpgEvt fn page hw s
  | .catEvt hw => Sys2Proof.Machine.execCatEvt hw s
  | .entEvt hw => Sys2Proof.Machine.execEntEvt hw s
  | .mbxEvt fn hw => Sys2Proof.Machine.execMbxEvt fn hw s
  | .mirEvt hw => Sys2Proof.Machine.execMirEvt hw s
  | .fltEvt hw => Sys2Proof.Machine.execFltEvt hw s
  | .celEvt hw => Sys2Proof.Machine.execCelEvt hw s
  | .tmpEvt hw => Sys2Proof.Machine.execTmpEvt hw s
  | .qdrEvt hw => Sys2Proof.Machine.execQdrEvt hw s
  | .folSlotEvt slot hw => Sys2Proof.Machine.execFolSlotEvt slot hw s
  | .flr fn => Sys2Proof.Machine.execFlr fn s
  | .vfDisable fns => Sys2Proof.Machine.execVfDisable fns s
  | .perstN => Sys2Proof.Machine.execPerstN s
  | .porN release paired => Sys2Proof.Machine.execPorN release paired s
  | .bootStage3 r => Sys2Proof.Machine.execBootStage3 r s
  | .bootStage4 r => Sys2Proof.Machine.execBootStage4 r s
  | .bootStage5 r => Sys2Proof.Machine.execBootStage5 r s
  | .bootStage6 => Sys2Proof.Machine.execBootStage6 s
  | .bootStage7 r => Sys2Proof.Machine.execBootStage7 r s
  | .bootStage8 r => Sys2Proof.Machine.execBootStage8 r s
  | .bootStage9 r => Sys2Proof.Machine.execBootStage9 r s
  | .bootStage10 r => Sys2Proof.Machine.execBootStage10 r s
  | .bootStage11 => Sys2Proof.Machine.execBootStage11 s
  | .bootStage12 => Sys2Proof.Machine.execBootStage12 s
  | .bootStage13 => Sys2Proof.Machine.execBootStage13 s
  | .bootHoldEnd => Sys2Proof.Machine.execBootHoldEnd s
  | .shedS1 cause => Sys2Proof.Machine.execShedS1 cause s
  | .shedS2 cause => Sys2Proof.Machine.execShedS2 cause s
  | .shedS3 cause => Sys2Proof.Machine.execShedS3 cause s
  | .shedS4 cause => Sys2Proof.Machine.execShedS4 cause s
  | .shedStageExit => Sys2Proof.Machine.execShedStageExit s
  | .s4Abandon => Sys2Proof.Machine.execS4Abandon s
  | .s4FlushDone => Sys2Proof.Machine.execS4FlushDone s
  | .s4Restart => Sys2Proof.Machine.execS4Restart s
  | .mainPowerLoss warned => Sys2Proof.Machine.execMainPowerLoss warned s
  | .vddCellarLoss => Sys2Proof.Machine.execVddCellarLoss s
  | .celVbatLow => Sys2Proof.Machine.execCelVbatLow s
  | .celXtalFail => Sys2Proof.Machine.execCelXtalFail s
  | .crystalRestart => Sys2Proof.Machine.execCrystalRestart s
  | .pllUnlock pll => Sys2Proof.Machine.execPllUnlock pll s
  | .refclkLoss ref => Sys2Proof.Machine.execRefclkLoss ref s
  | .pllRelock pll => Sys2Proof.Machine.execPllRelock pll s
  | .tmpShield detail => Sys2Proof.Machine.execTmpShield detail s
  | .tmpLoop loop => Sys2Proof.Machine.execTmpLoop loop s
  | .tmpRail detail => Sys2Proof.Machine.execTmpRail detail s
  | .tmpTemp detail => Sys2Proof.Machine.execTmpTemp detail s
  | .tmpClock detail => Sys2Proof.Machine.execTmpClock detail s
  | .tmpGlitch detail => Sys2Proof.Machine.execTmpGlitch detail s
  | .shieldReseed => Sys2Proof.Machine.execShieldReseed s
  | .tamperOutRelease => Sys2Proof.Machine.execTamperOutRelease s
  | .linkLost => Sys2Proof.Machine.execLinkLost s
  | .heartbeatLost => Sys2Proof.Machine.execHeartbeatLost s
  | .mirResign => Sys2Proof.Machine.execMirResign s
  | .mirrorLinkUp => Sys2Proof.Machine.execMirrorLinkUp s
  | .mirLinkAuth => Sys2Proof.Machine.execMirLinkAuth s
  | .linkKeyRenewal => Sys2Proof.Machine.execLinkKeyRenewal s
  | .mirrorBatch => Sys2Proof.Machine.execMirrorBatch s
  | .batchAck b => Sys2Proof.Machine.execBatchAck b s
  | .batchReceived b => Sys2Proof.Machine.execBatchReceived b s
  | .syncRecord r => Sys2Proof.Machine.execSyncRecord r s
  | .mirrorSyncAck seq refused => Sys2Proof.Machine.execMirrorSyncAck seq refused s
  | .cartridgeInsert slot => Sys2Proof.Machine.execCartridgeInsert slot s
  | .cartridgeRemove slot => Sys2Proof.Machine.execCartridgeRemove slot s
  | .cmd1Poll slot ready => Sys2Proof.Machine.execCmd1Poll slot ready s
  | .mount slot r => Sys2Proof.Machine.execMount slot r s
  | .reconcileComplete slot => Sys2Proof.Machine.execReconcileComplete slot s
  | .folIoErr slot => Sys2Proof.Machine.execFolIoErr slot s
  | .retune slot ok => Sys2Proof.Machine.execRetune slot ok s
  | .recordCopyADone slot => Sys2Proof.Machine.execRecordCopyADone slot s
  | .recordOnFolio slot => Sys2Proof.Machine.execRecordOnFolio slot s
  | .anchorWrite slot => Sys2Proof.Machine.execAnchorWrite slot s
  | .anchorWriteDone slot => Sys2Proof.Machine.execAnchorWriteDone slot s
  | .lifeCheck slot life => Sys2Proof.Machine.execLifeCheck slot life s
  | .devsecMark => Sys2Proof.Machine.execDevsecMark s
  | .folArchiveAbandoned => Sys2Proof.Machine.execFolArchiveAbandoned s
  | .qdrRetrack => Sys2Proof.Machine.execQdrRetrack s
  | .qdrChannelLost ch => Sys2Proof.Machine.execQdrChannelLost ch s
  | .slotRecoveryDone slot r => Sys2Proof.Machine.execSlotRecoveryDone slot r s
  | .groupReencryptionDone group => Sys2Proof.Machine.execGroupReencryptionDone group s
  | .mainPowerReturn => Sys2Proof.Machine.execMainPowerReturn s
  | .vddCellarRestored => Sys2Proof.Machine.execVddCellarRestored s
  | .heartbeatRestored => Sys2Proof.Machine.execHeartbeatRestored s
  | .checkerReport events => Sys2Proof.Machine.execCheckerReport events s
  | .entropyWaitTimeout fn => Sys2Proof.Machine.execEntropyWaitTimeout fn s
  | .tombstoneWaitTimeout slot => Sys2Proof.Machine.execTombstoneWaitTimeout slot s
  | .bootDieTempReached => Sys2Proof.Machine.execBootDieTempReached s
  | .rehomeTakeover carrel => Sys2Proof.Machine.execRehomeTakeover carrel s
  | .slotRecoveryRequest slot => Sys2Proof.Machine.execSlotRecoveryRequest slot s

end Sys2Proof.Machine
end

