-- ==== Sys2Proof/Machine/Time.lean ====
section
/-!
DEFINITION. The passing of time: one fabric-clock cycle (R47, R454).
-/

namespace Sys2Proof.Machine

/-- Fabric cycles in a device second: 1.25 GHz against the crystal, or against the internal oscillator, whose rate lies within
3 % of it (R47, R454; log 75). -/
def cyclesPerSecond (c : Cellar) : Nat :=
  if c.xtalOk then 1250000000 else 1213592233 + Config.freeNat 150 [c.devSec.toNat] % 75067561

/-- One fabric-clock cycle (R47, R454). -/
def tick (s : State) : State :=
  let c := s.cel
  let c := if c.subSec + 1 < cyclesPerSecond c then { c with subSec := c.subSec + 1 }
    else { c with subSec := 0, devSec := c.devSec + 1 }
  mirrorIdle { s with now := s.now + 1, cel := c }

end Sys2Proof.Machine
end

