-- ==== Sys2Proof/Safety.lean ====
section
/-!
DEFINITION. What a safe run is: every step answers a next state; and the words in which the statements are written: what a
command answers, read through the registers, tables and memories of the state.
-/

namespace Sys2Proof

/-- The step from this state answers a next state. -/
def Machine.State.Safe (s : Machine.State) : Prop := ∃ t, Machine.step s = .next t

namespace Machine

/-! ## Tuns: what a command on a running routine answers -/

/-- The register file of a tun as R118 numbers it: element `j` of width `w` of vector register `r` is bits
[(j + 1) w − 1 : j w]. -/
def element (w : Nat) (x : Tun) (r j : Nat) : BitVec w := (Tab.getD x.v r 0).extractLsb' (w * j) w

/-- A scalar register as 64 bits; S0 reads zero (R115). -/
def scalar (x : Tun) (r : Nat) : BitVec 64 := if r = 0 then 0 else Tab.getD x.s r 0

/-- The command answers a next state that differs from `s` in tun `t` alone, where the tun is `y` with `P y`. -/
def AnswersTun (s : State) (t : Nat) (r : Res) (P : Tun → Prop) : Prop := ∃ y, r = .next (s.setTun t y) ∧ P y

/-- Of everything a tun holds, `y` differs from `x` at most in vector register `d` (with its tag and share kind) and in the
element width of the current word. -/
def OnlyVector (x y : Tun) (vew : BitVec 2) (d : Nat) : Prop :=
  y = { x with v := y.v, vtag := y.vtag, vkind := y.vkind, vew := vew } ∧
  ∀ r, r ≠ d → Tab.getD y.v r 0 = Tab.getD x.v r 0 ∧ vTag y r = vTag x r ∧ vKind y r = vKind x r

/-- The same, but for the sticky flag QSAT, which may be set. -/
def OnlyVectorAndQsat (x y : Tun) (vew : BitVec 2) (d : Nat) : Prop :=
  y = { x with v := y.v, vtag := y.vtag, vkind := y.vkind, vew := vew, qsat := y.qsat } ∧
  ∀ r, r ≠ d → Tab.getD y.v r 0 = Tab.getD x.v r 0 ∧ vTag y r = vTag x r ∧ vKind y r = vKind x r

/-- Of everything a tun holds, `y` differs from `x` at most in scalar register `d` (with its tag) and in the element width of
the current word. -/
def OnlyScalar (x y : Tun) (vew : BitVec 2) (d : Nat) : Prop :=
  y = { x with s := y.s, stag := y.stag, vew := vew } ∧
  ∀ r, r ≠ d → scalar y r = scalar x r ∧ sTag y r = sTag x r

/-- Elements of the destination: `f j` below `n`, unchanged from there on (R119). -/
def Elements (w : Nat) (x y : Tun) (d n : Nat) (f : Nat → BitVec w) : Prop :=
  ∀ j, element w y d j = if j < n then f j else element w x d j

/-- The command answers a next state in which element `j` of `VDST` is `f j` below the effective count, elements from there on
keep their values, and nothing else but the register's tag and kind changes (R119, R121). -/
def ElementWise (s : State) (t : Nat) (w : Microword) (f : Nat → BitVec (widthOf w.vew)) (r : Res) : Prop :=
  AnswersTun s t r fun y =>
    OnlyVector (s.tun t) y w.vew w.vdst.toNat ∧
    Elements (widthOf w.vew) (s.tun t) y w.vdst.toNat (effCount (s.tun t) (widthOf w.vew)) f

/-- The same for an operation that ignores VL and acts on all VLMAX elements (R119). -/
def WholeRegister (s : State) (t : Nat) (w : Microword) (f : Nat → BitVec (widthOf w.vew)) (r : Res) : Prop :=
  AnswersTun s t r fun y =>
    OnlyVector (s.tun t) y w.vew w.vdst.toNat ∧
    Elements (widthOf w.vew) (s.tun t) y w.vdst.toNat (vlMax (widthOf w.vew)) f

/-- Bits of an element in the opposite order of bytes. -/
def swapBytes (w : Nat) (a : BitVec w) : BitVec w :=
  (BitVec.ofBoolListLE ((List.range w).map fun i => a.getLsbD (8 * (w / 8 - 1 - i / 8) + i % 8))).setWidth w

/-- Number of one bits. -/
def countOnes (w : Nat) (a : BitVec w) : Nat := ((List.range w).filter fun i => a.getLsbD i).length

/-- The integer that an input element of the modular group stands for (R122). -/
def inputOf (w : Microword) {n : Nat} (e : BitVec n) : Int := if w.vmod.getLsbD 2 then e.toInt else e.toNat

/-- The value of the modulus register that `VMOD`[1:0] names. -/
def modulusOf (x : Tun) (w : Microword) : Nat := mreg x (w.vmod.toNat % 4)

/-- Element `e` is the residue of `z` modulo `q`: centred, or in [0, q). For an even `q` the residue q/2 has no centred
representative in the manual, and nothing is said of it. -/
def Residue (centre : Bool) (n q : Nat) (z : Int) (e : BitVec n) : Prop :=
  if centre then
    2 * (z % q) ≠ q → ∃ c : Int, (q : Int) ∣ c - z ∧ -(q : Int) < 2 * c ∧ 2 * c < q ∧ e = BitVec.ofInt n c
  else (e.toNat : Int) = z % q

/-- What the modular group asks of its operands (R122): a width of 16 or 32, a modulus that is not zero and below 2^15 at 16,
and `VMOD`[4] clear. -/
def ModularReady (x : Tun) (w : Microword) : Prop :=
  (w.vew = 1 ∨ w.vew = 2) ∧ modulusOf x w ≠ 0 ∧ (w.vew = 1 → modulusOf x w < 2 ^ 15) ∧ w.vmod.getLsbD 4 = false

/-- Every active element `e` of the destination satisfies `P j e`; the rest of the machine as under `ElementWise`. -/
def ElementsSatisfy (s : State) (t : Nat) (w : Microword) (P : Nat → BitVec (widthOf w.vew) → Prop) (r : Res) : Prop :=
  AnswersTun s t r fun y =>
    OnlyVector (s.tun t) y w.vew w.vdst.toNat ∧
    ∀ j, if j < effCount (s.tun t) (widthOf w.vew) then P j (element (widthOf w.vew) y w.vdst.toNat j)
      else element (widthOf w.vew) y w.vdst.toNat j = element (widthOf w.vew) (s.tun t) w.vdst.toNat j

/-- All VLMAX elements of the destination satisfy `P`. -/
def AllElementsSatisfy (s : State) (t : Nat) (w : Microword) (P : Nat → BitVec (widthOf w.vew) → Prop) (r : Res) : Prop :=
  AnswersTun s t r fun y =>
    OnlyVector (s.tun t) y w.vew w.vdst.toNat ∧
    ∀ j, j < vlMax (widthOf w.vew) → P j (element (widthOf w.vew) y w.vdst.toNat j)

/-- A saturating operation: the exact result `g j` clamped to `[lo, hi]`; QSAT set when one clamps and no source is tagged
(R123). -/
def Saturates (s : State) (t : Nat) (w : Microword) (lo hi : Int) (g : Nat → Int) (r : Res) : Prop :=
  let x := s.tun t
  let n := effCount x (widthOf w.vew)
  AnswersTun s t r fun y =>
    OnlyVectorAndQsat x y w.vew w.vdst.toNat ∧
    Elements (widthOf w.vew) x y w.vdst.toNat n (fun j => BitVec.ofInt _ (max lo (min hi (g j)))) ∧
    (y.qsat = true ↔ x.qsat = true ∨
      (vTag x w.vsrcA.toNat = false ∧ vTag x w.vsrcB.toNat = false ∧ ∃ j, j < n ∧ (g j < lo ∨ hi < g j)))

/-- The scalar destination takes `v`; S0 takes nothing. -/
def ScalarIs (x y : Tun) (w : Microword) (v : BitVec 64) : Prop :=
  OnlyScalar x y w.vew w.sd.toNat ∧ scalar y w.sd.toNat = if w.sd = 0 then 0 else v

/-- A scalar operation: the destination takes `res`, the flags are those of R130, and of the tun nothing else changes. -/
def ScalarResult (s : State) (t : Nat) (w : Microword) (res : BitVec 64) (carry : Bool) (r : Res) : Prop :=
  let x := s.tun t
  AnswersTun s t r fun y =>
    y = { x with s := y.s, stag := y.stag, vew := w.vew, fz := res == 0, fn := res.msb, fc := carry, ftag := y.ftag } ∧
    (∀ n, n ≠ w.sd.toNat → scalar y n = scalar x n ∧ sTag y n = sTag x n) ∧
    scalar y w.sd.toNat = if w.sd = 0 then 0 else res

/-- Lane-by-lane combination of two words in lanes of `n` bits. -/
def lanes (n : Nat) (f : BitVec n → BitVec n → BitVec n) (a b r : BitVec 64) : Prop :=
  ∀ i, i < 64 / n → r.extractLsb' (n * i) n = f (a.extractLsb' (n * i) n) (b.extractLsb' (n * i) n)

/-- A Keccak core takes a new value, and of the tun nothing else changes. -/
def KeccakBecomes (s : State) (t : Nat) (w : Microword) (c : Nat) (k : KecCore) (r : Res) : Prop :=
  AnswersTun s t r fun y =>
    y = { s.tun t with kec := y.kec, vew := w.vew } ∧ kecCore y c = k ∧ ∀ i, i ≠ c → kecCore y i = kecCore (s.tun t) i

/-- A SHA core takes a new value, and of the tun nothing else changes. -/
def ShaBecomes (s : State) (t : Nat) (w : Microword) (c : Nat) (k : ShaCore) (r : Res) : Prop :=
  AnswersTun s t r fun y =>
    y = { s.tun t with sha := y.sha, vew := w.vew } ∧ shaCore y c = k ∧ ∀ i, i ≠ c → shaCore y i = shaCore (s.tun t) i

/-- The low `k` bits of `VDST` take those of `v`, the bits above them keep their values, and nothing else changes but the
register's tag and kind; the tag is as R138 says. -/
def LowBits (s : State) (t : Nat) (w : Microword) (k : Nat) (v : Nat → Bool) (tag : Bool) (r : Res) : Prop :=
  let x := s.tun t
  let d := w.vdst.toNat
  AnswersTun s t r fun y =>
    OnlyVector x y w.vew d ∧
    (∀ i, i < 8192 → (Tab.getD y.v d 0).getLsbD i = if i < k then v i else (Tab.getD x.v d 0).getLsbD i) ∧
    (0 < k → vTag y d = (tag || (decide (k < 8192) && vTag x d)))

/-- The routine ends with the status, and nothing else happens. -/
def EndsRoutine (s : State) (t st : Nat) (r : Res) : Prop :=
  AnswersTun s t r fun y => y = { s.tun t with ended := some (.status st) }

/-! ## Scratch -/

/-- The units of a gang are distinct and the tun is one of them; a tun alone is its own gang (R134). -/
def GangOk (s : State) (t : Nat) : Prop := (gangOf s t (s.tun t)).Nodup ∧ t ∈ gangOf s t (s.tun t)

/-- The byte at address `a` of the scratch that the routine on tun `t` addresses: bits [20:19] select the gang's member
(R134). -/
def scratchByte (s : State) (t a : Nat) : Byte :=
  Mem.read (s.tun ((gangOf s t (s.tun t)).getD (a / 524288) t)).scratch (a % 524288)

/-- The tag of the scratch line that holds address `a`. -/
def scratchTag (s : State) (t a : Nat) : Bool :=
  (s.tun ((gangOf s t (s.tun t)).getD (a / 524288) t)).ltag.contains (a % 524288 / 64)

/-- Bytes of scratch that the routine addresses. -/
def scratchSize (s : State) (t : Nat) : Nat := 524288 * (gangOf s t (s.tun t)).length

/-- What a load or store of `bytes` bytes asks (R126, R139, R151): an untagged address register, an aligned address, every
byte inside the scratch, registers up to V31, and a legal increment field. -/
def AccessOk (s : State) (t : Nat) (w : Microword) (f : BitVec 6) (bytes first k : Nat) : Prop :=
  let x := s.tun t
  let a := (scalar x (f.toNat % 16)).toNat
  sTag x (f.toNat % 16) = false ∧ a % (widthOf w.vew / 8) = 0 ∧ a + bytes ≤ scratchSize s t ∧ first + k ≤ 32 ∧ f.toNat / 16 ≤ 1

/-- The scalar registers after a transfer: all as before, but the address register where the field asks for the
post-increment. -/
def PostIncremented (x y : Tun) (f : BitVec 6) (bytes : Nat) : Prop :=
  ∀ r, sTag y r = sTag x r ∧ scalar y r =
    if r ≠ 0 ∧ r = f.toNat % 16 ∧ f.toNat / 16 = 1 then scalar x r + BitVec.ofNat 64 bytes else scalar x r

/-! ## Sequencing -/

/-- The microword that the tun is about to run: the word in the control store at PC, whose check bits agree and on which no
fault is injected (R144, R451). -/
def WordAt (s : State) (t : Nat) (w : Microword) : Prop :=
  let raw := Tab.getD s.tuns.store (s.tun t).pc.toNat 0
  wordOk raw = true ∧ unpackWord raw = w ∧ storeInjected s t = false

/-- The tun as the word sees it: the gang's scratch, the word's element width. -/
def seen (s : State) (t : Nat) (w : Microword) : Tun := atWord w (gather s (gangOf s t (s.tun t)) (s.tun t))

/-- None of the word's actions ends the routine (R145). -/
def ActionsComplete (s : State) (t : Nat) (w : Microword) : Prop :=
  let x := seen s t w
  (runActs (envOf s t (s.tun t)) w x (wordActs w)
    (loopStep w (if w.seqOp = 2 ∨ w.seqOp = 4 then clearTested x w.cond else x)) none).isOk = true

/-- The word does nothing but sequence. -/
def PureSequencing (w : Microword) : Prop :=
  w.vop = 0 ∧ w.mld = 0 ∧ w.inq = 0 ∧ w.hcore = 0 ∧ w.tag = 0 ∧ w.rnd = 0 ∧ w.sop = 0 ∧ w.vlop = 0 ∧ w.mst = 0 ∧ w.outq = 0 ∧
  w.ctr.toNat / 4 = 0 ∧ w.trace = 0

/-- The condition that `COND` selects, for the codes of R148. -/
def conditionHolds (x : Tun) (outMax : Nat) (c : BitVec 6) : Bool :=
  (match c.toNat % 32 with
    | 0x01 => x.fz
    | 0x02 => x.fn
    | 0x03 => x.fc
    | 0x04 => x.qsat
    | 0x05 => x.qend
    | 0x06 => x.ct0 == 0
    | 0x07 => x.ct1 == 0
    | 0x08 => x.ct2 == 0
    | 0x09 => x.ct3 == 0
    | 0x0A => x.vl == 0
    | 0x0B => decide (outMax ≤ x.outCount)
    | _ => true) != c.getLsbD 5

/-- The condition code is defined, and reads no tagged flag (R148, R139). -/
def ConditionReadable (x : Tun) (c : BitVec 6) : Prop :=
  c.toNat % 32 ≤ 0x0B ∧ (1 ≤ c.toNat % 32 → c.toNat % 32 ≤ 3 → x.ftag = false)

/-- The word runs: the sequencer goes to `pc` with the return stack `st`, the routine `ended` so; pending requests are serviced
if the word is a safe point or the routine's last (R155, R157). -/
def SequencesTo (s : State) (t : Nat) (w : Microword) (pc : BitVec 14) (st : List (BitVec 14)) (ended : Option RoutineEnd)
    (r : Res) : Prop :=
  let last := decide (w.seqOp = 7) || decide (w.seqOp = 8)
  ∃ s', r = .next (if w.safe || last then servicePending s' t last else s') ∧
    (s'.tun t).pc = pc ∧ (s'.tun t).stack = st ∧ (s'.tun t).ended = ended ∧
    (s'.tun t).cycles = (s.tun t).cycles + wordCost w (seen s t w) ∧
    (s'.tun t).watchdog = (if w.safe then 0 else (s.tun t).watchdog + wordCost w (seen s t w))

/-! ## Slips: what an operation leaves behind -/

/-- The slip runs its last stage, its data has arrived and its unit accepts work; its opcode is of class `cls` with operation
byte `op` (R79, R81). -/
def SlipRuns (s : State) (sid : Nat) (sl : Slip) (cls op : Nat) : Prop :=
  s.slip? sid = some sl ∧ sl.phase = .running ∧ sl.final = true ∧ sl.readsLeft = 0 ∧ unitAwake s sl = true ∧
  csClass sl.cs = cls ∧ csOp sl.cs = op

/-- Neither the carrel nor the key restricts the slip to approved services (R320). -/
def PolicyAdmits (s : State) (sl : Slip) : Prop :=
  (s.carrel sl.carrel).approvedOnly = false ∧ ∀ k, sl.key = some k → k.approvedOnly = false

/-- Besides the slip itself, an operation changes at most the use counts of the slots it uses and the count of free values
drawn. -/
def OnlySlip (s s' : State) (sid : Nat) : Prop :=
  s' = { s with
    hop := { s.hop with slips := s'.hop.slips }, cat := { s.cat with slots := s'.cat.slots }, freeCtr := s'.freeCtr } ∧
  ∀ i, i ≠ sid → s'.slip? i = s.slip? i

/-- The command answers a next state in which the operation has run: the slip has its status, output and inline result, waits
for `EXECUTION_COMPLETE`, and satisfies `P`. -/
def Completes (s : State) (sid st : Nat) (out : Bytes) (outLen : Nat) (inl : BitVec 64) (P : Slip → Prop) (r : Res) : Prop :=
  ∃ s' y, r = .next s' ∧ OnlySlip s s' sid ∧ s'.slip? sid = some y ∧ y.phase = .executed ∧ y.status = st ∧ y.out = out ∧
    y.outLen = outLen ∧ y.inline = inl ∧ P y

/-- The operation ends with status `OK` and its output where it fits the area; a larger output is dropped, its size reported,
with `OUTPUT_TOO_SMALL`, and no key or secret is left (R83). -/
def Produces (s : State) (sid : Nat) (sl : Slip) (out : Bytes) (inl : BitVec 64) (P : Slip → Prop) (r : Res) : Prop :=
  (out.length ≤ (cxOf s sl).outMax → Completes s sid 0 out out.length inl P r) ∧
  ((cxOf s sl).outMax < out.length →
    Completes s sid 0x0303 [] out.length 0 (fun y => y.secret = none ∧ y.slotOps = []) r)

/-- The operation ends with a failure status and leaves nothing. -/
def FailsWith (s : State) (sid st : Nat) (r : Res) : Prop :=
  Completes s sid st [] 0 0 (fun y => y.secret = none ∧ y.slotOps = []) r

/-- A verification answers `OK` or `SIGNATURE_INVALID`, and no output (R189). -/
def Verdict (s : State) (sid : Nat) (ok : Bool) (r : Res) : Prop :=
  Completes s sid (if ok then 0 else 0x0405) [] 0 0 (fun y => y.secret = none ∧ y.slotOps = []) r

/-- The new key waits for its slot: class, material, and the attributes that segment 1 asks for (R323, R324). -/
def CreatesKey (sl : Slip) (cls : Nat) (mat : Bytes) (y : Slip) : Prop :=
  ∀ n, sl.destClaim = some n → ∃ x : Slot, y.slotOps = [.create n x] ∧ x.valid = true ∧ x.owner = sl.carrel ∧
    x.keyClass = cls ∧ x.material = mat ∧ x.keyLen = mat.length ∧ x.useCount = 0

/-- A secret result is held for the chain's next slip with `HOLD`, and otherwise becomes a key of the class that segment 1
names (R181, R250). -/
def KeepsSecret (sl : Slip) (k : Bytes) (y : Slip) : Prop :=
  if csHold sl.cs then y.secret = some k ∧ y.slotOps = []
  else y.secret = none ∧ CreatesKey sl (slipAttr sl.cs sl.exts).cls k y

def NoKey (y : Slip) : Prop := y.secret = none ∧ y.slotOps = []

/-- A digest or a derived value goes to the one destination that the slip names: the chain's carry, a new key, the DRES
registers, or the output (R250). -/
def Delivers (s : State) (sid : Nat) (sl : Slip) (d : Bytes) (r : Res) : Prop :=
  if csHold sl.cs then Completes s sid 0 [] 0 0 (fun y => y.secret = some d ∧ y.slotOps = []) r
  else if csDestUsed sl.cs then
    Completes s sid 0 [] 0 0 (fun y => y.secret = none ∧ CreatesKey sl (slipAttr sl.cs sl.exts).cls d y) r
  else if csClass sl.cs = 5 ∧ bit (csParam sl.cs) 63 = true then
    Completes s sid 0 [] 0 0 (fun y => y.secret = none ∧ y.slotOps = [.dres (csSet sl.cs) d]) r
  else Produces s sid sl d 0 NoKey r

/-- A symmetric operation ends: as `Produces`, with the lengths of `LEN64`; its data held whole, it changes its slip only, and
otherwise it has posted its output, which changes the ports and the requests in flight (R271 to R274). -/
def PipeEnds (s : State) (sid : Nat) (sl : Slip) (held : Bool) (out : Bytes) (r : Res) : Prop :=
  let big := decide ((cxOf s sl).outMax < out.length)
  let wide := bit (csParam sl.cs) 32 && !big
  ∃ s' y, r = .next s' ∧ s'.slip? sid = some y ∧ y.phase = .executed ∧ y.status = (if big then 0x0303 else 0) ∧
    y.out = (if big then [] else out) ∧ y.outLen = (if wide then out.length % 2 ^ 32 else out.length) ∧
    y.inline = (if wide then BitVec.ofNat 64 out.length else 0) ∧ NoKey y ∧
    (held = true → OnlySlip s s' sid) ∧
    s' = { s with hop := s'.hop, ports := s'.ports, cat := { s.cat with slots := s'.cat.slots }, freeCtr := s'.freeCtr }

/-- The new key's attributes are the segment's, narrowed to those of the key it copies (R329). -/
def CopiesKey (sl : Slip) (k : Slot) (y : Slip) : Prop :=
  let a := slipAttr sl.cs sl.exts
  ∀ n, sl.destClaim = some n → ∃ x : Slot, y.slotOps = [.create n x] ∧ x.keyClass = k.keyClass ∧ x.material = k.material ∧
    x.usage = a.usage &&& k.usage ∧
    x.useLimit = (if a.useLimit = 0 then k.useLimit else if k.useLimit = 0 then a.useLimit else min a.useLimit k.useLimit) ∧
    x.expiry = (if a.expiry = 0 then k.expiry else if k.expiry = 0 then a.expiry else min a.expiry k.expiry) ∧
    (k.approvedOnly = true → x.approvedOnly = true)

/-! ## The mailbox: a command in the window -/

/-- The function may give a command of this role: the function itself, its carrel, its session (R370 to R372). -/
def MayCommand (s : State) (fn : Nat) (role : Role) : Prop :=
  let free := field (s.mbx fn).cmdWin 8 4 = 0
  let session := sessionMatch (s.mbx fn) = true ∨ (fn = 0 ∧ s.tmp.lcs = .factory)
  match role with
  | .any => free
  | .d => fn = 0 ∧ free
  | .o => fn = 0 ∧ session
  | .oa => (fn = 0 ∨ (s.carrel fn).st ≠ .absent) ∧ session
  | .a => fn ≠ 0 ∧ (s.carrel fn).st ≠ .absent ∧ session
  | .od => fn = 0 ∧ (free ∨ sessionMatch (s.mbx fn) = true)

/-- `ADM_ENROL` of carrel 0's first key on the PF, which needs no session (R482). -/
def EnrolOpen (s : State) (fn code : Nat) (role : Role) : Prop :=
  code = 0x0014 ∧ role = .oa ∧ fn = 0 ∧ (s.tmp.lcs = .provisioned ∨ s.tmp.lcs = .service) ∧
  (s.reg.admins.any fun p => p.1 / 4 == 0) = false

/-- The device is READY, or its boot is over and only its entropy unit has failed (R351, R369, log 154). -/
def DevServes (s : State) : Prop :=
  s.reg.dev = .ready ∨ (s.reg.dev = .failed ∧ s.ent.state = .failed ∧ s.reg.pairsFenced < 2 ∧ 13 ≤ s.boot.stage)

/-- The function's window holds this command with this payload, taken in sequence, and nothing that is checked before the
command's own conditions stands against it: the device serves and is not shed, in a life-cycle state that serves (R361 to R370). -/
def Issued (s : State) (fn code : Nat) (role : Role) (p : Bytes) : Prop :=
  let m := s.mbx fn
  canServe s fn = true ∧ field m.cmdWin 0 2 = code ∧ framePayload m = p ∧ field m.cmdWin 2 2 ≤ 4080 ∧ field m.cmdWin 12 4 = 0 ∧
  hseqOk m = true ∧ isReplay m = false ∧ (MayCommand s fn role ∨ EnrolOpen s fn code role) ∧ DevServes s ∧
  s.cel.stage = 0 ∧
  (s.tmp.lcs = .factory ∨ s.tmp.lcs = .provisioned ∨ s.tmp.lcs = .service) ∧ queueFull s = false

/-- The command is answered with `a`, and has made `t` of the state in which it was accepted. -/
def AnswersIn (t : State) (fn : Nat) (a : Ans) (r : Res) : Prop := r = .next (respond t fn a)

/-- A change of carrel `c` takes effect at once: no command of the registrar waits for the standby, and the carrel is not one
whose changes are mirrored (R363, R423). -/
def Unshared (s : State) (c : Nat) : Prop := syncBusy s = false ∧ syncBlocked s c = false ∧ mirrors s c = false

/-- The command waits in its mailbox for `w`, having made `t` of the state in which it was accepted. -/
def WaitsIn (t : State) (fn : Nat) (w : MbxWait) (r : Res) : Prop := r = .next (t.setMbx fn { t.mbx fn with wait := w })

/-! ## The digest result registers -/

/-- The form of the digest result registers (R256): areas of at most 64 and 48 bytes, a source code the spec lists, `LEN_B` 0 or
48, and an even `DRES_SEQ`, since no update is in progress between commands. -/
def DresFormed (d : Dres) : Prop :=
  d.areaA.length ≤ 64 ∧ d.areaB.length ≤ 48 ∧ d.source.toNat ≤ 3 ∧ (d.lenB = 0 ∨ d.lenB = 48) ∧ d.seq.toNat % 2 = 0

end Machine

end Sys2Proof
end

