-- ==== Sys2Proof/Certificates/Slice0/Obligations.lean ====
section
/-!
DEFINITION. The statements for the provers: what the commands do, rule by rule, and what every step keeps.
-/

open Sys2Proof Sys2Proof.Machine

/-! ## Open stacks: the vector unit -/

/-- R121, R119: the integer group, element by element, at every width. -/
def Obligations.IntegerVectorOpsWriteTheirResults : Prop :=
  ∀ (s : State) (t : Nat) (w : Microword), tunLive (s.tun t) = true →
    let x := s.tun t
    let n := widthOf w.vew
    let a := element n x w.vsrcA.toNat
    let b := element n x w.vsrcB.toNat
    ElementWise s t w (fun j => a j + b j) (exec (.vadd t w) s) ∧
    ElementWise s t w (fun j => a j - b j) (exec (.vsub t w) s) ∧
    ElementWise s t w (fun j => a j * b j) (exec (.vmull t w) s) ∧
    ElementWise s t w (fun j => BitVec.ofNat n ((a j).toNat * (b j).toNat / 2 ^ n)) (exec (.vmulhu t w) s) ∧
    ElementWise s t w (fun j => BitVec.ofInt n ((a j).toInt * (b j).toInt / 2 ^ n)) (exec (.vmulhs t w) s) ∧
    ElementWise s t w (fun j => if (a j).ult (b j) then a j else b j) (exec (.vminu t w) s) ∧
    ElementWise s t w (fun j => if (a j).ult (b j) then b j else a j) (exec (.vmaxu t w) s) ∧
    ElementWise s t w (fun j => if (b j).slt (a j) then b j else a j) (exec (.vmins t w) s) ∧
    ElementWise s t w (fun j => if (a j).slt (b j) then b j else a j) (exec (.vmaxs t w) s) ∧
    ElementWise s t w (fun j => -(a j)) (exec (.vneg t w) s) ∧
    ElementWise s t w a (exec (.vmov t w) s) ∧
    ElementWise s t w (fun _ => w.imm.setWidth n) (exec (.vbcast t w) s) ∧
    ElementWise s t w (fun _ => (scalar x (w.vsrcB.toNat % 16)).setWidth n) (exec (.vbcasts t w) s) ∧
    AnswersTun s t (exec (.vnop t w) s) (fun y => y = atWord w x)

/-- R121: the logic and shift group at every width; the two shifts by an element need an untagged count (R139). -/
def Obligations.LogicAndShiftVectorOpsWriteTheirResults : Prop :=
  ∀ (s : State) (t : Nat) (w : Microword), tunLive (s.tun t) = true →
    let x := s.tun t
    let n := widthOf w.vew
    let a := element n x w.vsrcA.toNat
    let b := element n x w.vsrcB.toNat
    let d := element n x w.vdst.toNat
    let k := w.imm.toNat % 64
    ElementWise s t w (fun j => a j &&& b j) (exec (.vand t w) s) ∧
    ElementWise s t w (fun j => a j ||| b j) (exec (.vor t w) s) ∧
    ElementWise s t w (fun j => a j ^^^ b j) (exec (.vxor t w) s) ∧
    ElementWise s t w (fun j => ~~~(a j)) (exec (.vnot t w) s) ∧
    ElementWise s t w (fun j => a j &&& ~~~(b j)) (exec (.vandn t w) s) ∧
    ElementWise s t w (fun j => (a j &&& d j) ||| (b j &&& ~~~(d j))) (exec (.vselb t w) s) ∧
    ElementWise s t w (fun j => a j <<< k) (exec (.vshl t w) s) ∧
    ElementWise s t w (fun j => a j >>> k) (exec (.vshr t w) s) ∧
    ElementWise s t w (fun j => (a j).sshiftRight k) (exec (.vsra t w) s) ∧
    ElementWise s t w (fun j => (a j).rotateLeft k) (exec (.vrol t w) s) ∧
    ElementWise s t w (fun j => BitVec.ofNat n (countOnes n (a j))) (exec (.vpopc t w) s) ∧
    ElementWise s t w (fun j => (a j).reverse) (exec (.vbitrev t w) s) ∧
    ElementWise s t w (fun j => swapBytes n (a j)) (exec (.vbswap t w) s) ∧
    (vTag x w.vsrcB.toNat = false →
      ElementWise s t w (fun j => a j <<< ((b j).toNat % n)) (exec (.vshlv t w) s) ∧
      ElementWise s t w (fun j => a j >>> ((b j).toNat % n)) (exec (.vshrv t w) s)) ∧
    (vTag x w.vsrcB.toNat = true →
      AnswersTun s t (exec (.vshlv t w) s) (fun y => y = { x with ended := some (.status 0x0702) }) ∧
      AnswersTun s t (exec (.vshrv t w) s) (fun y => y = { x with ended := some (.status 0x0702) }))

/-- R122: the modular group gives exact residues, centred or not, of inputs read as signed or not. -/
def Obligations.ModularVectorOpsAreExact : Prop :=
  ∀ (s : State) (t : Nat) (w : Microword), tunLive (s.tun t) = true → ModularReady (s.tun t) w →
    let x := s.tun t
    let n := widthOf w.vew
    let q := modulusOf x w
    let a := fun j => inputOf w (element n x w.vsrcA.toNat j)
    let b := fun j => inputOf w (element n x w.vsrcB.toNat j)
    let res := fun (z : Int) (e : BitVec n) => Residue (w.vmod.getLsbD 3) n q z e
    ElementsSatisfy s t w (fun j e => res (a j + b j) e) (exec (.vmadd t w) s) ∧
    ElementsSatisfy s t w (fun j e => res (a j - b j) e) (exec (.vmsub t w) s) ∧
    ElementsSatisfy s t w (fun j e => res (-(a j)) e) (exec (.vmneg t w) s) ∧
    ElementsSatisfy s t w (fun j e => res (a j * b j) e) (exec (.vmbar t w) s) ∧
    ElementsSatisfy s t w (fun j e => res (a j) e) (exec (.vmred t w) s) ∧
    ElementsSatisfy s t w (fun j e => res (if (q : Int) ≤ a j then a j - q else a j) e) (exec (.vmcsub t w) s) ∧
    ElementsSatisfy s t w (fun j e => Residue true n q (a j) e) (exec (.vmcent t w) s) ∧
    (q % 2 = 1 → ElementsSatisfy s t w
      (fun j e => ∀ z : Int, (q : Int) ∣ z * 2 ^ n - a j * b j → res z e) (exec (.vmmont t w) s))

/-- R123: the fixed-point group at widths 16 and 32: clamping with the sticky QSAT, and rounding with ties toward +∞. -/
def Obligations.FixedPointVectorOpsClampAndRound : Prop :=
  ∀ (s : State) (t : Nat) (w : Microword), tunLive (s.tun t) = true → (w.vew = 1 ∨ w.vew = 2) →
    let x := s.tun t
    let n := widthOf w.vew
    let a := element n x w.vsrcA.toNat
    let b := element n x w.vsrcB.toNat
    let k := w.shr.toNat + 1
    Saturates s t w (-2 ^ (n - 1)) (2 ^ (n - 1) - 1) (fun j => (a j).toInt + (b j).toInt) (exec (.vqadds t w) s) ∧
    Saturates s t w (-2 ^ (n - 1)) (2 ^ (n - 1) - 1) (fun j => (a j).toInt - (b j).toInt) (exec (.vqsubs t w) s) ∧
    Saturates s t w 0 (2 ^ n - 1) (fun j => (a j).toNat + (b j).toNat) (exec (.vqaddu t w) s) ∧
    Saturates s t w 0 (2 ^ n - 1) (fun j => ((a j).toNat : Int) - (b j).toNat) (exec (.vqsubu t w) s) ∧
    ElementWise s t w (fun j => BitVec.ofInt n (((a j).toInt + 2 ^ (k - 1)) / 2 ^ k)) (exec (.vrshrs t w) s) ∧
    ElementWise s t w (fun j => BitVec.ofNat n (((a j).toNat + 2 ^ (k - 1)) / 2 ^ k)) (exec (.vrshru t w) s) ∧
    ElementWise s t w (fun j => BitVec.ofInt n (((a j).toInt * (b j).toInt + 2 ^ (n - 1)) / 2 ^ n)) (exec (.vrmulhs t w) s) ∧
    ElementWise s t w (fun j => BitVec.ofNat n (((a j).toNat * (b j).toNat + 2 ^ (n - 1)) / 2 ^ n)) (exec (.vrmulhu t w) s)

/-- R121: compares give all ones or zero; the reductions and the extraction write the scalar destination; `VCOMPRESS` packs the
chosen elements and counts them. An index of `VEXT` at or above VLMAX names no element, and nothing is said of it. -/
def Obligations.CompareAndReduceVectorOpsWriteTheirResults : Prop :=
  ∀ (s : State) (t : Nat) (w : Microword), tunLive (s.tun t) = true →
    let x := s.tun t
    let n := widthOf w.vew
    let m := effCount x n
    let a := element n x w.vsrcA.toNat
    let b := element n x w.vsrcB.toNat
    let mask := fun (p : Bool) => if p then BitVec.allOnes n else 0#n
    let chosen := (List.range m).filter fun j => b j != 0
    ElementWise s t w (fun j => mask (a j == b j)) (exec (.vcmpeq t w) s) ∧
    ElementWise s t w (fun j => mask (a j != b j)) (exec (.vcmpne t w) s) ∧
    ElementWise s t w (fun j => mask ((a j).ult (b j))) (exec (.vcmpltu t w) s) ∧
    ElementWise s t w (fun j => mask ((a j).slt (b j))) (exec (.vcmplts t w) s) ∧
    ElementWise s t w (fun j => mask ((a j).ule (b j))) (exec (.vcmpleu t w) s) ∧
    ElementWise s t w (fun j => mask ((a j).sle (b j))) (exec (.vcmples t w) s) ∧
    (0 < m →
      AnswersTun s t (exec (.vredadd t w) s)
        (fun y => ScalarIs x y w (BitVec.ofNat 64 ((List.range m).map fun j => (a j).toNat).sum)) ∧
      AnswersTun s t (exec (.vredor t w) s)
        (fun y => ScalarIs x y w (((List.range m).map a).foldl (fun p e => p ||| e.setWidth 64) 0)) ∧
      AnswersTun s t (exec (.vext t w) s) (fun y =>
        OnlyScalar x y w.vew w.sd.toNat ∧
        (w.imm.toNat % 1024 < vlMax n →
          scalar y w.sd.toNat = if w.sd = 0 then 0 else (a (w.imm.toNat % 1024)).setWidth 64)) ∧
      AnswersTun s t (exec (.vcompress t w) s) (fun y =>
        y = { x with v := y.v, vtag := y.vtag, vkind := y.vkind, s := y.s, stag := y.stag, vew := w.vew } ∧
        (∀ r, r ≠ w.vdst.toNat → Tab.getD y.v r 0 = Tab.getD x.v r 0) ∧
        (∀ r, r ≠ w.sd.toNat → scalar y r = scalar x r) ∧
        scalar y w.sd.toNat = (if w.sd = 0 then 0 else BitVec.ofNat 64 chosen.length) ∧
        (∀ i (h : i < chosen.length), element n y w.vdst.toNat i = a chosen[i]) ∧
        ∀ j, m ≤ j → element n y w.vdst.toNat j = element n x w.vdst.toNat j)) ∧
    (m = 0 → ∀ c, c = exec (.vredadd t w) s ∨ c = exec (.vredor t w) s ∨ c = exec (.vext t w) s ∨ c = exec (.vcompress t w) s →
      AnswersTun s t c (fun y => y = atWord w x))

/-- R124: one layer of the Cooley–Tukey and of the Gentleman–Sande butterfly. With stride `h` and R = 2^w, `p * R` stands for
the twiddle product, so `p` is that product times R^−1. -/
def Obligations.ButterfliesComputeOneLayer : Prop :=
  ∀ (s : State) (t : Nat) (w : Microword), tunLive (s.tun t) = true → ModularReady (s.tun t) w →
    modulusOf (s.tun t) w % 2 = 1 → w.vperm.toNat / 16 = 0 → 2 * 2 ^ (w.vperm.toNat % 16) ≤ vlMax (widthOf w.vew) →
    let x := s.tun t
    let n := widthOf w.vew
    let q := modulusOf x w
    let h := 2 ^ (w.vperm.toNat % 16)
    let a := fun j => inputOf w (element n x w.vsrcA.toNat j)
    let b := fun j => inputOf w (element n x w.vsrcB.toNat j)
    let res := fun (z : Int) (e : BitVec n) => Residue (w.vmod.getLsbD 3) n q z e
    AllElementsSatisfy s t w (fun j e => ∀ p : Int,
      if j / h % 2 = 0 then (q : Int) ∣ p * 2 ^ n - b j * a (j + h) → res (a j + p) e
      else (q : Int) ∣ p * 2 ^ n - b (j - h) * a j → res (a (j - h) - p) e) (exec (.vbfly t w) s) ∧
    AllElementsSatisfy s t w (fun j e =>
      if j / h % 2 = 0 then res (a j + a (j + h)) e
      else ∀ p : Int, (q : Int) ∣ p * 2 ^ n - (a (j - h) - a j) * b (j - h) → res p e) (exec (.vbflyi t w) s)

/-- R125, R121: the fixed patterns within blocks, the permutation by an untagged index vector, the slides, and zip with its
inverse, on all VLMAX elements whatever VL is. -/
def Obligations.PermutationsMoveWholeRegisters : Prop :=
  ∀ (s : State) (t : Nat) (w : Microword), tunLive (s.tun t) = true → w.vew ≠ 3 →
    let x := s.tun t
    let n := widthOf w.vew
    let a := element n x w.vsrcA.toNat
    let b := element n x w.vsrcB.toNat
    let i := w.imm.toNat % 1024
    let k := w.vperm.toNat % 16
    let blk := 2 ^ k
    (blk ≤ vlMax n →
      (w.vperm.toNat / 16 = 0 → WholeRegister s t w
        (fun j => a (j / blk * blk + (BitVec.ofNat k (j % blk)).reverse.toNat)) (exec (.vpermf t w) s)) ∧
      (w.vperm.toNat / 16 = 1 → WholeRegister s t w
        (fun j => a (j / blk * blk + (j % blk + blk / 2) % blk)) (exec (.vpermf t w) s)) ∧
      (w.vperm.toNat / 16 = 2 → WholeRegister s t w
        (fun j => a (j / blk * blk + (j % blk + 1) % blk)) (exec (.vpermf t w) s)) ∧
      (w.vperm.toNat / 16 = 3 → WholeRegister s t w
        (fun j => a (j / blk * blk + (blk - 1 - j % blk))) (exec (.vpermf t w) s))) ∧
    (vTag x w.vsrcB.toNat = false → WholeRegister s t w
      (fun j => if (b j).toNat < vlMax n then a (b j).toNat else 0) (exec (.vpermv t w) s)) ∧
    (vTag x w.vsrcB.toNat = true →
      AnswersTun s t (exec (.vpermv t w) s) (fun y => y = { x with ended := some (.status 0x0702) })) ∧
    WholeRegister s t w (fun j => if i ≤ j then a (j - i) else 0) (exec (.vslideup t w) s) ∧
    WholeRegister s t w (fun j => if j + i < vlMax n then a (j + i) else 0) (exec (.vslidedn t w) s) ∧
    WholeRegister s t w (fun j => if j % 2 = 0 then a (j / 2) else b (j / 2)) (exec (.vzip t w) s) ∧
    WholeRegister s t w (fun j => if j < vlMax n / 2 then a (2 * j) else a (2 * (j - vlMax n / 2) + 1)) (exec (.vunzip t w) s)

/-- R121: widening, narrowing and bit packing. A field width above the element width has no stated result. -/
def Obligations.WidthAndPackingOpsWriteTheirResults : Prop :=
  ∀ (s : State) (t : Nat) (w : Microword), tunLive (s.tun t) = true →
    let x := s.tun t
    let n := widthOf w.vew
    let m := effCount x n
    let a := element n x w.vsrcA.toNat
    let k := w.imm.toNat % 64
    let half := min m (vlMax n / 2)
    AnswersTun s t (exec (.vwidenu t w) s) (fun y => OnlyVector x y w.vew w.vdst.toNat ∧
      Elements (2 * n) x y w.vdst.toNat half (fun j => (a j).setWidth (2 * n))) ∧
    AnswersTun s t (exec (.vwidens t w) s) (fun y => OnlyVector x y w.vew w.vdst.toNat ∧
      Elements (2 * n) x y w.vdst.toNat half (fun j => (a j).signExtend (2 * n))) ∧
    AnswersTun s t (exec (.vnarrow t w) s) (fun y => OnlyVector x y w.vew w.vdst.toNat ∧
      Elements (n / 2) x y w.vdst.toNat m (fun j => (a j).setWidth (n / 2))) ∧
    (k ≤ n →
      AnswersTun s t (exec (.vpackb t w) s) (fun y => OnlyVector x y w.vew w.vdst.toNat ∧
        (∀ i, i < k * m → (Tab.getD y.v w.vdst.toNat 0).getLsbD i = (a (i / k)).getLsbD (i % k)) ∧
        ∀ j, m ≤ j → element n y w.vdst.toNat j = element n x w.vdst.toNat j) ∧
      ElementWise s t w
        (fun j => ((Tab.getD x.v w.vsrcA.toNat 0).extractLsb' (k * j) k).setWidth n) (exec (.vunpackb t w) s))

/-- R121, R136: the carry-less products at width 64, bit by bit; and the share conversions and the refresh, which leave the
value as it is and give a tagged result its new share kind. -/
def Obligations.CarrylessAndShareOpsWriteTheirResults : Prop :=
  ∀ (s : State) (t : Nat) (w : Microword), tunLive (s.tun t) = true →
    let x := s.tun t
    let n := widthOf w.vew
    let m := effCount x n
    let a := element n x w.vsrcA.toNat
    let b := element n x w.vsrcB.toNat
    let coef := fun (j i : Nat) =>
      ((List.range 64).filter fun k => (b j).getLsbD k && decide (k ≤ i) && (a j).getLsbD (i - k)).length % 2 == 1
    (w.vew = 3 →
      ElementsSatisfy s t w (fun j e => ∀ i, i < 64 → e.getLsbD i = coef j i) (exec (.vclmull t w) s) ∧
      ElementsSatisfy s t w (fun j e => ∀ i, i < 64 → e.getLsbD i = coef j (64 + i)) (exec (.vclmulh t w) s)) ∧
    (AnswersTun s t (exec (.va2b t w) s) fun y => OnlyVector x y w.vew w.vdst.toNat ∧ Elements n x y w.vdst.toNat m a ∧
      (0 < m → vTag x w.vsrcA.toNat = true → vTag y w.vdst.toNat = true ∧ vKind y w.vdst.toNat = .boolean)) ∧
    (modulusOf x w ≠ 0 → w.vmod.getLsbD 4 = false →
      AnswersTun s t (exec (.vb2a t w) s) fun y => OnlyVector x y w.vew w.vdst.toNat ∧ Elements n x y w.vdst.toNat m a ∧
        (0 < m → vTag x w.vsrcA.toNat = true →
          vTag y w.vdst.toNat = true ∧ ∃ i, vKind y w.vdst.toNat = .arithM i ∧ i.val = w.vmod.toNat % 4)) ∧
    (AnswersTun s t (exec (.vrefresh t w) s) fun y => OnlyVector x y w.vew w.vdst.toNat ∧ Elements n x y w.vdst.toNat m a ∧
      (0 < m → vTag x w.vsrcA.toNat = true →
        vTag y w.vdst.toNat = true ∧ vKind y w.vdst.toNat = vKind x w.vsrcA.toNat))

/-- R138, R119: the tag of a result is the OR of its sources' tags, with the old tag where only part of the register is
written; with an effective count of zero nothing changes. -/
def Obligations.ResultTagsAreTheOrOfSourceTags : Prop :=
  ∀ (s : State) (t : Nat) (w : Microword), tunLive (s.tun t) = true →
    let x := s.tun t
    let n := widthOf w.vew
    let m := effCount x n
    let ta := vTag x w.vsrcA.toNat
    let tb := vTag x w.vsrcB.toNat
    let td := vTag x w.vdst.toNat
    let part := decide (m < vlMax n) && td
    let tags := fun (c : Res) (src : Bool) => AnswersTun s t c fun y =>
      vTag y w.vdst.toNat = if m = 0 then td else src || part
    tags (exec (.vadd t w) s) (ta || tb) ∧ tags (exec (.vmull t w) s) (ta || tb) ∧ tags (exec (.vxor t w) s) (ta || tb) ∧
    tags (exec (.vand t w) s) (ta || tb) ∧ tags (exec (.vmov t w) s) ta ∧ tags (exec (.vnot t w) s) ta ∧
    tags (exec (.vselb t w) s) (ta || tb || td) ∧ tags (exec (.vcmpeq t w) s) (ta || tb) ∧
    tags (exec (.vbcast t w) s) false ∧ tags (exec (.vbcasts t w) s) (sTag x (w.vsrcB.toNat % 16)) ∧
    (0 < m → w.sd ≠ 0 → AnswersTun s t (exec (.vredor t w) s) fun y => sTag y w.sd.toNat = ta) ∧
    (0 < m → w.sd ≠ 0 → AnswersTun s t (exec (.vredadd t w) s) fun y => sTag y w.sd.toNat = ta) ∧
    (AnswersTun s t (exec (.sadd t w) s) fun y =>
      y.ftag = (sTag x w.sa.toNat || sTag x w.sb.toNat) ∧ (w.sd ≠ 0 → sTag y w.sd.toNat = y.ftag)) ∧
    (AnswersTun s t (exec (.sli t w) s) fun y => y.ftag = false ∧ sTag y w.sd.toNat = false)


/-- R130, R131, R139: scalar operations write their result and the flags; `SMSET` loads a modulus from a public value
above 1, and ends the routine otherwise. -/
def Obligations.ScalarOpsWriteResultAndFlags : Prop :=
  (∀ (s : State) (t : Nat) (w : Microword), tunLive (s.tun t) = true →
    let x := s.tun t
    let a := scalar x w.sa.toNat
    let b := scalar x w.sb.toNat
    let sh := b.toNat % 64
    AnswersTun s t (exec (.snop t w) s) (fun y => y = atWord w x) ∧
    ScalarResult s t w (a + b) (decide (2 ^ 64 ≤ a.toNat + b.toNat)) (exec (.sadd t w) s) ∧
    ScalarResult s t w (a - b) (a.ult b) (exec (.ssub t w) s) ∧
    ScalarResult s t w (a &&& b) false (exec (.sand t w) s) ∧
    ScalarResult s t w (a ||| b) false (exec (.sor t w) s) ∧
    ScalarResult s t w (a ^^^ b) false (exec (.sxor t w) s) ∧
    ScalarResult s t w (a <<< sh) false (exec (.sshl t w) s) ∧
    ScalarResult s t w (a >>> sh) false (exec (.sshr t w) s) ∧
    ScalarResult s t w (a.sshiftRight sh) false (exec (.ssra t w) s) ∧
    ScalarResult s t w (a * b) false (exec (.smul t w) s) ∧
    ScalarResult s t w (w.imm.setWidth 64) false (exec (.sli t w) s) ∧
    (∃ res : BitVec 64, ScalarResult s t w res false (exec (.slih t w) s) ∧ res.extractLsb' 32 32 = w.imm ∧
      (w.sa = w.sd → res.extractLsb' 0 32 = a.extractLsb' 0 32)) ∧
    ScalarResult s t w (if a.ult b then 1 else 0) false (exec (.scmpltu t w) s) ∧
    ScalarResult s t w (if a = b then 1 else 0) false (exec (.scmpeq t w) s) ∧
    ScalarResult s t w ((a >>> (8 * (w.imm.toNat % 8))) &&& 0xFF) false (exec (.sextb t w) s) ∧
    ScalarResult s t w (BitVec.ofNat 64 x.vl) false (exec (.sgetvl t w) s) ∧
    ScalarResult s t w (if a.ult b then a else b) false (exec (.smin t w) s) ∧
    ScalarResult s t w (if a.ult b then b else a) false (exec (.smax t w) s) ∧
    (∃ r, ScalarResult s t w r false (exec (.sadd8 t w) s) ∧ lanes 8 (· + ·) a b r) ∧
    (∃ r, ScalarResult s t w r false (exec (.sadd16 t w) s) ∧ lanes 16 (· + ·) a b r) ∧
    (∃ r, ScalarResult s t w r false (exec (.sadd32 t w) s) ∧ lanes 32 (· + ·) a b r) ∧
    (∃ r, ScalarResult s t w r false (exec (.ssub8 t w) s) ∧ lanes 8 (· - ·) a b r) ∧
    (∃ r, ScalarResult s t w r false (exec (.ssub16 t w) s) ∧ lanes 16 (· - ·) a b r) ∧
    (∃ r, ScalarResult s t w r false (exec (.ssub32 t w) s) ∧ lanes 32 (· - ·) a b r)) ∧
  (∀ (s : State) (t : Nat) (w : Microword), tunLive (s.tun t) = true →
    let x := s.tun t
    let m := (scalar x w.sa.toNat).extractLsb' 0 31
    (sTag x w.sa.toNat = false → 2 ≤ m.toNat → AnswersTun s t (exec (.smset t w) s) fun y =>
      y = { x with m0 := y.m0, m1 := y.m1, m2 := y.m2, m3 := y.m3, vew := w.vew, fz := y.fz, fn := y.fn, fc := y.fc, ftag := y.ftag } ∧
      mreg y (w.imm.toNat % 4) = m.toNat ∧ ∀ i, i < 4 → i ≠ w.imm.toNat % 4 → mreg y i = mreg x i) ∧
    (sTag x w.sa.toNat = false → m.toNat < 2 → EndsRoutine s t 0x0701 (exec (.smset t w) s)) ∧
    (sTag x w.sa.toNat = true → EndsRoutine s t 0x0702 (exec (.smset t w) s)))

/-- R132, R133, R152: the actions of the hash cores. Keccak-f and the SHA compressions themselves are the published functions,
which the model leaves uninterpreted. -/
def Obligations.HashCoreActionsActOnTheNamedCore : Prop :=
  ∀ (s : State) (t : Nat) (w : Microword), tunLive (s.tun t) = true →
    let x := s.tun t
    let core := w.hcore.toNat % 8
    let lo := w.imm.toNat % 256
    let mid := w.imm.toNat / 256 % 256
    let hi := w.imm.toNat / 65536 % 256
    let src := Tab.getD x.v w.vsrcA.toNat 0
    let ta := vTag x w.vsrcA.toNat
    (1 ≤ core → core ≤ 4 →
      let c := core - 1
      let k := kecCore x c
      (1 ≤ lo → lo ≤ 24 →
        KeccakBecomes s t w c { st := 0, rate := lo, tag := false } (exec (.hcoreReset t w) s)) ∧
      (lo + mid ≤ 8 * k.rate → KeccakBecomes s t w c
        { st := k.st ^^^ ((src.extractLsb' 0 (8 * lo)).setWidth 1600 <<< (8 * mid)), rate := k.rate, tag := k.tag || ta }
        (exec (.hcoreAbsorb t w) s)) ∧
      (1 ≤ hi → hi ≤ 24 → mid < 8 * hi → KeccakBecomes s t w c
        { st := k.st ^^^ (BitVec.ofNat 1600 lo <<< (8 * mid)) ^^^ (0x80#1600 <<< (8 * (8 * hi - 1))), rate := hi, tag := k.tag }
        (exec (.hcorePad t w) s)) ∧
      KeccakBecomes s t w c
        { st := BitVec.ofNat 1600 (unle (fit 200 (Config.compute .keccakF [le 200 k.st.toNat]))), rate := k.rate, tag := k.tag }
        (exec (.hcorePermute t w) s) ∧
      (lo + mid ≤ 200 →
        LowBits s t w (8 * lo) (fun i => k.st.getLsbD (8 * mid + i)) k.tag (exec (.hcoreSqueeze t w) s)) ∧
      LowBits s t w 1600 (fun i => k.st.getLsbD i) k.tag (exec (.hcoreSave t w) s) ∧
      KeccakBecomes s t w c { st := src.setWidth 1600, rate := k.rate, tag := k.tag || ta } (exec (.hcoreRestore t w) s)) ∧
    (5 ≤ core → core ≤ 6 →
      let c := core - 5
      let k := shaCore x c
      let n := if k.mode ≤ 1 then 32 else 64
      (w.imm.toNat % 8 ≤ 4 → ShaBecomes s t w c { mode := w.imm.toNat % 8, h := [], tag := false } (exec (.hcoreReset t w) s)) ∧
      ShaBecomes s t w c
        { mode := k.mode, h := fit n (Config.compute (.shaBlock k.mode) [shaValue k, le (2 * n) src.toNat]), tag := k.tag || ta }
        (exec (.hcoreCompress t w) s) ∧
      LowBits s t w (8 * n) (fun i => (BitVec.ofNat 512 (unle (shaValue k))).getLsbD i) k.tag (exec (.hcoreSave t w) s) ∧
      ShaBecomes s t w c { mode := k.mode, h := le n src.toNat, tag := k.tag || ta } (exec (.hcoreRestore t w) s))

/-- R126, R128, R134, R151: loads of one to four interleaved fields and the broadcast load, which leave scratch as it is. A store
writes the bytes of its elements, interleaved, at the address its register holds; every other byte of scratch, and everything else
but an incremented address register, keeps its value. -/
def Obligations.LoadsAndStoresMoveInterleavedFields : Prop :=
  (∀ (s : State) (t : Nat) (w : Microword), tunLive (s.tun t) = true → GangOk s t →
    let x := s.tun t
    let n := widthOf w.vew
    let m := effCount x n
    let d := w.vdst.toNat
    let a := (scalar x (w.mldAddr.toNat % 16)).toNat
    (∀ k, k = w.mld.toNat → 1 ≤ k → k ≤ 4 → AccessOk s t w w.mldAddr (m * k * (n / 8)) d k →
      AnswersTun s t (exec (.mldLoad t w) s) fun y =>
        y = { x with v := y.v, vtag := y.vtag, vkind := y.vkind, s := y.s, stag := y.stag, vew := w.vew } ∧
        PostIncremented x y w.mldAddr (m * k * (n / 8)) ∧
        (∀ r, r < d ∨ d + k ≤ r → Tab.getD y.v r 0 = Tab.getD x.v r 0 ∧ vTag y r = vTag x r ∧ vKind y r = vKind x r) ∧
        ∀ f, f < k →
          (∀ j, m ≤ j → element n y (d + f) j = element n x (d + f) j) ∧
          (∀ j b, j < m → b < n / 8 →
            (element n y (d + f) j).extractLsb' (8 * b) 8 = scratchByte s t (a + (j * k + f) * (n / 8) + b)) ∧
          (0 < m → (vTag y (d + f) = true ↔
            (∃ p, a ≤ p ∧ p < a + m * k * (n / 8) ∧ scratchTag s t p = true) ∨ (m < vlMax n ∧ vTag x (d + f) = true)))) ∧
    (AccessOk s t w w.mldAddr (if m = 0 then 0 else n / 8) d 1 →
      AnswersTun s t (exec (.mldBroadcast t w) s) fun y =>
        y = { x with v := y.v, vtag := y.vtag, vkind := y.vkind, s := y.s, stag := y.stag, vew := w.vew } ∧
        PostIncremented x y w.mldAddr (if m = 0 then 0 else n / 8) ∧
        (∀ r, r ≠ d → Tab.getD y.v r 0 = Tab.getD x.v r 0 ∧ vTag y r = vTag x r ∧ vKind y r = vKind x r) ∧
        (∀ j, m ≤ j → element n y d j = element n x d j) ∧
        ∀ j b, j < m → b < n / 8 → (element n y d j).extractLsb' (8 * b) 8 = scratchByte s t (a + b))) ∧
  ∀ (s : State) (t : Nat) (w : Microword), tunLive (s.tun t) = true → GangOk s t →
    let x := s.tun t
    let n := widthOf w.vew
    let m := effCount x n
    let k := w.mst.toNat
    let first := w.vsrcB.toNat
    let a := (scalar x (w.mstAddr.toNat % 16)).toNat
    1 ≤ k → k ≤ 4 → AccessOk s t w w.mstAddr (m * k * (n / 8)) first k →
      ∃ s', exec (.mstStore t w) s = .next s' ∧
        s' = { s with tuns := { s.tuns with tuns := s'.tuns.tuns } } ∧
        (∀ j f b, j < m → f < k → b < n / 8 →
          scratchByte s' t (a + (j * k + f) * (n / 8) + b) = (element n x (first + f) j).extractLsb' (8 * b) 8) ∧
        (∀ p, p < scratchSize s t → p < a ∨ a + m * k * (n / 8) ≤ p → scratchByte s' t p = scratchByte s t p) ∧
        (∀ u, u ∉ gangOf s t x → s'.tun u = s.tun u) ∧
        (∀ u, u ≠ t → ∃ y : Tun, s'.tun u = { s.tun u with scratch := y.scratch, ltag := y.ltag, lkind := y.lkind, written := y.written }) ∧
        s'.tun t = { x with
          scratch := (s'.tun t).scratch, ltag := (s'.tun t).ltag, lkind := (s'.tun t).lkind, written := (s'.tun t).written
          s := (s'.tun t).s, stag := (s'.tun t).stag, vew := w.vew } ∧
        PostIncremented x (s'.tun t) w.mstAddr (m * k * (n / 8))

/-- R153, R154, R140: queue transfers, where bytes past the end of an input read as zero and set QEND, OUT keeps no more than its
limit but counts every byte, and RESULT, HOLD and SLOT hold 8, 64 and 64 bytes. R120, R138, R149, R150, R173: vector length,
classification and declassification, refresh, loop counters, trace. -/
def Obligations.QueueAndControlFieldActionsTakeTheirEffect : Prop :=
  (∀ (s : State) (t : Nat) (w : Microword), tunLive (s.tun t) = true →
    let x := s.tun t
    let n := effCount x (widthOf w.vew) * (widthOf w.vew / 8)
    let q := w.inq.toNat
    let e := envOf s t x
    let src := Tab.getD x.v w.vsrcA.toNat 0
    let tag := vTag x w.vsrcA.toNat && decide (0 < n)
    let d := le n src.toNat
    (1 ≤ q → q ≤ 6 → ∃ y, exec (.inq t w) s = .next (if q = 6 then (s.setTun t y).drawn 1024 else s.setTun t y) ∧
      let data := (queueOf e x q).1
      let pos := (queueOf e x q).2
      y = { x with
        v := y.v, vtag := y.vtag, vkind := y.vkind, vew := w.vew, qend := y.qend, inPos := y.inPos, auxPos := y.auxPos
        paramPos := y.paramPos, keyPos := y.keyPos, carryPos := y.carryPos } ∧
      (∀ r, r ≠ w.vdst.toNat → Tab.getD y.v r 0 = Tab.getD x.v r 0 ∧ vTag y r = vTag x r ∧ vKind y r = vKind x r) ∧
      (∀ i, i < 8192 → (Tab.getD y.v w.vdst.toNat 0).getLsbD i =
        if i < 8 * n then (data.getD (pos + i / 8) 0).getLsbD (i % 8) else (Tab.getD x.v w.vdst.toNat 0).getLsbD i) ∧
      (y.qend = true ↔ x.qend = true ∨ (0 < n ∧ q ≠ 6 ∧ data.length < pos + n)) ∧
      ∀ p, 1 ≤ p → p ≤ 5 → (queueOf e y p).2 = (queueOf e x p).2 + if p = q then n else 0) ∧
    (w.outq = 1 → (tag && (e.closed || !x.declassRight)) = false → AnswersTun s t (exec (.outq t w) s) fun y =>
      y = { x with out := (x.out ++ d).take e.outMax, outCount := x.outCount + n, heldTagged := x.heldTagged || tag, vew := w.vew }) ∧
    (w.outq = 2 → (tag && (e.closed || !x.declassRight)) = false → x.result.length + n ≤ 8 →
      AnswersTun s t (exec (.outq t w) s) fun y =>
        y = { x with result := x.result ++ d, heldTagged := x.heldTagged || tag, vew := w.vew }) ∧
    (w.outq = 3 → e.hold = true → x.hold.length + n ≤ 64 → AnswersTun s t (exec (.outq t w) s) fun y =>
      y = { x with hold := x.hold ++ d, vew := w.vew }) ∧
    (w.outq = 4 → e.dest = true → x.slot.length + n ≤ 64 → AnswersTun s t (exec (.outq t w) s) fun y =>
      y = { x with slot := x.slot ++ d, vew := w.vew }) ∧
    ((w.outq = 1 ∨ w.outq = 2) → (tag && (e.closed || !x.declassRight)) = true → EndsRoutine s t 0x0702 (exec (.outq t w) s)) ∧
    (w.outq = 2 → (tag && (e.closed || !x.declassRight)) = false → 8 < x.result.length + n →
      EndsRoutine s t 0x0701 (exec (.outq t w) s)) ∧
    (w.outq = 3 → e.hold = false ∨ 64 < x.hold.length + n → EndsRoutine s t 0x0701 (exec (.outq t w) s)) ∧
    (w.outq = 4 → e.dest = false ∨ 64 < x.slot.length + n → EndsRoutine s t 0x0701 (exec (.outq t w) s))) ∧
  (∀ (s : State) (t : Nat) (w : Microword), tunLive (s.tun t) = true →
    let x := s.tun t
    let mx := vlMax (widthOf w.vew)
    let sb := (scalar x w.sb.toNat).toNat
    AnswersTun s t (exec (.vlopConst t w) s) (fun y => y = { x with vl := min (w.imm.toNat % 2048) mx, vew := w.vew }) ∧
    (sTag x w.sb.toNat = false →
      AnswersTun s t (exec (.vlopReg t w) s) (fun y => y = { x with vl := min sb mx, vew := w.vew }) ∧
      AnswersTun s t (exec (.vlopStrip t w) s) (fun y =>
        y = { x with vl := min sb mx, s := y.s, stag := y.stag, vew := w.vew } ∧
        ∀ r, scalar y r = if r = w.sb.toNat then scalar x r - BitVec.ofNat 64 (min sb mx) else scalar x r)) ∧
    (sTag x w.sb.toNat = true →
      EndsRoutine s t 0x0702 (exec (.vlopReg t w) s) ∧ EndsRoutine s t 0x0702 (exec (.vlopStrip t w) s)) ∧
    AnswersTun s t (exec (.classify t w) s) (fun y =>
      y = { x with vtag := y.vtag, vkind := y.vkind, vew := w.vew } ∧ ∀ r, vTag y r = (vTag x r || (writtenRegs w).contains r)) ∧
    (x.openRoutine = false → AnswersTun s t (exec (.declassify t w) s) (fun y =>
      y = { x with vtag := y.vtag, vew := w.vew } ∧ ∀ r, vTag y r = (vTag x r && !(writtenRegs w).contains r))) ∧
    (x.openRoutine = true → EndsRoutine s t 0x0702 (exec (.declassify t w) s)) ∧
    (w.rnd.toNat < 4 → AnswersTun s t (exec (.rndRefresh t w) s) (fun y => y = atWord w x)) ∧
    AnswersTun s t (exec (.ctrLoadImm t w) s) (fun y =>
      y = { x with ct0 := y.ct0, ct1 := y.ct1, ct2 := y.ct2, ct3 := y.ct3, vew := w.vew } ∧
      ∀ i, i < 4 → ctr y i = if i = w.ctr.toNat % 4 then w.imm.extractLsb' 0 16 else ctr x i) ∧
    (sTag x w.sa.toNat = false → AnswersTun s t (exec (.ctrLoadReg t w) s) (fun y =>
      y = { x with ct0 := y.ct0, ct1 := y.ct1, ct2 := y.ct2, ct3 := y.ct3, vew := w.vew } ∧
      ∀ i, i < 4 → ctr y i = if i = w.ctr.toNat % 4 then (scalar x w.sa.toNat).extractLsb' 0 16 else ctr x i)) ∧
    (sTag x w.sa.toNat = true → EndsRoutine s t 0x0702 (exec (.ctrLoadReg t w) s)) ∧
    AnswersTun s t (exec (.traceRecord t w) s) (fun y =>
      if w.trace = 0 ∨ (s.tmp.grantActive && s.tmp.rights.getLsbD 1) = false then y = atWord w x
      else
        y = { x with trace := y.trace, vew := w.vew } ∧ y.trace.length = min 4096 (x.trace.length + 1) ∧
        y.trace.getLast? = some (le 2 x.pc.toNat ++ [w.trace, 0] ++ le 4 x.cycles ++
          le 8 (if w.trace.getLsbD 7 && !sTag x w.sa.toNat then (scalar x w.sa.toNat).toNat else 0))))



/-- R147, R148, R157: what each sequencer operation does with the program counter, the return stack and the loop counters, and
where the stack's limits end the routine. -/
def Obligations.SequencerOpsSelectTheNextAddress : Prop :=
  (∀ (s : State) (t : Nat) (w : Microword), tunLive (s.tun t) = true → GangOk s t → WordAt s t w → ActionsComplete s t w →
    let x := s.tun t
    let on := x.pc + 1
    let e := envOf s t x
    let holds := conditionHolds x e.outMax w.cond
    let n := (ctr x (w.ctr.toNat % 4)).toNat
    let v := w.imm.toNat % 65536
    (w.seqOp = 0 → SequencesTo s t w on x.stack none (exec (.seqCont t) s)) ∧
    (w.seqOp = 1 → SequencesTo s t w w.next x.stack none (exec (.seqJump t) s)) ∧
    (w.seqOp = 2 → ConditionReadable x w.cond →
      SequencesTo s t w (if holds then w.next else on) x.stack none (exec (.seqBr t) s)) ∧
    (w.seqOp = 3 → x.stack.length < 8 → SequencesTo s t w w.next (on :: x.stack) none (exec (.seqCall t) s)) ∧
    (w.seqOp = 4 → ConditionReadable x w.cond → (holds = true → x.stack.length < 8) →
      SequencesTo s t w (if holds then w.next else on) (if holds then on :: x.stack else x.stack) none (exec (.seqCallc t) s)) ∧
    (∀ r rs, w.seqOp = 5 → x.stack = r :: rs → SequencesTo s t w r rs none (exec (.seqRet t) s)) ∧
    (w.seqOp = 6 → SequencesTo s t w (if n ≤ 1 then on else w.next) x.stack none (exec (.seqLoop t) s)) ∧
    (w.seqOp = 7 → ∃ pc st, SequencesTo s t w pc st (some .ok) (exec (.seqExit t) s)) ∧
    (w.seqOp = 8 → ∃ pc st, SequencesTo s t w pc st
      (some (.status (if x.openRoutine && !(decide (0x0401 ≤ v) && decide (v ≤ 0x0408)) then 0x0701 else v)))
      (exec (.seqFail t) s))) ∧
  (∀ (s : State) (t : Nat) (w : Microword), tunLive (s.tun t) = true → WordAt s t w → gangOf s t (s.tun t) = [t] →
    PureSequencing w → w.safe = false →
    let x := s.tun t
    let n := w.ctr.toNat % 4
    (w.seqOp = 3 → 8 ≤ x.stack.length → AnswersTun s t (exec (.seqCall t) s) fun y =>
      y = { x with vew := w.vew, ended := some (.status 0x0701) }) ∧
    (w.seqOp = 5 → x.stack = [] → AnswersTun s t (exec (.seqRet t) s) fun y =>
      y = { x with vew := w.vew, ended := some (.status 0x0701) }) ∧
    (w.seqOp = 6 → AnswersTun s t (exec (.seqLoop t) s) fun y =>
      y = { x with
        ct0 := y.ct0, ct1 := y.ct1, ct2 := y.ct2, ct3 := y.ct3, vew := w.vew, pc := y.pc, cycles := x.cycles + 1
        watchdog := x.watchdog + 1 } ∧
      ctr y n = (if ctr x n = 0 then 0 else ctr x n - 1) ∧ (∀ i, i < 4 → i ≠ n → ctr y i = ctr x i) ∧
      y.pc = if ctr y n = 0 then x.pc + 1 else w.next) ∧
    (w.seqOp = 1 → exec (.seqCont t) s = .next s ∧ AnswersTun s t (exec (.seqJump t) s) fun y =>
      y = { x with vew := w.vew, pc := w.next, cycles := x.cycles + 1, watchdog := x.watchdog + 1 }))

/-- R155, R156: a safe point restarts the watchdog and services what is pending in the order of the table; the watchdog ends an
open routine. -/
def Obligations.SafePointsServicePendingRequests : Prop :=
  ∀ (s : State) (t sid : Nat) (sl : Slip), tunLive (s.tun t) = true → (s.tun t).sid = some sid → s.slip? sid = some sl →
    sl.phase = .running →
    let x := s.tun t
    let s0 := s.setTun t { x with watchdog := 0 }
    (s.ent.state = .failed → exec (.safePoint t) s = .next (abortRunning s0 sid sl 0x0503)) ∧
    (s.ent.state ≠ .failed → sl.abortReq = true → exec (.safePoint t) s = .next (abortRunning s0 sid sl 0x0507)) ∧
    (s.ent.state ≠ .failed → sl.abortReq = false → sl.suspendReq = true → csClass sl.cs = 5 →
      exec (.safePoint t) s = .next (suspend s0 sid sl)) ∧
    (s.ent.state ≠ .failed → sl.abortReq = false → (sl.suspendReq = false ∨ csClass sl.cs ≠ 5) →
      exec (.safePoint t) s = .next s0) ∧
    (x.openRoutine = true → EndsRoutine s t 0x0701 (exec (.tunWatchdog t) s)) ∧
    (x.openRoutine = false → exec (.tunWatchdog t) s = .next (unitFault s .tun t 0x201))

/-- R121, R122, R124, R126, R139, R151: a width that a group excludes, a modulus that it cannot work with, and a load or store at an
address that is tagged, unaligned or outside the scratch end the routine. -/
def Obligations.ExcludedFormsEndTheRoutine : Prop :=
  (∀ (s : State) (t : Nat) (w : Microword), tunLive (s.tun t) = true →
    let x := s.tun t
    let q := modulusOf x w
    let ends := fun (cs : List Res) => ∀ c ∈ cs, EndsRoutine s t 0x0701 c
    let modular := [exec (.vmadd t w) s, exec (.vmsub t w) s, exec (.vmneg t w) s, exec (.vmmont t w) s, exec (.vmbar t w) s,
      exec (.vmred t w) s, exec (.vmcsub t w) s, exec (.vmcent t w) s]
    (w.vew = 0 ∨ w.vew = 3 → ends modular ∧
      ends [exec (.vqadds t w) s, exec (.vqsubs t w) s, exec (.vqaddu t w) s, exec (.vqsubu t w) s, exec (.vrshrs t w) s,
        exec (.vrshru t w) s, exec (.vrmulhs t w) s, exec (.vrmulhu t w) s]) ∧
    (w.vew = 3 → ends [exec (.vbfly t w) s, exec (.vbflyi t w) s, exec (.vpermf t w) s, exec (.vpermv t w) s,
      exec (.vslideup t w) s, exec (.vslidedn t w) s, exec (.vzip t w) s, exec (.vunzip t w) s]) ∧
    (w.vew ≠ 3 → ends [exec (.vclmull t w) s, exec (.vclmulh t w) s]) ∧
    (q = 0 ∨ (w.vew = 1 ∧ 2 ^ 15 ≤ q) ∨ w.vmod.getLsbD 4 = true → ends modular) ∧
    (q % 2 = 0 → ends [exec (.vmmont t w) s, exec (.vbfly t w) s, exec (.vbflyi t w) s]) ∧
    (vlMax (widthOf w.vew) < 2 * 2 ^ (w.vperm.toNat % 16) → ends [exec (.vbfly t w) s, exec (.vbflyi t w) s])) ∧
  (∀ (s : State) (t : Nat) (w : Microword), tunLive (s.tun t) = true →
    let x := s.tun t
    let n := widthOf w.vew
    let m := effCount x n
    let la := (scalar x (w.mldAddr.toNat % 16)).toNat
    let sa := (scalar x (w.mstAddr.toNat % 16)).toNat
    let kl := w.mld.toNat
    let ks := w.mst.toNat
    (1 ≤ kl → kl ≤ 4 →
      (sTag x (w.mldAddr.toNat % 16) = true → EndsRoutine s t 0x0702 (exec (.mldLoad t w) s)) ∧
      (sTag x (w.mldAddr.toNat % 16) = false →
        la % (n / 8) ≠ 0 ∨ scratchSize s t < la + m * kl * (n / 8) ∨ 32 < w.vdst.toNat + kl →
        EndsRoutine s t 0x0701 (exec (.mldLoad t w) s))) ∧
    (1 ≤ ks → ks ≤ 4 →
      (sTag x (w.mstAddr.toNat % 16) = true → EndsRoutine s t 0x0702 (exec (.mstStore t w) s)) ∧
      (sTag x (w.mstAddr.toNat % 16) = false →
        sa % (n / 8) ≠ 0 ∨ scratchSize s t < sa + m * ks * (n / 8) ∨ 32 < w.vsrcB.toNat + ks →
        EndsRoutine s t 0x0701 (exec (.mstStore t w) s))))



/-! ## Operations of call slips -/

/-- R174, R182, R183, R190: ML-KEM. Encapsulation checks the key's coefficients; a decapsulation always yields a secret. The
functions of FIPS 203 are uninterpreted. -/
def Obligations.KemOperationsProduceTheirResults : Prop :=
  ∀ (s : State) (sid : Nat) (sl : Slip) (set : Nat), set = csSet sl.cs → set ≤ 2 →
    let runs := SlipRuns s sid sl 1
    let ek := [800, 1184, 1568].getD set 0
    let dk := [1632, 2400, 3168].getD set 0
    let ct := [768, 1088, 1568].getD set 0
    let pair := fun (seed : Bytes) => fit (ek + dk) (Config.compute (.mlKemKeyGen set) [seed])
    let enc := fun (pk m : Bytes) => fit ct (Config.compute (.mlKemEncaps set) [pk, m])
    let shared := fun (pk m : Bytes) => fit 32 (Config.compute (.mlKemShared set) [pk, m])
    let dec := fun (d c : Bytes) => fit 32 (Config.compute (.mlKemDecaps set) [d, c])
    let seed := s.freeBytes 64
    let m := s.freeBytes 32
    let good := coeffsOk (sl.inData.take (384 * (set + 2)))
    (runs 0x01 → Produces s sid sl ((pair seed).take ek) 0 (fun y => y.secret = none ∧ CreatesKey sl (0x10 + set) seed y)
      (exec (.kemKeygen sid) s)) ∧
    (runs 0x02 → good = true → Produces s sid sl (enc sl.inData m) 0 (KeepsSecret sl (shared sl.inData m))
      (exec (.kemEncaps sid) s)) ∧
    (runs 0x02 → good = false → FailsWith s sid 0x0408 (exec (.kemEncaps sid) s)) ∧
    (runs 0x03 → Produces s sid sl [] 0 (KeepsSecret sl (dec ((pair (keyMat sl)).drop ek) sl.inData)) (exec (.kemDecaps sid) s)) ∧
    (runs 0x04 → Produces s sid sl ((pair (keyMat sl)).take ek) 0 NoKey (exec (.kemPubkey sid) s)) ∧
    (PolicyAdmits s sl →
      (runs 0x81 → Produces s sid sl (pair sl.auxData) 0 NoKey (exec (.kemKeygenKat sid) s)) ∧
      (runs 0x82 → good = true →
        Produces s sid sl (enc sl.inData sl.auxData ++ shared sl.inData sl.auxData) 0 NoKey (exec (.kemEncapsKat sid) s)) ∧
      (runs 0x82 → good = false → FailsWith s sid 0x0408 (exec (.kemEncapsKat sid) s)) ∧
      (runs 0x83 → dkOk set sl.auxData = true →
        Produces s sid sl (dec sl.auxData sl.inData) 0 NoKey (exec (.kemDecapsKat sid) s)))

/-- R176, R184 to R190: ML-DSA. μ is SHAKE256 over tr and M'; deterministic signing takes 32 zero bytes; the attempts made are
in `RESULT_INLINE`, and a signing that needs more than 256 ends with `ABORTED`. -/
def Obligations.DsaOperationsProduceTheirResults : Prop :=
  ∀ (s : State) (sid : Nat) (sl : Slip) (set : Nat), set = csSet sl.cs → 4 ≤ set → set ≤ 6 →
    let runs := SlipRuns s sid sl 1
    let i := set - 4
    let pk := [1312, 1952, 2592].getD i 0
    let sk := [2560, 4032, 4896].getD i 0
    let sg := [2420, 3309, 4627].getD i 0
    let p := csParam sl.cs
    let pair := fun (seed : Bytes) => fit (pk + sk) (Config.compute (.mlDsaKeyGen set) [seed])
    let shake := fun (b : Bytes) => fit 64 (Config.compute (.shake 256) [b])
    let mu := fun (pub m : Bytes) => shake (shake pub ++ m)
    let pure := fun (ctx m : Bytes) => [0#8, BitVec.ofNat 8 (p / 2 ^ 16 % 256)] ++ ctx ++ m
    let rnd := if p % 2 = 1 then zeros 32 else s.freeBytes 32
    let tries := fun (k u r : Bytes) => unle (Config.compute (.mlDsaAttempts set) [k, u, r]) % 257
    let signs := fun (k u r : Bytes) (c : Res) =>
      (tries k u r ≠ 0 →
        Produces s sid sl (fit sg (Config.compute (.mlDsaSign set) [k, u, r])) (BitVec.ofNat 64 (tries k u r)) NoKey c) ∧
      (tries k u r = 0 → FailsWith s sid 0x0507 c)
    let key := keyMat sl
    let pub := (pair key).take pk
    let priv := (pair key).drop pk
    let vk := if csKeyUsed sl.cs then key else (ownAux sl).take pk
    let rest := if csKeyUsed sl.cs then ownAux sl else (ownAux sl).drop pk
    let seed := s.freeBytes 32
    (runs 0x01 → Produces s sid sl ((pair seed).take pk) 0 (fun y => y.secret = none ∧ CreatesKey sl (0x10 + set) seed y)
      (exec (.dsaKeygen sid) s)) ∧
    (runs 0x02 → Produces s sid sl pub 0 NoKey (exec (.dsaPubkey sid) s)) ∧
    (runs 0x10 → signs priv (mu pub (pure (ownAux sl) sl.inData)) rnd (exec (.dsaSign sid) s)) ∧
    (runs 0x12 → signs priv sl.inData rnd (exec (.dsaSignMu sid) s)) ∧
    (runs 0x20 → Verdict s sid (Config.holds (.mlDsaSign set) [vk, mu vk (pure (rest.drop sg) sl.inData), rest.take sg])
      (exec (.dsaVerify sid) s)) ∧
    (runs 0x22 → Verdict s sid (Config.holds (.mlDsaSign set) [vk, sl.inData, rest.take sg]) (exec (.dsaVerifyMu sid) s)) ∧
    (PolicyAdmits s sl →
      (runs 0x11 → signs priv (mu pub (mPrime true p (ownAux sl) sl.inData)) rnd (exec (.dsaSignPh sid) s)) ∧
      (runs 0x21 → Verdict s sid
        (Config.holds (.mlDsaSign set) [vk, mu vk (mPrime true p (rest.drop sg) sl.inData), rest.take sg])
        (exec (.dsaVerifyPh sid) s)) ∧
      (runs 0x81 → Produces s sid sl (pair sl.auxData) 0 NoKey (exec (.dsaKeygenKat sid) s)) ∧
      (runs 0x90 → signs (sl.auxData.take sk) (shake (slice (sl.auxData.take sk) 64 64 ++ sl.inData)) (sl.auxData.drop sk)
        (exec (.dsaSignKat sid) s)) ∧
      (runs 0xA0 → Verdict s sid (Config.holds (.mlDsaSign set)
        [sl.auxData.take pk, mu (sl.auxData.take pk) sl.inData, sl.auxData.drop pk]) (exec (.dsaVerifyKat sid) s)))

/-- R197 to R200, R217: SLH-DSA. The private key is SK.seed, SK.prf, PK.seed and PK.root; deterministic signing takes PK.seed. -/
def Obligations.SlhOperationsProduceTheirResults : Prop :=
  ∀ (s : State) (sid : Nat) (sl : Slip) (set : Nat), set = csSet sl.cs → set ≤ 11 →
    let runs := SlipRuns s sid sl 2
    let n := if set < 4 then 16 else if set < 8 then 24 else 32
    let sg := [7856, 7856, 17088, 17088, 16224, 16224, 35664, 35664, 29792, 29792, 49856, 49856].getD set 0
    let p := csParam sl.cs
    let whole := fun (seeds : Bytes) => seeds ++ fit n (Config.compute (.slhKeyGen set) [seeds])
    let sign := fun (k m o : Bytes) => fit sg (Config.compute (.slhSign set) [k, m, o])
    let pure := fun (ctx m : Bytes) => [0#8, BitVec.ofNat 8 (p / 2 ^ 16 % 256)] ++ ctx ++ m
    let key := keyMat sl
    let opt := if p % 2 = 1 then slice key (2 * n) n else s.freeBytes n
    let vk := if csKeyUsed sl.cs then key else (ownAux sl).take (2 * n)
    let rest := if csKeyUsed sl.cs then ownAux sl else (ownAux sl).drop (2 * n)
    let seeds := s.freeBytes (3 * n)
    (runs 0x01 → Produces s sid sl ((whole seeds).drop (2 * n)) 0
      (fun y => y.secret = none ∧ CreatesKey sl (0x20 + set) (whole seeds) y) (exec (.slhKeygen sid) s)) ∧
    (runs 0x02 → Produces s sid sl (slice key (2 * n) (2 * n)) 0 NoKey (exec (.slhPubkey sid) s)) ∧
    (runs 0x10 → Produces s sid sl (sign key (pure (ownAux sl) sl.inData) opt) 0 NoKey (exec (.slhSign sid) s)) ∧
    (runs 0x20 → Verdict s sid (Config.holds (.slhSign set) [vk, pure (rest.drop sg) sl.inData, rest.take sg])
      (exec (.slhVerify sid) s)) ∧
    (PolicyAdmits s sl →
      (runs 0x11 → Produces s sid sl (sign key (mPrime true p (ownAux sl) sl.inData) opt) 0 NoKey (exec (.slhSignPh sid) s)) ∧
      (runs 0x21 → Verdict s sid (Config.holds (.slhSign set) [vk, mPrime true p (rest.drop sg) sl.inData, rest.take sg])
        (exec (.slhVerifyPh sid) s)) ∧
      (runs 0x81 → Produces s sid sl ((whole sl.auxData).drop (2 * n) ++ whole sl.auxData) 0 NoKey (exec (.slhKeygenKat sid) s)) ∧
      (runs 0x90 → Produces s sid sl (sign (sl.auxData.take (4 * n)) sl.inData (sl.auxData.drop (4 * n))) 0 NoKey
        (exec (.slhSignKat sid) s)))

/-- R205, R207, R209: stateful keys. A signing uses the index it took, which is in `RESULT_INLINE`, and runs only with its tree
cache in the memory; verification parses the signature against its key's parameters. -/
def Obligations.StatefulKeyOperationsProduceTheirResults : Prop :=
  ∀ (s : State) (sid : Nat) (sl : Slip) (set : Nat), set = csSet sl.cs → 12 ≤ set → set ≤ 14 →
    let runs := SlipRuns s sid sl 2
    let key := keyMat sl
    (∀ d, runs 0x02 → sl.key.bind stfSetOf = some d →
      Produces s sid sl (slice key 20 (stfPkLen d)) 0 NoKey (exec (.stfPubkey sid) s)) ∧
    (∀ d i, runs 0x10 → sl.key.bind stfSetOf = some d → sl.leaf = some i → (stfKey s (csKey sl.cs)).cached = true →
      Produces s sid sl (fit (stfSigLen d) (Config.compute .stfSign [key, be 8 i, sl.inData])) (BitVec.ofNat 64 i) NoKey
        (exec (.stfSign sid) s)) ∧
    (runs 0x10 → (stfKey s (csKey sl.cs)).cached = false → exec (.stfSign sid) s = .next s) ∧
    (∀ d, runs 0x20 → csKeyUsed sl.cs = true → stfPkSet set key = some d →
      Verdict s sid (stfSigOk d key (ownAux sl) && Config.holds .stfSign [key, sl.inData, ownAux sl])
        (exec (.stfVerify sid) s)) ∧
    (∀ d, runs 0x20 → csKeyUsed sl.cs = false → stfPkSet set (ownAux sl) = some d →
      let pk := (ownAux sl).take (stfPkLen d)
      let sig := (ownAux sl).drop (stfPkLen d)
      Verdict s sid (stfSigOk d pk sig && Config.holds .stfSign [pk, sl.inData, sig]) (exec (.stfVerify sid) s)) ∧
    (runs 0x20 → stfPkSet set (if csKeyUsed sl.cs then key else ownAux sl) = none →
      FailsWith s sid 0x0408 (exec (.stfVerify sid) s)) ∧
    (runs 0x30 → Completes s sid 0 [] 0 (BitVec.ofNat 64 (stfRemain s (csKey sl.cs))) NoKey (exec (.stfRemain sid) s)) ∧
    (∀ d c n, runs 0x01 → stfAsked set (csParam sl.cs) (sl.exts.getD 1 []) = some d → sl.counterClaim = some c →
      sl.destClaim = some n → stfPkLen d ≤ (cxOf s sl).outMax →
      let pk := fit (stfPkLen d)
        (Config.compute .stfKeyGen [stfAskedHeader set (csParam sl.cs) (sl.exts.getD 1 []), s.freeBytes 96])
      ∃ s' y x, exec (.stfKeygen sid) s = .next s' ∧ s'.slip? sid = some y ∧ y.phase = .executed ∧ y.status = 0 ∧
        y.out = pk ∧ y.slotOps = [.create n x] ∧ x.keyClass = 0x40 + (set - 12) ∧ (x.ledger.map (·.1)) = some c)

/-- R211 to R216, R190: HQC and Classic McEliece. -/
def Obligations.CodeKemOperationsProduceTheirResults : Prop :=
  ∀ (s : State) (sid : Nat) (sl : Slip) (set : Nat), set = csSet sl.cs → set ≤ 12 → PolicyAdmits s sl →
    let runs := SlipRuns s sid sl 3
    let hqc := decide (set ≤ 2)
    let pkLen := [2241, 4514, 7237, 261120, 261120, 524160, 524160, 1044992, 1044992, 1047319, 1047319, 1357824, 1357824].getD set 0
    let ctLen := [4433, 8978, 14421, 96, 96, 156, 156, 208, 208, 194, 194, 208, 208].getD set 0
    let pair := fun (seed : Bytes) =>
      fit (pkLen + ckFull set) (Config.compute (if hqc then .hqcKeyGen set else .mceKeyGen set) [seed])
    let enc := fun (pk m : Bytes) => fit ctLen (Config.compute (if hqc then .hqcEncaps set else .mceEncaps set) [pk, m])
    let shared := fun (pk m : Bytes) => fit 32 (Config.compute (if hqc then .hqcShared set else .mceShared set) [pk, m])
    let dec := fun (d c : Bytes) => fit 32 (Config.compute (if hqc then .hqcDecaps set else .mceDecaps set) [d, c])
    let full := fun (mat : Bytes) => if hqc then (pair mat).drop pkLen else mat
    let seed := s.freeBytes 32
    let good := ckPadOk set sl.inData
    (runs 0x01 → Produces s sid sl ((pair seed).take pkLen) 0
      (fun y => y.secret = none ∧ CreatesKey sl (0x50 + set) (if hqc then seed else (pair seed).drop pkLen) y)
      (exec (.ckemKeygen sid) s)) ∧
    (runs 0x02 → good = true → Produces s sid sl (enc sl.inData seed) 0 (KeepsSecret sl (shared sl.inData seed))
      (exec (.ckemEncaps sid) s)) ∧
    (runs 0x02 → good = false → FailsWith s sid 0x0408 (exec (.ckemEncaps sid) s)) ∧
    (runs 0x03 → Produces s sid sl [] 0 (KeepsSecret sl (dec (full (keyMat sl)) sl.inData)) (exec (.ckemDecaps sid) s)) ∧
    (runs 0x04 → Produces s sid sl ((pair ((keyMat sl).take 32)).take pkLen) 0 NoKey (exec (.ckemPubkey sid) s)) ∧
    (runs 0x81 → ∃ n, Produces s sid sl (pair sl.auxData) n NoKey (exec (.ckemKeygenKat sid) s)) ∧
    (runs 0x82 → good = true →
      Produces s sid sl (enc sl.inData sl.auxData ++ shared sl.inData sl.auxData) 0 NoKey (exec (.ckemEncapsKat sid) s)) ∧
    (runs 0x82 → good = false → FailsWith s sid 0x0408 (exec (.ckemEncapsKat sid) s)) ∧
    (runs 0x83 → Produces s sid sl (dec sl.auxData sl.inData) 0 NoKey (exec (.ckemDecapsKat sid) s))

/-- R246 to R254: digests. A one-shot digest is of the key, the carries and the message, and goes to the slip's destination; a
state record holds the totals, the chaining state and the partial block, and a record that is not well formed is refused. -/
def Obligations.DigestOperationsProduceTheirResults : Prop :=
  ∀ (s : State) (sid : Nat) (sl : Slip) (f : Nat), f = csSet sl.cs → f ≤ 10 → PolicyAdmits s sl →
    let runs := SlipRuns s sid sl 5
    let p := csParam sl.cs
    let out := ([28, 32, 48, 64, 32, 28, 32, 48, 64][f]?).getD (bits p 23 0)
    let block := [64, 64, 128, 128, 128, 144, 136, 104, 72, 168, 136].getD f 1
    let chain := if f ≤ 1 then 32 else if f ≤ 4 then 64 else 200
    let d := fit out (Config.compute (digPrim f) [keyMat sl ++ carryIn s sl ++ sl.inData])
    let absorb := fun (st b : Bytes) =>
      if b.length < block then st
      else fit chain (Config.compute (.digestState f) [st, b.take (b.length / block * block)])
    let record := fun (total : Nat) (st b : Bytes) =>
      let rest := b.drop (b.length / block * block)
      le 4 0x44475354 ++ [BitVec.ofNat 8 f, 1] ++ le 2 rest.length ++ le 8 total ++ fit 200 (absorb st b) ++ fit 168 rest
    let r := sl.auxData
    let part := field r 6 2
    let whole := field r 0 4 = 0x44475354 ∧ field r 4 1 = f ∧ field r 5 1 = 1 ∧ part = field r 8 8 % block ∧
      allZero (slice r (16 + chain) (200 - chain)) = true ∧ allZero (r.drop (216 + part)) = true
    let total := field r 8 8 + sl.inData.length
    let data := slice r 216 part ++ sl.inData
    (runs 0x01 → (bit p 63 = true → s.tmp.lcs = .factory) → Delivers s sid sl d (exec (.dig sid) s)) ∧
    (runs 0x01 → bit p 63 = true → s.tmp.lcs ≠ .factory →
      Completes s sid 0x0601 [] 0 (stateInline 4 (lcsCode s.tmp.lcs)) NoKey (exec (.dig sid) s)) ∧
    (runs 0x02 → Produces s sid sl (record sl.inData.length (fit chain (Config.compute (.digestState f) [])) sl.inData) 0 NoKey
      (exec (.digStart sid) s)) ∧
    (runs 0x03 → whole → total < 2 ^ 61 → Produces s sid sl (record total (slice r 16 chain) data) 0 NoKey
      (exec (.digUpdate sid) s)) ∧
    (runs 0x04 → whole → total < 2 ^ 61 →
      Produces s sid sl (fit out (Config.compute (.digestState f) [slice r 16 chain, data, le 8 total])) 0 NoKey
        (exec (.digFinish sid) s)) ∧
    (runs 0x03 → ¬ whole → FailsWith s sid 0x0408 (exec (.digUpdate sid) s)) ∧
    (runs 0x04 → ¬ whole → FailsWith s sid 0x0408 (exec (.digFinish sid) s)) ∧
    (runs 0x03 → whole → 2 ^ 61 ≤ total → FailsWith s sid 0x0301 (exec (.digUpdate sid) s)) ∧
    (runs 0x04 → whole → 2 ^ 61 ≤ total → FailsWith s sid 0x0301 (exec (.digFinish sid) s))

/-- R258 to R261: key derivations and composed MACs over the key, the carries and the message; the functions are
uninterpreted. -/
def Obligations.KdfAndMacOperationsProduceTheirResults : Prop :=
  ∀ (s : State) (sid : Nat) (sl : Slip) (f : Nat), f = csSet sl.cs → f ≤ 4 → PolicyAdmits s sl →
    let runs := SlipRuns s sid sl 9
    let p := csParam sl.cs
    let n := bits p 15 0
    let split := bits p 23 16
    let aux := ownAux sl
    let key := keyMat sl
    let kc := key ++ carryIn s sl
    let tag := fun (custom msg : Bytes) =>
      if f ≤ 2 then (fit ([32, 48, 64].getD f 64) (Config.compute (.hmac f) [key, msg])).take n
      else fit n (Config.compute (.kmac (if f = 3 then 128 else 256)) [key, custom, msg, be 4 (8 * n)])
    (f ≤ 2 → runs 0x01 → Delivers s sid sl
      (fit n (Config.compute (.hkdf f) [aux.take split, kc ++ sl.inData, aux.drop split, be 4 n])) (exec (.kdfHkdf sid) s)) ∧
    (f ≤ 2 → runs 0x02 → Delivers s sid sl (fit n (Config.compute (.hkdfExpand f) [key, aux, be 4 n]))
      (exec (.kdfHkdfExpand sid) s)) ∧
    (runs 0x10 → Delivers s sid sl
      (fit n (Config.compute (.kdf108 f) [kc, aux.take split, aux.drop split, be 4 (8 * n)])) (exec (.kdf108 sid) s)) ∧
    (runs 0x20 → Produces s sid sl (tag aux sl.inData) 0 NoKey (exec (.macGen sid) s)) ∧
    (runs 0x21 → Verdict s sid (tag (aux.drop n) sl.inData == aux.take n) (exec (.macVerify sid) s))

/-- R266 to R274: the symmetric operations, over uninterpreted ciphers. A tag or check that fails writes nothing; a slip that
reads its input twice runs after pass 1, and refuses an input that changed. -/
def Obligations.PipeOperationsProduceTheirResults : Prop :=
  ∀ (s : State) (sid : Nat) (sl : Slip) (set : Nat), set = csSet sl.cs → PolicyAdmits s sl →
    let p := csParam sl.cs
    let key := pipeKey s sl
    let d := sl.inData
    let n := d.length
    let iv := if bit p 8 then sl.iv.getD (s.freeBytes 12) else (ownAux sl).take (bits p 7 0)
    let rest := (ownAux sl).drop (bits p 7 0)
    let tl := bits p 23 16
    let held := decide (sl.head ≠ sid) || csChain sl.cs || decide (n ≤ 65536)
    let runs := fun op => SlipRuns s sid sl 4 op ∧ set ≤ 3
    let aes := fun op => SlipRuns s sid sl 4 op ∧ set ≤ 2 ∧ key.length = [16, 24, 32].getD set 0
    let prims := if set = 3 then (Config.Prim.chachaEnc, Config.Prim.chachaTag) else (Config.Prim.aesGcmEnc, Config.Prim.aesGcmTag)
    let stream := fun pr (b : Bytes) => xorBytes b (fit b.length (Config.compute pr [key, iv, le 8 b.length]))
    let tag := fun (c : Bytes) => (fit 16 (Config.compute prims.2 [key, iv, rest, c])).take tl
    let mac := (fit 16 (Config.compute .aesCmac [key, d])).take tl
    let body := d.take (n - tl)
    let check := fit 16 (Config.compute .aesGcmTag [sl.check1.take 16, d])
    let once := held = true ∨ bit p 9 = true ∨ (sl.pass1 = some true ∧ sl.check1.drop 16 = check)
    let enc := stream prims.1 d
    let xts := fun op => SlipRuns s sid sl 4 op ∧ (set = 0 ∨ set = 2) ∧ key.length = [32, 0, 64].getD set 0
    let twin := key.take (key.length / 2) = key.drop (key.length / 2)
    let xd := fun pr => fit n (Config.compute pr [key, iv, [BitVec.ofNat 8 (bits p 31 24)], d])
    (runs 0x01 → key.length = [16, 24, 32, 32].getD set 0 → once →
      PipeEnds s sid sl held ((if bit p 8 then iv else []) ++ enc ++ tag enc) (exec (.aeadEncrypt sid) s)) ∧
    (runs 0x01 → held = true → key.length ≠ [16, 24, 32, 32].getD set 0 → FailsWith s sid 0x0407 (exec (.aeadEncrypt sid) s)) ∧
    (runs 0x01 → held = false → bit p 9 = false → sl.pass1 ≠ some true → exec (.aeadEncrypt sid) s = .next s) ∧
    (runs 0x02 → bit p 8 = false → key.length = [16, 24, 32, 32].getD set 0 →
      (held = true ∨ bit p 9 = true ∨ (sl.pass1 = some true ∧ sl.check1.drop 16 = tag body)) → tag body = d.drop (n - tl) →
      PipeEnds s sid sl held (stream prims.1 body) (exec (.aeadDecrypt sid) s)) ∧
    (runs 0x02 → bit p 8 = false → key.length = [16, 24, 32, 32].getD set 0 → held = true → tag body ≠ d.drop (n - tl) →
      FailsWith s sid 0x0405 (exec (.aeadDecrypt sid) s)) ∧
    (aes 0x10 → once → PipeEnds s sid sl held (stream .aesCtr d) (exec (.ctrEncrypt sid) s)) ∧
    (aes 0x11 → once → PipeEnds s sid sl held (stream .aesCtr d) (exec (.ctrDecrypt sid) s)) ∧
    (aes 0x20 → once → PipeEnds s sid sl held (fit n (Config.compute .aesCbcEnc [key, iv, d])) (exec (.cbcEncrypt sid) s)) ∧
    (aes 0x21 → once → PipeEnds s sid sl held (fit n (Config.compute .aesCbcDec [key, iv, d])) (exec (.cbcDecrypt sid) s)) ∧
    (aes 0x20 → held = false → bit p 9 = false → sl.pass1 = some true → sl.check1.drop 16 ≠ check →
      FailsWith s sid 0x0408 (exec (.cbcEncrypt sid) s)) ∧
    (xts 0x30 → ¬ twin → once → PipeEnds s sid sl held (xd .aesXtsEnc) (exec (.xtsEncrypt sid) s)) ∧
    (xts 0x31 → ¬ twin → once → PipeEnds s sid sl held (xd .aesXtsDec) (exec (.xtsDecrypt sid) s)) ∧
    (xts 0x30 → twin → held = true → FailsWith s sid 0x0408 (exec (.xtsEncrypt sid) s)) ∧
    (xts 0x31 → twin → held = true → FailsWith s sid 0x0408 (exec (.xtsDecrypt sid) s)) ∧
    (aes 0x40 → PipeEnds s sid sl true mac (exec (.cmacGen sid) s)) ∧
    (aes 0x41 → bit p 32 = false → Verdict s sid (mac == rest) (exec (.cmacVerify sid) s)) ∧
    (aes 0x50 → PipeEnds s sid sl true (fit (n + 8) (Config.compute .aesKw [key, d])) (exec (.kwWrap sid) s)) ∧
    (aes 0x51 → Config.holds .aesKw [key, d] = true →
      PipeEnds s sid sl true (fit (n - 8) (Config.compute .aesKwInv [key, d])) (exec (.kwUnwrap sid) s)) ∧
    (aes 0x51 → Config.holds .aesKw [key, d] = false → FailsWith s sid 0x0405 (exec (.kwUnwrap sid) s)) ∧
    (aes 0x52 → PipeEnds s sid sl true (fit ((n + 7) / 8 * 8 + 8) (Config.compute .aesKwp [key, d])) (exec (.kwpWrap sid) s)) ∧
    (aes 0x53 → Config.holds .aesKwp [key, d] = true →
      PipeEnds s sid sl true ((Config.compute .aesKwpInv [key, d]).take (n - 8)) (exec (.kwpUnwrap sid) s)) ∧
    (aes 0x53 → Config.holds .aesKwp [key, d] = false → FailsWith s sid 0x0405 (exec (.kwpUnwrap sid) s))

/-- R272: pass 1 of an input read twice keeps its check value and reads the input again; a decryption whose tag fails ends with
nothing written. -/
def Obligations.PassOneChecksTheInput : Prop :=
  ∀ (s : State) (sid : Nat) (sl : Slip) (h : Hopper), PolicyAdmits s sl → csSet sl.cs ≤ 3 →
    s.hopper? sl.hopper = some h → canPost s h = true →
    sl.head = sid → csChain sl.cs = false → 65536 < sl.inData.length → bit (csParam sl.cs) 9 = false → sl.pass1 = none →
    (pipeKey s sl).length = [16, 24, 32, 32].getD (csSet sl.cs) 0 →
    let p := csParam sl.cs
    let set := csSet sl.cs
    let d := sl.inData
    let n := d.length
    let iv := (ownAux sl).take (bits p 7 0)
    let rest := (ownAux sl).drop (bits p 7 0)
    let tl := bits p 23 16
    let tag := (fit 16 (Config.compute (if set = 3 then .chachaTag else .aesGcmTag) [pipeKey s sl, iv, rest, d.take (n - tl)])).take tl
    let reads := fun (v : Bytes) (r : Res) => ∃ s' y, r = .next s' ∧ s'.slip? sid = some y ∧ y.phase = .running ∧
      y.pass1 = some true ∧ y.check1 = s.freeBytes 16 ++ v ∧ y.inData = [] ∧ y.readsLeft = ((cxOf s sl).inLen + 65535) / 65536 ∧
      s'.pipes.twoPassTot = s.pipes.twoPassTot + 1
    (SlipRuns s sid sl 4 0x01 →
      reads (fit 16 (Config.compute .aesGcmTag [s.freeBytes 16, d])) (exec (.pass1Done sid) s)) ∧
    (SlipRuns s sid sl 4 0x02 → tag = d.drop (n - tl) → reads tag (exec (.pass1Done sid) s)) ∧
    (SlipRuns s sid sl 4 0x02 → tag ≠ d.drop (n - tl) → FailsWith s sid 0x0405 (exec (.pass1Done sid) s))

/-- R290 to R309: public-key operations. RSA and the Edwards and Montgomery functions are uninterpreted; the short-Weierstrass
ones are computed. Every private scalar and public point is checked first. -/
def Obligations.KilnOperationsProduceTheirResults : Prop :=
  ∀ (s : State) (sid : Nat) (sl : Slip) (set : Nat), set = csSet sl.cs → PolicyAdmits s sl →
    let runs := SlipRuns s sid sl 6
    let rsa := set = 0
    let ed := set = 4 ∨ set = 5
    let ec := set = 1 ∨ set = 2 ∨ set = 3 ∨ set = 6
    let p := csParam sl.cs
    let cls := (slipAttr sl.cs sl.exts).cls
    let cur := slipCurve s sl
    let key := keyMat sl
    let d := unbe key
    let inRange := d ≠ 0 ∧ d < cur.n
    let m := kMsg sl
    let aux := ownAux sl
    let mont := if set = 4 then 32 else 56
    let edl := if set = 4 then 32 else 57
    let sg := if set = 4 then 64 else 114
    let agree := fun c => c = (if set = 4 then 0x70 else 0x73)
    let edPub := fun (c : Nat) (seed : Bytes) =>
      if agree c then fit mont (Config.compute (.montPublic set) [seed]) else fit edl (Config.compute (.edPublic set) [seed])
    let rk := 2 * (key.length - 4) / 7
    let keygen := exec (.pkKeygen sid) s
    let made := fun (out mat : Bytes) => Produces s sid sl out 0 (fun y => y.secret = none ∧ CreatesKey sl cls mat y) keygen
    let pk := if csKeyUsed sl.cs then key else aux.take (pkFront set (32 * bits p 31 24) cur aux)
    let rest := if csKeyUsed sl.cs then aux else aux.drop (pkFront set (32 * bits p 31 24) cur aux)
    let sigp := fun (ctx : Bytes) => le 1 (bits p 7 0) ++ le 1 (bits p 11 10) ++ le 1 (bits p 23 16) ++ ctx
    let e := unbe (pk.drop (pk.length - 4))
    let badPk := csKeyUsed sl.cs = false ∧ ¬ (3 ≤ e ∧ e % 2 = 1)
    -- key generation
    (runs 0x01 → rsa →
      let k := 32 * bits p 31 24
      let seed := s.freeBytes 64
      let tried := BitVec.ofNat 64 (unle (Config.compute (.rsaCandidates k) [seed]) % 2 ^ 32)
      let pair := fit (7 * k / 2 + 4) (Config.compute .rsaKeyGen [le 2 k, seed])
      (Config.holds .rsaKeyGen [seed] = true →
        Produces s sid sl (pair.take (k + 4)) tried (fun y => y.secret = none ∧ CreatesKey sl cls pair y) keygen) ∧
      (Config.holds .rsaKeyGen [seed] = false → Completes s sid 0x0507 [] 0 tried NoKey keygen)) ∧
    (runs 0x01 → ed → made (edPub cls (s.freeBytes (if agree cls then mont else edl))) (s.freeBytes (if agree cls then mont else edl))) ∧
    (runs 0x01 → ec →
      let x := unbe (s.freeBytes (cur.cs + 8)) % cur.n
      made (cur.pubBytes (cur.mul x cur.g)) (be cur.c x)) ∧
    -- public key of a private key
    (runs 0x02 → rsa → Produces s sid sl (key.take (rk + 4)) 0 NoKey (exec (.pkPubkey sid) s)) ∧
    (runs 0x02 → ed → Produces s sid sl (edPub ((sl.key.map (·.keyClass)).getD 0) key) 0 NoKey (exec (.pkPubkey sid) s)) ∧
    (runs 0x02 → ec → inRange → Produces s sid sl (cur.pubBytes (cur.mul d cur.g)) 0 NoKey (exec (.pkPubkey sid) s)) ∧
    (runs 0x02 → ec → ¬ inRange → FailsWith s sid 0x0401 (exec (.pkPubkey sid) s)) ∧
    -- agreement
    (runs 0x03 → ed →
      let z := fit mont (Config.compute (.montAgree set) [key, sl.inData])
      (allZero z = false → Produces s sid sl [] 0 (KeepsSecret sl z) (exec (.pkAgree sid) s)) ∧
      (allZero z = true → FailsWith s sid 0x0404 (exec (.pkAgree sid) s))) ∧
    (∀ q x y, runs 0x03 → ec → inRange → cur.pubPoint sl.inData = some q → cur.mul d (some q) = some (x, y) →
      Produces s sid sl [] 0 (KeepsSecret sl (be cur.c x)) (exec (.pkAgree sid) s)) ∧
    (runs 0x03 → ec → inRange → cur.pubPoint sl.inData = none → FailsWith s sid 0x0403 (exec (.pkAgree sid) s)) ∧
    (runs 0x03 → ec → ¬ inRange → FailsWith s sid 0x0401 (exec (.pkAgree sid) s)) ∧
    -- signing
    (runs 0x10 → rsa → Produces s sid sl
      (fit rk (Config.compute (.rsaSign (bits p 11 10)) [key, sigp [], m, s.freeBytes (bits p 23 16)])) 0 NoKey
      (exec (.pkSign sid) s)) ∧
    (runs 0x10 → ed → Produces s sid sl (fit sg (Config.compute (.edSign set) [key, sigp aux, m])) 0 NoKey
      (exec (.pkSign sid) s)) ∧
    (runs 0x10 → ec → inRange →
      let raw := if bit p 9 then Config.compute .ecNonce [key, le 128 (digestInt cur m), le 1 3] else s.freeBytes (cur.cs + 8)
      let r := ecdsaRS cur d (digestInt cur m) (1 + unbe raw % (cur.n - 1))
      r.1 ≠ 0 → r.2 ≠ 0 → Produces s sid sl (be cur.cs r.1 ++ be cur.cs r.2) 0 NoKey (exec (.pkSign sid) s)) ∧
    (runs 0x10 → ec → ¬ inRange → FailsWith s sid 0x0401 (exec (.pkSign sid) s)) ∧
    -- verification
    (runs 0x20 → rsa → ¬ badPk → Verdict s sid
      (decide (unbe rest < unbe (pk.take (pk.length - 4))) && Config.holds (.rsaSign (bits p 11 10)) [pk, sigp [], m, rest])
      (exec (.pkVerify sid) s)) ∧
    (runs 0x20 → rsa → badPk → FailsWith s sid 0x0408 (exec (.pkVerify sid) s)) ∧
    (runs 0x20 → ed → Verdict s sid (Config.holds (.edSign set) [pk, sigp (rest.drop sg), m, rest.take sg])
      (exec (.pkVerify sid) s)) ∧
    (∀ q, runs 0x20 → ec → cur.pubPoint pk = some q → Verdict s sid
      (ecdsaOk cur q (digestInt cur m) (unbe (rest.take cur.cs)) (unbe (rest.drop cur.cs))) (exec (.pkVerify sid) s)) ∧
    (runs 0x20 → ec → cur.pubPoint pk = none → FailsWith s sid 0x0403 (exec (.pkVerify sid) s))

/-- R296, R297, R307 to R309: RSA encryption and decryption, where a bad padding yields the rejection value, and the loading of
a curve, which reports the first check that fails. -/
def Obligations.RsaTransportAndCurveLoading : Prop :=
  ∀ (s : State) (sid : Nat) (sl : Slip), PolicyAdmits s sl →
    let runs := SlipRuns s sid sl 6
    let rsa := csSet sl.cs = 0
    let p := csParam sl.cs
    let key := keyMat sl
    let aux := ownAux sl
    let n := if csKeyUsed sl.cs then 0 else 32 * bits p 31 24 + 4
    let pk := if csKeyUsed sl.cs then key else aux.take n
    let e := unbe (pk.drop (pk.length - 4))
    let goodPk := csKeyUsed sl.cs = true ∨ (3 ≤ e ∧ e % 2 = 1)
    let hash := le 1 (bits p 7 0)
    let pad := bits p 11 10
    let k := 2 * (key.length - 4) / 7
    let ins := [key, hash, aux, sl.inData]
    let l := if csHold sl.cs then bits p 39 32 else (classLen (slipAttr sl.cs sl.exts).cls).getD 0
    let msg := Config.compute (.rsaDec pad) ins
    let reject := fit l (Config.compute (.shake 256) [Config.compute .rsaExponent [key] ++ rsaIr ++ sl.inData])
    let c := (sl.cs.auxLen - 2) / 6
    let b := s.freeBytes (128 * (c + 1))
    let fails := curveFails (parseCurve c sl.auxData) (mrBases b (c + 1)) (mrBases (b.drop (64 * (c + 1))) (c + 1))
    (runs 0x30 → rsa → goodPk → Produces s sid sl
      (fit (pk.length - 4) (Config.compute (.rsaEnc pad) [pk, hash, aux.drop n, sl.inData, s.freeBytes 1024])) 0 NoKey
      (exec (.rsaEncrypt sid) s)) ∧
    (runs 0x30 → rsa → ¬ goodPk → FailsWith s sid 0x0408 (exec (.rsaEncrypt sid) s)) ∧
    (runs 0x31 → rsa → unbe sl.inData < unbe (key.take k) → Produces s sid sl [] 0
      (KeepsSecret sl (if Config.holds (.rsaDec pad) ins = true ∧ msg.length = l then msg else reject)) (exec (.rsaDecrypt sid) s)) ∧
    (runs 0x31 → rsa → unbe (key.take k) ≤ unbe sl.inData → FailsWith s sid 0x0401 (exec (.rsaDecrypt sid) s)) ∧
    (runs 0x40 → csSet sl.cs = 6 → field sl.auxData 0 1 ≠ 0 → fails = none →
      Produces s sid sl [] 0 (fun y => y.secret = none ∧ CreatesKey sl 0x7A (curveMaterial c sl.auxData) y)
        (exec (.curveLoad sid) s)) ∧
    (∀ i, runs 0x40 → csSet sl.cs = 6 → field sl.auxData 0 1 ≠ 0 → fails = some i →
      Completes s sid 0x0406 [] 0 (BitVec.ofNat 64 i) NoKey (exec (.curveLoad sid) s)) ∧
    (runs 0x40 → csSet sl.cs = 6 → field sl.auxData 0 1 = 0 → FailsWith s sid 0x0302 (exec (.curveLoad sid) s))

/-- R301 to R303: modular arithmetic below an odd modulus of at least 3, with the operands below it, and points of a short
curve, each checked; a result at infinity is all zeros and is marked. -/
def Obligations.FieldAndPointOperationsProduceTheirResults : Prop :=
  ∀ (s : State) (sid : Nat) (sl : Slip), PolicyAdmits s sl →
    let runs := SlipRuns s sid sl 7
    let n := sl.cs.auxLen
    let m := unbe sl.auxData
    let a := unbe (sl.inData.take n)
    let b := unbe (sl.inData.drop n)
    let modulus := csSet sl.cs = 0 ∧ 3 ≤ m ∧ m % 2 = 1
    let number := fun (x : Nat) => Produces s sid sl (be n x) 0 NoKey
    let cur := slipCurve s sl
    let short := csSet sl.cs = 1 ∨ csSet sl.cs = 2 ∨ csSet sl.cs = 3 ∨ csSet sl.cs = 6
    let point := fun (q : Point) => Produces s sid sl (cur.rawBytes q) (if q = none then 1 else 0) NoKey
    let size := 2 * cur.c
    let first := cur.rawPoint (sl.inData.take size)
    let second := cur.rawPoint (sl.inData.drop size)
    let factor := unbe (sl.inData.take cur.cs)
    let base := cur.rawPoint (sl.inData.drop cur.cs)
    (runs 0x01 → modulus → a < m → b < m → number ((a + b) % m) (exec (.modadd sid) s)) ∧
    (runs 0x02 → modulus → a < m → b < m → number ((a + m - b) % m) (exec (.modsub sid) s)) ∧
    (runs 0x03 → modulus → a < m → b < m → number (a * b % m) (exec (.modmul sid) s)) ∧
    (∀ r, runs 0x04 → modulus → a < m → invMod a m = some r → number r (exec (.modinv sid) s)) ∧
    (runs 0x04 → modulus → a < m → invMod a m = none → FailsWith s sid 0x0402 (exec (.modinv sid) s)) ∧
    (runs 0x05 → modulus → a < m → b < 2 ^ 8192 → number (a ^ b % m) (exec (.modexp sid) s)) ∧
    (runs 0x03 → csSet sl.cs = 0 → m < 3 ∨ m % 2 = 0 → FailsWith s sid 0x0407 (exec (.modmul sid) s)) ∧
    (runs 0x03 → modulus → m ≤ a ∨ m ≤ b → FailsWith s sid 0x0401 (exec (.modmul sid) s)) ∧
    (∀ q r, runs 0x10 → short → first = some q → second = some r →
      point (cur.add (some q) (some r)) (exec (.padd sid) s)) ∧
    (runs 0x10 → short → first = none ∨ second = none → FailsWith s sid 0x0403 (exec (.padd sid) s)) ∧
    (∀ q, runs 0x11 → short → cur.rawPoint sl.inData = some q → point (cur.add (some q) (some q)) (exec (.pdbl sid) s)) ∧
    (runs 0x11 → short → cur.rawPoint sl.inData = none → FailsWith s sid 0x0403 (exec (.pdbl sid) s)) ∧
    (∀ q, runs 0x12 → short → factor < cur.n → base = some q → point (cur.mul factor (some q)) (exec (.pmul sid) s)) ∧
    (runs 0x12 → short → factor < cur.n → base = none → FailsWith s sid 0x0403 (exec (.pmul sid) s)) ∧
    (runs 0x12 → short → cur.n ≤ factor → FailsWith s sid 0x0401 (exec (.pmul sid) s))

/-- R79, R93, R327 to R330, R353: control and catalogue slips. -/
def Obligations.ControlAndCatalogueSlipsTakeTheirEffect : Prop :=
  ∀ (s : State) (sid : Nat) (sl : Slip), csSet sl.cs = 0 → PolicyAdmits s sl →
    let ctl := SlipRuns s sid sl 0
    let cat := SlipRuns s sid sl 8
    let cls := (slipAttr sl.cs sl.exts).cls
    (ctl 0x00 → Produces s sid sl [] 0 NoKey (exec (.ctlNop sid) s)) ∧
    (ctl 0x03 → Produces s sid sl [] 0 NoKey (exec (.ctlFence sid) s)) ∧
    (∀ h, ctl 0x01 → s.hopper? sl.hopper = some h → 64 ≤ (cxOf s sl).outMax →
      ∃ s' y, exec (.ctlStatus sid) s = .next s' ∧ s'.slip? sid = some y ∧ y.phase = .executed ∧ y.status = 0 ∧
        y.out = sbBytes s sl.hopper h (h.sbSeq + 1) ∧
        s'.hopper? sl.hopper = some { h with sbSeq := h.sbSeq + 1, dbDiscarded := false }) ∧
    (∀ t b, ctl 0x02 → cliRequest s sl.cs.outMax (bit (csParam sl.cs) 0) = some (t, b) → b.length ≤ (cxOf s sl).outMax →
      ∃ s' y, exec (.ctlRandom sid) s = .next s' ∧ s'.ent = t.ent ∧ s'.slip? sid = some y ∧ y.phase = .executed ∧
        y.status = 0 ∧ y.out = b) ∧
    (cat 0x01 → ¬ (0x68 ≤ cls ∧ cls ≤ 0x6A) →
      Produces s sid sl [] 0 (fun y => y.secret = none ∧ CreatesKey sl cls (s.freeBytes ((classLen cls).getD 0)) y)
        (exec (.catGenerate sid) s)) ∧
    (cat 0x01 → 0x68 ≤ cls ∧ cls ≤ 0x6A →
      let k := nistCurve (cls - 0x67)
      Produces s sid sl [] 0 (fun y => y.secret = none ∧
        CreatesKey sl cls (be k.c (unbe (s.freeBytes (k.cs + 8)) % k.n)) y) (exec (.catGenerate sid) s)) ∧
    (∀ k, cat 0x02 → sl.key = some k → Produces s sid sl [] 0 (fun y => y.secret = none ∧ CopiesKey sl k y)
      (exec (.catNarrow sid) s)) ∧
    (∀ r, cat 0x10 → openRecord (keyMat sl) sl.inData = some r →
      Produces s sid sl [] 0 (fun y => y.secret = none ∧ CopiesKey sl r.key y) (exec (.catUnwrap sid) s)) ∧
    (cat 0x10 → openRecord (keyMat sl) sl.inData = none → FailsWith s sid 0x0207 (exec (.catUnwrap sid) s)) ∧
    (∀ t, cat 0x20 → sl.other = some t → Produces s sid sl
      (makeRecord (keyMat sl) t (if t.useLimit = 0 then 0 else t.useLimit - t.useCount)) 0 NoKey (exec (.catWrapOut sid) s)) ∧
    (cat 0x30 → Produces s sid sl [] 0 (fun y => y.secret = none ∧ y.slotOps = [.deaccession (csKey sl.cs)])
      (exec (.catDeaccession sid) s)) ∧
    (cat 0x40 → sl.uses = [] → Produces s sid sl (slotBytes (s.slot (csKey sl.cs))) 0 NoKey (exec (.catInfo sid) s))

/-- R320: a service that is not approved, and is found so only when it runs, is refused where the carrel allows approved services
only, and denied where the key does. -/
def Obligations.ServicesNotApprovedAreRefusedByPolicy : Prop :=
  ∀ (s : State) (sid : Nat) (sl : Slip), SlipRuns s sid sl 4 0x01 → csSet sl.cs = 3 →
    (pipeKey s sl).length = 32 → sl.inData.length ≤ 65536 →
    ((s.carrel sl.carrel).approvedOnly = true → FailsWith s sid 0x0703 (exec (.aeadEncrypt sid) s)) ∧
    ((s.carrel sl.carrel).approvedOnly = false → (∃ k, sl.key = some k ∧ k.approvedOnly = true) →
      FailsWith s sid 0x0203 (exec (.aeadEncrypt sid) s))

/-- R65, R67, R96: the hopper engine reads from the hopper whose turn it is. R81, R101, R545: control slips start in the order
in which they were fetched; a dispatcher assigns the slip it picks to the units it chooses. -/
def Obligations.FetchingAndDispatchFollowTheirOrder : Prop :=
  ∀ (s : State),
    (∀ hn n h, s.hopper? hn = some h → fetchOpen s = true → eligible s hn h = true → fetchTurn s hn = true → 0 < n →
      n ≤ available s hn h →
      ∃ t h' f, exec (.hopperFetch hn n) s = .next t ∧ t.hopper? hn = some h' ∧ h'.fetch = some f ∧ f.first = h.ci ∧
        f.count = n ∧ f.parts.all (·.isNone) = true ∧ h'.ci = h.ci ∧
        t = { s with hop := { s.hop with hoppers := t.hop.hoppers }, ports := t.ports }) ∧
    (∀ hn n h, s.hopper? hn = some h → eligible s hn h = false → exec (.hopperFetch hn n) s = .next s) ∧
    (∀ sid sl, (startables (noteLeaseWait (checkReady s)) .none).head? = some (sid, sl) →
      ∃ t y, exec (.dispatch .none) s = .next t ∧ t.slip? sid = some y ∧ y.phase = .running ∧ y.final = true ∧ y.cs = sl.cs) ∧
    (∀ e sid sl ls, e ≠ .none →
      let r := noteLeaseWait (checkReady s)
      let c := catchUp r e (startables r e)
      pickSlip c e ((startables c e).filter fun p => (chooseUnits c e p.2).isSome) = some (sid, sl) →
      chooseUnits c e sl = some ls → openBroken c sl = none → sl.leaseWait = true ∨ shedIfLate c sl = false →
      ∃ t y, exec (.dispatch e) s = .next t ∧ t.slip? sid = some y ∧ y.phase = .running ∧ y.unit = ls.head? ∧
        y.gang = (if 1 < ls.length then ls else []) ∧ y.startedAt = s.now)

/-- R16, R102, R458: a woken cluster accepts work; one outside the warm pool naps, and then goes dormant. -/
def Obligations.ClustersWakeAndRest : Prop :=
  ∀ (s : State) (e : EngineType) (c : Nat),
    let st := clusterState (s.units e) c
    let is := fun (x : ClusterState) =>
      (.next (s.setUnits e { s.units e with clusters := Tab.set (s.units e).clusters c x }) : Res)
    (∀ at', st = .waking at' → exec (.wakeComplete e c) s = is (if clusterHeld s e c then .run else .idle)) ∧
    (st = .idle → warmTarget s e < awakeClusters s e ∨ clusterDropped s e c = true → exec (.clusterNap e c) s = is .nap) ∧
    (st = .idle → awakeClusters s e ≤ warmTarget s e → clusterDropped s e c = false → exec (.clusterNap e c) s = .next s) ∧
    (st = .nap → exec (.clusterDormant e c) s = is .dormant) ∧
    (st ≠ .nap → exec (.clusterDormant e c) s = .next s)

/-- R86: a slip whose operation has ended completes: it leaves the machine and its return slip takes the hopper's next
`COMPLETION_SEQ`; one with further stages goes on to the next. R106 to R109: a `LONG` message is suspended on request, and at the
end of its quantum when another slip could start, and so is `STF_KEYGEN` on any hopper (R207); a digest routine on a tun saves the
tun's state (R255). R64: a `STOPPING` hopper with nothing in flight stops. -/
def Obligations.RunningSlipsEndOrAreSuspended : Prop :=
  ∀ (s : State) (sid ns : Nat) (sl : Slip), s.slip? sid = some sl →
    let longMessage := sl.isLong = true ∧ sl.cfg.long = true ∧
      (sl.engine = .pipe ∨ sl.engine = .floor ∨ (sl.engine = .tun ∧ csClass sl.cs = 5))
    let stfKeygen := sl.isLong = true ∧ csClass sl.cs = 2 ∧ sl.engine = .floor
    let suspended := fun (r : Res) => ∃ t y, r = .next t ∧ t.slip? sid = some y ∧ y.phase = .suspended ∧ y.unit = none ∧
      y.gang = sl.gang ∧ y.suspendReq = false ∧ y.inData = sl.inData ∧
      t.pipes.suspTot = (if sl.engine = .pipe then s.pipes.suspTot + 1 else s.pipes.suspTot)
    (∀ h, sl.phase = .executed → chainOf s sid = [(sid, sl)] → sl.head = sid → sl.chainComplete = true → sl.slotOps = [] →
      sl.secret = none → sl.writesLeft = 0 → isLate s sl = false → sl.status ≠ 0x0504 → s.hopper? sl.hopper = some h →
      ∃ t h', exec (.executionComplete sid ns) s = .next t ∧ t.slip? sid = none ∧ t.hopper? sl.hopper = some h' ∧
        h'.nextCseq = h.nextCseq + 1 ∧ (t.carrel sl.carrel).stats.slips = (s.carrel sl.carrel).stats.slips + 1 ∧
        t.ent = s.ent ∧ t.dres = s.dres ∧ t.kilns = s.kilns) ∧
    (sl.phase = .running → sl.readsLeft = 0 → unitAwake s sl = true → endedTun s sl = none → sl.final = false →
      csInline sl.cs = false → csClass sl.cs ≠ 2 →
      ∃ t y, exec (.executionComplete sid ns) s = .next t ∧ t.slip? sid = some y ∧ y.phase = .staged ∧ y.stage = sl.stage + 1 ∧
        y.unit = none) ∧
    (sl.phase = .running → sl.readsLeft ≠ 0 → exec (.executionComplete sid ns) s = .next s) ∧
    (sl.phase = .running → sl.abortReq = false → sl.suspendReq = true → longMessage → suspended (exec (.longSuspend sid) s)) ∧
    (sl.phase = .running → sl.abortReq = false → sl.suspendReq = false → exec (.longSuspend sid) s = .next s) ∧
    (sl.phase = .running → sl.abortReq = false → longMessage ∨ stfKeygen → suspendedCount s < contextLimit s →
      (s.carrel sl.carrel).st ≠ .quiescing → startables s sl.engine ≠ [] → suspended (exec (.longQuantumEnd sid) s)) ∧
    (sl.phase = .running → sl.abortReq = false → startables s sl.engine = [] → exec (.longQuantumEnd sid) s = .next s) ∧
    (∀ hn h, s.hopper? hn = some h → h.state = .stopping → inFlight s hn = 0 →
      ∃ t h', exec (.hopperStopped hn) s = .next t ∧ t.hopper? hn = some h' ∧ h'.state = .stopped ∧ t.hop.slips = s.hop.slips) ∧
    (∀ hn h, s.hopper? hn = some h → h.state = .stopping → inFlight s hn ≠ 0 → exec (.hopperStopped hn) s = .next s)

/-- R17, R112, R446: a faulted unit is fenced, and the slip that it ran is put back to run once more. R447: a unit whose retest
passes serves the lowest vacant index. R141, R288: a scrubbed tun and a wiped kiln accept work again. R115, R171: an open-stacks
routine starts at its entry with nothing left of earlier work. R137: a mask generator reseeds. R438, R444, R449. -/
def Obligations.UnitsFaultAreWipedAndReturn : Prop :=
  ∀ (s : State) (e : EngineType) (phys src : Nat),
    let u := s.units e
    let quiet := ∀ n ∈ [src, 0x300, 0x301], (srcCfg s n).minor.getLsbD 3 = false ∧ (srcCfg s n).severe.getLsbD 3 = false
    let ran := s.hop.slips.filter fun p => p.2.engine == e && (match logicalOf e u phys with
      | some l => (heldUnits p.2).contains l
      | none => false)
    let freed := fun (e : EngineType) (r : State) =>
      r.setUnits e { r.units e with held := (r.units e).held.filter (· != phys) }
    (sourceEngine src = e → phys < physUnits e → Tab.has u.fenced phys = false → quiet →
      ∃ t, exec (.unitFault e phys src) s = .next t ∧ (Tab.get? (t.units e).fenced phys).isSome = true ∧
        ∀ sid sl, ran = [(sid, sl)] → s.slip? sid = some sl → sl.retried = false → s.cel.stage < 4 → admitted s sl = true →
          ∃ y, t.slip? sid = some y ∧ y.phase = .staged ∧ y.retried = true ∧ y.unit = none ∧ y.out = [] ∧ y.slotOps = []) ∧
    (Tab.get? u.fenced phys = some .minor →
      ∃ t, exec (.retestComplete e phys none) s = .next t ∧ Tab.get? (t.units e).fenced phys = none ∧
        ∀ l, (vacant e u).head? = some l → physOf (t.units e) l = some phys) ∧
    (Tab.get? u.fenced phys = some .severe → exec (.retestComplete e phys none) s = .next s) ∧
    ((s.tun phys).scrubbing = true →
      exec (.tunScrubDone phys) s = .next (freed .tun (s.setTun phys { ({} : Tun) with trace := (s.tun phys).trace }))) ∧
    ((s.kiln phys).wiping = true → exec (.kilnWipeDone phys) s = .next (freed .kiln (s.setKiln phys {}))) ∧
    (exec .hopperEngineResetDone s = .next { s with hop := { s.hop with resetting := false } }) ∧
    (s.flt.errLatch.flag = false → s.reg.dev ≠ .failed → s.ent.state ≠ .failed →
      exec .errNRelease s = .next { s with flt := { s.flt with errN := false } }) ∧
    (s.flt.errLatch.flag = true ∨ s.reg.dev = .failed ∨ s.ent.state = .failed → exec .errNRelease s = .next s) ∧
    (∀ sid sl n img en, opReady s sid 0xF (fun _ => true) = some sl → (physUnitsOf s sl).head? = some n →
      s.tuns.active = some img → (s.tun n).running = false → img.entries[csOp sl.cs]? = some en →
      ∃ t, exec (.openStacksInvoke sid) s = .next t ∧ t.tun n = { ({} : Tun) with
        pc := en.addr, running := true, sid := some sid, openRoutine := true, declassRight := img.declassify
        shares := if (s.carrel sl.carrel).maskOrder = 3 then 3 else 2, trace := (s.tun n).trace }) ∧
    (let i := 17 + s.ent.nextMsk % 8
     s.ent.state ≠ .failed → (drbg s i).live = true → reseedDue s i = false → (drbg s i).reseedDue = false →
      ∃ t, exec (.maskgenReseed phys) s = .next t ∧ t.ent.nextMsk = s.ent.nextMsk + 1 ∧
        (drbg t i).requests = (drbg s i).requests + 1)

/-- R44 to R49, R71 to R73, R75: doorbells. A WRITE that fails its checks is refused and the queue pair is in error; otherwise it
is acknowledged and each record is handled at its hopper: P moves forward, never back and never past the ring. -/
def Obligations.DoorbellsMoveTheProducerIndex : Prop :=
  ∀ (s : State),
    let record := fun (hn type seq pi : Nat) (b : Bytes) =>
      field b 0 4 = hn ∧ field b 4 4 = seq ∧ field b 8 4 = pi ∧ field b 12 2 = type ∧ type ≤ 1 ∧ field b 14 2 = 0
    (∀ hn h seq pi b, s.hopper? hn = some h → record hn 0 seq pi b →
      let p := BitVec.ofNat 32 pi
      let h' := { h with lastDbSeq := BitVec.ofNat 32 seq }
      ((p - h.ci).toNat ≤ 2 ^ h.depthLog2 → p ≠ h.p → (h.p - h.ci).toNat ≤ (p - h.ci).toNat →
        doorbellRecord s hn b = s.setHopper hn { h' with p := p, arrivals := h.arrivals ++ [(p, s.now)] }) ∧
      ((p - h.ci).toNat ≤ 2 ^ h.depthLog2 → p = h.p ∨ (p - h.ci).toNat < (h.p - h.ci).toNat →
        doorbellRecord s hn b = s.setHopper hn h') ∧
      (2 ^ h.depthLog2 < (p - h.ci).toNat → doorbellRecord s hn b = doorbellError s h.carrel (some hn))) ∧
    (∀ hn h b, s.hopper? hn = some h → field b 0 4 ≠ hn ∨ 1 < field b 12 2 ∨ field b 14 2 ≠ 0 →
      doorbellRecord s hn b = doorbellError s h.carrel (some hn)) ∧
    (∀ qpn psn rkey off data q, s.qp? qpn = some q → q.phase = .rts → q.recvPsn = BitVec.ofNat 24 psn →
      let run := exec (.doorbellWrite qpn psn false rkey off data) s
      let hops := (List.range ((data.length + 15) / 16)).map fun i => hopperAt s q.carrel (off / 16 + i)
      let bound := ∀ x ∈ hops, ∃ hn h, x = some hn ∧ s.hopper? hn = some h ∧ h.qpn = some qpn
      let taken := (s.setQp qpn { q with recvPsn := q.recvPsn + 1 }).send (.ack qpn psn)
      (data.length ≤ 1024 → data.length % 16 = 0 → rkey = q.dbRkey → off % 16 = 0 → bound →
        run = .next ((hops.zipIdx).foldl (fun r x => doorbellRecord r (x.1.getD 0) (slice data (16 * x.2) 16)) taken)) ∧
      (data.length ≤ 1024 → data.length % 16 ≠ 0 → rkey = q.dbRkey → off % 16 = 0 → bound →
        run = .next (hops.foldl (fun r x => doorbellError r q.carrel x) taken)) ∧
      (data.length ≤ 1024 → rkey ≠ q.dbRkey ∨ off % 16 ≠ 0 ∨ ¬ bound →
        run = .next (qpError (s.send (.nakRemoteAccess qpn psn)) qpn none 0x3FFFF)) ∧
      (1024 < data.length → run = .next (qpError (s.send (.nakInvalidRequest qpn psn)) qpn none 0x3FFFF))) ∧
    (∀ fn k hn h data, k < 65536 → hopperAt s fn k = some hn → s.hopper? hn = some h → h.attach = .host →
      let key := 65536 * fn + k
      let clear := { s with hop := { s.hop with hostLatch := Tab.erase s.hop.hostLatch key } }
      (data.length = 16 → exec (.hostDoorbell fn (16 * k) data) s = .next (doorbellRecord clear hn data)) ∧
      (data.length = 8 → exec (.hostDoorbell fn (16 * k) data) s =
        .next { s with hop := { s.hop with hostLatch := Tab.set s.hop.hostLatch key data } }) ∧
      (∀ b, data.length = 8 → Tab.get? s.hop.hostLatch key = some b →
        exec (.hostDoorbell fn (16 * k + 8) data) s = .next (doorbellRecord clear hn (b ++ data))))

/-- R35, R38 to R43, R57: connections. A request that passes every check gets a queue pair and, once the old one is drained, a
reply; RTU binds its hoppers; a disconnection unbinds them. A queue pair in error has sent DREQ and lost its hoppers. -/
def Obligations.QueuePairsConnectAndDisconnect : Prop :=
  ∀ (s : State) (n : Nat),
    (∀ r code, reqRefused s r (liveToken s (BitVec.ofNat 128 (field r.priv 8 16)) (field r.priv 6 2)) = some code →
      exec (.cmReq r) s = .next (s.send (.rej r.port code))) ∧
    (∀ r tid k, liveToken s (BitVec.ofNat 128 (field r.priv 8 16)) (field r.priv 6 2) = some (tid, k) →
      reqRefused s r (some (tid, k)) = none → freeQpn s = some n → (s.ports.qps.any fun p => p.2.token == some tid) = false →
      (∀ hn h, s.hopper? hn = some h → h.qpn = none) →
      ∃ t q, exec (.cmReq r) s = .next t ∧ t.qp? n = some q ∧ q.phase = .repSent ∧ q.carrel = k.carrel ∧ q.token = some tid ∧
        q.hopFirst = k.first ∧ q.hopCount = k.count ∧ q.peerQpn = r.clientQpn ∧ q.pmtu = min r.pathMtu (min k.mtu 4096) ∧
        q.readDepth = min 16 r.respRes ∧ q.recvPsn = r.clientPsn ∧ q.outstanding = []) ∧
    (∀ q old, s.qp? n = some q → q.phase = .waitDrain old → (∀ o ∈ old, ∀ x, s.qp? o = some x → x.outstanding = []) →
      exec (.rebindDrainDone n) s = .next (rebindOn s n old)) ∧
    (∀ q old o x, s.qp? n = some q → q.phase = .waitDrain old → o ∈ old → s.qp? o = some x → x.outstanding ≠ [] →
      exec (.rebindDrainDone n) s = .next s) ∧
    (∀ q old, s.qp? n = some q → q.phase = .waitDrain old → exec (.rebindDrainTimeout n) s = .next (rebindOn s n old)) ∧
    (∀ q, s.qp? n = some q → rebindOn s n [] = sendRep s n ∧ ∃ x, (sendRep s n).qp? n = some x ∧ x.phase = .repSent) ∧
    (∀ q hn h, s.qp? n = some q → q.phase = .repSent → q.hopCount = 1 → q.hopFirst = hn → s.hopper? hn = some h →
      h.carrel = q.carrel → h.held = [] → h.statusPending = 0 →
      ∃ t q' h', exec (.cmRtu n) s = .next t ∧ t.qp? n = some q' ∧ q'.phase = .rts ∧ q'.alpha = 1 ∧
        q'.rate = portRate s q.port ∧ t.hopper? hn = some h' ∧ h'.qpn = some n) ∧
    (∀ q, s.qp? n = some q → q.phase ≠ .repSent → exec (.cmRtu n) s = .next s) ∧
    (∀ q, s.qp? n = some q → q.outstanding = [] →
      ∃ t, exec (.cmDreq n) s = .next t ∧ t.qp? n = none ∧ ∀ hn h, t.hopper? hn = some h → h.qpn ≠ some n) ∧
    (∀ q, s.qp? n = some q → q.phase = .error → exec (.cmDrep n) s = .next (s.delQp n)) ∧
    (∀ q, s.qp? n = some q → q.phase ≠ .error → exec (.cmDrep n) s = .next s) ∧
    (∀ q psn, s.qp? n = some q → q.phase = .rts →
      exec (.invalidRequestPacket n psn) s = .next (qpError (s.send (.nakInvalidRequest n psn)) n none 0x3FFFF)) ∧
    (∀ q, s.qp? n = some q → q.phase ≠ .error → q.outstanding = [] →
      let t := qpError s n none 0x3FFFF
      (∃ x, t.qp? n = some x ∧ x.phase = .error) ∧ (∀ hn h, t.hopper? hn = some h → h.qpn ≠ some n) ∧
      (t.carrel q.carrel).stats.qpErr = (s.carrel q.carrel).stats.qpErr + 1)

/-- R50 to R54, R58, R76: what answers a request. A READ response delivers its data; an acknowledgement also settles every WRITE
before it; a NAK or an exhausted budget puts the queue pair in error; a CNP cuts the rate and quiet periods raise it. -/
def Obligations.RequestsAreAnsweredOrRetried : Prop :=
  ∀ (s : State) (n rid : Nat) (q : Qp), s.qp? n = some q →
    let others := { q with retryLeft := q.retryCnt, rnrLeft := q.rnrCnt, outstanding := [] }
    let fails := fun (r : Req) (src : Option Nat) => (.next (qpError s n src (reqHopper s r)) : Res)
    (∀ r data, findReq s n rid = some r → r.read = true → data.length = r.len → q.outstanding = [r] →
      exec (.rdmaReadResponse n rid false data) s = .next (afterAck (deliverData (s.setQp n others) r data) n)) ∧
    (∀ r data, findReq s n rid = some r → r.read = true → data.length ≠ r.len → q.outstanding = [r] → isRing r = false →
      exec (.rdmaReadResponse n rid false data) s =
        .next (qpError (failReq (s.setQp n others) [] 0x0302 r) n (some 0x102) (reqHopper (s.setQp n others) r))) ∧
    (∀ sid off d, (∀ sl, s.slip? sid = some sl →
      (deliverData s { id := rid, kind := .input sid off, read := true, addr := 0, len := d.length } d).slip? sid =
        some { sl with readsLeft := sl.readsLeft - 1, inData := splice sl.inData off d })) ∧
    (∀ r, findReq s n rid = some r → r.read = false → q.outstanding = [r] →
      exec (.rdmaWriteAck n rid false) s = .next (afterAck (written (s.setQp n others) r) n)) ∧
    (∀ hn h c r, s.hopper? hn = some h → r.kind = .returnSlip hn c → written s r = s.setHopper hn { h with lastAckCseq := c }) ∧
    (∀ r, findReq s n rid = some r → q.outstanding = [r] → isRing r = false →
      exec (.nakRemoteAccessError n rid) s = .next (qpError (s.setQp n q) n (some 0x101) (reqHopper s r))) ∧
    (∀ r, findReq s n rid = some r → exec (.nakInvalidRequest n rid) s = fails r (some 0x106)) ∧
    (∀ r, findReq s n rid = some r → exec (.nakPsnSequenceError n rid) s =
      .next (s.sendAll (((q.outstanding.dropWhile fun x => x.id != rid).filter (·.sent)).map fun x => .resend n x.id))) ∧
    (∀ r, findReq s n rid = some r → r.imm ≠ none → exec (.rnrNak n rid) s =
      .next (s.setQp n { q with outstanding := q.outstanding.map fun x => if x.id = rid then { x with rnrWait := true } else x })) ∧
    (∀ r, findReq s n rid = some r → r.rnrWait = true → q.rnrLeft = 0 → exec (.rnrRetry n rid) s = fails r (some 0x105)) ∧
    (∀ r, findReq s n rid = some r → r.rnrWait = true → q.rnrLeft ≠ 0 → exec (.rnrRetry n rid) s =
      .next ((s.setQp n { q with rnrLeft := q.rnrLeft - 1, outstanding := q.outstanding.map fun x =>
        if x.id = rid then { x with rnrWait := false } else x }).send (.resend n rid))) ∧
    (∀ r rs, q.phase = .rts → q.outstanding = r :: rs → q.retryLeft = 0 →
      exec (.ackTimeout n) s = fails r (some 0x104)) ∧
    (q.phase = .rts → q.outstanding ≠ [] → q.retryLeft ≠ 0 → exec (.ackTimeout n) s =
      .next ((s.setQp n { q with retryLeft := q.retryLeft - 1 }).sendAll
        ((q.outstanding.filter (·.sent)).map fun r => .resend n r.id))) ∧
    (q.phase = .rts → 0 < q.alpha → q.alpha ≤ 1 → 1 / 10 ≤ q.rate →
      ∃ t x, exec (.cnpReceived n) s = .next t ∧ t.qp? n = some x ∧ x.target = q.rate ∧ x.periods = 0 ∧
        x.rate = max (1 / 10) (q.rate * (1 - q.alpha / 2)) ∧ x.rate ≤ q.rate ∧ x.alpha = 15 / 16 * q.alpha + 1 / 16 ∧
        (t.octet (q.port / 8)).cnpRx = (s.octet (q.port / 8)).cnpRx + 1) ∧
    (q.phase = .rts → q.rate ≤ q.target → q.target ≤ portRate s q.port → 1 / 10 ≤ q.rate →
      ∃ t x, exec (.ratePeriod n) s = .next t ∧ t.qp? n = some x ∧ x.alpha = 15 / 16 * q.alpha ∧ x.periods = q.periods + 1 ∧
        x.target = (if q.periods < 5 then q.target else min (portRate s q.port) (q.target + 5)) ∧
        x.rate = (q.rate + x.target) / 2 ∧ q.rate ≤ x.rate ∧ x.rate ≤ portRate s q.port) ∧
    (∀ fn r d, (Tab.getD s.ports.hostReqs fn []).find? (fun x => x.id == rid) = some r → d.length = r.len →
      exec (.hostDmaCompletion fn rid (.data d)) s = .next (deliverData { s with ports := { s.ports with
        hostReqs := Tab.set s.ports.hostReqs fn ((Tab.getD s.ports.hostReqs fn []).filter fun y => y.id != rid) } } r d))

/-- R22, R28, R29, R33, R34: frames not for a carrel are counted; address requests for a carrel are answered; next hops are
resolved, retried three times and forgotten; an address taken on is announced twice more. -/
def Obligations.FramesAndAddressesAreHandled : Prop :=
  ∀ (s : State) (port vlan c : Nat) (ip : IpAddr),
    let n := port / 8
    let o := s.octet n
    let dropped := s.setOctet n { o with rxDrop := o.rxDrop + 1 }
    let x := s.carrel c
    let hop := s.ports.nextHops.find? (isHop c ip)
    (exec (.frameDiscarded port vlan .transport) s = .next s) ∧
    (exec (.frameDiscarded port vlan .notForCarrel) s = .next dropped) ∧
    (carrelOn s port vlan = some c → exec (.frameDiscarded port vlan .filtered) s =
      .next (dropped.setCarrel c { x with stats := { x.stats with rxDrop := x.stats.rxDrop + 1 } })) ∧
    (∀ mac sender target, carrelOn s port vlan = some c → onNetwork s c = true → hasIp x.net (.v4 target) = true →
      sender ≠ target → exec (.arpRequest port vlan mac sender target) s = .next (s.send (.arpReply port c target x.net.mac mac))) ∧
    (∀ mac sender target, carrelOn s port vlan = some c → onNetwork s c = true → hasIp x.net (.v4 target) = false →
      exec (.arpRequest port vlan mac sender target) s = .next s) ∧
    (∀ mac sender target, carrelOn s port vlan = some c → onNetwork s c = true → hasIp x.net (.v6 target) = true →
      sender ≠ target →
      exec (.neighborSolicitation port vlan mac sender target) s = .next (s.send (.neighborAdvert port c target x.net.mac mac))) ∧
    (∀ mac sender target, carrelOn s port vlan = none → exec (.neighborSolicitation port vlan mac sender target) s = .next s) ∧
    (∀ mac, (s.ports.qps.filter fun p => p.2.carrel == c) = [] →
      exec (.nextHopResolved c ip mac) s = .next (setHop s c ip fun h => some { h with st := .resolved mac })) ∧
    (∀ h k, hop = some h → h.st = .resolving k → k < 2 → exec (.resolutionRetry c ip) s =
      .next ((setHop s c ip fun h => some { h with st := .resolving (k + 1) }).send (.resolve h.port c ip false))) ∧
    (∀ h k, hop = some h → h.st = .resolving k → 2 ≤ k → exec (.resolutionRetry c ip) s =
      .next (setHop s c ip fun h => some { h with st := .unreachable })) ∧
    (∀ h, hop = some h → 375000000000 ≤ s.now - h.lastUse →
      ∃ t, exec (.nextHopCacheExpiry c ip) s = .next t ∧ t.ports.nextHops.find? (isHop c ip) = none ∧
        t = { s with ports := { s.ports with nextHops := t.ports.nextHops } }) ∧
    (∀ h mac, hop = some h → h.st = .resolved mac → s.now - h.lastUse < 375000000000 →
      exec (.nextHopCacheExpiry c ip) s = .next (s.send (.resolve h.port c ip true))) ∧
    (∀ k, Tab.get? s.ports.announce c = some k →
      ∃ t, exec (.gratuitousArp c) s = .next t ∧ t.ports.announce =
        (if k ≤ 1 then Tab.erase s.ports.announce c else Tab.set s.ports.announce c (k - 1)) ∧
        t.out = (s.sendAll (announcements s c)).out)

/-- R56, R58, R60: pause frames hold a priority, a storm is recorded and, where configured, ends the pause; a port that trains
brings its octet up, one whose link goes takes it down with the last; uncorrectable codewords are counted. -/
def Obligations.PausesAndLinksChangePortState : Prop :=
  ∀ (s : State) (port prio : Nat),
    let n := port / 8
    let p := port % 8
    let o := s.octet n
    let x := pfcAt s port prio
    let bit' := BitVec.ofNat 8 (2 ^ p)
    (∀ quanta, prio < 8 → o.pfcEn.getLsbD prio = true → x.ignoring = false → quanta ≠ 0 →
      ∃ y, exec (.pauseFrame port prio quanta) s = .next (setPfc s port prio y) ∧ y.pausedSince ≠ none ∧
        y.pausedUntil = s.now + quanta * 640 / modeRate o.mode) ∧
    (prio < 8 → o.pfcEn.getLsbD prio = true → x.ignoring = false →
      ∃ y, exec (.pauseFrame port prio 0) s = .next (setPfc s port prio y) ∧ y.pausedSince = none ∧ y.storm = false) ∧
    (∀ quanta, 8 ≤ prio ∨ o.pfcEn.getLsbD prio = false ∨ x.ignoring = true → exec (.pauseFrame port prio quanta) s = .next s) ∧
    (prio < 8 → x.pausedSince ≠ none → x.storm = false →
      let ign := o.pfcIgnore.getLsbD prio
      exec (.portPfcStorm port prio) s = .next (reportSrc ((setPfc s port prio { x with
        storm := true, ignoring := ign, pausedSince := if ign then none else x.pausedSince }).setOctet n
          { o with pfcStorm := o.pfcStorm.hit }) 0x109 0xFF (BitVec.ofNat 32 n))) ∧
    (x.ignoring = true →
      exec (.pfcIgnoreRelease port prio) s = .next (setPfc s port prio { x with ignoring := false, storm := false })) ∧
    (x.ignoring = false → exec (.pfcIgnoreRelease port prio) s = .next s) ∧
    (∃ y, exec (.portFecUncorr port) s = .next (reportSrc (s.setOctet n y) 0x107 0xFF (BitVec.ofNat 32 n)) ∧
      y.fecUncorr = o.fecUncorr + 1 ∧ y.state = o.state ∧ y.portUp = o.portUp) ∧
    (o.state = .down ∨ o.state = .up → p < modePorts o.mode →
      ∃ t, exec (.linkUp port) s = .next t ∧ (t.octet n).state = .up ∧ (t.octet n).portUp = o.portUp ||| bit' ∧
        n ∉ t.flt.octetReset ∧ ∀ m, m ≠ n → t.octet m = s.octet m) ∧
    (o.portUp.getLsbD p = true →
      ∃ y, exec (.linkDown port) s = .next (reportSrc (s.setOctet n y) 0x108 0xFF (BitVec.ofNat 32 n)) ∧
        y.portUp = o.portUp &&& ~~~bit' ∧ y.state = (if y.portUp = 0 then .down else .up)) ∧
    (o.portUp.getLsbD p = false → exec (.linkDown port) s = .next s)

/-- R13, R166, R223, R227, R316, R348, R382 to R387, R411, R412, R442, R446, R470, R480, R481, R484, R487, R508, R515 to R517,
R529, R541 to R543: reset and the boot stages. Each stage begins when the one before it is done and nothing holds the boot; a
stage that fails leads to RECOVERY or to a FAILED device; READY ends the boot. -/
def Obligations.BootStagesTakeTheirEffect : Prop :=
  ∀ (s : State) (r3 : Stage3) (r4 : Stage4) (r5 : Stage5) (r7 : Stage7) (r8 : Stage8) (r9 : Stage9) (r10 : Stage10),
    let b := s.boot
    let at' := fun (n : Nat) => s.reg.dev = .booting ∧ b.stage = n ∧ b.shedHold = false ∧ b.coldWait = false ∧
      s.cel.mainPower = true ∧ (s.tmp.lcs = .factory ∨ s.tmp.lcs = .provisioned ∨ s.tmp.lcs = .service ∨ s.tmp.lcs = .returned) ∧
      s.tmp.evidence < 1024
    let stg := fun (n : Nat) => { s with boot := { b with stage := n } }
    -- power-on reset
    (∀ x y, s.cel.mainPower = false → exec (.porN x y) s = .next s) ∧
    (s.cel.mainPower = true → ∀ y, ∃ t, exec (.porN false y) s = .next t ∧ t.reg.dev = .off ∧ t.flt.log = [] ∧ t.flt.errLatch = {} ∧
      t.cel.shedTot1 = 0 ∧ t.cel.shedTot2 = 0 ∧ t.cel.shedTot3 = 0 ∧ t.cel.shedTot4 = 0 ∧ t.cel.devSec = s.cel.devSec ∧
      t.hop = State.reset.hop ∧ t.cat = State.reset.cat ∧ t.tuns = State.reset.tuns) ∧
    (s.cel.mainPower = true → s.reg.dev = .off → ∀ y, exec (.porN true y) s = .next { s with
      reg := { s.reg with dev := .booting }, mirror := { s.mirror with hbOut := true }, qdr := { s.qdr with paired := y } }) ∧
    (s.cel.mainPower = true → s.reg.dev ≠ .off → ∀ y, exec (.porN true y) s = .next s) ∧
    (b.shedHold = true → exec .bootHoldEnd s = .next (chipReset { s with cel := { s.cel with warn := false } })) ∧
    (b.shedHold = false → exec .bootHoldEnd s = .next s) ∧
    -- no stage begins out of its place
    (s.reg.dev ≠ .booting ∨ b.shedHold = true ∨ b.coldWait = true ∨ s.cel.mainPower = false →
      exec (.bootStage3 r3) s = .next s ∧ exec (.bootStage4 r4) s = .next s ∧ exec (.bootStage5 r5) s = .next s ∧
      exec .bootStage6 s = .next s ∧ exec (.bootStage7 r7) s = .next s ∧ exec (.bootStage8 r8) s = .next s ∧
      exec (.bootStage9 r9) s = .next s ∧ exec (.bootStage10 r10) s = .next s ∧ exec .bootStage11 s = .next s ∧
      exec .bootStage12 s = .next s ∧ exec .bootStage13 s = .next s) ∧
    (b.stage ≠ 3 → exec (.bootStage4 r4) s = .next s) ∧ (b.stage ≠ 12 → exec .bootStage13 s = .next s) ∧
    (s.tmp.lcs = .scrap ∨ s.tmp.lcs = .invalid ∨ s.tmp.lcs = .blank → b.stage = 5 → exec .bootStage6 s = .next s) ∧
    (s.tmp.lcs = .service → 1024 ≤ s.tmp.evidence → b.stage = 6 → exec (.bootStage7 r7) s = .next s) ∧
    -- stage 3
    (at' 2 → let cold := decide (r3.dieTemp.toInt < 0)
      let t := { s with boot := { b with stage := 3, dieTemp := r3.dieTemp, coldWait := cold, waiting := cold } }
      (r3.pllsLocked = true → r3.romOk = true → exec (.bootStage3 r3) s = .next (stage3Folio t r3)) ∧
      (r3.pllsLocked = false ∨ r3.romOk = false → exec (.bootStage3 r3) s = .next (failDevice t))) ∧
    (b.coldWait = true → exec .bootDieTempReached s = .next { s with boot := { b with coldWait := false, waiting := false, dieTemp := 0 } }) ∧
    (b.coldWait = false → exec .bootDieTempReached s = .next s) ∧
    -- stage 4
    (at' 3 → s.reg.trial = .none →
      (r4.image = none → exec (.bootStage4 r4) s = .next (toRecovery (stg 4)) ∧ (toRecovery (stg 4)).reg.dev = .recovery) ∧
      (∀ x, r4.image = some x → x.version < ctrFinal s 0 → exec (.bootStage4 r4) s = .next (toRecovery (stg 4))) ∧
      (∀ x, r4.image = some x → ctrFinal s 0 ≤ x.version → exec (.bootStage4 r4) s = .next (setDresA { (stg 4) with
        reg := { s.reg with running := x, activeBank := x, aliasKeys := true } } 1 x.measure))) ∧
    -- stage 5
    (at' 4 → let t := (Tab.keys s.ledger.counters).foldl checkCounter (markBad (loadDefaults (stg 5)) [])
      r5.badCells = [] → s.ledger.counters = [] → s.tmp.lcs ≠ .returned →
      exec (.bootStage5 r5) s = .next { t with reg := { t.reg with served := true } }) ∧
    -- stages 6 to 8
    (at' 5 → s.tmp.pendingEv = false → s.tmp.responded = false → s.cel.cellarKey = true → exec .bootStage6 s = .next (stg 6)) ∧
    (at' 5 → s.tmp.pendingEv = true → s.tmp.responded = false → s.tmp.evidence < 1023 →
      exec .bootStage6 s = .next { (stg 6) with tmp := { addEvidence s.tmp with pendingEv := false } }) ∧
    (at' 6 → r7.katOk = true → r7.failed = [] → s.cel.cellarKey = true →
      let t := startSources (stg 7)
      exec (.bootStage7 r7) s = .next (noteDev t (instantiate t)) ∧ (instantiate t).ent.state = .ready) ∧
    (at' 7 → r8.katOk = false → exec (.bootStage8 r8) s = .next (failDevice (stg 8))) ∧
    (at' 7 → r8.katOk = true → (∀ k, k < 8 → channelPasses r8 k = true) →
      exec (.bootStage8 r8) s = .next { (stg 8) with qdr := { s.qdr with
        trained := true, chOk := 0xFF, eyes := (List.range 8).map fun k => (k, eyeOf r8 k), guardKeys := true } }) ∧
    -- stage 9
    (at' 8 → r9.modes = [] → mayRestore s = false → b.waiting = false →
      exec (.bootStage9 r9) s = .next { s with boot := { b with stage := 9, waiting := true } }) ∧
    (at' 8 → r9.modes = [] → mayRestore s = true → archiveUnion s = [] → orphans s = [] → markedImage s = none →
      exec (.bootStage9 r9) s = .next (ensureAnchor { s with
        boot := { b with stage := 9, waiting := false }, folio := { s.folio with nextSeq := max s.folio.nextSeq 1 } })) ∧
    ((s.slot 0).valid = true → ensureAnchor s = s) ∧
    -- stages 10 to 13
    (at' 9 → b.waiting = true → exec (.bootStage10 r10) s = .next s) ∧
    (at' 9 → b.waiting = false → r10.failed = [] →
      let t := [EngineType.tun, .floor, .pipe, .kiln].foldl assignIndices (stg 10)
      exec (.bootStage10 r10) s = .next { t with tuns := { t.tuns with
        store := (t.reg.running.words.zipIdx).foldl (fun m p => Tab.set m p.2 p.1) t.tuns.store } }) ∧
    (at' 10 → exec .bootStage11 s = .next (stg 11)) ∧
    (at' 11 → s.tmp.lcs = .returned → exec .bootStage12 s = .next (stg 12)) ∧
    (at' 11 → s.tmp.lcs ≠ .returned → exec .bootStage12 s = .next { (stg 12) with ports := { s.ports with
      octets := Tab.mapVals s.ports.configured fun _ o => freshOctet (stg 12) o } }) ∧
    (at' 12 → let t := { (stg 13) with reg := { s.reg with dev := .ready } }
      exec .bootStage13 s = .next (endTrial (preservedEvents (noteDev s t)))) ∧
    (at' 12 → s.reg.trial = .none → s.reg.trialReverted = false → s.flt.log = [] →
      ∃ t, exec .bootStage13 s = .next t ∧ t.reg.dev = .ready ∧ t.boot.stage = 13)

/-- R351, R358, R362 to R367, R482: the mailbox. A command is served once, in the order of its sequence numbers: a repeated frame
gets its kept response again, a number out of order is refused, the first check that fails answers, and a response clears the
window. A device FAILED under R358 serves none; that one whose entropy unit alone has failed still serves is the model's reading
(log 154). Carrel 0's first key in PROVISIONED or SERVICE needs no session. -/
def Obligations.TheMailboxServesEachCommandOnce : Prop :=
  ∀ (s : State) (fn : Nat) (c : CmdSpec) (body : State → Bytes → CmdRes),
    let m := s.mbx fn
    let r := accept s fn
    let p := framePayload m
    (canServe s fn = false ∨ field m.cmdWin 0 2 ≠ c.code → serve s fn c body = s) ∧
    (canServe s fn = true → field m.cmdWin 0 2 = c.code → again m = false →
      (isReplay m = true → serve s fn c body = replayRsp s fn) ∧
      (isReplay m = false → hseqOk m = false →
        serve s fn c body = respond s fn { status := 0x0603, detail := (m.lastHseq + 1).toNat } false) ∧
      (isReplay m = false → hseqOk m = true → c.lenOk p.length = false → serve s fn c body = respond r fn { status := 0x0101 }) ∧
      (∀ a, isReplay m = false → hseqOk m = true → checkCmd r fn c p = some a → serve s fn c body = respond r fn a) ∧
      (∀ t a, isReplay m = false → hseqOk m = true → checkCmd r fn c p = none → body r p = .done t a →
        serve s fn c body = respond t fn a) ∧
      (∀ t w, isReplay m = false → hseqOk m = true → checkCmd r fn c p = none → body r p = .wait t w →
        serve s fn c body = t.setMbx fn { t.mbx fn with wait := w })) ∧
    -- an entropy unit that has failed leaves the mailboxes served; carrel 0's first key needs no session
    (m.busy = true → m.wait = .none → s.reg.served = true → s.reg.switching = false → s.ent.state = .failed → s.reg.pairsFenced < 2 →
      s.reg.dev ≠ .recovery → canServe s fn = true) ∧
    (s.reg.dev = .failed → s.reg.pairsFenced = 2 → canServe s fn = false) ∧
    (c.code = 0x0014 → c.role = .oa → s.tmp.lcs = .provisioned ∨ s.tmp.lcs = .service → (s.reg.admins.any fun q => q.1 / 4 == 0) = false →
      sessionOk s 0 c = true) ∧
    (∀ a, m.busy = true →
      let y := (respond s fn a).mbx fn
      y.busy = false ∧ y.cmdWin = [] ∧ y.lastDseq = m.lastDseq + 1 ∧ y.rspWin = rspBytes s m a (m.lastDseq + 1) ∧
        y.lastRsp = y.rspWin ∧ y.rspReady.flag = true ∧ ∀ f, f ≠ fn → (respond s fn a).mbx f = s.mbx f) ∧
    (∀ a, m.busy = false → respond s fn a = s) ∧
    (r.mbx fn).lastHseq = BitVec.ofNat 32 (field m.cmdWin 4 4) ∧ (r.mbx fn).lastFrame = frameOf m

/-- R346, R349, R371 to R375: information, sessions and administrator keys. A login needs an unexpired nonce, an enrolled key and
its signature; the third failure in a row locks logins; a session has 900 s. -/
def Obligations.RegistrarAnswersAndSessions : Prop :=
  ∀ (s : State) (fn : Nat) (p : Bytes),
    let r := accept s fn
    let m := r.mbx fn
    let c := State.fnCarrel fn
    let is := fun (code : Nat) (role : Role) => Issued s fn code role p
    (is 0x0001 .any → p = [] → AnswersIn r fn {} (exec (.mbxNop fn) s)) ∧
    (∀ code, cmdDefined code = false → is code .any → AnswersIn r fn { status := 0x0102 } (exec (.mbxNop fn) s)) ∧
    (is 0x0002 .any → p = [] → AnswersIn r fn { payload := (fit 16 s.reg.serial ++ le 4 s.reg.running.version ++
        le 4 s.reg.running.csVersion ++ le 2 fn ++ le 1 c ++ zeros 1 ++ be 6 s.reg.baseMac.toNat) } (exec (.devInfo fn) s)) ∧
    (is 0x0003 .any → p.length = 12 → algTable.length ≤ field p 8 4 →
      AnswersIn (r.send (.dmaWrite fn (BitVec.ofNat 64 (field p 0 8)) algTable)) fn { payload := le 4 algTable.length }
        (exec (.algTable fn) s)) ∧
    (is 0x0003 .any → p.length = 12 → field p 8 4 < algTable.length →
      AnswersIn r fn { status := 0x0303, detail := algTable.length } (exec (.algTable fn) s)) ∧
    (∀ t b, is 0x0010 .any → p = [] → s.ent.state = .ready → sysRequest r 32 = (t, some b) →
      AnswersIn (t.setMbx fn { t.mbx fn with nonce := some (b, s.now) }) fn { payload := b } (exec (.authChallenge fn) s)) ∧
    (is 0x0010 .any → p = [] → s.ent.state = .failed → AnswersIn r fn { status := 0x0503 } (exec (.authChallenge fn) s)) ∧
    (is 0x0010 .any → p = [] → s.ent.state = .starting →
      exec (.authChallenge fn) s = .next (r.setMbx fn { m with wait := .entropy s.now })) ∧
    (∀ since, (s.mbx fn).wait = .entropy since → s.ent.state = .starting →
      exec (.entropyWaitTimeout fn) s = .next (respond s fn { status := 0x0502 })) ∧
    (is 0x0011 .any → p.length = 12 + field p 6 2 → field p 0 4 < 2 ^ 21 → field p 8 4 = 0 →
      (s.now < m.lockUntil → AnswersIn r fn
        { status := 0x0707, detail := (m.lockUntil - s.now + 1249999999) / 1250000000 } (exec (.authLogin fn) s)) ∧
      (field p 4 2 = 1 ∧ field p 6 2 = 3309 ∨ field p 4 2 = 3 ∧ field p 6 2 = 96 → m.lockUntil ≤ s.now → loginOk r fn p = false →
        AnswersIn (loginFailed r fn) fn { status := 0x0706 } (exec (.authLogin fn) s)) ∧
      (∀ t b, field p 4 2 = 1 ∧ field p 6 2 = 3309 ∨ field p 4 2 = 3 ∧ field p 6 2 = 96 → m.lockUntil ≤ s.now →
        loginOk r fn p = true → m.session = none → s.ent.state = .ready → sysRequest r 4 = (t, some b) →
        let id := if unle b = 0 then 1 else unle b
        AnswersIn (t.setMbx fn { t.mbx fn with
          session := some { id := BitVec.ofNat 32 id, key := field p 0 4, lastAt := s.sec },
          nonce := none, fails := 0 }) fn
          { payload := le 4 id ++ le 4 900 } (exec (.authLogin fn) s))) ∧
    (let y := (loginFailed r fn).mbx fn
     resets r 0x003 = false → y.nonce = none ∧ y.fails = m.fails + 1 ∧ (m.fails + 1 < 3 → y.lockUntil = m.lockUntil) ∧
      (3 ≤ m.fails + 1 → y.lockUntil = s.now + min 3600 (10 * 2 ^ min (m.fails - 2) 9) * 1250000000)) ∧
    (∀ se, is 0x0012 .oa → p = [] → (s.mbx fn).session = some se →
      exec (.authLogout fn) s = .next (sessionEvent (respond (closeSession r fn) fn {}) fn 1)) ∧
    (∀ se, is 0x0013 .oa → p.length = 4 → (s.mbx fn).session = some se → 60 ≤ field p 0 4 → field p 0 4 ≤ 3600 →
      AnswersIn (r.setMbx fn { m with session := some { se with timeout := field p 0 4 } }) fn {} (exec (.sessionCfg fn) s)) ∧
    (is 0x0013 .oa → p.length = 4 → field p 0 4 < 60 ∨ 3600 < field p 0 4 →
      AnswersIn r fn { status := 0x0407 } (exec (.sessionCfg fn) s)) ∧
    (∀ se, (s.mbx fn).session = some se → (s.mbx fn).busy = false → se.lastAt + se.timeout ≤ s.sec →
      exec (.sessionIdleTimeout fn) s = .next (sessionEvent (closeSession s fn) fn 2)) ∧
    (∀ se, (s.mbx fn).session = some se → s.sec < se.lastAt + se.timeout → exec (.sessionIdleTimeout fn) s = .next s) ∧
    (is 0x0014 .oa → p.length = 5 → field p 0 4 < 2 ^ 21 → field p 4 1 ≤ 3 → adminOpen s c = true →
      slotCheck13 s c (field p 0 4) = none → adminClass (s.slot (field p 0 4)) = true →
      Tab.get? s.reg.admins (4 * c + field p 4 1) = none →
      let keys := Tab.set r.reg.admins (4 * c + field p 4 1) (field p 0 4)
      AnswersIn (archiveCarrel { r with reg := { r.reg with admins := keys } } c) fn {} (exec (.admEnrol fn) s)) ∧
    (is 0x0014 .oa → p.length = 5 → field p 0 4 < 2 ^ 21 → field p 4 1 ≤ 3 → adminOpen s c = true →
      slotCheck13 s c (field p 0 4) = none → adminClass (s.slot (field p 0 4)) = false →
      AnswersIn r fn { status := 0x0203 } (exec (.admEnrol fn) s)) ∧
    (∀ k, is 0x0015 .oa → p.length = 1 → field p 0 1 ≤ 3 → adminOpen s c = true →
      Tab.get? s.reg.admins (4 * c + field p 0 1) = some k → 2 ≤ (enrolled s c).length →
      AnswersIn (archiveCarrel (unenrol r c (field p 0 1)) c) fn {} (exec (.admRemove fn) s)) ∧
    (∀ k, is 0x0015 .oa → p.length = 1 → field p 0 1 ≤ 3 → adminOpen s c = true →
      Tab.get? s.reg.admins (4 * c + field p 0 1) = some k → (enrolled s c).length ≤ 1 →
      AnswersIn r fn { status := 0x0601, obj := 2, st := carrelCode (s.carrel c).st } (exec (.admRemove fn) s))

/-- R61, R62, R102, R243, R279, R340 to R346, R351, R355, R357, R388, R389, R440, R441, R450, R451: settings of the device, the
entropy unit and the fault collector. -/
def Obligations.SettingsAndCheckersTakeEffect : Prop :=
  ∀ (s : State) (fn n : Nat) (p : Bytes),
    let r := accept s fn
    let is := fun (code : Nat) (role : Role) => Issued s fn code role p
    let oct := fun (only : Bool) => is 0x0101 .o ∧ p.length = 12 ∧ field p 3 1 < 8 ∧ field p 6 2 = 0 ∧ bit (field p 3 1) 2 = only
    let o := s.octet (field p 0 1)
    let th := if field p 8 4 = 0 then o.fecTh else BitVec.ofNat 32 (field p 8 4)
    let v := field p 0 4
    let flt := fun (op : Nat) => is 0x0105 .o ∧ field p 0 1 = op
    let quote' := quote r fn (p.take 32)
    let cs := certs r
    let x := s.src n
    -- octets
    (oct true → field p 0 1 ≤ 63 → AnswersIn (r.setOctet (field p 0 1) { o with fecTh := th }) fn {} (exec (.fecthOnly fn) s)) ∧
    (oct false → field p 0 1 ≤ 63 → o.state ≠ .off → field p 1 1 ≠ 0 →
      ¬ (field p 1 1 = o.mode.toNat ∧ field p 2 1 = o.media.toNat) →
      AnswersIn r fn { status := 0x0601, obj := 6, st := octCode o.state } (exec (.octConfig fn) s)) ∧
    (oct false → field p 0 1 ≤ 63 → o.state = .off → 1 ≤ field p 1 1 → field p 1 1 ≤ 4 → field p 2 1 ≤ 2 →
      bit (field p 3 1) 1 = false →
      ∃ t, AnswersIn t fn {} (exec (.octConfig fn) s) ∧ (t.octet (field p 0 1)).mode = BitVec.ofNat 3 (field p 1 1) ∧
        (t.octet (field p 0 1)).media = BitVec.ofNat 2 (field p 2 1) ∧ (t.octet (field p 0 1)).fecTh = th ∧
        ((t.octet (field p 0 1)).state = .down ∨ (t.octet (field p 0 1)).state = .forcedDown) ∧
        ∀ m, m ≠ field p 0 1 → t.octet m = s.octet m) ∧
    -- warm minimum, direct group, low threshold
    (is 0x0102 .o → p.length = 4 → v < 2 ^ 28 → bits v 7 0 ≤ 128 → bits v 12 8 ≤ 16 → bits v 18 13 ≤ 32 → bits v 27 19 ≤ 256 →
      AnswersIn { r with sched := { r.sched with
        warmTun := BitVec.ofNat 8 (bits v 7 0), warmFloor := BitVec.ofNat 5 (bits v 12 8)
        warmKiln := BitVec.ofNat 6 (bits v 18 13), warmPipe := BitVec.ofNat 9 (bits v 27 19) } } fn {} (exec (.warmMinSet fn) s)) ∧
    (is 0x0103 .o → p.length = 1 → field p 0 1 ≤ 16 → (s.pipes.pages.any fun y => y.2.busy) = false →
      AnswersIn { r with pipes := { r.pipes with directCnt := BitVec.ofNat 5 (field p 0 1) } } fn {} (exec (.directCntSet fn) s)) ∧
    (is 0x0103 .o → p.length = 1 → (s.pipes.pages.any fun y => y.2.busy) = true →
      AnswersIn r fn { status := 0x0601, obj := 1, st := devCode s } (exec (.directCntSet fn) s)) ∧
    (is 0x0104 .o → p.length = 2 → field p 0 2 < 2 ^ 14 →
      AnswersIn { r with ledger := { r.ledger with lowTh := BitVec.ofNat 14 (field p 0 2) } } fn {} (exec (.ledLowThSet fn) s)) ∧
    -- the ledger
    (is 0x0410 .oa → p.length = 4 → fn = 0 → v < 2 ^ 14 →
      AnswersIn r fn { payload := counterBytes s v } (exec (.ledQuery fn) s)) ∧
    (is 0x0411 .o → p = [] →
      let t := s.ledger.orphanBound.foldl ledgerRelease r
      AnswersIn { t with ledger := { t.ledger with orphanBound := [] } } fn { payload := le 4 s.ledger.orphanBound.length }
        (exec (.ledReclaim fn) s)) ∧
    -- the fault collector
    (flt 2 → p.length = 3 → field p 1 1 = 0 → field p 2 1 ≤ 1 → s.tmp.lcs = .factory →
      let on := field p 2 1 == 1
      AnswersIn { r with flt := { r.flt with counted := on, counts := if s.flt.counted = on then s.flt.counts else [] } } fn {}
        (exec (.setProfile fn) s)) ∧
    (flt 1 → p.length = 16 → field p 1 1 = 0 → field p 6 2 = 0 → field p 4 2 = 1 → field p 2 2 < 1024 → field p 8 8 < 2 ^ 41 →
      srcValueOk s (field p 2 2) (field p 8 8) = true →
      let cfg := Tab.set s.flt.cfg (field p 2 2) (parseSrcCfg (field p 8 8) (lockedSource (field p 2 2)))
      AnswersIn (queueRecord { r with flt := { r.flt with cfg := cfg } } (.faultCfg cfg)) fn {} (exec (.setSource fn) s)) ∧
    (flt 3 → p.length = 7 → field p 1 1 = 0 → field p 6 1 < 2 → injectState s (field p 2 2) = true → s.flt.fi = none →
      injectable (field p 2 2) = true → isUnitSource (field p 2 2) = false → field p 4 2 = 0xFFFF →
      let armed : FiCtrl := ⟨field p 2 2, field p 4 2, bit (field p 6 1) 0⟩
      AnswersIn { r with flt := { r.flt with fi := some armed, fiCount := 0 } } fn {} (exec (.fiArm fn) s)) ∧
    (flt 4 → p.length = 1 → AnswersIn { r with flt := { r.flt with fi := none } } fn {} (exec (.fiDisarm fn) s)) ∧
    (flt 5 → p.length = 1 → AnswersIn { r with flt := { r.flt with counts := [] } } fn {} (exec (.resetCounts fn) s)) ∧
    (∀ e, isUnitSource e.source = false → reported s e = true → e.source ≠ 0x001 → e.source ≠ 0x182 → e.source ≠ 0x183 →
      exec (.checkerReport [e]) s = .next (report s e)) ∧
    (∀ e, e.source = 0x001 →
      exec (.checkerReport [e]) s = .next (if anyResets s [e] then report s e else fencePair (report s e))) ∧
    (exec .regLockstep s = .next (if resets s 0x001 then reportSrc s 0x001 else fencePair (reportSrc s 0x001))) ∧
    (let t := fencePair s
     s.reg.pairsFenced = 0 → t.reg.pairsFenced = 1 ∧ t.reg.switching = true) ∧
    (exec .registrarSwitchDone s = .next { s with reg := { s.reg with switching := false } }) ∧
    -- the entropy unit
    (∀ ws, x.inService = true → health (windowOf x ws) = none → s.ent.state ≠ .failed →
      exec (.entWindowComplete n ws) s = .next (addBlock (s.setSrc n { x with windows := x.windows + 1 }))) ∧
    (∀ ws b, x.inService = true → health (windowOf x ws) = some b →
      exec (.entWindowComplete n ws) s = .next (latchOut s n ((if x.windows = 0 then 1 else 3) + (if b then 0 else 1)))) ∧
    (∀ ws, x.inService = false → exec (.entWindowComplete n ws) s = .next s) ∧
    (∀ cause, x.inService = true → 5 ≤ srcCount s → resets s 0x0C0 = false →
      ∃ t, exec (.entSrcFail n cause) s = .next t ∧ (t.src n).inService = false ∧ (t.src n).cause = BitVec.ofNat 4 cause ∧
        t.ent.srcFail.flag = true ∧ t.ent.state = s.ent.state) ∧
    (∀ cause, x.inService = false → exec (.entSrcFail n cause) s = .next s) ∧
    ((drbg s n).live = true → 0 < s.ent.pool →
      ∃ t, exec (.drbgReseed n) s = .next t ∧ drbg t n = { live := true, requests := 0, seededAt := s.now, reseedDue := false } ∧
        t.ent.pool = s.ent.pool - 1 ∧ ∀ i, i ≠ n → drbg t i = drbg s i) ∧
    ((drbg s n).live = true → s.ent.pool = 0 →
      ∃ t, exec (.drbgReseed n) s = .next t ∧ drbg t n = { drbg s n with reseedDue := true } ∧ t.ent.poolEmpty.flag = true) ∧
    (is 0x0701 .o → p.length = 68 → field p 1 1 < 2 → field p 2 2 = 0 → s.tmp.lcs = .factory → field p 0 1 ≤ 7 →
      nonApprovedHere s fn = false →
      let y := s.src (field p 0 1)
      AnswersIn (r.setSrc (field p 0 1) { y with pattern := if bit (field p 1 1) 0 then some (slice p 4 64) else none }) fn {}
        (exec (.entTestPattern fn) s)) ∧
    (∀ ws, is 0x0702 .o → p.length = 16 → allZero (slice p 1 3) = true → s.tmp.lcs = .factory → field p 0 1 ≤ 7 →
      1 ≤ field p 4 4 → field p 4 4 ≤ 1048576 → nonApprovedHere s fn = false →
      AnswersIn (r.send (.dmaWrite fn (BitVec.ofNat 64 (field p 8 8)) (fit ((field p 4 4 + 7) / 8) ws))) fn {}
        (exec (.entRawCapture fn ws) s)) ∧
    -- attestation
    (is 0x0801 .any → p.length = 44 → secretGrant s = false → s.reg.aliasKeys = true → quote'.length ≤ field p 40 4 →
      AnswersIn (r.send (.dmaWrite fn (BitVec.ofNat 64 (field p 32 8)) quote')) fn { payload := le 4 quote'.length }
        (exec (.attQuote fn) s)) ∧
    (is 0x0801 .any → p.length = 44 → secretGrant s = true →
      AnswersIn r fn { status := 0x0601, obj := 1, st := devCode s } (exec (.attQuote fn) s)) ∧
    (is 0x0802 .any → p.length = 12 → cs.flatten.length ≤ field p 8 4 →
      AnswersIn (r.send (.dmaWrite fn (BitVec.ofNat 64 (field p 0 8)) cs.flatten)) fn { payload := cs.flatMap fun c => le 4 c.length }
        (exec (.attCerts fn) s))

/-- R146, R162 to R169, R382 to R386: open-stacks images and firmware. Staging makes the checks in order and changes nothing when
one fails; activation waits for the routines that run, then loads the words; firmware is staged, marked and tried. -/
def Obligations.ImagesAreStagedAndActivated : Prop :=
  ∀ (s : State) (fn : Nat) (p host : Bytes),
    let r := accept s fn
    let is := fun (code : Nat) => Issued s fn code .o p
    let b := fit (field p 8 4) host
    let x := parseOstk b
    let ostkNow := b2n s.tuns.staged.isSome + 2 * b2n s.tuns.active.isSome
    let stop := { s with tuns := { s.tuns with draining := none } }
    (∀ k a, is 0x0501 → p.length = 12 → imageCheck s b = some (k, a) → AnswersIn r fn a (exec (.ostkStage fn host) s)) ∧
    (is 0x0501 → p.length = 12 → imageCheck s b = none → archiveOk s = true →
      AnswersIn (onMounted { r with tuns := { r.tuns with staged := some x } } fun f => { f with imgStaged := some x }) fn {}
        (exec (.ostkStage fn host) s)) ∧
    (imgHeaderOk b = false → imageCheck s b = some (1, { status := 0x0101, detail := 0xFFFF_FFFF })) ∧
    (is 0x0502 → p = [] → s.tuns.staged = none →
      AnswersIn r fn { status := 0x0601, obj := 7, st := ostkNow } (exec (.ostkActivate fn) s)) ∧
    (is 0x0502 → p = [] → s.tuns.staged ≠ none → s.tuns.draining = none → archiveOk s = true →
      let t := { r with tuns := { r.tuns with draining := some (some fn, false) } }
      exec (.ostkActivate fn) s = .next (t.setMbx fn { t.mbx fn with wait := .ostkDrain })) ∧
    (is 0x0503 → p = [] → s.tuns.active ≠ none → s.tuns.draining = none →
      let t := { r with tuns := { r.tuns with draining := some (some fn, true) } }
      exec (.ostkRetire fn) s = .next (t.setMbx fn { t.mbx fn with wait := .ostkDrain })) ∧
    (∀ f retire, s.tuns.draining = some (some f, retire) → openBusy s = true →
      exec .ostkDrainEnd s = .next (answerWait stop f .ostkDrain { status := 0x0601, obj := 7, st := ostkNow })) ∧
    (∀ f, s.tuns.draining = some (some f, true) → openBusy s = false →
      exec .ostkDrainEnd s = .next (answerWait (unmarkImage (clearOpenStore { stop with tuns :=
        { stop.tuns with active := none } })) f .ostkDrain {})) ∧
    (∀ f y, s.tuns.draining = some (some f, false) → openBusy s = false → s.tuns.staged = some y → archiveOk s = true →
      ∃ t, exec .ostkDrainEnd s = .next t ∧ t.tuns.active = some y ∧ t.tuns.staged = none ∧ t.tuns.draining = none ∧
        ∀ i w, y.words[i]? = some w → Tab.get? t.tuns.store (0x2000 + i) = some w) ∧
    (is 0x0510 → p.length = 12 → fwCheck s b = none → archiveOk s = true →
      AnswersIn { r with reg := { r.reg with staged := some (parseFw b) } } fn {} (exec (.fwStage fn host) s)) ∧
    (∀ a, is 0x0510 → p.length = 12 → fwCheck s b = some a → AnswersIn r fn a (exec (.fwStage fn host) s)) ∧
    (is 0x0511 → p.length = 1 → field p 0 1 = 0 → s.reg.staged ≠ none →
      AnswersIn { r with reg := { r.reg with trial := .marked } } fn {} (exec (.fwActivate fn) s)) ∧
    (is 0x0511 → p.length = 1 → field p 0 1 = 1 → s.reg.staged ≠ none →
      let t := { r with reg := { r.reg with trial := .marked }, hop := { r.hop with fetchStopped := true } }
      exec (.fwActivate fn) s = .next (t.setMbx fn { t.mbx fn with wait := .fwReset })) ∧
    (is 0x0511 → p.length = 1 → field p 0 1 ≤ 1 → s.reg.staged = none →
      AnswersIn r fn { status := 0x0601, obj := 1, st := devCode s } (exec (.fwActivate fn) s)) ∧
    (waiting s .fwReset ≠ [] →
      ∃ t, exec .fwActivateWaitEnd s = .next t ∧ t.reg.dev = .booting ∧ t.hop = State.reset.hop ∧ t.reg.staged = s.reg.staged ∧
        t.reg.trial = s.reg.trial) ∧
    (waiting s .fwReset = [] → exec .fwActivateWaitEnd s = .next s) ∧
    (s.reg.trial = .running → s.reg.dev ≠ .ready →
      exec .trialBootTimeout s = .next { s with reg := { s.reg with trial := .none, trialReverted := true } }) ∧
    (s.reg.trial ≠ .running ∨ s.reg.dev = .ready → exec .trialBootTimeout s = .next s)

/-- R472 to R493, R540: tamper detection erases the keys, asserts the output, records the cause and resets the device, or on VBAT
leaves that to the next boot; life-cycle transitions are programmed group by group; debug grants are checked, applied and ended. -/
def Obligations.TamperAndLifeCycleTakeEffect : Prop :=
  ∀ (s : State) (fn n : Nat) (p host : Bytes),
    let r := accept s fn
    let is := fun (code : Nat) (role : Role) => Issued s fn code role p
    let fires := fun (i : Instr) (src detail : Nat) (inLimits : Bool) =>
      s.tmp.lcs ≠ .blank → s.cel.mainPower = true → s.tmp.responded = false →
        ∃ t, exec i s = .next t ∧ t.cel.cellarKey = false ∧ t.tmp.outN = true ∧ t.tmp.responded = true ∧
          t.tmp.cause = BitVec.ofNat 64 (src % 256 + 2 ^ 8 * (detail % 256) + 2 ^ 24 * (s.sec % 2 ^ 40)) ∧
          t.tmp.evidence = (if inLimits then min (s.tmp.evidence + 1) 1024 else s.tmp.evidence) ∧
          (inLimits = false → t.tmp.pendingEv = true) ∧ t.reg.dev = .booting ∧ t.flt.log = [] ∧ t.hop = State.reset.hop ∧
          t.cat.slots = []
    let onVbat := fun (i : Instr) (src detail : Nat) => s.tmp.lcs ≠ .blank → s.cel.mainPower = false → s.tmp.responded = false →
        exec i s = .next { s with
          tmp := { assertOut s.tmp s.now with cause := tmpCause s src detail true, responded := true, pendingEv := true }
          cel := { s.cel with cellarKey := false } }
    let b := fit (field p 8 4) host
    let rights := BitVec.ofNat 9 (field b 56 8)
    let debug := is 0x0811 .d ∧ p.length = 13 ∧ field p 12 1 < 2 ∧ nonApprovedHere s fn = false
    fires (.tmpShield n) 0x080 n true ∧ (loopLive s n = true → fires (.tmpLoop n) 0x081 n true) ∧
    ((256 ≤ n ∧ n < 512) ∨ (s.reg.dev ≠ .off ∧ s.cel.s4Done = false) → fires (.tmpRail n) 0x082 n false) ∧
    (n < 256 → s.reg.dev = .off ∨ s.cel.s4Done = true → exec (.tmpRail n) s = .next s) ∧
    fires (.tmpTemp n) 0x083 n false ∧ fires (.tmpClock n) 0x084 n true ∧ fires (.tmpGlitch n) 0x085 n true ∧
    onVbat (.tmpShield n) 0x080 n ∧ (loopLive s n = true → onVbat (.tmpLoop n) 0x081 n) ∧
    (s.tmp.lcs = .blank → exec (.tmpShield n) s = .next s) ∧ (loopLive s n = false → exec (.tmpLoop n) s = .next s) ∧
    (s.cel.mainPower = true → s.ent.state = .ready → (drbg s 0).live = true → reseedDue s 0 = false →
      ∃ t, exec .shieldReseed s = .next t ∧ t.tmp.reseeds = s.tmp.reseeds + 1 ∧ (drbg t 0).requests = (drbg s 0).requests + 1) ∧
    (s.cel.mainPower = false → exec .shieldReseed s = .next s) ∧
    (s.tmp.outN = true → s.tmp.responded = false → 6 ≤ s.boot.stage → 125000000 ≤ s.now - s.tmp.outSince →
      exec .tamperOutRelease s = .next { s with tmp := { s.tmp with outN := false } }) ∧
    (s.now - s.tmp.outSince < 125000000 → exec .tamperOutRelease s = .next s) ∧
    -- life cycle
    (∀ t mv temp, is 0x0110 .o → p.length = 20 → field p 1 1 < 2 → field p 3 1 = 0 → lcsOf (field p 0 1) = some t →
      s.tmp.busy = false → (∀ q ∈ s.carrels, q.1 = 0 ∨ (q.2.st ≠ .active ∧ q.2.st ≠ .quiescing)) →
      2600 ≤ mv.toNat → s.cel.warn = false → 0 ≤ temp.toInt → temp.toInt ≤ 85 →
      (t = .returned ∨ t = .scrap → bit (field p 1 1) 0 = true) → slice p 4 16 = fit 16 s.reg.serial → lcsAccepts s t = true →
      ∃ y, exec (.lcsTransition fn true mv temp) s = .next y ∧ y.tmp.busy = true ∧ y.tmp.lcsTarget = some t ∧
        y.tmp.groups = lcsCode t - lcsCode s.tmp.lcs ∧ y.tmp.lcs = s.tmp.lcs ∧ (y.mbx fn).wait = .lcs) ∧
    (∀ t mv temp ok, is 0x0110 .o → p.length = 20 → field p 1 1 < 2 → field p 3 1 = 0 → lcsOf (field p 0 1) = some t →
      lcsAccepts s t = false →
      ∃ y, exec (.lcsTransition fn ok mv temp) s = .next y ∧ y.tmp = s.tmp ∧ (y.mbx fn).busy = false ∧
        (y.mbx fn).rspWin = rspBytes r (r.mbx fn) { status := 0x0601, obj := 4, st := lcsCode s.tmp.lcs } ((s.mbx fn).lastDseq + 1)) ∧
    (s.tmp.busy = true → 2 ≤ s.tmp.groups → s.tmp.halted = false → s.cel.warn = false →
      ∃ t, exec .lcsGroupDone s = .next t ∧ t.tmp.lcs = lcsNext s.tmp.lcs ∧ t.tmp.groups = s.tmp.groups - 1 ∧ t.tmp.busy = true ∧
        t = { s with tmp := t.tmp }) ∧
    (s.tmp.busy = true → s.tmp.groups = 1 → s.tmp.lcsFn ≠ none →
      ∃ t, exec .lcsGroupDone s = .next t ∧ t.tmp.lcs = lcsNext s.tmp.lcs ∧ t.tmp.busy = false ∧ t.reg.dev = .booting) ∧
    (s.tmp.busy = false → exec .lcsGroupDone s = .next s) ∧
    -- debug grants
    (∀ t q, is 0x0810 .d → p = [] → nonApprovedHere s fn = false → s.ent.state = .ready → sysRequest r 32 = (t, some q) →
      AnswersIn { t with tmp := { t.tmp with nonce := some (q, t.now), nonceUsed := false } } fn { payload := q }
        (exec (.dbgNonce fn) s)) ∧
    (debug → grantFormatOk s b = false → AnswersIn r fn { status := 0x0101 } (exec (.dbgGrant fn host) s)) ∧
    (debug → grantFormatOk s b = true → grantNonceOk s b = true → grantSigOk s b = true →
      s.tmp.lcs = .provisioned ∨ s.tmp.lcs = .service → reaching rights = false →
      let t := { r with tmp := { r.tmp with
        rights := rights, grantActive := true, expiry := BitVec.ofNat 64 (s.sec + field b 64 4), nonceUsed := true } }
      AnswersIn (forceOctets t) fn { payload := le 8 rights.toNat ++ le 8 (s.sec + field b 64 4) } (exec (.dbgGrant fn host) s)) ∧
    (is 0x0812 .od → p = [] → nonApprovedHere s fn = false → exec (.dbgEnd fn) s = .next (endGrant (respond r fn {}))) ∧
    (s.tmp.grantActive = true → s.tmp.expiry.toNat ≤ s.sec → reaching s.tmp.rights = false →
      ∃ t, exec .grantExpiry s = .next t ∧ t.tmp.grantActive = false ∧ t.tmp.rights = 0 ∧ t.cat = s.cat ∧
        ∀ i, (t.tun i).trace = []) ∧
    (s.tmp.grantActive = true → s.tmp.expiry.toNat ≤ s.sec → reaching s.tmp.rights = true →
      ∃ t, exec .grantExpiry s = .next t ∧ t.reg.dev = .booting ∧ t.tmp.grantActive = false) ∧
    (s.tmp.grantActive = false → exec .grantExpiry s = .next s)

/-- R393 to R404, R411, R414: the carrel commands. Each is taken in the carrel states its rule names and answers with the carrel's
state in the others; creation and anchor renewal draw on the entropy unit; destruction and renewal wait for the tombstone. -/
def Obligations.CarrelCommandsTakeEffect : Prop :=
  ∀ (s : State) (fn : Nat) (p : Bytes),
    let r := accept s fn
    let is := fun (code : Nat) (role : Role) => Issued s fn code role p
    let c := field p 0 1
    let st := (s.carrel c).st
    let own := fn = 0 ∨ c = fn
    let crlBad := fun (k : Nat) => AnswersIn r fn { status := 0x0601, obj := 2, st := carrelCode (s.carrel k).st }
    -- creation and configuration
    (let k := field p 6 1
     let form := is 0x0201 .o ∧ 516 ≤ p.length ∧ cfgFormat p = true ∧ p.length = 516 + field p 514 2 ∧ Unshared s k
     (form → (s.carrel k).st ≠ .absent → crlBad k (exec (.crlCreate fn) s)) ∧
     (form → (s.carrel k).st = .absent → sharesOk p = false → AnswersIn r fn { status := 0x0407 } (exec (.crlCreate fn) s)) ∧
     (∀ t b, form → (s.carrel k).st = .absent → createBad r k p = none → s.ent.state = .ready → sysRequest r 32 = (t, some b) →
       AnswersIn (createCarrel t k (p.take 512) (field p 512 2) (p.drop 516)) fn {} (exec (.crlCreate fn) s))) ∧
    (let k := field p 10 1
     let form := is 0x0202 .oa ∧ p.length = 516 ∧ field p 0 4 < 16 ∧ cfgFormat (p.drop 4) = true ∧ cfgOwns r fn p = true ∧ Unshared s k
     (form → cfgState (s.carrel k).st p = false → crlBad k (exec (.crlConfig fn) s)) ∧
     (form → cfgState (s.carrel k).st p = true → cfgBad r k p = none →
       let t := r.setCarrel k (applyCfg r k p (s.carrel k))
       (bit (field p 0 4) 2 = true → AnswersIn (archiveCarrel (assignBlocks t k) k) fn {} (exec (.crlConfig fn) s)) ∧
       (bit (field p 0 4) 2 = false → AnswersIn (archiveCarrel t k) fn {} (exec (.crlConfig fn) s)))) ∧
    -- activation
    (is 0x0203 .oa → p.length = 1 → own → Unshared s c →
      (st = .configured ∨ st = .quiesced ∨ (st = .frozen ∧ (s.carrel c).exported = false) →
        AnswersIn (establishStatic (takeAddresses (archiveCarrel (setCarrelState r c .active) c) c) c) fn {} (exec (.crlActivate fn) s)) ∧
      (st = .absent ∨ st = .active ∨ st = .quiescing ∨ (st = .frozen ∧ (s.carrel c).exported = true) →
        crlBad c (exec (.crlActivate fn) s))) ∧
    -- quiesce
    (is 0x0204 .oa → p.length = 2 → field p 1 1 < 2 → own → Unshared s c →
      (st = .configured → AnswersIn (archiveCarrel (setCarrelState r c .quiesced) c) fn {} (exec (.crlQuiesce fn) s)) ∧
      (st = .active →
        let t := abortStaged (setCarrelState r c .quiescing) c
        let u := if field p 1 1 = 1 then ((carrelSlips t c).map (·.1)).foldl abortLong t else t
        AnswersIn (archiveCarrel (stopBackground u c) c) fn { detail := (carrelSlips s c).length } (exec (.crlQuiesce fn) s)) ∧
      (st = .absent ∨ st = .quiesced ∨ st = .frozen ∨ (st = .quiescing ∧ field p 1 1 = 0) → crlBad c (exec (.crlQuiesce fn) s))) ∧
    (∀ k, ((s.carrel k).st = .quiescing → carrelSlips s k = [] → mirrors s k = false →
        exec (.quiesceComplete k) s = .next (setCarrelState s k .quiesced)) ∧
      ((s.carrel k).st ≠ .quiescing → exec (.quiesceComplete k) s = .next s) ∧
      (carrelSlips s k ≠ [] → exec (.quiesceComplete k) s = .next s)) ∧
    -- freeze
    (is 0x0205 .a → p = [] → Unshared s fn →
      ((s.carrel fn).st = .quiesced →
        let t := setCarrelState r fn .frozen
        AnswersIn (archiveCarrel (t.setCarrel fn { t.carrel fn with exported := false }) fn) fn {} (exec (.crlFreeze fn) s)) ∧
      ((s.carrel fn).st ≠ .quiesced → crlBad fn (exec (.crlFreeze fn) s))) ∧
    -- reset, destruction, renewal of the anchor; never of carrel 0
    (is 0x0209 .oa → p.length = 1 → own → c ≠ 0 → Unshared s c →
      (st = .quiesced → resetStrands r c = false →
        let t := resetCarrel r c
        let u := withdrawAddresses (bumpEpoch ((resetSlots t c).foldl deaccessionCommit t) c) c
        AnswersIn (archiveCarrel (setCarrelState u c .configured) c) fn {} (exec (.crlReset fn) s)) ∧
      (st ≠ .quiesced ∨ resetStrands r c = true → crlBad c (exec (.crlReset fn) s))) ∧
    (is 0x0209 .oa → p.length = 1 → c = 0 → syncBusy s = false → AnswersIn r fn { status := 0x0708 } (exec (.crlReset fn) s)) ∧
    (is 0x0208 .o → p.length = 1 → c = 0 → AnswersIn r fn { status := 0x0708 } (exec (.crlDestroy fn) s)) ∧
    (let waits := fun (t : State) =>
        let a := (t.setMbx fn { t.mbx fn with host := [] }).setSlot c
          { t.slot c with deacPending := some (some fn), deacPeer := true, deacTomb := false }
        queueRecord a (.tombstone c (raiseGen (t.slot c) 1).ownGen)
     (is 0x0208 .o → p.length = 1 → c ≠ 0 →
       (st = .quiesced ∨ st = .frozen → Unshared s c → (s.slot c).persistent = true → archiveOk s = true →
         WaitsIn (waits r) fn (.deaccession c) (exec (.crlDestroy fn) s)) ∧
       (st ≠ .quiesced → st ≠ .frozen → crlBad c (exec (.crlDestroy fn) s))) ∧
     (is 0x020B .o → 6 ≤ p.length → field p 1 1 = 0 → p.length = 6 + field p 4 2 →
       (∀ t b, st = .quiesced → p.drop 6 ≠ [] → adminKeyBad (field p 2 2) (p.drop 6) = none → s.ent.state = .ready →
         sysRequest r 32 = (t, some b) → Unshared s c → (s.slot c).persistent = true → archiveOk s = true →
         WaitsIn (waits t) fn (.deaccession c) (exec (.crlAnchorRenew fn) s)) ∧
       (st ≠ .quiesced → crlBad c (exec (.crlAnchorRenew fn) s)))) ∧
    -- statistics
    (is 0x020A .oa → p.length = 1 → own → AnswersIn r fn { payload := statsBytes r c } (exec (.crlStats fn) s))

/-- R405 to R409: a carrel migrates between two devices in five steps. The target offers a key, the source accepts with another
and a secret, the target confirms with a second secret, the source exports the FROZEN carrel's image under the key that both
secrets and the three messages give, and the target installs it FROZEN. A step out of its order is refused, and the secrets are
zeroised when the migration expires. -/
def Obligations.MigrationTakesItsSteps : Prop :=
  ∀ (s : State) (fn : Nat) (host certs p : Bytes),
    let r := accept s fn
    let c := field p 0 1
    let phase := field p 1 1
    let room := field p 40 4
    let save := Issued s fn 0x0206 .o p ∧ p.length = 44 ∧ allZero (slice p 2 6) = true
    let restore := Issued s fn 0x0207 .o p ∧ p.length = 44 ∧ allZero (slice p 2 6) = true
    let msg := migInput p host
    let cs := migCerts p certs
    let crlBad := AnswersIn r fn { status := 0x0601, obj := 2, st := carrelCode (s.carrel c).st }
    let written := fun (t : State) (g : Migration) (m : Bytes) (x : Res) =>
      m.length ≤ room → AnswersIn ((t.setCarrel c { t.carrel c with migration := some g }).send
        (.dmaWrite fn (BitVec.ofNat 64 (field p 32 8)) m)) fn { payload := le 4 m.length } x
    -- OFFER
    (restore → phase = 1 →
      ((s.carrel c).st ≠ .absent → crlBad (exec (.crlRestoreOffer fn) s)) ∧
      ((s.carrel c).st = .absent → room < 6419 → AnswersIn r fn { status := 0x0303, detail := 6419 } (exec (.crlRestoreOffer fn) s)) ∧
      (∀ t b, (s.carrel c).st = .absent → 6419 ≤ room → s.ent.state = .ready → sysRequest r 96 = (t, some b) →
        let m := migMessage t 1 c (zeros 16) (b.take 32) (zeros 48) (kemPair 2 (b.drop 32)).1
        written t { id := b.take 32, target := true, step := 1, prev := m, secrets := b.drop 32, startedAt := t.now } m
          (exec (.crlRestoreOffer fn) s))) ∧
    -- ACCEPT
    (save → phase = 2 →
      ((s.carrel c).st ≠ .frozen → crlBad (exec (.crlSaveAccept fn host certs) s)) ∧
      (∀ t b, (s.carrel c).st = .frozen → msgBad r c msg cs 6419 (msgOk msg 1 c (zeros 16) (zeros 48)) = none →
        (s.carrel c).migration = none → 7987 ≤ room → s.ent.state = .ready → sysRequest r 96 = (t, some b) →
        let e := kemEnc 2 (slice msg 128 1568) (b.drop 64)
        let m := migMessage t 2 c (msgSerial msg) (msgId msg) (sha384 msg) ((kemPair 2 (b.take 64)).1 ++ e.1)
        written t { id := msgId msg, target := false, step := 2, peer := msgSerial msg, prev := msg ++ m
                    secrets := b.take 64 ++ e.2, startedAt := t.now } m (exec (.crlSaveAccept fn host certs) s))) ∧
    -- CONFIRM
    (restore → phase = 3 →
      ((s.carrel c).migration = none → crlBad (exec (.crlRestoreConfirm fn host certs) s)) ∧
      (∀ g, (s.carrel c).migration = some g → g.step ≠ 1 → crlBad (exec (.crlRestoreConfirm fn host certs) s)) ∧
      (∀ g t b, (s.carrel c).migration = some g → (s.carrel c).st = .absent → g.target = true → g.step = 1 →
        msgBad r c msg cs 7987 (msgOk msg 2 c (fit 16 s.reg.serial) (sha384 g.prev) && msgId msg == g.id) = none →
        6419 ≤ room → s.ent.state = .ready → sysRequest r 32 = (t, some b) →
        let e := kemEnc 2 (slice msg 128 1568) b
        let k1 := kemDec 2 (kemPair 2 g.secrets).2 (slice msg 1696 1568)
        let m := migMessage t 3 c (msgSerial msg) g.id (sha384 msg) e.1
        written t { g with step := 3, peer := msgSerial msg, prev := g.prev ++ msg ++ m, secrets := k1 ++ e.2 } m
          (exec (.crlRestoreConfirm fn host certs) s))) ∧
    -- EXPORT
    (save → phase = 4 →
      ((s.carrel c).migration = none → crlBad (exec (.crlSaveExport fn host certs) s)) ∧
      (∀ g, (s.carrel c).migration = some g → g.step ≠ 2 → crlBad (exec (.crlSaveExport fn host certs) s)) ∧
      (∀ g, (s.carrel c).migration = some g → (s.carrel c).st = .frozen → g.target = false → g.step = 2 →
        msgBad r c msg cs 6419 (msgOk msg 3 c (fit 16 s.reg.serial) (sha384 (g.prev.drop 6419)) && msgId msg == g.id
          && msgSerial msg == g.peer) = none →
        let k := migKey (g.prev ++ msg) (g.secrets.drop 64 ++ kemDec 2 (kemPair 2 (g.secrets.take 64)).2 (slice msg 128 1568))
        let body := imageBody r c
        let head := imageHeader r c g.id body
        let ct := aeadCrypt 2 k.1 k.2 body
        let image := head ++ ct ++ aeadTag 2 k.1 k.2 head ct 16
        let t := archiveCarrel (r.setCarrel c { s.carrel c with
          exported := true, migration := some { g with step := 4, prev := g.prev ++ msg } }) c
        (room < image.length → AnswersIn r fn { status := 0x0303, detail := image.length } (exec (.crlSaveExport fn host certs) s)) ∧
        (image.length ≤ room → AnswersIn (t.send (.dmaWrite fn (BitVec.ofNat 64 (field p 32 8)) image)) fn
          { payload := le 4 image.length } (exec (.crlSaveExport fn host certs) s)))) ∧
    -- IMPORT
    (restore → phase = 5 → Unshared s c →
      let a := r.setMbx fn { r.mbx fn with host := host }
      let crlBad' := AnswersIn a fn { status := 0x0601, obj := 2, st := carrelCode (s.carrel c).st } (exec (.crlRestoreImport fn host certs) s)
      ((s.carrel c).st ≠ .absent → crlBad') ∧
      ((s.carrel c).migration = none → crlBad') ∧
      (∀ g, (s.carrel c).st = .absent → (s.carrel c).migration = some g → g.target = true → g.step = 3 →
        (openImage g (migInput p host) = none →
          AnswersIn a fn { status := 0x0405 } (exec (.crlRestoreImport fn host certs) s)) ∧
        (∀ i, openImage g (migInput p host) = some i → imageBad a c g i = none →
          AnswersIn (installImage a c i).1 fn { payload := zeros 4, detail := (installImage a c i).2 }
            (exec (.crlRestoreImport fn host certs) s)))) ∧
    -- expiry
    (∀ k, exec (.migrationExpiry k) s = .next (s.setCarrel k { s.carrel k with migration := none }))

/-- R38, R43, R57, R63 to R66, R87, R93, R376: the hopper and binding commands. A hopper is created STOPPED at the lowest free
number; its addresses and depth change only while it is STOPPED and holds nothing; deleting it revokes the tokens that name it. -/
def Obligations.HopperAndBindingCommandsTakeEffect : Prop :=
  ∀ (s : State) (fn : Nat) (p : Bytes),
    let r := accept s fn
    let hn := field p 0 4
    let is := fun (code n : Nat) => Issued s fn code .oa p ∧ p.length = n
    let open' := adminOpen s fn = true
    let hopBad := fun (k : Nat) => AnswersIn r fn { status := 0x0601, obj := 3, st := ((s.hopper? k).map fun h => hopCode h.state).getD 0 }
    (is 0x0301 48 → blockFormat p = true → Unshared s fn →
      (adminOpen s fn = false →
        AnswersIn r fn { status := 0x0601, obj := 2, st := carrelCode (s.carrel fn).st } (exec (.hopCreate fn) s)) ∧
      (open' → hopperOk (blockHopper fn 0 p) (field p 29 1) = false → AnswersIn r fn { status := 0x0407 } (exec (.hopCreate fn) s)) ∧
      (∀ n k, open' → hopperOk (blockHopper fn 0 p) (field p 29 1) = true → (hoppersOwned s fn).length < (s.carrel fn).hopperMax →
        (bit (field p 35 1) 1 = true → urgentCount s < 4096) → nextHopper s fn = some (n, k) →
        s.hopper? n = none ∧ n < hopperLimit s ∧
        AnswersIn (archiveCarrel (r.setHopper n (blockHopper fn k p)) fn) fn { payload := le 4 n ++ le 2 k } (exec (.hopCreate fn) s))) ∧
    (∀ h, s.hopper? hn = some h → h.carrel = fn →
      let idle := h.state = .stopped ∧ h.held = []
      (is 0x0302 56 → field p 4 4 < 4096 → blockFormat (p.drop 8) = true → Unshared s fn → open' →
        let x := applyBlock h (field p 4 4) (p.drop 8)
        (field p 4 4 % 128 ≠ 0 → ¬ idle → hopBad hn (exec (.hopConfig fn) s)) ∧
        (field p 4 4 % 128 = 0 ∨ idle → hopperOk x (if bit (field p 4 4) 5 then field p 37 1 else 0) = true →
          (x.urgent = true → h.urgent = false → urgentCount s < 4096) →
          AnswersIn (archiveCarrel (r.setHopper hn x) fn) fn {} (exec (.hopConfig fn) s))) ∧
      (is 0x0303 4 → open' → Unshared s fn →
        (h.state = .stopped → h.broken = false →
          AnswersIn (archiveCarrel (setHopState r hn .active) fn) fn {} (exec (.hopStart fn) s)) ∧
        (h.state ≠ .stopped → hopBad hn (exec (.hopStart fn) s))) ∧
      (is 0x0304 4 → open' → Unshared s fn →
        (h.state = .active →
          AnswersIn (archiveCarrel (breakOpenChain (setHopState r hn .stopping) hn) fn) fn {} (exec (.hopStop fn) s)) ∧
        (h.state ≠ .active → hopBad hn (exec (.hopStop fn) s))) ∧
      (is 0x0305 4 → open' → Unshared s fn →
        (idle → staticCovers s hn = false → AnswersIn (archiveCarrel (deleteHopper r hn) fn) fn {} (exec (.hopDelete fn) s)) ∧
        (¬ idle ∨ staticCovers s hn = true → hopBad hn (exec (.hopDelete fn) s))) ∧
      (is 0x0306 4 → open' → Unshared s fn →
        (idle → AnswersIn (r.setHopper hn { h with
            ci := 0, p := 0, nextCseq := 0, lastAckCseq := 0xFFFF_FFFF#32, fetchFail := none, fetch := none, arrivals := []
            openChain := none, broken := false }) fn {} (exec (.hopResetIdx fn) s)) ∧
        (¬ idle → hopBad hn (exec (.hopResetIdx fn) s))) ∧
      (is 0x0307 4 → open' → AnswersIn r fn { payload := sbBytes r hn h h.sbSeq ++ hopBlock h } (exec (.hopQuery fn) s))) ∧
    ((∀ h, s.hopper? hn = some h → h.carrel ≠ fn) → is 0x0307 4 → AnswersIn r fn { status := 0x0708 } (exec (.hopQuery fn) s)) ∧
    -- bindings
    (is 0x0310 16 → runOwned s fn hn (field p 4 2) = true → Unshared s fn → open' →
      let good := 1 ≤ field p 4 2 ∧ field p 4 2 ≤ 64 ∧ mtuOk (field p 6 2) = true
      (¬ good → AnswersIn r fn { status := 0x0407 } (exec (.bindTokenIssue fn) s)) ∧
      (∀ t b, good → s.ent.state = .ready → sysRequest r 16 = (t, some b) →
        let k := tokenOf t fn p
        AnswersIn (putToken t fn k) fn { payload := le 16 k.value.toNat ++ le 4 k.id } (exec (.bindTokenIssue fn) s))) ∧
    (∀ k, is 0x0311 5 → field p 4 1 < 2 → Tab.get? s.ports.tokens hn = some k → k.carrel = fn → open' → Unshared s fn →
      let t := revokeToken r hn
      AnswersIn (if field p 4 1 = 1 then (tokenQps t hn).foldl closeQp t else t) fn {} (exec (.bindTokenRevoke fn) s)) ∧
    (is 0x0312 44 → field p 24 4 < 2 ^ 24 → field p 28 4 < 2 ^ 24 → field p 43 1 < 2 → open' → Unshared s fn →
      runOwned s fn (field p 36 4) (field p 34 2) = true →
      let good := 0x100 ≤ hn ∧ hn < 0x100 + 262144 ∧ field p 4 4 < 2 ^ 24 ∧ mtuOk (field p 32 2) = true ∧ 1 ≤ field p 34 2 ∧
        field p 34 2 ≤ 64 ∧ 1 ≤ field p 42 1 ∧ field p 42 1 ≤ 16 ∧ (s.carrel fn).net.ports.contains (field p 40 2) = true
      let t := r.setQp hn (staticQp r fn p)
      (¬ good → AnswersIn r fn { status := 0x0407 } (exec (.bindStatic fn) s)) ∧
      (good → s.qp? hn = none → runTaken s (field p 36 4) (field p 34 2) = none →
        ((s.carrel fn).st = .active → AnswersIn (establish t hn) fn {} (exec (.bindStatic fn) s)) ∧
        ((s.carrel fn).st ≠ .active → AnswersIn t fn {} (exec (.bindStatic fn) s))) ∧
      (∀ k, good → s.qp? hn = none → runTaken s (field p 36 4) (field p 34 2) = some k → hopBad k (exec (.bindStatic fn) s))) ∧
    (∀ q, is 0x0313 4 → s.qp? hn = some q → q.carrel = fn → open' → Unshared s fn →
      AnswersIn (closeQp r hn) fn {} (exec (.bindRelease fn) s))

/-- R324, R332, R334, R335, R377, R513: the catalogue's commands, and what a deaccession waits for. A key is imported as a child of
a parent that is no less persistent; attributes are only narrowed; a deaccession commits when its tombstone is on folio and the
peer has it, and is refused when no cartridge takes the tombstone in time. -/
def Obligations.CatalogueCommandsTakeEffect : Prop :=
  ∀ (s : State) (fn : Nat) (host p : Bytes),
    let r := accept s fn
    let is := fun (code : Nat) (role : Role) => Issued s fn code role p
    let open' := adminOpen s fn = true
    let n := field p 0 4 % 2 ^ 21
    let shut := AnswersIn r fn { status := 0x0601, obj := 2, st := carrelCode (s.carrel fn).st }
    -- import
    (is 0x0401 .oa → 80 ≤ p.length → importFormat p = true → syncBusy s = false →
      (adminOpen s fn = false → shut (exec (.catImport fn host) s)) ∧
      (∀ a, importPlan r fn p host = .error a → AnswersIn r fn a (exec (.catImport fn host) s)) ∧
      (∀ k line, importPlan r fn p host = .ok (k, line) → (importSlot r fn p host).mirrored = false ∨ Unshared s fn →
        let t := createAt r k (importSlot r fn p host)
        AnswersIn t fn { payload := le 4 k ++ le 4 (t.slot k).ownGen.toNat } (exec (.catImport fn host) s))) ∧
    -- replacement and deaccession
    (let pend := fun (a : State) (k : Nat) (h : Bytes) => (a.setMbx fn { a.mbx fn with host := h }).setSlot k
        { s.slot k with deacPending := some (some fn), deacPeer := true, deacTomb := !(s.slot k).persistent }
     let ready := inAllot s fn n = true ∧ (s.slot n).valid = true ∧ lastAdmin s fn n = false ∧ (s.slot n).deacPending = none ∧
       slotCheck13 s fn n = none ∧ 256 ≤ n
     (is 0x0402 .oa → 80 ≤ p.length → importFormat p = true → importAlloc p = false → bit (parseSeg p).flags 3 = false →
       (n < 256 → AnswersIn r fn { status := 0x0708 } (exec (.catReplace fn host) s)) ∧
       (256 ≤ n → adminOpen s fn = false → shut (exec (.catReplace fn host) s)) ∧
       (open' → ready → replaceBad r fn n p (importMaterial p host) = none → Unshared s fn →
         ((s.slot n).persistent = true → archiveOk s = true →
           WaitsIn (queueRecord (pend r n host) (.tombstone n (raiseGen (s.slot n) 1).ownGen)) fn (.deaccession n)
             (exec (.catReplace fn host) s)) ∧
         ((s.slot n).persistent = false →
           let t := commitDeac (pend r n host) fn n
           AnswersIn t.1 fn t.2 (exec (.catReplace fn host) s)))) ∧
     (is 0x0403 .oa → p.length = 4 → field p 0 4 < 2 ^ 21 →
       (n < 256 → AnswersIn r fn { status := 0x0708 } (exec (.catDeaccessionCmd fn) s)) ∧
       (256 ≤ n → adminOpen s fn = false → shut (exec (.catDeaccessionCmd fn) s)) ∧
       (open' → ready → Unshared s fn →
         ((s.slot n).persistent = true → archiveOk s = false →
           AnswersIn r fn { status := 0x0601, obj := 1, st := devCode s } (exec (.catDeaccessionCmd fn) s)) ∧
         ((s.slot n).persistent = true → archiveOk s = true →
           WaitsIn (queueRecord (pend r n []) (.tombstone n (raiseGen (s.slot n) 1).ownGen)) fn (.deaccession n)
             (exec (.catDeaccessionCmd fn) s)) ∧
         ((s.slot n).persistent = false →
           let t := commitDeac (pend r n []) fn n
           AnswersIn t.1 fn t.2 (exec (.catDeaccessionCmd fn) s))))) ∧
    (∀ k f, (s.slot k).deacPending = some (some f) → (s.mbx f).wait = .deaccession k →
      ((s.slot k).deacPeer = true → (s.slot k).deacTomb = true →
        let t := commitDeac s f k
        AnswersIn t.1 f t.2 (exec (.deaccessionCommit k) s)) ∧
      ((s.slot k).deacPeer = false ∨ (s.slot k).deacTomb = false → exec (.deaccessionCommit k) s = .next s)) ∧
    (∀ k, (s.slot k).deacPending = none → exec (.deaccessionCommit k) s = .next s ∧ exec (.tombstoneWaitTimeout k) s = .next s) ∧
    (∀ k f, (s.slot k).deacPending = some (some f) → (s.slot k).deacTomb = false →
      exec (.tombstoneWaitTimeout k) s =
        .next (answerWait (dropCut (cancelDeac s k) (.deaccession k)) f (.deaccession k) (folRejected s)) ∧
      (folRejected s).status = 0x0601 ∧ (folRejected s).obj = 8) ∧
    -- attributes, query, signers
    (is 0x0404 .oa → p.length = 24 → field p 0 4 < 2 ^ 21 → field p 4 2 < 1024 → field p 6 2 < 4 → open' → syncBusy s = false →
      slotCheck13 s fn n = none →
      let x := withAttrs (s.slot n) p
      (attrsOk s (s.slot n) x = false → AnswersIn r fn { status := 0x0407 } (exec (.catSetAttr fn) s)) ∧
      (attrsOk s (s.slot n) x = true → (s.slot n).mirrored = false ∨ Unshared s fn →
        AnswersIn (putAttrs r n x) fn {} (exec (.catSetAttr fn) s))) ∧
    (is 0x0405 .oa → p.length = 4 → field p 0 4 < 2 ^ 21 → open' →
      (inAllot s fn n = true → AnswersIn r fn { payload := slotBytes (s.slot n) } (exec (.catQuery fn) s)) ∧
      (inAllot s fn n = false → AnswersIn r fn { status := 0x0204 } (exec (.catQuery fn) s))) ∧
    (is 0x0406 .o → p.length = 5 → field p 0 4 < 2 ^ 21 → field p 4 1 < 2 → slotCheck13 s 0 n = none →
      let t := putAttrs r n { s.slot n with ostkSigner := bit (field p 4 1) 0 }
      let signer := (s.slot n).keyClass = 0x19 ∨ (s.slot n).keyClass = 0x1A ∨ (s.slot n).keyClass = 0x6D
      (¬ signer → AnswersIn r fn { status := 0x0203 } (exec (.catEnrolSigner fn) s)) ∧
      (signer → signerOk t = true → AnswersIn t fn {} (exec (.catEnrolSigner fn) s)) ∧
      (signer → signerOk t = false → AnswersIn (retireImage t) fn {} (exec (.catEnrolSigner fn) s)))

/-- R420, R421, R430 to R433, R238: the mirror's commands. Pairing waits for the exchange and ends PAIRED, or UNPAIRED with the
reason; unpairing destroys the copies homed on the peer; arbitration after a loss makes the device SOLO; a carrel is passed to the
peer when its running slips have ended. -/
def Obligations.MirrorCommandsTakeEffect : Prop :=
  ∀ (s : State) (fn : Nat) (p : Bytes),
    let r := accept s fn
    let is := fun (code n : Nat) => Issued s fn code .o p ∧ p.length = n
    let m := s.mirror
    let pairBad := AnswersIn r fn { status := 0x0601, obj := 5, st := pairCode m.state }
    let start := fun (st : PairState) => setPair { r with mirror := { m with peerSerial := p.take 16, copied := false } } st
    let lcsOk := s.tmp.lcs = .provisioned ∨ s.tmp.lcs = .service
    let c := field p 0 1
    -- pairing and rejoining
    (is 0x0601 17 → field p 16 1 = 0 →
      (m.state = .unpaired → lcsOk → WaitsIn (start .pairing) fn .pairing (exec (.mirPair fn) s)) ∧
      (m.state ≠ .unpaired ∨ ¬ lcsOk → pairBad (exec (.mirPair fn) s)) ∧ exec (.mirPairRejoin fn) s = .next s) ∧
    (is 0x0601 17 → field p 16 1 = 1 →
      (m.state = .unpaired ∨ m.state = .degraded ∨ m.state = .solo → lcsOk →
        WaitsIn (start .rejoining) fn .pairing (exec (.mirPairRejoin fn) s)) ∧
      (m.state = .paired ∨ m.state = .pairing ∨ m.state = .rejoining ∨ ¬ lcsOk → pairBad (exec (.mirPairRejoin fn) s)) ∧
      exec (.mirPair fn) s = .next s) ∧
    (∀ x, (m.state ≠ .pairing ∧ m.state ≠ .rejoining) ∨ m.copied = true → exec (.pairingComplete x) s = .next s) ∧
    (m.state = .pairing ∨ m.state = .rejoining → m.copied = false →
      (let u := setPair s .unpaired
       exec (.pairingComplete .signatureFailed) s = .next (answerAll u .pairing { status := 0x0405 }) ∧
       exec (.pairingComplete .serialMismatch) s = .next (answerAll u .pairing { status := 0x0601, obj := 5, st := 0 }) ∧
       exec (.pairingComplete .peerLifeCycle) s = .next (answerAll u .pairing { status := 0x0601, obj := 5, st := 0 }) ∧
       (∀ cs cl, m.state = .pairing → (∃ x ∈ cs, (s.carrel x.carrel).st ≠ .absent) →
         exec (.pairingComplete (.done cs cl)) s = .next (answerAll u .pairing { status := 0x0601, obj := 5, st := 0 }))) ∧
      (raising s = false → homedHere s = [] →
        let t := { s with mirror := { m with
          linkUp := true, linkKeys := true, keyedAt := s.now, resigned := false, ours := [], batches := [], copied := true } }
        let u := t.send (.carrelCopy [] (ceilings t))
        exec (.pairingComplete (.done [] [])) s =
          .next (answerAll (setPair { u with mirror := { u.mirror with copied := false } } .paired) .pairing
            { detail := pairCode .paired }))) ∧
    -- unpairing
    (is 0x0602 0 →
      (m.state = .unpaired ∨ m.state = .pairing ∨ m.state = .rejoining → pairBad (exec (.mirUnpair fn) s)) ∧
      (m.state = .paired ∨ m.state = .degraded ∨ m.state = .solo →
        AnswersIn (endMirroring ((homedPeer r).foldl destroyCopy r)) fn { detail := (homedPeer s).length } (exec (.mirUnpair fn) s)) ∧
      (endMirroring s).mirror.state = .unpaired) ∧
    -- arbitration
    (is 0x0603 64 → bit (field p 0 1) 0 = false → bit (field p 32 1) 0 = false →
      let keep := mapCarrels p 0
      let give := mapCarrels p 32
      let taken := if canTakeover s then keep.filter fun k => homeOf s k == .peer else []
      (m.state ≠ .degraded → pairBad (exec (.mirArbitrate fn) s)) ∧
      (m.state = .degraded → (∃ k ∈ keep ++ give, (s.carrel k).st = .absent) →
        AnswersIn r fn { status := 0x0407 } (exec (.mirArbitrate fn) s)) ∧
      (m.state = .degraded → (∀ k ∈ keep ++ give, (s.carrel k).st ≠ .absent) →
        AnswersIn (setPair (taken.foldl keepCarrel (give.foldl yieldCarrel r)) .solo) fn { detail := taken.length }
          (exec (.mirArbitrate fn) s))) ∧
    (homeOf s c ≠ .here → yieldCarrel s c = s) ∧ (homeOf s c ≠ .peer → keepCarrel s c = s) ∧
    -- rehoming
    (is 0x0604 1 →
      (m.state ≠ .paired → pairBad (exec (.mirRehome fn) s)) ∧
      (m.state = .paired → c = 0 ∨ (s.carrel c).st = .absent ∨ homeOf s c ≠ .here →
        AnswersIn r fn { status := 0x0407 } (exec (.mirRehome fn) s)) ∧
      (m.state = .paired → c ≠ 0 → (s.carrel c).st ≠ .absent → homeOf s c = .here →
        WaitsIn (discardStaged r c) fn (.rehome c (unstarted s c).length) (exec (.mirRehome fn) s))) ∧
    (∀ k, (m.state = .paired → homeOf s k = .peer → (s.carrel k).st ≠ .absent → canTakeover s = true →
        exec (.rehomeTakeover k) s = .next (takeCarrel s k)) ∧
      (m.state ≠ .paired ∨ homeOf s k ≠ .peer → exec (.rehomeTakeover k) s = .next s)) ∧
    -- status
    (is 0x0605 0 → AnswersIn r fn { payload := mirStatus r } (exec (.mirStatus fn) s))

/-- R235, R322, R363, R416 to R418, R423 to R427, R430, R434: the mirror link. A change of a mirrored carrel takes effect when the
standby has acknowledged it and is refused when it cannot; the ceilings of an acknowledged batch are raised; the standby stores
what it is told; with link and heartbeat lost, or on RESIGN, it takes over. -/
def Obligations.TheMirrorLinkKeepsTheCopy : Prop :=
  ∀ (s : State) (fn n : Nat) (p : Bytes),
    let m := s.mirror
    let r := accept s fn
    -- synchronous changes, by the sender
    (∀ c : SyncCmd, syncBusy s = true → serveSync s fn c = s) ∧
    (∀ c : SyncCmd, syncBusy s = false → Issued s fn c.spec.code c.spec.role p → c.spec.lenOk p.length = true →
      c.spec.rsvOk p = true → c.spec.owns r fn p = true → c.check r fn p = none → c.recs r fn p ≠ [] →
      (syncBlocked s (c.carrel r fn p) = true →
        serveSync s fn c = respond (syncRefused r) fn { status := 0x0601, obj := 5, st := 3 }) ∧
      (mirrors s (c.carrel r fn p) = true →
        let t := sendSync r (c.recs r fn p) (.mailbox fn)
        serveSync s fn c = t.setMbx fn { t.mbx fn with wait := .mirror m.nextSync })) ∧
    (Tab.get? m.waits n = none → ∀ b, exec (.mirrorSyncAck n b) s = .next s) ∧
    (∀ c, Tab.get? m.waits n = some (.mailbox fn) → (s.mbx fn).wait = .mirror n →
      syncCmdOf (field (s.mbx fn).cmdWin 0 2) = some c → field (s.mbx fn).cmdWin 0 2 ≠ 0x0201 →
      let t := noteAck s n
      exec (.mirrorSyncAck n false) s = .next (commitSync t fn c) ∧
      ((s.mbx fn).claim = none → exec (.mirrorSyncAck n true) s = .next (respond t fn { status := 0x0501 }))) ∧
    (∀ slot ceil, Tab.get? m.waits n = some (.useBlock slot ceil) →
      let t := noteAck s n
      exec (.mirrorSyncAck n false) s =
        .next (requestBlock (t.setSlot slot { s.slot slot with peerCeil := max (s.slot slot).peerCeil ceil }) slot)) ∧
    -- batches
    (m.state = .paired → m.linkUp = true →
      ∃ t, exec .mirrorBatch s = .next t ∧ t.mirror.nextBatch = m.nextBatch + 1 ∧ t.hop = s.hop ∧ t.cat = s.cat ∧
        t.out = s.out ++ [.mirrorBatch m.nextBatch false (changedHops s) [] (imageMeasure s)]) ∧
    (m.state ≠ .paired ∨ m.linkUp = false → exec .mirrorBatch s = .next s) ∧
    (∀ b : BatchAck, Tab.get? m.batches b.seq = none → exec (.batchAck b) s = .next s) ∧
    (∀ (b : BatchAck) hs, Tab.get? m.batches b.seq = some hs →
      let ours := hs.foldl (fun t x => Tab.mod t x.hopper fun k => { k with fc := later k.fc x.fc, cc := later k.cc x.cc }) m.ours
      let t := { s with mirror := { m with batches := Tab.erase m.batches b.seq, batchTot := m.batchTot + 1, ours := ours } }
      exec (.batchAck b) s = .next (hs.foldl (fun s x => flushHopper s x.hopper) t)) ∧
    (∀ a b : W32, before a b = true → later a b = b) ∧ (∀ a b : W32, before a b = false → later a b = a) ∧
    (pairLive s = true → ∀ b : Batch, b.hops = [] → b.held = [] → b.exact = false →
      exec (.batchReceived b) s =
        .next ({ s with mirror := { m with peerImage := b.image, exact := m.exact } }.send (.batchAck b.seq))) ∧
    (pairLive s = true → ∀ (b : Batch) (x : BatchHop) (h : Hopper), b.hops = [x] → b.held = [] → s.hopper? x.hopper = some h →
      homeOf s h.carrel = .peer →
      ∃ t, exec (.batchReceived b) s = .next t ∧ t.hop = s.hop ∧
        (∀ y ∈ t.mirror.memos, y ∈ m.memos ∧ ¬ (y.hopper = x.hopper ∧ before y.entry x.oc = true)) ∧
        Tab.get? t.mirror.theirs x.hopper = some { oc := x.oc, ci := x.ci, p := x.p, lastSlipSeq := x.lastSlipSeq
                                                   lastDbSeq := x.lastDbSeq, nextCseq := x.nextCseq, fcProposed := x.fc
                                                   ccProposed := x.cc, fc := x.fc, cc := x.cc }) ∧
    (pairLive s = false → (∀ b, exec (.batchReceived b) s = .next s) ∧ ∀ x, exec (.syncRecord x) s = .next s) ∧
    -- synchronous changes, at the standby
    (pairLive s = true →
      (∀ h, exec (.syncRecord (.hopperGone h)) s = .next ((dropHopper s h).send (.mirrorAck false))) ∧
      (∀ c t, exec (.syncRecord (.tokenSet c t)) s = .next ((putToken s c t).send (.mirrorAck false))) ∧
      (∀ k g, (s.slot k).valid = false →
        exec (.syncRecord (.slotGone k g none)) s = .next ((s.setSlot k { s.slot k with ownGen := g }).send (.mirrorAck false))) ∧
      (∀ x memo, putSlot s x = none → exec (.syncRecord (.slotSet x memo)) s = .next (s.send (.mirrorAck true))) ∧
      (∀ x t, putSlot s x = some t → exec (.syncRecord (.slotSet x none)) s = .next (t.send (.mirrorAck false))) ∧
      (∀ x : PeerCarrel, (s.carrel x.carrel).st ≠ .absent → homeOf s x.carrel ≠ .peer →
        exec (.syncRecord (.carrelSet x)) s = .next (s.send (.mirrorAck true))) ∧
      (∀ x : PeerCarrel, (s.carrel x.carrel).st = .absent ∨ homeOf s x.carrel = .peer →
        exec (.syncRecord (.carrelSet x)) s = .next ((putCarrelHead s x).send (.mirrorAck false))) ∧
      (∀ k ceil, (s.slot k).ledger = none → exec (.syncRecord (.lease k ceil)) s = .next (s.send (.mirrorAck true)))) ∧
    -- the link and the heartbeat
    (m.linkUp = false → exec .linkLost s = .next s) ∧
    (m.linkUp = true → m.waits = [] → m.state = .paired →
      exec .linkLost s = .next (setPair { s with mirror := { m with
        linkUp := false, linkLost := m.linkLost.hit, waits := [], sentAt := [], batches := [] } } .degraded)) ∧
    (m.state ≠ .degraded → exec .mirrorLinkUp s = .next { s with mirror := { m with linkUp := true } }) ∧
    (m.state = .degraded → exec .mirrorLinkUp s = .next (setPair { s with mirror := { m with linkUp := true } } .rejoining)) ∧
    (m.hbPresent = false → exec .heartbeatLost s = .next s) ∧
    (m.hbPresent = true →
      let t := reportSrc { s with mirror := { m with hbPresent := false, hbLost := m.hbLost.hit } } 0x1E2
      (t.mirror.state = .degraded → t.mirror.linkUp = false → canTakeover t = true → exec .heartbeatLost s = .next (takeAll t)) ∧
      (t.mirror.state ≠ .degraded ∨ t.mirror.linkUp = true ∨ canTakeover t = false → exec .heartbeatLost s = .next t)) ∧
    exec .heartbeatRestored s = .next { s with mirror := { m with hbPresent := true } } ∧
    (pairLive s = true → canTakeover s = true → exec .mirResign s = .next (takeAll s) ∧ (takeAll s).mirror.state = .solo) ∧
    (pairLive s = false → exec .mirResign s = .next s) ∧
    exec .mirLinkAuth s = .next (reportSrc (s.send .retransmit) 0x1E0) ∧
    (m.linkKeys = true → exec .linkKeyRenewal s = .next { s with mirror := { m with keyedAt := s.now } }) ∧
    (m.linkKeys = false → exec .linkKeyRenewal s = .next s)

/-- R207, R222 to R226, R229, R333, R334, R546: what the ledger and the catalogue do beside the commands. A counter's write goes to
one cell; a cell that fails is left and the next one is tried, up to 8; a refresh writes every counter, builds and passes stop at
shed stage S1; a pass zeroises the orphans; a due slot's record joins the journal's queue. R518, R522, R525, R528,
R529: a lost QDR channel leaves its partner to serve, or fails the device; a re-encryption raises a group's major counter; a lost
slot is given back by the peer or the archive, or retired or deaccessioned. -/
def Obligations.LedgerWeedingAndQdrTakeEffect : Prop :=
  ∀ (s : State) (n : Nat),
    let c := counter s n
    let led := s.ledger
    let wrote := { s with ledger := { led with writeTot := led.writeTot + 1 } }
    -- ledger writes
    (c.writing = [] → ∀ ok, exec (.ledgerWriteDone n ok) s = .next s) ∧
    (∀ w, c.writing = [w] → w.why = .set →
      let cells := c.cells.set w.cell (mkCell n w.value w.state w.bindGen)
      exec (.ledgerWriteDone n true) s = .next (noteLowFree s (setCounter wrote n { c with cells := cells, writing := [] })) ∧
      (let bad := c.cells.set w.cell { cellAt c w.cell with eccOk := false }
       (w.attempts < 7 → exec (.ledgerWriteDone n false) s = .next (reportSrc (ledHitRetry (setCounter wrote n { c with
          cells := bad, writing := [{ w with cell := (w.cell + 1) % 8, attempts := w.attempts + 1 }] })) 0x1C1)) ∧
       (7 ≤ w.attempts → exec (.ledgerWriteDone n false) s = .next (reportSrc (ledHitLost (setCounter wrote n
          { cells := bad, lost := true, writing := [] })) 0x1C2)))) ∧
    (∀ w, c.writing = [w] → w.why = .set → c.lost = false → w.cell < c.cells.length → ctrValue s n ≤ w.value →
      ∃ t, exec (.ledgerWriteDone n true) s = .next t ∧ ctrValue t n = w.value ∧ t.ledger.writeTot = led.writeTot + 1) ∧
    (counter (setCounter s n { c with lost := true }) n).lost = true ∧
    ctrValue (setCounter s n { c with lost := true }) n = 0xFFFF_FFFF_FFFF ∧
    ctrSt (setCounter s n { c with lost := true }) n = .retired ∧
    (s.cel.stage ≠ 0 ∨ s.cel.mainPower = false → exec .ledgerRefresh s = .next s) ∧
    (s.cel.stage = 0 → s.cel.mainPower = true → ∃ t, exec .ledgerRefresh s = .next t ∧
      (∀ k x, Tab.get? led.counters k = some x → x.lost = true → Tab.get? t.ledger.counters k = some x) ∧
      ∀ k x, Tab.get? led.counters k = some x → x.lost = false → ∃ y, Tab.get? t.ledger.counters k = some y ∧
        y.cells = x.cells ∧ y.writing.length = x.writing.length + 1 ∧ ∀ w ∈ y.writing, w ∈ x.writing ∨
          (w.value = (ctrContent k x).value ∧ w.state = (ctrContent k x).state ∧ w.cell = targetCell k x)) ∧
    exec (.leaseGranted n) s = .next (leaseReady s n) ∧
    -- trees
    (∀ d l q, stfSetOf (s.slot n) = some d → Tab.get? (stfKey s n).building l = some q → s.cel.stage = 0 →
      let k := stfKey s n
      let k' := if treeQuanta d (d.levels.getD l (0, 0)) ≤ q + 1 then
          { k with built := Tab.set k.built l (Tab.getD k.cur l 0 + 1), building := Tab.erase k.building l }
        else { k with building := Tab.set k.building l (q + 1) }
      exec (.treeBuildQuantum n l) s = .next (chargeFloor (setStfKey s n k') (s.slot n).owner 30000000)) ∧
    (∀ l, s.cel.stage ≠ 0 ∨ Tab.get? (stfKey s n).building l = none → exec (.treeBuildQuantum n l) s = .next s) ∧
    (Tab.has led.keys n = false → exec (.treeCacheRestored n) s = .next s) ∧
    (let t := setStfKey s n { stfKey s n with cached := true, usedAt := s.now }
     Tab.has led.keys n = true → (t.ledger.keys.filter fun p => p.2.cached).length ≤ 32 → exec (.treeCacheRestored n) s = .next t) ∧
    -- weeding and archive records
    (s.cel.stage ≠ 0 → exec .weedingPass s = .next s) ∧
    (s.cel.stage = 0 → ∃ t, exec .weedingPass s = .next t ∧ t.cat.weedPassTot = s.cat.weedPassTot + 1 ∧
      (orphans s = [] → t.cat.slots = s.cat.slots ∧ t.cat.weedZeroTot = s.cat.weedZeroTot)) ∧
    (n ∉ s.cat.tombstones → Tab.get? s.cat.archivePending n = none → exec (.archiveRecordDue n) s = .next s) ∧
    (n ∈ s.cat.tombstones →
      exec (.archiveRecordDue n) s = .next (queueRecord { s with cat := { s.cat with
        tombstones := s.cat.tombstones.filter (· != n) } } (.tombstone n (s.slot n).ownGen))) ∧
    (∀ due, n ∉ s.cat.tombstones → Tab.get? s.cat.archivePending n = some due → (s.slot n).valid = true → (s.slot n).persistent = true →
      exec (.archiveRecordDue n) s = .next { s with
        cat := { s.cat with archivePending := Tab.erase s.cat.archivePending n }
        folio := { s.folio with
          queue := s.folio.queue ++ [{ seq := s.folio.nextSeq, kind := .slot n (archiveSlot (s.slot n)), due := due, devSec := s.sec }]
          nextSeq := s.folio.nextSeq + 1 } }) ∧
    -- QDR
    (
    let q := s.qdr
    (q.trained = true → s.cel.stage < 4 → exec .qdrRetrack s = .next { s with qdr := { q with retracks := q.retracks + 1 } }) ∧
    (q.trained = false ∨ 4 ≤ s.cel.stage → exec .qdrRetrack s = .next s) ∧
    (8 ≤ n ∨ q.trained = false ∨ q.chOk.getLsbD n = false → exec (.qdrChannelLost n) s = .next s) ∧
    (n < 8 → q.trained = true → q.chOk.getLsbD n = true →
      let t := reportSrc { s with qdr := { q with chLost := q.chLost.hit } } 0x184 0xFF (BitVec.ofNat 32 n)
      let ok := t.qdr.chOk &&& ~~~(BitVec.ofNat 8 (2 ^ n))
      let u := { t with qdr := { t.qdr with chOk := ok } }
      let left := (List.range 8).filter fun k => ok.getLsbD k
      (resets s 0x184 = true → exec (.qdrChannelLost n) s = .next t) ∧
      (resets s 0x184 = false → qdrGone t.qdr.paired left = true → exec (.qdrChannelLost n) s = .next (qdrFail u)) ∧
      (resets s 0x184 = false → qdrGone t.qdr.paired left = false → exec (.qdrChannelLost n) s = .next (noteDev t u))) ∧
    (q.guardKeys = true → n < (if q.paired then 64512 else 129024) →
      ∃ t, exec (.groupReencryptionDone n) s = .next t ∧ Tab.getD t.qdr.majors n 0 = Tab.getD q.majors n 0 + 1 ∧
        (∀ k, k / 64 = n → Tab.getD t.qdr.minors k 0 = 0) ∧ (∀ k, k ≠ n → Tab.getD t.qdr.majors k 0 = Tab.getD q.majors k 0) ∧
        n ∈ t.qdr.writtenGroups ∧ t.qdr.reencTot = q.reencTot + 1 ∧ t.cat = s.cat ∧ t.hop = s.hop) ∧
    (q.guardKeys = false ∨ (if q.paired then 64512 else 129024) ≤ n → exec (.groupReencryptionDone n) s = .next s) ∧
    (s.mirror.state = .paired → (s.slot n).valid = true → (s.slot n).mirrored = true → n ∉ q.recovering →
      exec (.slotRecoveryRequest n) s = .next (s.send (.slotSend (peerSlot n (s.slot n))))) ∧
    (s.mirror.state ≠ .paired ∨ (s.slot n).valid = false ∨ (s.slot n).mirrored = false ∨ n ∈ q.recovering →
      exec (.slotRecoveryRequest n) s = .next s) ∧
    (∀ x, n ∉ q.recovering → exec (.slotRecoveryDone n x) s = .next s) ∧
    (n ∈ q.recovering →
      let back := { s with qdr := { q with recovering := q.recovering.filter (· != n) } }
      ((s.slot n).mirrored = true → s.mirror.state = .paired → exec (.slotRecoveryDone n .peer) s = .next back) ∧
      ((s.slot n).mirrored = false ∨ s.mirror.state ≠ .paired → exec (.slotRecoveryDone n .peer) s = .next s) ∧
      ((s.slot n).persistent = true → exec (.slotRecoveryDone n .archive) s = .next back) ∧
      ((s.slot n).persistent = false → exec (.slotRecoveryDone n .archive) s = .next s) ∧
      (∃ t, exec (.slotRecoveryDone n (.none true)) s = .next t ∧ (t.slot n).retired = true ∧ (t.slot n).valid = false ∧
        (t.slot n).ownGen = (s.slot n).ownGen ∧ n ∉ t.qdr.recovering) ∧
      exec (.slotRecoveryDone n (.none false)) s = .next (giveUpSlot s n)))

/-- R496 to R508, R513, R240: folio. An inserted cartridge is identified within 100 polls, classified by its anchor against the
shadow, brought up to date and mounted; a record is on folio when both copies are; an anchor's write raises the shadow; what a
cartridge was writing when it is removed stays pending. -/
def Obligations.FolioSlotsTakeEffect : Prop :=
  ∀ (s : State) (n : Nat),
    let f := s.folSlot n
    let num := BitVec.ofNat 32 n
    (4 ≤ n ∨ f.present = true → exec (.cartridgeInsert n) s = .next s) ∧
    (n < 4 → f.present = false → exec (.cartridgeInsert n) s = .next ((s.setFolSlot n { f with
      state := .identifying, present := true, inserted := f.inserted.hit, insertedAt := s.now, polls := 0, records := []
      highSeq := 0, anchorHigh := 0, anchorAt := none, tenure := 0, stale := false, adopt := false }).send (.folioCmd n 0))) ∧
    (4 ≤ n ∨ f.present = false → exec (.cartridgeRemove n) s = .next s) ∧
    (n < 4 → f.present = true →
      let t := s.setFolSlot n { inserted := f.inserted, removed := f.removed.hit, ioErr := f.ioErr }
      (f.anchoring = true → exec (.cartridgeRemove n) s = .next (settleQueue (folEvent (reportSrc t 0x1F3 0xFF 0xFFFF_FFFF#32) n 2))) ∧
      (f.anchoring = false → f.writing = none → exec (.cartridgeRemove n) s = .next (settleQueue (folEvent t n 2)))) ∧
    -- identification
    (∀ ready, f.state ≠ .identifying → exec (.cmd1Poll n ready) s = .next s) ∧
    (f.state = .identifying → let t := s.send (.folioCmd n 1)
      exec (.cmd1Poll n true) s = .next t ∧
      (f.polls < 99 → exec (.cmd1Poll n false) s = .next (t.setFolSlot n { f with polls := f.polls + 1 })) ∧
      (99 ≤ f.polls → exec (.cmd1Poll n false) s = .next (idFails t n 2))) ∧
    (∀ x : MountInfo, f.state ≠ .identifying ∨ s.boot.stage < 8 → exec (.mount n x) s = .next s) ∧
    (∀ x : MountInfo, f.state = .identifying → 8 ≤ s.boot.stage →
      let g := { f with capacity := x.secCount, rpmbCnt := BitVec.ofNat 32 x.counter, life := x.life, width := x.width
                        timing := x.timing, tenure := 0, stale := false, adopt := false, anchorAt := none, anchoring := false }
      let t := s.setFolSlot n g
      let rs := if f.records = [] then x.records.map fromRaw else f.records
      let h := { g with tenure := x.tenure, anchorHigh := x.highSeq }
      (x.idFail ≠ 0 → exec (.mount n x) s = .next (idFails t n x.idFail)) ∧
      (x.idFail = 0 → x.secCount.toNat < 67108864 → exec (.mount n x) s = .next (idFails t n 4)) ∧
      (x.idFail = 0 → 67108864 ≤ x.secCount.toNat →
        (x.rpmb = .macFails → exec (.mount n x) s = .next (reportSrc (folSettles t n .foreign) 0x1F6 0xFF num)) ∧
        (x.rpmb = .keyNotProgrammed → s.tmp.lcs = .factory ∨ s.tmp.lcs = .provisioned ∨ s.tmp.lcs = .service →
          exec (.mount n x) s = .next (beginReconcile (t.setFolSlot n { g with adopt := true, anchorHigh := 0 }) n [])) ∧
        (x.rpmb = .ok → classify s x = .current →
          exec (.mount n x) s = .next (beginReconcile (t.setFolSlot n { h with adopt := x.ancSlot != n }) n rs)) ∧
        (x.rpmb = .ok → classify s x = .shadowLost →
          exec (.mount n x) s = .next (beginReconcile ((ledgerRaise t (288 + x.ancSlot) (x.tenure * 2 ^ 32 + x.counter)).setFolSlot n
            { h with adopt := x.ancSlot != n }) n rs)) ∧
        (x.rpmb = .ok → classify s x = .stale →
          exec (.mount n x) s = .next (reportSrc (beginReconcile (t.setFolSlot n { h with stale := true, adopt := true }) n rs)
            0x1F7 0xFF num)) ∧
        (x.rpmb = .ok → classify s x = .inconsistent →
          exec (.mount n x) s = .next (reportSrc (folSettles t n .foreign) 0x1F9 0xFF num)))) ∧
    (∀ x : MountInfo, x.serial ≠ s.reg.serial → classify s x = .inconsistent) ∧
    (∀ x : MountInfo, x.serial = s.reg.serial → x.ancSlot < 4 →
      let t := shadow s x.ancSlot / 2 ^ 32
      let v := shadow s x.ancSlot % 2 ^ 32
      (x.tenure < t → classify s x = .stale) ∧ (t < x.tenure → classify s x = .inconsistent) ∧
      (x.tenure = t → x.counter = v → classify s x = .current) ∧ (x.tenure = t → x.counter = v + 1 → classify s x = .shadowLost) ∧
      (x.tenure = t → x.counter ≠ v → x.counter ≠ v + 1 → classify s x = .inconsistent)) ∧
    -- reconciliation
    (f.state ≠ .reconciling ∨ mayAdopt s f = false → exec (.reconcileComplete n) s = .next s) ∧
    (f.state = .reconciling → mayAdopt s f = true → worn f = true →
      exec (.reconcileComplete n) s = .next (folSettles s n .readOnly)) ∧
    (f.state = .reconciling → mayAdopt s f = true → worn f = false →
      let all := s.folio.queue.foldl (fun l r => insertRec r l) (archiveUnion s)
      let g := writeAll ((standing all).filter fun r => decide (highOf f.records < r.seq)) f
      let h := { g with rpmbCnt := g.rpmbCnt + 1, anchorHigh := g.highSeq, anchorAt := some s.now
                        tenure := if g.adopt then shadow s n / 2 ^ 32 + 1 else g.tenure, adopt := false, stale := false }
      let t := writeShadow ((s.send (.rpmbWrite n h.highSeq)).setFolSlot n h) n
      exec (.reconcileComplete n) s = .next (settleQueue (folSettles t n .mounted))) ∧
    -- records
    (f.writing = none → exec (.recordOnFolio n) s = .next s) ∧
    (∀ r, f.state = .mounted → f.writing = none → nextRec s f = some r →
      exec (.recordCopyADone n) s = .next (s.setFolSlot n { f with
        records := insertRec { r with copyA := true, copyB := false } (f.records.filter fun x => x.seq != r.seq)
        writing := some r.seq })) ∧
    (f.state ≠ .mounted ∨ f.writing.isSome = true ∨ nextRec s f = none → exec (.recordCopyADone n) s = .next s) ∧
    (∀ k, f.writing = some k →
      let rs := f.records.map fun r => if r.seq = k then { r with copyB := true } else r
      exec (.recordOnFolio n) s = .next (settleQueue (s.setFolSlot n { f with records := rs, writing := none, highSeq := highOf rs }))) ∧
    -- anchors, marks
    (f.state = .mounted → f.anchoring = false → f.anchorHigh < f.highSeq → s.cel.stage = 0 →
      f.anchorAt = none ∨ (∃ at', f.anchorAt = some at' ∧ 1250000000 ≤ s.now - at') →
      exec (.anchorWrite n) s = .next ((s.setFolSlot n { f with
        anchoring := true, anchorAt := some s.now, anchorHigh := f.highSeq }).send (.rpmbWrite n f.highSeq))) ∧
    (f.highSeq ≤ f.anchorHigh ∨ s.cel.stage ≠ 0 → exec (.anchorWrite n) s = .next s) ∧
    (∀ at', f.anchorAt = some at' → s.now - at' < 1250000000 → exec (.anchorWrite n) s = .next s) ∧
    (f.anchoring = false → exec (.anchorWriteDone n) s = .next s) ∧
    (f.anchoring = true → worn { f with rpmbCnt := f.rpmbCnt + 1 } = false →
      let g := { f with anchoring := false, rpmbCnt := f.rpmbCnt + 1 }
      exec (.anchorWriteDone n) s =
        .next (ledgerRaise (s.setFolSlot n g) (288 + n) (f.tenure * 2 ^ 32 + (f.rpmbCnt + 1).toNat))) ∧
    (9 ≤ s.boot.stage → s.boot.waiting = false → queueFull s = false →
      exec .devsecMark s = .next (queueRecord s (.devSec s.cel.devSec))) ∧
    (s.boot.stage < 9 ∨ s.boot.waiting = true ∨ queueFull s = true → exec .devsecMark s = .next s) ∧
    -- errors, tuning, wear, abandonment
    (folReads f = false → exec (.folIoErr n) s = .next s ∧ (∀ ok, exec (.retune n ok) s = .next s) ∧
      ∀ life, exec (.lifeCheck n life) s = .next s) ∧
    (folReads f = true →
      exec (.folIoErr n) s = .next (settleQueue (reportSrc (s.setFolSlot n { f with ioErr := f.ioErr.hit }) 0x1F1 0xFF num)) ∧
      (f.timing = 2 → exec (.retune n false) s = .next (s.setFolSlot n { f with timing := 1 })) ∧
      exec (.retune n true) s = .next s ∧
      ∀ life, exec (.lifeCheck n life) s = .next (settleQueue (checkWear (s.setFolSlot n { f with life := life }) n))) ∧
    (s.boot.stage = 9 → s.boot.waiting = true → s.folio.abandoned = false →
      ∃ t, exec .folArchiveAbandoned s = .next t ∧ t.folio.abandoned = true ∧ t.folio.queue = [] ∧ t.cel.cellarKey = true) ∧
    (s.boot.stage ≠ 9 ∨ s.boot.waiting = false ∨ s.folio.abandoned = true → exec .folArchiveAbandoned s = .next s)


/-- R278 to R285, R6 to R10, R358, R362, R390, R392, R541, R547: the registers of the host link. A page's START is refused with a
status or waits for a direct pipe; a write to a busy page or window is discarded; a W1C write clears what it names and the
hardware's set wins; a read of an event counter answers it and clears it; a function's reset ends its session and its commands.
That GO is not discarded while only the entropy unit has failed is the model's reading (log 154). -/
def Obligations.RegisterAccessesTakeEffect : Prop :=
  ∀ (s : State) (fn pg n : Nat) (v hw : W64) (h : W32),
    let x := s.page fn pg
    let m := s.mbx fn
    let there := pg < 4 ∧ pg < (s.carrel fn).directPages
    let ignored := s.setPage fn pg { x with wrIgnored := x.wrIgnored.hit }
    let w1c := fun (i : Nat) (e : EvtBit) => e.w1c (v.getLsbD i) (hw.getLsbD i)
    let rc := fun (i : Nat) (e : EvtBit) => e.rc (h.getLsbD i)
    let answer := fun (t : State) (es : List EvtBit) => t.send (.regRead (BitVec.ofNat 64 (unle (es.map (·.cnt)))))
    let wr := fun (r : RegName) => exec (.registerWrite fn r v hw) s
    -- event bits
    (∀ e : EvtBit, e.hit.flag = true ∧ (e.cnt ≠ 255 → e.hit.cnt = e.cnt + 1) ∧ (e.cnt = 255 → e.hit.cnt = 255) ∧
      e.w1c false false = e ∧ (e.w1c true false).flag = false ∧ (e.w1c true false).cnt = e.cnt ∧ e.w1c false true = e.hit ∧
      (e.w1c true true).flag = true ∧ (e.rc false).cnt = 0 ∧ (e.rc true).cnt = 1 ∧ (e.rc false).flag = e.flag) ∧
    -- pages
    (¬ there → exec (.dpgStart fn pg) s = .next s ∧ exec (.dpgAbort fn pg) s = .next s ∧ exec (.dpgClearKey fn pg) s = .next s ∧
      (∀ i, exec (.dpgKey fn pg i v) s = .next s) ∧ exec (.dpgEvt fn pg h) s = .next (s.send (.regRead 0)) ∧
      wr (.dpgSrc pg) = .next s) ∧
    (there → x.busy = true → exec (.dpgStart fn pg) s = .next ignored ∧ exec (.dpgClearKey fn pg) s = .next ignored ∧
      wr (.dpgSrc pg) = .next ignored ∧ wr (.dpgIv0 pg) = .next ignored ∧
      (x.queued = true → exec (.dpgAbort fn pg) s = .next (endPage s fn pg 0x0507)) ∧
      (x.queued = false → exec (.dpgAbort fn pg) s = .next (s.setPage fn pg { x with abortReq := true }))) ∧
    (there → x.busy = false →
      let y := { x with retried := false, approved := false, outLen := 0 }
      (∀ st, startRefusal s fn y = some st → exec (.dpgStart fn pg) s = .next (endPage (s.setPage fn pg y) fn pg st)) ∧
      (startRefusal s fn y = none →
        let last := (s.pipes.pages.map fun z => z.2.startedAt).foldl max 0
        exec (.dpgStart fn pg) s =
          .next (servePages (s.setPage fn pg { y with busy := true, queued := true, startedAt := last + 1 }))) ∧
      (m.session = none ∨ (s.carrel fn).st ≠ .active ∨ x.keyLoaded = false → startRefusal s fn y = some 0x0601) ∧
      exec (.dpgAbort fn pg) s = .next s ∧
      exec (.dpgClearKey fn pg) s = .next (s.setPage fn pg { x with key := [], keyLoaded := false }) ∧
      wr (.dpgSrc pg) = .next (s.setPage fn pg { x with src := v }) ∧ wr (.dpgDst pg) = .next (s.setPage fn pg { x with dst := v }) ∧
      wr (.dpgAad pg) = .next (s.setPage fn pg { x with aad := v }) ∧ wr (.dpgIv0 pg) = .next (s.setPage fn pg { x with iv0 := v }) ∧
      wr (.dpgIv1 pg) = .next (s.setPage fn pg { x with iv1 := v }) ∧ wr (.dpgTag0 pg) = .next (s.setPage fn pg { x with tag0 := v }) ∧
      wr (.dpgTag1 pg) = .next (s.setPage fn pg { x with tag1 := v }) ∧
      wr (.dpgCtrl pg) = .next (s.setPage fn pg { x with ctrl := v &&& 0x0000_1FFF_FFFF_FFFF#64 }) ∧
      wr (.dpgLen pg) = .next (s.setPage fn pg { x with len := v &&& 0x001F_FFFF_01FF_FFFF#64 }) ∧
      wr (.dpgSts pg) = .next (s.setPage fn pg { x with done := w1c 1 x.done, wrIgnored := w1c 2 x.wrIgnored }) ∧
      (∀ i, i < 8 → m.session.isSome = true → ∃ y, exec (.dpgKey fn pg i v) s = .next (s.setPage fn pg y) ∧
        y.keyLoaded = true ∧ (x.key.length = 8 ∨ x.key = [] → y.key[i]? = some v) ∧ y = { x with key := y.key, keyLoaded := true }) ∧
      (∀ i, i < 8 → m.session = none → exec (.dpgKey fn pg i v) s = .next ignored)) ∧
    (∀ r, x.busy = false ∨ x.queued = true ∨ pageRuns s x = false → exec (.dpgDone fn pg r) s = .next s) ∧
    (∀ r, x.busy = true → x.queued = false → pageRuns s x = true →
      exec (.dpgDone fn pg r) s = .next (servePages (finishPage s fn pg r))) ∧
    (∀ r mode back, pgMode x = some (mode, back) → x.abortReq = true → finishPage s fn pg r = endPage s fn pg 0x0507) ∧
    (there → exec (.dpgEvt fn pg h) s =
      .next (answer (s.setPage fn pg { x with done := rc 0 x.done, wrIgnored := rc 1 x.wrIgnored }) [x.done, x.wrIgnored])) ∧
    -- accesses that fail
    (exec (.hostAccess fn true n) s = .next (reportSrc s 0x000 fn) ∧
      exec (.hostAccess fn false n) s = .next (reportSrc (s.send (.regRead (BitVec.ofNat 64 (2 ^ (8 * n) - 1)))) 0x000 fn)) ∧
    -- the mailbox
    (m.busy = true → ∀ o k, wr (.mbxCmd o k) = .next (s.setMbx fn { m with wrIgnored := m.wrIgnored.hit })) ∧
    (m.busy = false → ∀ o k, k ≤ 8 → o + k ≤ 4096 →
      wr (.mbxCmd o k) = .next (s.setMbx fn { m with cmdWin := splice m.cmdWin o (le k v.toNat) })) ∧
    (mbxDead s = true → wr .mbxGo = .next s) ∧
    (mbxDead s = true ↔ s.reg.dev = .failed ∧ ¬(s.ent.state = .failed ∧ s.reg.pairsFenced < 2)) ∧
    (mbxDead s = false → m.busy = false → v.getLsbD 0 = true → wr .mbxGo = .next (s.setMbx fn { m with busy := true })) ∧
    (mbxDead s = false → m.busy = false → v.getLsbD 0 = false → wr .mbxGo = .next s) ∧
    (mbxDead s = false → m.busy = true → wr .mbxGo = .next (s.setMbx fn { m with wrIgnored := m.wrIgnored.hit })) ∧
    wr .mbxSts = .next (s.setMbx fn { m with
      rspReady := w1c 1 m.rspReady, wrIgnored := w1c 2 m.wrIgnored, evqOverflow := w1c 4 m.evqOverflow }) ∧
    wr .mbxEvqCfg = .next (s.setMbx fn { m with evqCfg := BitVec.ofNat 32 (v.toNat % 2 ^ 13) }) ∧
    wr .mbxEvqHead = .next (s.setMbx fn { m with evqHead := v.setWidth 32 }) ∧
    (m.busy = false → m.evqCfg.getLsbD 0 = false → wr .mbxEvqBase = .next (s.setMbx fn { m with evqBase := v })) ∧
    exec (.mbxEvt fn h) s = .next (answer (s.setMbx fn { m with
      rspReady := rc 0 m.rspReady, wrIgnored := rc 1 m.wrIgnored, evqOverflow := rc 2 m.evqOverflow })
      [m.rspReady, m.wrIgnored, m.evqOverflow]) ∧
    -- the PF's regions
    (fn ≠ 0 → wr .ledSts = .next s ∧ wr .catSts = .next s ∧ wr .fltSts = .next s ∧ wr (.octSts n) = .next s) ∧
    wr .readOnly = .next s ∧
    (fn = 0 →
      wr .fltSts = .next { s with flt := { s.flt with
        event := w1c 1 s.flt.event, severe := w1c 2 s.flt.severe, errLatch := w1c 3 s.flt.errLatch, logWrap := w1c 4 s.flt.logWrap } } ∧
      wr .entSts = .next { s with ent := { s.ent with srcFail := w1c 2 s.ent.srcFail, poolEmpty := w1c 3 s.ent.poolEmpty } } ∧
      wr .tmpSts = .next { s with tmp := { s.tmp with unexplained := w1c 12 s.tmp.unexplained } } ∧
      (hw = 0 → wr .ledSts = .next { s with ledger := { s.ledger with
        cellInvalid := w1c 0 s.ledger.cellInvalid, writeRetry := w1c 1 s.ledger.writeRetry
        counterLost := w1c 2 s.ledger.counterLost, retired := w1c 3 s.ledger.retired, lowFree := w1c 4 s.ledger.lowFree } }) ∧
      (n < 64 → wr (.octSts n) = .next (s.setOctet n { s.octet n with
        linkFlap := w1c 18 (s.octet n).linkFlap, fecHigh := w1c 19 (s.octet n).fecHigh, pfcStorm := w1c 20 (s.octet n).pfcStorm }))) ∧
    -- counters read
    (n < 64 → let o := s.octet n
      exec (.prtOctEvt n h) s = .next (answer (s.setOctet n { o with
        linkFlap := rc 0 o.linkFlap, fecHigh := rc 1 o.fecHigh, pfcStorm := rc 2 o.pfcStorm }) [o.linkFlap, o.fecHigh, o.pfcStorm])) ∧
    (n < 256 → let d := s.dl n
      exec (.hopDlEvt n h) s = .next (answer (s.setDl n { d with missed := rc 0 d.missed, shed := rc 1 d.shed }) [d.missed, d.shed])) ∧
    (h = 0 → let l := s.ledger
      exec (.ledEvt h) s = .next (answer { s with ledger := { l with
        cellInvalid := rc 0 l.cellInvalid, writeRetry := rc 1 l.writeRetry, counterLost := rc 2 l.counterLost
        retired := rc 3 l.retired } } [l.cellInvalid, l.writeRetry, l.counterLost, l.retired]) ∧
      exec (.ledEvt2 h) s = .next (answer { s with ledger := { l with lowFree := rc 0 l.lowFree } } [l.lowFree]) ∧
      exec (.catEvt h) s = .next (answer { s with cat := { s.cat with
        weedFound := rc 0 s.cat.weedFound, extentLow := rc 1 s.cat.extentLow, archiveLag := rc 2 s.cat.archiveLag
        genRetired := rc 3 s.cat.genRetired } } [s.cat.weedFound, s.cat.extentLow, s.cat.archiveLag, s.cat.genRetired])) ∧
    exec (.entEvt h) s = .next (answer { s with ent := { s.ent with
      srcFail := rc 0 s.ent.srcFail, poolEmpty := rc 1 s.ent.poolEmpty } } [s.ent.srcFail, s.ent.poolEmpty]) ∧
    exec (.mirEvt h) s = .next (answer { s with mirror := { s.mirror with
      linkLost := rc 0 s.mirror.linkLost, hbLost := rc 1 s.mirror.hbLost, syncRefused := rc 2 s.mirror.syncRefused
      takeover := rc 3 s.mirror.takeover } } [s.mirror.linkLost, s.mirror.hbLost, s.mirror.syncRefused, s.mirror.takeover]) ∧
    exec (.fltEvt h) s = .next (answer { s with flt := { s.flt with
      event := rc 0 s.flt.event, severe := rc 1 s.flt.severe, errLatch := rc 2 s.flt.errLatch, logWrap := rc 3 s.flt.logWrap } }
      [s.flt.event, s.flt.severe, s.flt.errLatch, s.flt.logWrap]) ∧
    exec (.celEvt h) s = .next (answer { s with cel := { s.cel with
      vbatLow := rc 0 s.cel.vbatLow, xtalFail := rc 1 s.cel.xtalFail, shedEntered := rc 2 s.cel.shedEntered
      ranVbat := s.cel.onVbat } } [s.cel.vbatLow, s.cel.xtalFail, s.cel.shedEntered]) ∧
    exec (.tmpEvt h) s = .next (answer { s with tmp := { s.tmp with unexplained := rc 0 s.tmp.unexplained } } [s.tmp.unexplained]) ∧
    exec (.qdrEvt h) s = .next (answer { s with qdr := { s.qdr with integrity := rc 0 s.qdr.integrity, chLost := rc 1 s.qdr.chLost } }
      [s.qdr.integrity, s.qdr.chLost]) ∧
    (n < 4 → let f := s.folSlot n
      exec (.folSlotEvt n h) s = .next (answer (s.setFolSlot n { f with
        inserted := rc 0 f.inserted, removed := rc 1 f.removed, ioErr := rc 2 f.ioErr }) [f.inserted, f.removed, f.ioErr])) ∧
    -- resets of functions
    (∃ t, exec (.flr fn) s = .next t ∧ t = resetFunction s fn ∧ ∀ y, Tab.get? t.reg.mbx fn = some y →
      y.session = none ∧ y.busy = false ∧ y.wait = .none ∧ y.lockUntil = m.lockUntil) ∧
    exec (.vfDisable []) s = .next s ∧ exec (.vfDisable [n]) s = .next (if 1 ≤ n ∧ n ≤ 255 then resetFunction s n else s) ∧
    exec .perstN s = .next ((Tab.keys s.reg.mbx ++ (s.hop.hoppers.map fun p => p.2.carrel)).dedup.foldl resetFunction s)

/-- R452 to R465, R417, R224: power, clocks and the shed stages. A stage is entered with every lower one and left one at a time;
before READY a condition holds the boot; S4 abandons, flushes, resigns and zeroises the guard's keys; a loss of main power leaves
the cellar alone. -/
def Obligations.PowerAndShedStagesTakeEffect : Prop :=
  ∀ (s : State) (n cause : Nat),
    let c := s.cel
    -- entry
    (c.mainPower = false → exec (.shedS1 cause) s = .next s ∧ exec (.shedS2 cause) s = .next s ∧
      exec (.shedS3 cause) s = .next s ∧ exec (.shedS4 cause) s = .next s) ∧
    (c.mainPower = true → s.boot.stage < 13 → exec (.shedS1 cause) s = .next (holdBoot s 1 cause) ∧
      exec (.shedS2 cause) s = .next (holdBoot s 2 cause) ∧ exec (.shedS3 cause) s = .next (holdBoot s 3 cause) ∧
      exec (.shedS4 cause) s = .next (holdBoot s 4 cause)) ∧
    ((holdBoot s n cause).boot = { s.boot with shedHold := true } ∧ (holdBoot s n cause).cel.stage = c.stage) ∧
    (c.mainPower = true → 13 ≤ s.boot.stage →
      let e1 := enterStage cause s 1
      let e2 := enterStage cause e1 2
      let e3 := enterStage cause e2 3
      exec (.shedS1 cause) s = .next e1 ∧ exec (.shedS2 cause) s = .next e2 ∧ exec (.shedS3 cause) s = .next e3 ∧
        exec (.shedS4 cause) s = .next (enterStage cause e3 4)) ∧
    (n ≤ c.stage → enterStage cause s n = s) ∧
    (c.stage = 0 → 13 ≤ s.boot.stage → 1 ≤ n → n ≤ 4 →
      let k := countShed { c with stage := n, cause := cause, shedEntered := c.shedEntered.hit } n
      let t := stageActions { s with cel := { k with warn := k.warn || bit cause 0 } } n
      enterStage cause s n = shedReport (noteDev s t) n cause false) ∧
    -- exit
    (c.stage = 0 ∨ 4 ≤ c.stage → exec .shedStageExit s = .next s) ∧
    (c.stage = 1 ∨ c.stage = 2 →
      let t := { s with cel := { c with
        stage := c.stage - 1, warn := c.warn && !(bit c.cause 0) && c.stage != 1, cause := if c.stage = 1 then 0 else c.cause } }
      exec .shedStageExit s = .next (shedReport (noteDev s t) c.stage c.cause true)) ∧
    (c.stage = 3 →
      let t := { s with cel := { c with stage := 2, warn := c.warn && !(bit c.cause 0) && true, cause := c.cause } }
      exec .shedStageExit s = .next (shedReport (noteDev s (servePages (forceOctets t))) 3 c.cause true)) ∧
    -- S4
    (c.stage ≠ 4 ∨ c.s4Abandoned = true → exec .s4Abandon s = .next s) ∧
    (c.stage = 4 → c.s4Abandoned = false → s.hop.slips = [] → s.pipes.pages = [] →
      exec .s4Abandon s = .next { s with
        mirror := { s.mirror with waits := s.mirror.waits.filter fun w => match w.2 with
          | .chain _ => false
          | _ => true }
        cel := { c with s4Abandoned := true } }) ∧
    (c.stage ≠ 4 ∨ c.s4Abandoned = false ∨ c.s4Done = true → exec .s4FlushDone s = .next s) ∧
    (c.stage = 4 → c.s4Abandoned = true → c.s4Done = false →
      ∃ t, exec .s4FlushDone s = .next t ∧ t.hop.slips = [] ∧ t.hop.carries = [] ∧ t.cat.slots = [] ∧ t.qdr.guardKeys = false ∧
        t.cel.s4Done = true ∧ t.cel.stopped = [0, 1, 2, 3, 4, 5, 7] ∧
        (∀ k o, Tab.get? t.ports.octets k = some o → o.state = .off ∧ o.portUp = 0 ∧ o.laneLock = 0) ∧
        (∀ k x, Tab.get? t.hop.hoppers k = some x → x.held = [])) ∧
    (c.s4Done = true → exec .s4Restart s = .next (chipReset { s with cel := { c with warn := false } })) ∧
    (c.s4Done = false → exec .s4Restart s = .next s) ∧
    -- main power and the cellar's supply
    (∀ b, c.mainPower = false → exec (.mainPowerLoss b) s = .next s) ∧
    (∀ b, c.mainPower = true → ∃ t, exec (.mainPowerLoss b) s = .next t ∧ t.reg.dev = .cellarOnly ∧ t.mirror.hbOut = false ∧
      t.cel.mainPower = false ∧ t.cel.onVbat = true ∧ t.cel.ranVbat = true ∧ t.cel.warn = false ∧ t.cel.devSec = c.devSec ∧
      t.cel.cellarKey = c.cellarKey ∧ (b = true → t.tmp.lcs = s.tmp.lcs)) ∧
    (c.mainPower = false → exec .mainPowerReturn s = .next (chipReset { s with cel := { c with mainPower := true } })) ∧
    (c.mainPower = true → exec .mainPowerReturn s = .next s) ∧
    exec .vddCellarLoss s = .next { s with cel := { c with onVbat := true, ranVbat := true } } ∧
    exec .vddCellarRestored s = .next { s with cel := { c with onVbat := false } } ∧
    (c.mainPower = false → exec .celVbatLow s = .next s) ∧
    (c.mainPower = true → ∃ mv : BitVec 12, mv.toNat < 2600 ∧
      exec .celVbatLow s = .next (reportSrc { s with cel := { c with vbatLow := c.vbatLow.hit, vbatMv := mv } } 0x043)) ∧
    (c.xtalOk = false → exec .celXtalFail s = .next s) ∧
    (c.xtalOk = true →
      let t := { s with cel := { c with xtalOk := false, xtalFail := c.xtalFail.hit } }
      (c.mainPower = true → exec .celXtalFail s = .next (reportSrc t 0x044)) ∧ (c.mainPower = false → exec .celXtalFail s = .next t)) ∧
    exec .crystalRestart s = .next { s with cel := { c with xtalOk := true } } ∧
    -- clocks
    (pllIdle s n = true → exec (.pllUnlock n) s = .next s) ∧
    (pllIdle s n = false →
      let t := reportSrc s 0x041 0xFF (BitVec.ofNat 32 n)
      (resets s 0x041 = true → exec (.pllUnlock n) s = .next t) ∧
      (resets s 0x041 = false → 5 ≤ n → exec (.pllUnlock n) s = .next (chipReset t)) ∧
      (resets s 0x041 = false → n < 5 → exec (.pllUnlock n) s = .next (pllLost t n))) ∧
    (4 ≤ c.stage → exec (.pllRelock n) s = .next s) ∧
    (c.stage < 4 → exec (.pllRelock n) s = .next (servePages { s with
      hop := { s.hop with slips := Tab.mapVals s.hop.slips fun _ sl => if sl.pllWait = some n then { sl with pllWait := none } else sl }
      cel := { c with unlocked := c.unlocked.filter (· != n) } })) ∧
    (let t := reportSrc s 0x042 0xFF (BitVec.ofNat 32 n)
     (resets s 0x042 = true ∨ 7 < n → exec (.refclkLoss n) s = .next t) ∧
     (resets s 0x042 = false → n ≤ 7 → exec (.refclkLoss n) s = .next (((List.range 64).map (64 * n + ·)).foldl portDown t)))

/-- The model's queue (log 1): a step takes the command at the front and is that command's effect on the state with the queue's
rest; on an empty queue one cycle passes. -/
def Obligations.AStepRunsTheFrontCommand : Prop :=
  ∀ (s : State) (c : Instr) (cs : List Instr),
    (s.pending = c :: cs → step s = exec c { s with pending := cs }) ∧ (s.pending = [] → step s = .next (tick s)) ∧
    (State.withFetchWord s 0 0 = s)

/-- What reset leaves: the reset values of the registers that the spec gives one, over every chapter; the control stores, the
slots, the tables and the queues empty. The other values of `State.reset` are the model's choices (log 6) and are not stated. -/
def Obligations.ResetLeavesTheSpecsValues : Prop :=
  let s := State.reset
  -- ports and transport
  ((s.octet 0).state = .off ∧ (s.octet 0).fecTh = 1000 ∧ (s.octet 0).linkFlap = {} ∧ s.ports.qps = [] ∧ s.ports.tokens = []) ∧
  -- hoppers, scheduler
  (s.hop.hoppers = [] ∧ s.hop.slips = [] ∧ (s.dl 0).missTot = 0 ∧ (s.dl 0).shedTot = 0) ∧
  -- digest registers, pages, kilns, tuns
  (s.dres.func = 0xFF ∧ s.dres.source = 0 ∧ s.dres.lenA = 0 ∧ s.dres.lenB = 0 ∧ s.dres.seq = 0) ∧
  ((s.page 0 0).busy = false ∧ (s.page 0 0).keyLoaded = false ∧ (s.page 0 0).ctrl = 0) ∧
  (s.tuns.active = none ∧ s.tuns.staged = none) ∧
  -- ledger, catalogue, entropy
  (s.ledger.lowTh = 256 ∧ s.ledger.writeTot = 0 ∧ s.ledger.leaseTot = 0 ∧ ∀ n, n < 16384 → ctrValue s n = 0 ∧
    (n < 1024 → ctrSt s n = .system) ∧ (1024 ≤ n → ctrSt s n = .free)) ∧
  (s.cat.slots = [] ∧ s.cat.weedPassTot = 0 ∧ s.cat.weedZeroTot = 0) ∧
  (s.ent.blockTot = 0 ∧ s.ent.srcFail = {} ∧ s.ent.poolEmpty = {}) ∧
  -- registrar, mirror, faults
  ((s.mbx 0).busy = false ∧ (s.mbx 0).session = none ∧ (s.mbx 0).evqHead = 0 ∧ (s.mbx 0).evqTail = 0 ∧ (s.mbx 0).evqCfg = 2) ∧
  ((s.carrel 1).st = .absent ∧ s.mirror.state = .unpaired) ∧
  (s.flt.errLatch = {} ∧ s.flt.log = []) ∧
  -- cellar, folio, QDR, the queue
  (s.cel.stage = 0 ∧ s.cel.shedTot1 = 0) ∧
  ((s.folSlot 0).state = .empty ∧ s.folio.queue = [] ∧ s.qdr.reencTot = 0 ∧ s.qdr.trained = false ∧ s.qdr.guardKeys = false) ∧
  s.pending = []

/-- R256: the digest result registers keep their form. -/
def Obligations.EveryStepKeepsTheDigestRegisters : Prop :=
  ∀ s : State, DresFormed s.dres → ∃ t, step s = .next t ∧ DresFormed t.dres

/-- R256: the digest result registers have their form at reset. -/
def Obligations.ResetHasTheDigestRegistersFormed : Prop := DresFormed State.reset.dres
end

