-- ==== Sys2Proof/Laws/Tab.lean ====
section
/-!
SUPPORT. Tables, byte memories and event bits: what their operations do, once.
-/

namespace Sys2Proof.Machine

namespace Tab

variable {α : Type}

@[simp] theorem get?_nil (k : Nat) : get? ([] : Tab α) k = none := rfl

@[simp] theorem get?_set_self (t : Tab α) (k : Nat) (v : α) : get? (set t k v) k = some v := by
  induction t with
  | nil => simp [set, get?]
  | cons p t ih =>
    obtain ⟨k', v'⟩ := p
    unfold set
    split
    · simp [get?]
    · split
      · simp [get?]
      · next h => simp [get?, h, ih]

theorem get?_set_of_ne (t : Tab α) {k j : Nat} (v : α) (h : j ≠ k) : get? (set t k v) j = get? t j := by
  induction t with
  | nil => simp [set, get?, h]
  | cons p t ih =>
    obtain ⟨k', v'⟩ := p
    unfold set
    split
    · simp [get?, h]
    · split
      · next hk => subst hk; simp [get?, h]
      · simp only [get?, ih]

theorem get?_set (t : Tab α) (k j : Nat) (v : α) : get? (set t k v) j = if j = k then some v else get? t j := by
  split
  · next h => subst h; exact get?_set_self t j v
  · next h => exact get?_set_of_ne t v h

@[simp] theorem getD_set_self (t : Tab α) (k : Nat) (v d : α) : getD (set t k v) k d = v := by simp [getD]

theorem getD_set_of_ne (t : Tab α) {k j : Nat} (v d : α) (h : j ≠ k) : getD (set t k v) j d = getD t j d := by
  simp [getD, get?_set_of_ne t v h]

theorem getD_set (t : Tab α) (k j : Nat) (v d : α) : getD (set t k v) j d = if j = k then v else getD t j d := by
  split
  · next h => subst h; simp
  · next h => exact getD_set_of_ne t v d h

@[simp] theorem get?_erase_self (t : Tab α) (k : Nat) : get? (erase t k) k = none := by
  induction t with
  | nil => rfl
  | cons p t ih =>
    obtain ⟨k', v'⟩ := p
    unfold erase
    split
    · exact ih
    · next h => simp [get?, h, ih]

theorem get?_erase_of_ne (t : Tab α) {k j : Nat} (h : j ≠ k) : get? (erase t k) j = get? t j := by
  induction t with
  | nil => rfl
  | cons p t ih =>
    obtain ⟨k', v'⟩ := p
    unfold erase
    split
    · next hk => subst hk; simp [get?, h, ih]
    · simp only [get?, ih]

theorem get?_mod_self (t : Tab α) (k : Nat) (f : α → α) : get? (mod t k f) k = (get? t k).map f := by
  unfold mod
  split <;> simp_all

theorem get?_mod_of_ne (t : Tab α) {k j : Nat} (f : α → α) (h : j ≠ k) : get? (mod t k f) j = get? t j := by
  unfold mod
  split
  · exact get?_set_of_ne t _ h
  · rfl

end Tab

namespace Mem

theorem wfFrom_mono {lo lo' : Nat} {m : Mem} (h : lo' ≤ lo) (hw : wfFrom lo m = true) : wfFrom lo' m = true := by
  cases m with
  | nil => rfl
  | cons p m =>
    obtain ⟨a, b⟩ := p
    simp only [wfFrom, Bool.and_eq_true, decide_eq_true_eq] at hw ⊢
    exact ⟨⟨by omega, hw.1.2⟩, hw.2⟩

theorem wfFrom_set {m : Mem} {lo a : Nat} {b : Byte} (hb : b ≠ 0) (ha : lo ≤ a) (hw : wfFrom lo m = true) :
    wfFrom lo (Tab.set m a b) = true := by
  induction m generalizing lo with
  | nil => simp only [Tab.set, wfFrom, Bool.and_eq_true, decide_eq_true_eq, and_true]; exact ⟨ha, by simpa using hb⟩
  | cons p m ih =>
    obtain ⟨a', b'⟩ := p
    simp only [wfFrom, Bool.and_eq_true, decide_eq_true_eq] at hw
    unfold Tab.set
    split
    · next h =>
      simp only [wfFrom, Bool.and_eq_true, decide_eq_true_eq]
      exact ⟨⟨ha, by simpa using hb⟩, ⟨by omega, hw.1.2⟩, hw.2⟩
    · split
      · next h => subst h; simp only [wfFrom, Bool.and_eq_true, decide_eq_true_eq]; exact ⟨⟨ha, by simpa using hb⟩, hw.2⟩
      · next h1 h2 =>
        simp only [wfFrom, Bool.and_eq_true, decide_eq_true_eq]
        exact ⟨hw.1, ih (by omega) hw.2⟩

theorem wfFrom_erase {m : Mem} {lo a : Nat} (hw : wfFrom lo m = true) : wfFrom lo (Tab.erase m a) = true := by
  induction m generalizing lo with
  | nil => rfl
  | cons p m ih =>
    obtain ⟨a', b'⟩ := p
    simp only [wfFrom, Bool.and_eq_true, decide_eq_true_eq] at hw
    unfold Tab.erase
    split
    · exact ih (wfFrom_mono (by omega) hw.2)
    · simp only [wfFrom, Bool.and_eq_true, decide_eq_true_eq]
      exact ⟨hw.1, ih hw.2⟩

/-- Writing a byte keeps the canonical form. -/
theorem wf_write {m : Mem} (hw : wf m = true) (a : Nat) (b : Byte) : wf (write m a b) = true := by
  unfold write wf
  split
  · exact wfFrom_erase hw
  · next hb => exact wfFrom_set hb (Nat.zero_le a) hw

/-- Writing bytes keeps the canonical form. -/
theorem wf_writeN {m : Mem} (hw : wf m = true) (a : Nat) (bs : Bytes) : wf (writeN m a bs) = true := by
  induction bs generalizing m a with
  | nil => exact hw
  | cons b bs ih => exact ih (wf_write hw a b) (a + 1)

theorem wf_nil : wf [] = true := rfl

/-- A read after a write to the same address gives the byte written. -/
@[simp] theorem read_write_self (m : Mem) (a : Nat) (b : Byte) : read (write m a b) a = b := by
  unfold read write
  split
  · next h => subst h; simp [Tab.getD]
  · simp

/-- A write leaves every other address alone. -/
theorem read_write_of_ne (m : Mem) {a c : Nat} (b : Byte) (h : c ≠ a) : read (write m a b) c = read m c := by
  unfold read write
  split
  · simp [Tab.getD, Tab.get?_erase_of_ne m h]
  · exact Tab.getD_set_of_ne m b 0 h

/-- Outside the bytes written, memory reads as before. -/
theorem read_writeN_outside (m : Mem) (a : Nat) (bs : Bytes) {c : Nat} (h : c < a ∨ a + bs.length ≤ c) :
    read (writeN m a bs) c = read m c := by
  induction bs generalizing m a with
  | nil => rfl
  | cons b bs ih =>
    simp only [List.length_cons] at h
    rw [writeN, ih (write m a b) (a + 1) (by omega), read_write_of_ne m b (by omega)]

end Mem

namespace EvtBit

/-- A set event raises the flag (R8, R10). -/
@[simp] theorem hit_flag (e : EvtBit) : (hit e).flag = true := rfl

/-- The event counter does not wrap (R10). -/
theorem hit_cnt_le (e : EvtBit) : e.cnt.toNat ≤ (hit e).cnt.toNat := by
  unfold hit
  split
  · next h => simp [h]
  · next h => bv_omega

end EvtBit

end Sys2Proof.Machine
end

