-- ==== Sys2Proof/Laws/State.lean ====
section
/-!
SUPPORT. State beside its named operations: each leaves every field but its own, and a read after a write gives what was
written.
-/

namespace Sys2Proof.Machine.State

@[simp] theorem send_now (s : State) (o : Out) : (s.send o).now = s.now := rfl
@[simp] theorem send_ports (s : State) (o : Out) : (s.send o).ports = s.ports := rfl
@[simp] theorem send_hop (s : State) (o : Out) : (s.send o).hop = s.hop := rfl
@[simp] theorem send_sched (s : State) (o : Out) : (s.send o).sched = s.sched := rfl
@[simp] theorem send_tuns (s : State) (o : Out) : (s.send o).tuns = s.tuns := rfl
@[simp] theorem send_kilns (s : State) (o : Out) : (s.send o).kilns = s.kilns := rfl
@[simp] theorem send_cat (s : State) (o : Out) : (s.send o).cat = s.cat := rfl
@[simp] theorem send_ledger (s : State) (o : Out) : (s.send o).ledger = s.ledger := rfl
@[simp] theorem send_ent (s : State) (o : Out) : (s.send o).ent = s.ent := rfl
@[simp] theorem send_dres (s : State) (o : Out) : (s.send o).dres = s.dres := rfl
@[simp] theorem send_pipes (s : State) (o : Out) : (s.send o).pipes = s.pipes := rfl
@[simp] theorem send_reg (s : State) (o : Out) : (s.send o).reg = s.reg := rfl
@[simp] theorem send_carrels (s : State) (o : Out) : (s.send o).carrels = s.carrels := rfl
@[simp] theorem send_mirror (s : State) (o : Out) : (s.send o).mirror = s.mirror := rfl
@[simp] theorem send_flt (s : State) (o : Out) : (s.send o).flt = s.flt := rfl
@[simp] theorem send_cel (s : State) (o : Out) : (s.send o).cel = s.cel := rfl
@[simp] theorem send_tmp (s : State) (o : Out) : (s.send o).tmp = s.tmp := rfl
@[simp] theorem send_folio (s : State) (o : Out) : (s.send o).folio = s.folio := rfl
@[simp] theorem send_qdr (s : State) (o : Out) : (s.send o).qdr = s.qdr := rfl
@[simp] theorem send_boot (s : State) (o : Out) : (s.send o).boot = s.boot := rfl
@[simp] theorem send_freeCtr (s : State) (o : Out) : (s.send o).freeCtr = s.freeCtr := rfl
@[simp] theorem send_pending (s : State) (o : Out) : (s.send o).pending = s.pending := rfl

@[simp] theorem sendAll_now (s : State) (os : List Out) : (s.sendAll os).now = s.now := rfl
@[simp] theorem sendAll_ports (s : State) (os : List Out) : (s.sendAll os).ports = s.ports := rfl
@[simp] theorem sendAll_hop (s : State) (os : List Out) : (s.sendAll os).hop = s.hop := rfl
@[simp] theorem sendAll_sched (s : State) (os : List Out) : (s.sendAll os).sched = s.sched := rfl
@[simp] theorem sendAll_tuns (s : State) (os : List Out) : (s.sendAll os).tuns = s.tuns := rfl
@[simp] theorem sendAll_kilns (s : State) (os : List Out) : (s.sendAll os).kilns = s.kilns := rfl
@[simp] theorem sendAll_cat (s : State) (os : List Out) : (s.sendAll os).cat = s.cat := rfl
@[simp] theorem sendAll_ledger (s : State) (os : List Out) : (s.sendAll os).ledger = s.ledger := rfl
@[simp] theorem sendAll_ent (s : State) (os : List Out) : (s.sendAll os).ent = s.ent := rfl
@[simp] theorem sendAll_dres (s : State) (os : List Out) : (s.sendAll os).dres = s.dres := rfl
@[simp] theorem sendAll_pipes (s : State) (os : List Out) : (s.sendAll os).pipes = s.pipes := rfl
@[simp] theorem sendAll_reg (s : State) (os : List Out) : (s.sendAll os).reg = s.reg := rfl
@[simp] theorem sendAll_carrels (s : State) (os : List Out) : (s.sendAll os).carrels = s.carrels := rfl
@[simp] theorem sendAll_mirror (s : State) (os : List Out) : (s.sendAll os).mirror = s.mirror := rfl
@[simp] theorem sendAll_flt (s : State) (os : List Out) : (s.sendAll os).flt = s.flt := rfl
@[simp] theorem sendAll_cel (s : State) (os : List Out) : (s.sendAll os).cel = s.cel := rfl
@[simp] theorem sendAll_tmp (s : State) (os : List Out) : (s.sendAll os).tmp = s.tmp := rfl
@[simp] theorem sendAll_folio (s : State) (os : List Out) : (s.sendAll os).folio = s.folio := rfl
@[simp] theorem sendAll_qdr (s : State) (os : List Out) : (s.sendAll os).qdr = s.qdr := rfl
@[simp] theorem sendAll_boot (s : State) (os : List Out) : (s.sendAll os).boot = s.boot := rfl
@[simp] theorem sendAll_freeCtr (s : State) (os : List Out) : (s.sendAll os).freeCtr = s.freeCtr := rfl
@[simp] theorem sendAll_pending (s : State) (os : List Out) : (s.sendAll os).pending = s.pending := rfl

@[simp] theorem drawn_now (s : State) (n : Nat) : (s.drawn n).now = s.now := rfl
@[simp] theorem drawn_ports (s : State) (n : Nat) : (s.drawn n).ports = s.ports := rfl
@[simp] theorem drawn_hop (s : State) (n : Nat) : (s.drawn n).hop = s.hop := rfl
@[simp] theorem drawn_sched (s : State) (n : Nat) : (s.drawn n).sched = s.sched := rfl
@[simp] theorem drawn_tuns (s : State) (n : Nat) : (s.drawn n).tuns = s.tuns := rfl
@[simp] theorem drawn_kilns (s : State) (n : Nat) : (s.drawn n).kilns = s.kilns := rfl
@[simp] theorem drawn_cat (s : State) (n : Nat) : (s.drawn n).cat = s.cat := rfl
@[simp] theorem drawn_ledger (s : State) (n : Nat) : (s.drawn n).ledger = s.ledger := rfl
@[simp] theorem drawn_ent (s : State) (n : Nat) : (s.drawn n).ent = s.ent := rfl
@[simp] theorem drawn_dres (s : State) (n : Nat) : (s.drawn n).dres = s.dres := rfl
@[simp] theorem drawn_pipes (s : State) (n : Nat) : (s.drawn n).pipes = s.pipes := rfl
@[simp] theorem drawn_reg (s : State) (n : Nat) : (s.drawn n).reg = s.reg := rfl
@[simp] theorem drawn_carrels (s : State) (n : Nat) : (s.drawn n).carrels = s.carrels := rfl
@[simp] theorem drawn_mirror (s : State) (n : Nat) : (s.drawn n).mirror = s.mirror := rfl
@[simp] theorem drawn_flt (s : State) (n : Nat) : (s.drawn n).flt = s.flt := rfl
@[simp] theorem drawn_cel (s : State) (n : Nat) : (s.drawn n).cel = s.cel := rfl
@[simp] theorem drawn_tmp (s : State) (n : Nat) : (s.drawn n).tmp = s.tmp := rfl
@[simp] theorem drawn_folio (s : State) (n : Nat) : (s.drawn n).folio = s.folio := rfl
@[simp] theorem drawn_qdr (s : State) (n : Nat) : (s.drawn n).qdr = s.qdr := rfl
@[simp] theorem drawn_boot (s : State) (n : Nat) : (s.drawn n).boot = s.boot := rfl
@[simp] theorem drawn_out (s : State) (n : Nat) : (s.drawn n).out = s.out := rfl
@[simp] theorem drawn_pending (s : State) (n : Nat) : (s.drawn n).pending = s.pending := rfl

@[simp] theorem setOctet_now (s : State) (n : Nat) (o : Octet) : (s.setOctet n o).now = s.now := rfl
@[simp] theorem setOctet_hop (s : State) (n : Nat) (o : Octet) : (s.setOctet n o).hop = s.hop := rfl
@[simp] theorem setOctet_sched (s : State) (n : Nat) (o : Octet) : (s.setOctet n o).sched = s.sched := rfl
@[simp] theorem setOctet_tuns (s : State) (n : Nat) (o : Octet) : (s.setOctet n o).tuns = s.tuns := rfl
@[simp] theorem setOctet_kilns (s : State) (n : Nat) (o : Octet) : (s.setOctet n o).kilns = s.kilns := rfl
@[simp] theorem setOctet_cat (s : State) (n : Nat) (o : Octet) : (s.setOctet n o).cat = s.cat := rfl
@[simp] theorem setOctet_ledger (s : State) (n : Nat) (o : Octet) : (s.setOctet n o).ledger = s.ledger := rfl
@[simp] theorem setOctet_ent (s : State) (n : Nat) (o : Octet) : (s.setOctet n o).ent = s.ent := rfl
@[simp] theorem setOctet_dres (s : State) (n : Nat) (o : Octet) : (s.setOctet n o).dres = s.dres := rfl
@[simp] theorem setOctet_pipes (s : State) (n : Nat) (o : Octet) : (s.setOctet n o).pipes = s.pipes := rfl
@[simp] theorem setOctet_reg (s : State) (n : Nat) (o : Octet) : (s.setOctet n o).reg = s.reg := rfl
@[simp] theorem setOctet_carrels (s : State) (n : Nat) (o : Octet) : (s.setOctet n o).carrels = s.carrels := rfl
@[simp] theorem setOctet_mirror (s : State) (n : Nat) (o : Octet) : (s.setOctet n o).mirror = s.mirror := rfl
@[simp] theorem setOctet_flt (s : State) (n : Nat) (o : Octet) : (s.setOctet n o).flt = s.flt := rfl
@[simp] theorem setOctet_cel (s : State) (n : Nat) (o : Octet) : (s.setOctet n o).cel = s.cel := rfl
@[simp] theorem setOctet_tmp (s : State) (n : Nat) (o : Octet) : (s.setOctet n o).tmp = s.tmp := rfl
@[simp] theorem setOctet_folio (s : State) (n : Nat) (o : Octet) : (s.setOctet n o).folio = s.folio := rfl
@[simp] theorem setOctet_qdr (s : State) (n : Nat) (o : Octet) : (s.setOctet n o).qdr = s.qdr := rfl
@[simp] theorem setOctet_boot (s : State) (n : Nat) (o : Octet) : (s.setOctet n o).boot = s.boot := rfl
@[simp] theorem setOctet_freeCtr (s : State) (n : Nat) (o : Octet) : (s.setOctet n o).freeCtr = s.freeCtr := rfl
@[simp] theorem setOctet_out (s : State) (n : Nat) (o : Octet) : (s.setOctet n o).out = s.out := rfl
@[simp] theorem setOctet_pending (s : State) (n : Nat) (o : Octet) : (s.setOctet n o).pending = s.pending := rfl

@[simp] theorem setQp_now (s : State) (q : Nat) (x : Qp) : (s.setQp q x).now = s.now := rfl
@[simp] theorem setQp_hop (s : State) (q : Nat) (x : Qp) : (s.setQp q x).hop = s.hop := rfl
@[simp] theorem setQp_sched (s : State) (q : Nat) (x : Qp) : (s.setQp q x).sched = s.sched := rfl
@[simp] theorem setQp_tuns (s : State) (q : Nat) (x : Qp) : (s.setQp q x).tuns = s.tuns := rfl
@[simp] theorem setQp_kilns (s : State) (q : Nat) (x : Qp) : (s.setQp q x).kilns = s.kilns := rfl
@[simp] theorem setQp_cat (s : State) (q : Nat) (x : Qp) : (s.setQp q x).cat = s.cat := rfl
@[simp] theorem setQp_ledger (s : State) (q : Nat) (x : Qp) : (s.setQp q x).ledger = s.ledger := rfl
@[simp] theorem setQp_ent (s : State) (q : Nat) (x : Qp) : (s.setQp q x).ent = s.ent := rfl
@[simp] theorem setQp_dres (s : State) (q : Nat) (x : Qp) : (s.setQp q x).dres = s.dres := rfl
@[simp] theorem setQp_pipes (s : State) (q : Nat) (x : Qp) : (s.setQp q x).pipes = s.pipes := rfl
@[simp] theorem setQp_reg (s : State) (q : Nat) (x : Qp) : (s.setQp q x).reg = s.reg := rfl
@[simp] theorem setQp_carrels (s : State) (q : Nat) (x : Qp) : (s.setQp q x).carrels = s.carrels := rfl
@[simp] theorem setQp_mirror (s : State) (q : Nat) (x : Qp) : (s.setQp q x).mirror = s.mirror := rfl
@[simp] theorem setQp_flt (s : State) (q : Nat) (x : Qp) : (s.setQp q x).flt = s.flt := rfl
@[simp] theorem setQp_cel (s : State) (q : Nat) (x : Qp) : (s.setQp q x).cel = s.cel := rfl
@[simp] theorem setQp_tmp (s : State) (q : Nat) (x : Qp) : (s.setQp q x).tmp = s.tmp := rfl
@[simp] theorem setQp_folio (s : State) (q : Nat) (x : Qp) : (s.setQp q x).folio = s.folio := rfl
@[simp] theorem setQp_qdr (s : State) (q : Nat) (x : Qp) : (s.setQp q x).qdr = s.qdr := rfl
@[simp] theorem setQp_boot (s : State) (q : Nat) (x : Qp) : (s.setQp q x).boot = s.boot := rfl
@[simp] theorem setQp_freeCtr (s : State) (q : Nat) (x : Qp) : (s.setQp q x).freeCtr = s.freeCtr := rfl
@[simp] theorem setQp_out (s : State) (q : Nat) (x : Qp) : (s.setQp q x).out = s.out := rfl
@[simp] theorem setQp_pending (s : State) (q : Nat) (x : Qp) : (s.setQp q x).pending = s.pending := rfl

@[simp] theorem delQp_now (s : State) (q : Nat) : (s.delQp q).now = s.now := rfl
@[simp] theorem delQp_hop (s : State) (q : Nat) : (s.delQp q).hop = s.hop := rfl
@[simp] theorem delQp_sched (s : State) (q : Nat) : (s.delQp q).sched = s.sched := rfl
@[simp] theorem delQp_tuns (s : State) (q : Nat) : (s.delQp q).tuns = s.tuns := rfl
@[simp] theorem delQp_kilns (s : State) (q : Nat) : (s.delQp q).kilns = s.kilns := rfl
@[simp] theorem delQp_cat (s : State) (q : Nat) : (s.delQp q).cat = s.cat := rfl
@[simp] theorem delQp_ledger (s : State) (q : Nat) : (s.delQp q).ledger = s.ledger := rfl
@[simp] theorem delQp_ent (s : State) (q : Nat) : (s.delQp q).ent = s.ent := rfl
@[simp] theorem delQp_dres (s : State) (q : Nat) : (s.delQp q).dres = s.dres := rfl
@[simp] theorem delQp_pipes (s : State) (q : Nat) : (s.delQp q).pipes = s.pipes := rfl
@[simp] theorem delQp_reg (s : State) (q : Nat) : (s.delQp q).reg = s.reg := rfl
@[simp] theorem delQp_carrels (s : State) (q : Nat) : (s.delQp q).carrels = s.carrels := rfl
@[simp] theorem delQp_mirror (s : State) (q : Nat) : (s.delQp q).mirror = s.mirror := rfl
@[simp] theorem delQp_flt (s : State) (q : Nat) : (s.delQp q).flt = s.flt := rfl
@[simp] theorem delQp_cel (s : State) (q : Nat) : (s.delQp q).cel = s.cel := rfl
@[simp] theorem delQp_tmp (s : State) (q : Nat) : (s.delQp q).tmp = s.tmp := rfl
@[simp] theorem delQp_folio (s : State) (q : Nat) : (s.delQp q).folio = s.folio := rfl
@[simp] theorem delQp_qdr (s : State) (q : Nat) : (s.delQp q).qdr = s.qdr := rfl
@[simp] theorem delQp_boot (s : State) (q : Nat) : (s.delQp q).boot = s.boot := rfl
@[simp] theorem delQp_freeCtr (s : State) (q : Nat) : (s.delQp q).freeCtr = s.freeCtr := rfl
@[simp] theorem delQp_out (s : State) (q : Nat) : (s.delQp q).out = s.out := rfl
@[simp] theorem delQp_pending (s : State) (q : Nat) : (s.delQp q).pending = s.pending := rfl

@[simp] theorem setHopper_now (s : State) (h : Nat) (x : Hopper) : (s.setHopper h x).now = s.now := rfl
@[simp] theorem setHopper_ports (s : State) (h : Nat) (x : Hopper) : (s.setHopper h x).ports = s.ports := rfl
@[simp] theorem setHopper_sched (s : State) (h : Nat) (x : Hopper) : (s.setHopper h x).sched = s.sched := rfl
@[simp] theorem setHopper_tuns (s : State) (h : Nat) (x : Hopper) : (s.setHopper h x).tuns = s.tuns := rfl
@[simp] theorem setHopper_kilns (s : State) (h : Nat) (x : Hopper) : (s.setHopper h x).kilns = s.kilns := rfl
@[simp] theorem setHopper_cat (s : State) (h : Nat) (x : Hopper) : (s.setHopper h x).cat = s.cat := rfl
@[simp] theorem setHopper_ledger (s : State) (h : Nat) (x : Hopper) : (s.setHopper h x).ledger = s.ledger := rfl
@[simp] theorem setHopper_ent (s : State) (h : Nat) (x : Hopper) : (s.setHopper h x).ent = s.ent := rfl
@[simp] theorem setHopper_dres (s : State) (h : Nat) (x : Hopper) : (s.setHopper h x).dres = s.dres := rfl
@[simp] theorem setHopper_pipes (s : State) (h : Nat) (x : Hopper) : (s.setHopper h x).pipes = s.pipes := rfl
@[simp] theorem setHopper_reg (s : State) (h : Nat) (x : Hopper) : (s.setHopper h x).reg = s.reg := rfl
@[simp] theorem setHopper_carrels (s : State) (h : Nat) (x : Hopper) : (s.setHopper h x).carrels = s.carrels := rfl
@[simp] theorem setHopper_mirror (s : State) (h : Nat) (x : Hopper) : (s.setHopper h x).mirror = s.mirror := rfl
@[simp] theorem setHopper_flt (s : State) (h : Nat) (x : Hopper) : (s.setHopper h x).flt = s.flt := rfl
@[simp] theorem setHopper_cel (s : State) (h : Nat) (x : Hopper) : (s.setHopper h x).cel = s.cel := rfl
@[simp] theorem setHopper_tmp (s : State) (h : Nat) (x : Hopper) : (s.setHopper h x).tmp = s.tmp := rfl
@[simp] theorem setHopper_folio (s : State) (h : Nat) (x : Hopper) : (s.setHopper h x).folio = s.folio := rfl
@[simp] theorem setHopper_qdr (s : State) (h : Nat) (x : Hopper) : (s.setHopper h x).qdr = s.qdr := rfl
@[simp] theorem setHopper_boot (s : State) (h : Nat) (x : Hopper) : (s.setHopper h x).boot = s.boot := rfl
@[simp] theorem setHopper_freeCtr (s : State) (h : Nat) (x : Hopper) : (s.setHopper h x).freeCtr = s.freeCtr := rfl
@[simp] theorem setHopper_out (s : State) (h : Nat) (x : Hopper) : (s.setHopper h x).out = s.out := rfl
@[simp] theorem setHopper_pending (s : State) (h : Nat) (x : Hopper) : (s.setHopper h x).pending = s.pending := rfl

@[simp] theorem modHopper_now (s : State) (h : Nat) (f : Hopper → Hopper) : (s.modHopper h f).now = s.now := rfl
@[simp] theorem modHopper_ports (s : State) (h : Nat) (f : Hopper → Hopper) : (s.modHopper h f).ports = s.ports := rfl
@[simp] theorem modHopper_sched (s : State) (h : Nat) (f : Hopper → Hopper) : (s.modHopper h f).sched = s.sched := rfl
@[simp] theorem modHopper_tuns (s : State) (h : Nat) (f : Hopper → Hopper) : (s.modHopper h f).tuns = s.tuns := rfl
@[simp] theorem modHopper_kilns (s : State) (h : Nat) (f : Hopper → Hopper) : (s.modHopper h f).kilns = s.kilns := rfl
@[simp] theorem modHopper_cat (s : State) (h : Nat) (f : Hopper → Hopper) : (s.modHopper h f).cat = s.cat := rfl
@[simp] theorem modHopper_ledger (s : State) (h : Nat) (f : Hopper → Hopper) : (s.modHopper h f).ledger = s.ledger := rfl
@[simp] theorem modHopper_ent (s : State) (h : Nat) (f : Hopper → Hopper) : (s.modHopper h f).ent = s.ent := rfl
@[simp] theorem modHopper_dres (s : State) (h : Nat) (f : Hopper → Hopper) : (s.modHopper h f).dres = s.dres := rfl
@[simp] theorem modHopper_pipes (s : State) (h : Nat) (f : Hopper → Hopper) : (s.modHopper h f).pipes = s.pipes := rfl
@[simp] theorem modHopper_reg (s : State) (h : Nat) (f : Hopper → Hopper) : (s.modHopper h f).reg = s.reg := rfl
@[simp] theorem modHopper_carrels (s : State) (h : Nat) (f : Hopper → Hopper) : (s.modHopper h f).carrels = s.carrels := rfl
@[simp] theorem modHopper_mirror (s : State) (h : Nat) (f : Hopper → Hopper) : (s.modHopper h f).mirror = s.mirror := rfl
@[simp] theorem modHopper_flt (s : State) (h : Nat) (f : Hopper → Hopper) : (s.modHopper h f).flt = s.flt := rfl
@[simp] theorem modHopper_cel (s : State) (h : Nat) (f : Hopper → Hopper) : (s.modHopper h f).cel = s.cel := rfl
@[simp] theorem modHopper_tmp (s : State) (h : Nat) (f : Hopper → Hopper) : (s.modHopper h f).tmp = s.tmp := rfl
@[simp] theorem modHopper_folio (s : State) (h : Nat) (f : Hopper → Hopper) : (s.modHopper h f).folio = s.folio := rfl
@[simp] theorem modHopper_qdr (s : State) (h : Nat) (f : Hopper → Hopper) : (s.modHopper h f).qdr = s.qdr := rfl
@[simp] theorem modHopper_boot (s : State) (h : Nat) (f : Hopper → Hopper) : (s.modHopper h f).boot = s.boot := rfl
@[simp] theorem modHopper_freeCtr (s : State) (h : Nat) (f : Hopper → Hopper) : (s.modHopper h f).freeCtr = s.freeCtr := rfl
@[simp] theorem modHopper_out (s : State) (h : Nat) (f : Hopper → Hopper) : (s.modHopper h f).out = s.out := rfl
@[simp] theorem modHopper_pending (s : State) (h : Nat) (f : Hopper → Hopper) : (s.modHopper h f).pending = s.pending := rfl

@[simp] theorem setSlip_now (s : State) (i : Nat) (x : Slip) : (s.setSlip i x).now = s.now := rfl
@[simp] theorem setSlip_ports (s : State) (i : Nat) (x : Slip) : (s.setSlip i x).ports = s.ports := rfl
@[simp] theorem setSlip_sched (s : State) (i : Nat) (x : Slip) : (s.setSlip i x).sched = s.sched := rfl
@[simp] theorem setSlip_tuns (s : State) (i : Nat) (x : Slip) : (s.setSlip i x).tuns = s.tuns := rfl
@[simp] theorem setSlip_kilns (s : State) (i : Nat) (x : Slip) : (s.setSlip i x).kilns = s.kilns := rfl
@[simp] theorem setSlip_cat (s : State) (i : Nat) (x : Slip) : (s.setSlip i x).cat = s.cat := rfl
@[simp] theorem setSlip_ledger (s : State) (i : Nat) (x : Slip) : (s.setSlip i x).ledger = s.ledger := rfl
@[simp] theorem setSlip_ent (s : State) (i : Nat) (x : Slip) : (s.setSlip i x).ent = s.ent := rfl
@[simp] theorem setSlip_dres (s : State) (i : Nat) (x : Slip) : (s.setSlip i x).dres = s.dres := rfl
@[simp] theorem setSlip_pipes (s : State) (i : Nat) (x : Slip) : (s.setSlip i x).pipes = s.pipes := rfl
@[simp] theorem setSlip_reg (s : State) (i : Nat) (x : Slip) : (s.setSlip i x).reg = s.reg := rfl
@[simp] theorem setSlip_carrels (s : State) (i : Nat) (x : Slip) : (s.setSlip i x).carrels = s.carrels := rfl
@[simp] theorem setSlip_mirror (s : State) (i : Nat) (x : Slip) : (s.setSlip i x).mirror = s.mirror := rfl
@[simp] theorem setSlip_flt (s : State) (i : Nat) (x : Slip) : (s.setSlip i x).flt = s.flt := rfl
@[simp] theorem setSlip_cel (s : State) (i : Nat) (x : Slip) : (s.setSlip i x).cel = s.cel := rfl
@[simp] theorem setSlip_tmp (s : State) (i : Nat) (x : Slip) : (s.setSlip i x).tmp = s.tmp := rfl
@[simp] theorem setSlip_folio (s : State) (i : Nat) (x : Slip) : (s.setSlip i x).folio = s.folio := rfl
@[simp] theorem setSlip_qdr (s : State) (i : Nat) (x : Slip) : (s.setSlip i x).qdr = s.qdr := rfl
@[simp] theorem setSlip_boot (s : State) (i : Nat) (x : Slip) : (s.setSlip i x).boot = s.boot := rfl
@[simp] theorem setSlip_freeCtr (s : State) (i : Nat) (x : Slip) : (s.setSlip i x).freeCtr = s.freeCtr := rfl
@[simp] theorem setSlip_out (s : State) (i : Nat) (x : Slip) : (s.setSlip i x).out = s.out := rfl
@[simp] theorem setSlip_pending (s : State) (i : Nat) (x : Slip) : (s.setSlip i x).pending = s.pending := rfl

@[simp] theorem modSlip_now (s : State) (i : Nat) (f : Slip → Slip) : (s.modSlip i f).now = s.now := rfl
@[simp] theorem modSlip_ports (s : State) (i : Nat) (f : Slip → Slip) : (s.modSlip i f).ports = s.ports := rfl
@[simp] theorem modSlip_sched (s : State) (i : Nat) (f : Slip → Slip) : (s.modSlip i f).sched = s.sched := rfl
@[simp] theorem modSlip_tuns (s : State) (i : Nat) (f : Slip → Slip) : (s.modSlip i f).tuns = s.tuns := rfl
@[simp] theorem modSlip_kilns (s : State) (i : Nat) (f : Slip → Slip) : (s.modSlip i f).kilns = s.kilns := rfl
@[simp] theorem modSlip_cat (s : State) (i : Nat) (f : Slip → Slip) : (s.modSlip i f).cat = s.cat := rfl
@[simp] theorem modSlip_ledger (s : State) (i : Nat) (f : Slip → Slip) : (s.modSlip i f).ledger = s.ledger := rfl
@[simp] theorem modSlip_ent (s : State) (i : Nat) (f : Slip → Slip) : (s.modSlip i f).ent = s.ent := rfl
@[simp] theorem modSlip_dres (s : State) (i : Nat) (f : Slip → Slip) : (s.modSlip i f).dres = s.dres := rfl
@[simp] theorem modSlip_pipes (s : State) (i : Nat) (f : Slip → Slip) : (s.modSlip i f).pipes = s.pipes := rfl
@[simp] theorem modSlip_reg (s : State) (i : Nat) (f : Slip → Slip) : (s.modSlip i f).reg = s.reg := rfl
@[simp] theorem modSlip_carrels (s : State) (i : Nat) (f : Slip → Slip) : (s.modSlip i f).carrels = s.carrels := rfl
@[simp] theorem modSlip_mirror (s : State) (i : Nat) (f : Slip → Slip) : (s.modSlip i f).mirror = s.mirror := rfl
@[simp] theorem modSlip_flt (s : State) (i : Nat) (f : Slip → Slip) : (s.modSlip i f).flt = s.flt := rfl
@[simp] theorem modSlip_cel (s : State) (i : Nat) (f : Slip → Slip) : (s.modSlip i f).cel = s.cel := rfl
@[simp] theorem modSlip_tmp (s : State) (i : Nat) (f : Slip → Slip) : (s.modSlip i f).tmp = s.tmp := rfl
@[simp] theorem modSlip_folio (s : State) (i : Nat) (f : Slip → Slip) : (s.modSlip i f).folio = s.folio := rfl
@[simp] theorem modSlip_qdr (s : State) (i : Nat) (f : Slip → Slip) : (s.modSlip i f).qdr = s.qdr := rfl
@[simp] theorem modSlip_boot (s : State) (i : Nat) (f : Slip → Slip) : (s.modSlip i f).boot = s.boot := rfl
@[simp] theorem modSlip_freeCtr (s : State) (i : Nat) (f : Slip → Slip) : (s.modSlip i f).freeCtr = s.freeCtr := rfl
@[simp] theorem modSlip_out (s : State) (i : Nat) (f : Slip → Slip) : (s.modSlip i f).out = s.out := rfl
@[simp] theorem modSlip_pending (s : State) (i : Nat) (f : Slip → Slip) : (s.modSlip i f).pending = s.pending := rfl

@[simp] theorem delSlip_now (s : State) (i : Nat) : (s.delSlip i).now = s.now := rfl
@[simp] theorem delSlip_ports (s : State) (i : Nat) : (s.delSlip i).ports = s.ports := rfl
@[simp] theorem delSlip_sched (s : State) (i : Nat) : (s.delSlip i).sched = s.sched := rfl
@[simp] theorem delSlip_tuns (s : State) (i : Nat) : (s.delSlip i).tuns = s.tuns := rfl
@[simp] theorem delSlip_kilns (s : State) (i : Nat) : (s.delSlip i).kilns = s.kilns := rfl
@[simp] theorem delSlip_cat (s : State) (i : Nat) : (s.delSlip i).cat = s.cat := rfl
@[simp] theorem delSlip_ledger (s : State) (i : Nat) : (s.delSlip i).ledger = s.ledger := rfl
@[simp] theorem delSlip_ent (s : State) (i : Nat) : (s.delSlip i).ent = s.ent := rfl
@[simp] theorem delSlip_dres (s : State) (i : Nat) : (s.delSlip i).dres = s.dres := rfl
@[simp] theorem delSlip_pipes (s : State) (i : Nat) : (s.delSlip i).pipes = s.pipes := rfl
@[simp] theorem delSlip_reg (s : State) (i : Nat) : (s.delSlip i).reg = s.reg := rfl
@[simp] theorem delSlip_carrels (s : State) (i : Nat) : (s.delSlip i).carrels = s.carrels := rfl
@[simp] theorem delSlip_mirror (s : State) (i : Nat) : (s.delSlip i).mirror = s.mirror := rfl
@[simp] theorem delSlip_flt (s : State) (i : Nat) : (s.delSlip i).flt = s.flt := rfl
@[simp] theorem delSlip_cel (s : State) (i : Nat) : (s.delSlip i).cel = s.cel := rfl
@[simp] theorem delSlip_tmp (s : State) (i : Nat) : (s.delSlip i).tmp = s.tmp := rfl
@[simp] theorem delSlip_folio (s : State) (i : Nat) : (s.delSlip i).folio = s.folio := rfl
@[simp] theorem delSlip_qdr (s : State) (i : Nat) : (s.delSlip i).qdr = s.qdr := rfl
@[simp] theorem delSlip_boot (s : State) (i : Nat) : (s.delSlip i).boot = s.boot := rfl
@[simp] theorem delSlip_freeCtr (s : State) (i : Nat) : (s.delSlip i).freeCtr = s.freeCtr := rfl
@[simp] theorem delSlip_out (s : State) (i : Nat) : (s.delSlip i).out = s.out := rfl
@[simp] theorem delSlip_pending (s : State) (i : Nat) : (s.delSlip i).pending = s.pending := rfl

@[simp] theorem setSlot_now (s : State) (n : Nat) (x : Slot) : (s.setSlot n x).now = s.now := rfl
@[simp] theorem setSlot_ports (s : State) (n : Nat) (x : Slot) : (s.setSlot n x).ports = s.ports := rfl
@[simp] theorem setSlot_hop (s : State) (n : Nat) (x : Slot) : (s.setSlot n x).hop = s.hop := rfl
@[simp] theorem setSlot_sched (s : State) (n : Nat) (x : Slot) : (s.setSlot n x).sched = s.sched := rfl
@[simp] theorem setSlot_tuns (s : State) (n : Nat) (x : Slot) : (s.setSlot n x).tuns = s.tuns := rfl
@[simp] theorem setSlot_kilns (s : State) (n : Nat) (x : Slot) : (s.setSlot n x).kilns = s.kilns := rfl
@[simp] theorem setSlot_ledger (s : State) (n : Nat) (x : Slot) : (s.setSlot n x).ledger = s.ledger := rfl
@[simp] theorem setSlot_ent (s : State) (n : Nat) (x : Slot) : (s.setSlot n x).ent = s.ent := rfl
@[simp] theorem setSlot_dres (s : State) (n : Nat) (x : Slot) : (s.setSlot n x).dres = s.dres := rfl
@[simp] theorem setSlot_pipes (s : State) (n : Nat) (x : Slot) : (s.setSlot n x).pipes = s.pipes := rfl
@[simp] theorem setSlot_reg (s : State) (n : Nat) (x : Slot) : (s.setSlot n x).reg = s.reg := rfl
@[simp] theorem setSlot_carrels (s : State) (n : Nat) (x : Slot) : (s.setSlot n x).carrels = s.carrels := rfl
@[simp] theorem setSlot_mirror (s : State) (n : Nat) (x : Slot) : (s.setSlot n x).mirror = s.mirror := rfl
@[simp] theorem setSlot_flt (s : State) (n : Nat) (x : Slot) : (s.setSlot n x).flt = s.flt := rfl
@[simp] theorem setSlot_cel (s : State) (n : Nat) (x : Slot) : (s.setSlot n x).cel = s.cel := rfl
@[simp] theorem setSlot_tmp (s : State) (n : Nat) (x : Slot) : (s.setSlot n x).tmp = s.tmp := rfl
@[simp] theorem setSlot_folio (s : State) (n : Nat) (x : Slot) : (s.setSlot n x).folio = s.folio := rfl
@[simp] theorem setSlot_qdr (s : State) (n : Nat) (x : Slot) : (s.setSlot n x).qdr = s.qdr := rfl
@[simp] theorem setSlot_boot (s : State) (n : Nat) (x : Slot) : (s.setSlot n x).boot = s.boot := rfl
@[simp] theorem setSlot_freeCtr (s : State) (n : Nat) (x : Slot) : (s.setSlot n x).freeCtr = s.freeCtr := rfl
@[simp] theorem setSlot_out (s : State) (n : Nat) (x : Slot) : (s.setSlot n x).out = s.out := rfl
@[simp] theorem setSlot_pending (s : State) (n : Nat) (x : Slot) : (s.setSlot n x).pending = s.pending := rfl

@[simp] theorem setCarrel_now (s : State) (c : Nat) (x : Carrel) : (s.setCarrel c x).now = s.now := rfl
@[simp] theorem setCarrel_ports (s : State) (c : Nat) (x : Carrel) : (s.setCarrel c x).ports = s.ports := rfl
@[simp] theorem setCarrel_hop (s : State) (c : Nat) (x : Carrel) : (s.setCarrel c x).hop = s.hop := rfl
@[simp] theorem setCarrel_sched (s : State) (c : Nat) (x : Carrel) : (s.setCarrel c x).sched = s.sched := rfl
@[simp] theorem setCarrel_tuns (s : State) (c : Nat) (x : Carrel) : (s.setCarrel c x).tuns = s.tuns := rfl
@[simp] theorem setCarrel_kilns (s : State) (c : Nat) (x : Carrel) : (s.setCarrel c x).kilns = s.kilns := rfl
@[simp] theorem setCarrel_cat (s : State) (c : Nat) (x : Carrel) : (s.setCarrel c x).cat = s.cat := rfl
@[simp] theorem setCarrel_ledger (s : State) (c : Nat) (x : Carrel) : (s.setCarrel c x).ledger = s.ledger := rfl
@[simp] theorem setCarrel_ent (s : State) (c : Nat) (x : Carrel) : (s.setCarrel c x).ent = s.ent := rfl
@[simp] theorem setCarrel_dres (s : State) (c : Nat) (x : Carrel) : (s.setCarrel c x).dres = s.dres := rfl
@[simp] theorem setCarrel_pipes (s : State) (c : Nat) (x : Carrel) : (s.setCarrel c x).pipes = s.pipes := rfl
@[simp] theorem setCarrel_reg (s : State) (c : Nat) (x : Carrel) : (s.setCarrel c x).reg = s.reg := rfl
@[simp] theorem setCarrel_mirror (s : State) (c : Nat) (x : Carrel) : (s.setCarrel c x).mirror = s.mirror := rfl
@[simp] theorem setCarrel_flt (s : State) (c : Nat) (x : Carrel) : (s.setCarrel c x).flt = s.flt := rfl
@[simp] theorem setCarrel_cel (s : State) (c : Nat) (x : Carrel) : (s.setCarrel c x).cel = s.cel := rfl
@[simp] theorem setCarrel_tmp (s : State) (c : Nat) (x : Carrel) : (s.setCarrel c x).tmp = s.tmp := rfl
@[simp] theorem setCarrel_folio (s : State) (c : Nat) (x : Carrel) : (s.setCarrel c x).folio = s.folio := rfl
@[simp] theorem setCarrel_qdr (s : State) (c : Nat) (x : Carrel) : (s.setCarrel c x).qdr = s.qdr := rfl
@[simp] theorem setCarrel_boot (s : State) (c : Nat) (x : Carrel) : (s.setCarrel c x).boot = s.boot := rfl
@[simp] theorem setCarrel_freeCtr (s : State) (c : Nat) (x : Carrel) : (s.setCarrel c x).freeCtr = s.freeCtr := rfl
@[simp] theorem setCarrel_out (s : State) (c : Nat) (x : Carrel) : (s.setCarrel c x).out = s.out := rfl
@[simp] theorem setCarrel_pending (s : State) (c : Nat) (x : Carrel) : (s.setCarrel c x).pending = s.pending := rfl

@[simp] theorem setMbx_now (s : State) (f : Nat) (m : Mbx) : (s.setMbx f m).now = s.now := rfl
@[simp] theorem setMbx_ports (s : State) (f : Nat) (m : Mbx) : (s.setMbx f m).ports = s.ports := rfl
@[simp] theorem setMbx_hop (s : State) (f : Nat) (m : Mbx) : (s.setMbx f m).hop = s.hop := rfl
@[simp] theorem setMbx_sched (s : State) (f : Nat) (m : Mbx) : (s.setMbx f m).sched = s.sched := rfl
@[simp] theorem setMbx_tuns (s : State) (f : Nat) (m : Mbx) : (s.setMbx f m).tuns = s.tuns := rfl
@[simp] theorem setMbx_kilns (s : State) (f : Nat) (m : Mbx) : (s.setMbx f m).kilns = s.kilns := rfl
@[simp] theorem setMbx_cat (s : State) (f : Nat) (m : Mbx) : (s.setMbx f m).cat = s.cat := rfl
@[simp] theorem setMbx_ledger (s : State) (f : Nat) (m : Mbx) : (s.setMbx f m).ledger = s.ledger := rfl
@[simp] theorem setMbx_ent (s : State) (f : Nat) (m : Mbx) : (s.setMbx f m).ent = s.ent := rfl
@[simp] theorem setMbx_dres (s : State) (f : Nat) (m : Mbx) : (s.setMbx f m).dres = s.dres := rfl
@[simp] theorem setMbx_pipes (s : State) (f : Nat) (m : Mbx) : (s.setMbx f m).pipes = s.pipes := rfl
@[simp] theorem setMbx_carrels (s : State) (f : Nat) (m : Mbx) : (s.setMbx f m).carrels = s.carrels := rfl
@[simp] theorem setMbx_mirror (s : State) (f : Nat) (m : Mbx) : (s.setMbx f m).mirror = s.mirror := rfl
@[simp] theorem setMbx_flt (s : State) (f : Nat) (m : Mbx) : (s.setMbx f m).flt = s.flt := rfl
@[simp] theorem setMbx_cel (s : State) (f : Nat) (m : Mbx) : (s.setMbx f m).cel = s.cel := rfl
@[simp] theorem setMbx_tmp (s : State) (f : Nat) (m : Mbx) : (s.setMbx f m).tmp = s.tmp := rfl
@[simp] theorem setMbx_folio (s : State) (f : Nat) (m : Mbx) : (s.setMbx f m).folio = s.folio := rfl
@[simp] theorem setMbx_qdr (s : State) (f : Nat) (m : Mbx) : (s.setMbx f m).qdr = s.qdr := rfl
@[simp] theorem setMbx_boot (s : State) (f : Nat) (m : Mbx) : (s.setMbx f m).boot = s.boot := rfl
@[simp] theorem setMbx_freeCtr (s : State) (f : Nat) (m : Mbx) : (s.setMbx f m).freeCtr = s.freeCtr := rfl
@[simp] theorem setMbx_out (s : State) (f : Nat) (m : Mbx) : (s.setMbx f m).out = s.out := rfl
@[simp] theorem setMbx_pending (s : State) (f : Nat) (m : Mbx) : (s.setMbx f m).pending = s.pending := rfl

@[simp] theorem setTun_now (s : State) (t : Nat) (x : Tun) : (s.setTun t x).now = s.now := rfl
@[simp] theorem setTun_ports (s : State) (t : Nat) (x : Tun) : (s.setTun t x).ports = s.ports := rfl
@[simp] theorem setTun_hop (s : State) (t : Nat) (x : Tun) : (s.setTun t x).hop = s.hop := rfl
@[simp] theorem setTun_sched (s : State) (t : Nat) (x : Tun) : (s.setTun t x).sched = s.sched := rfl
@[simp] theorem setTun_kilns (s : State) (t : Nat) (x : Tun) : (s.setTun t x).kilns = s.kilns := rfl
@[simp] theorem setTun_cat (s : State) (t : Nat) (x : Tun) : (s.setTun t x).cat = s.cat := rfl
@[simp] theorem setTun_ledger (s : State) (t : Nat) (x : Tun) : (s.setTun t x).ledger = s.ledger := rfl
@[simp] theorem setTun_ent (s : State) (t : Nat) (x : Tun) : (s.setTun t x).ent = s.ent := rfl
@[simp] theorem setTun_dres (s : State) (t : Nat) (x : Tun) : (s.setTun t x).dres = s.dres := rfl
@[simp] theorem setTun_pipes (s : State) (t : Nat) (x : Tun) : (s.setTun t x).pipes = s.pipes := rfl
@[simp] theorem setTun_reg (s : State) (t : Nat) (x : Tun) : (s.setTun t x).reg = s.reg := rfl
@[simp] theorem setTun_carrels (s : State) (t : Nat) (x : Tun) : (s.setTun t x).carrels = s.carrels := rfl
@[simp] theorem setTun_mirror (s : State) (t : Nat) (x : Tun) : (s.setTun t x).mirror = s.mirror := rfl
@[simp] theorem setTun_flt (s : State) (t : Nat) (x : Tun) : (s.setTun t x).flt = s.flt := rfl
@[simp] theorem setTun_cel (s : State) (t : Nat) (x : Tun) : (s.setTun t x).cel = s.cel := rfl
@[simp] theorem setTun_tmp (s : State) (t : Nat) (x : Tun) : (s.setTun t x).tmp = s.tmp := rfl
@[simp] theorem setTun_folio (s : State) (t : Nat) (x : Tun) : (s.setTun t x).folio = s.folio := rfl
@[simp] theorem setTun_qdr (s : State) (t : Nat) (x : Tun) : (s.setTun t x).qdr = s.qdr := rfl
@[simp] theorem setTun_boot (s : State) (t : Nat) (x : Tun) : (s.setTun t x).boot = s.boot := rfl
@[simp] theorem setTun_freeCtr (s : State) (t : Nat) (x : Tun) : (s.setTun t x).freeCtr = s.freeCtr := rfl
@[simp] theorem setTun_out (s : State) (t : Nat) (x : Tun) : (s.setTun t x).out = s.out := rfl
@[simp] theorem setTun_pending (s : State) (t : Nat) (x : Tun) : (s.setTun t x).pending = s.pending := rfl

@[simp] theorem setKiln_now (s : State) (k : Nat) (x : KilnState) : (s.setKiln k x).now = s.now := rfl
@[simp] theorem setKiln_ports (s : State) (k : Nat) (x : KilnState) : (s.setKiln k x).ports = s.ports := rfl
@[simp] theorem setKiln_hop (s : State) (k : Nat) (x : KilnState) : (s.setKiln k x).hop = s.hop := rfl
@[simp] theorem setKiln_sched (s : State) (k : Nat) (x : KilnState) : (s.setKiln k x).sched = s.sched := rfl
@[simp] theorem setKiln_tuns (s : State) (k : Nat) (x : KilnState) : (s.setKiln k x).tuns = s.tuns := rfl
@[simp] theorem setKiln_cat (s : State) (k : Nat) (x : KilnState) : (s.setKiln k x).cat = s.cat := rfl
@[simp] theorem setKiln_ledger (s : State) (k : Nat) (x : KilnState) : (s.setKiln k x).ledger = s.ledger := rfl
@[simp] theorem setKiln_ent (s : State) (k : Nat) (x : KilnState) : (s.setKiln k x).ent = s.ent := rfl
@[simp] theorem setKiln_dres (s : State) (k : Nat) (x : KilnState) : (s.setKiln k x).dres = s.dres := rfl
@[simp] theorem setKiln_pipes (s : State) (k : Nat) (x : KilnState) : (s.setKiln k x).pipes = s.pipes := rfl
@[simp] theorem setKiln_reg (s : State) (k : Nat) (x : KilnState) : (s.setKiln k x).reg = s.reg := rfl
@[simp] theorem setKiln_carrels (s : State) (k : Nat) (x : KilnState) : (s.setKiln k x).carrels = s.carrels := rfl
@[simp] theorem setKiln_mirror (s : State) (k : Nat) (x : KilnState) : (s.setKiln k x).mirror = s.mirror := rfl
@[simp] theorem setKiln_flt (s : State) (k : Nat) (x : KilnState) : (s.setKiln k x).flt = s.flt := rfl
@[simp] theorem setKiln_cel (s : State) (k : Nat) (x : KilnState) : (s.setKiln k x).cel = s.cel := rfl
@[simp] theorem setKiln_tmp (s : State) (k : Nat) (x : KilnState) : (s.setKiln k x).tmp = s.tmp := rfl
@[simp] theorem setKiln_folio (s : State) (k : Nat) (x : KilnState) : (s.setKiln k x).folio = s.folio := rfl
@[simp] theorem setKiln_qdr (s : State) (k : Nat) (x : KilnState) : (s.setKiln k x).qdr = s.qdr := rfl
@[simp] theorem setKiln_boot (s : State) (k : Nat) (x : KilnState) : (s.setKiln k x).boot = s.boot := rfl
@[simp] theorem setKiln_freeCtr (s : State) (k : Nat) (x : KilnState) : (s.setKiln k x).freeCtr = s.freeCtr := rfl
@[simp] theorem setKiln_out (s : State) (k : Nat) (x : KilnState) : (s.setKiln k x).out = s.out := rfl
@[simp] theorem setKiln_pending (s : State) (k : Nat) (x : KilnState) : (s.setKiln k x).pending = s.pending := rfl

@[simp] theorem setPage_now (s : State) (fn p : Nat) (x : Page) : (s.setPage fn p x).now = s.now := rfl
@[simp] theorem setPage_ports (s : State) (fn p : Nat) (x : Page) : (s.setPage fn p x).ports = s.ports := rfl
@[simp] theorem setPage_hop (s : State) (fn p : Nat) (x : Page) : (s.setPage fn p x).hop = s.hop := rfl
@[simp] theorem setPage_sched (s : State) (fn p : Nat) (x : Page) : (s.setPage fn p x).sched = s.sched := rfl
@[simp] theorem setPage_tuns (s : State) (fn p : Nat) (x : Page) : (s.setPage fn p x).tuns = s.tuns := rfl
@[simp] theorem setPage_kilns (s : State) (fn p : Nat) (x : Page) : (s.setPage fn p x).kilns = s.kilns := rfl
@[simp] theorem setPage_cat (s : State) (fn p : Nat) (x : Page) : (s.setPage fn p x).cat = s.cat := rfl
@[simp] theorem setPage_ledger (s : State) (fn p : Nat) (x : Page) : (s.setPage fn p x).ledger = s.ledger := rfl
@[simp] theorem setPage_ent (s : State) (fn p : Nat) (x : Page) : (s.setPage fn p x).ent = s.ent := rfl
@[simp] theorem setPage_dres (s : State) (fn p : Nat) (x : Page) : (s.setPage fn p x).dres = s.dres := rfl
@[simp] theorem setPage_reg (s : State) (fn p : Nat) (x : Page) : (s.setPage fn p x).reg = s.reg := rfl
@[simp] theorem setPage_carrels (s : State) (fn p : Nat) (x : Page) : (s.setPage fn p x).carrels = s.carrels := rfl
@[simp] theorem setPage_mirror (s : State) (fn p : Nat) (x : Page) : (s.setPage fn p x).mirror = s.mirror := rfl
@[simp] theorem setPage_flt (s : State) (fn p : Nat) (x : Page) : (s.setPage fn p x).flt = s.flt := rfl
@[simp] theorem setPage_cel (s : State) (fn p : Nat) (x : Page) : (s.setPage fn p x).cel = s.cel := rfl
@[simp] theorem setPage_tmp (s : State) (fn p : Nat) (x : Page) : (s.setPage fn p x).tmp = s.tmp := rfl
@[simp] theorem setPage_folio (s : State) (fn p : Nat) (x : Page) : (s.setPage fn p x).folio = s.folio := rfl
@[simp] theorem setPage_qdr (s : State) (fn p : Nat) (x : Page) : (s.setPage fn p x).qdr = s.qdr := rfl
@[simp] theorem setPage_boot (s : State) (fn p : Nat) (x : Page) : (s.setPage fn p x).boot = s.boot := rfl
@[simp] theorem setPage_freeCtr (s : State) (fn p : Nat) (x : Page) : (s.setPage fn p x).freeCtr = s.freeCtr := rfl
@[simp] theorem setPage_out (s : State) (fn p : Nat) (x : Page) : (s.setPage fn p x).out = s.out := rfl
@[simp] theorem setPage_pending (s : State) (fn p : Nat) (x : Page) : (s.setPage fn p x).pending = s.pending := rfl

@[simp] theorem setDl_now (s : State) (c : Nat) (x : DlRegs) : (s.setDl c x).now = s.now := rfl
@[simp] theorem setDl_ports (s : State) (c : Nat) (x : DlRegs) : (s.setDl c x).ports = s.ports := rfl
@[simp] theorem setDl_hop (s : State) (c : Nat) (x : DlRegs) : (s.setDl c x).hop = s.hop := rfl
@[simp] theorem setDl_tuns (s : State) (c : Nat) (x : DlRegs) : (s.setDl c x).tuns = s.tuns := rfl
@[simp] theorem setDl_kilns (s : State) (c : Nat) (x : DlRegs) : (s.setDl c x).kilns = s.kilns := rfl
@[simp] theorem setDl_cat (s : State) (c : Nat) (x : DlRegs) : (s.setDl c x).cat = s.cat := rfl
@[simp] theorem setDl_ledger (s : State) (c : Nat) (x : DlRegs) : (s.setDl c x).ledger = s.ledger := rfl
@[simp] theorem setDl_ent (s : State) (c : Nat) (x : DlRegs) : (s.setDl c x).ent = s.ent := rfl
@[simp] theorem setDl_dres (s : State) (c : Nat) (x : DlRegs) : (s.setDl c x).dres = s.dres := rfl
@[simp] theorem setDl_pipes (s : State) (c : Nat) (x : DlRegs) : (s.setDl c x).pipes = s.pipes := rfl
@[simp] theorem setDl_reg (s : State) (c : Nat) (x : DlRegs) : (s.setDl c x).reg = s.reg := rfl
@[simp] theorem setDl_carrels (s : State) (c : Nat) (x : DlRegs) : (s.setDl c x).carrels = s.carrels := rfl
@[simp] theorem setDl_mirror (s : State) (c : Nat) (x : DlRegs) : (s.setDl c x).mirror = s.mirror := rfl
@[simp] theorem setDl_flt (s : State) (c : Nat) (x : DlRegs) : (s.setDl c x).flt = s.flt := rfl
@[simp] theorem setDl_cel (s : State) (c : Nat) (x : DlRegs) : (s.setDl c x).cel = s.cel := rfl
@[simp] theorem setDl_tmp (s : State) (c : Nat) (x : DlRegs) : (s.setDl c x).tmp = s.tmp := rfl
@[simp] theorem setDl_folio (s : State) (c : Nat) (x : DlRegs) : (s.setDl c x).folio = s.folio := rfl
@[simp] theorem setDl_qdr (s : State) (c : Nat) (x : DlRegs) : (s.setDl c x).qdr = s.qdr := rfl
@[simp] theorem setDl_boot (s : State) (c : Nat) (x : DlRegs) : (s.setDl c x).boot = s.boot := rfl
@[simp] theorem setDl_freeCtr (s : State) (c : Nat) (x : DlRegs) : (s.setDl c x).freeCtr = s.freeCtr := rfl
@[simp] theorem setDl_out (s : State) (c : Nat) (x : DlRegs) : (s.setDl c x).out = s.out := rfl
@[simp] theorem setDl_pending (s : State) (c : Nat) (x : DlRegs) : (s.setDl c x).pending = s.pending := rfl

@[simp] theorem setSrc_now (s : State) (i : Nat) (x : EntSource) : (s.setSrc i x).now = s.now := rfl
@[simp] theorem setSrc_ports (s : State) (i : Nat) (x : EntSource) : (s.setSrc i x).ports = s.ports := rfl
@[simp] theorem setSrc_hop (s : State) (i : Nat) (x : EntSource) : (s.setSrc i x).hop = s.hop := rfl
@[simp] theorem setSrc_sched (s : State) (i : Nat) (x : EntSource) : (s.setSrc i x).sched = s.sched := rfl
@[simp] theorem setSrc_tuns (s : State) (i : Nat) (x : EntSource) : (s.setSrc i x).tuns = s.tuns := rfl
@[simp] theorem setSrc_kilns (s : State) (i : Nat) (x : EntSource) : (s.setSrc i x).kilns = s.kilns := rfl
@[simp] theorem setSrc_cat (s : State) (i : Nat) (x : EntSource) : (s.setSrc i x).cat = s.cat := rfl
@[simp] theorem setSrc_ledger (s : State) (i : Nat) (x : EntSource) : (s.setSrc i x).ledger = s.ledger := rfl
@[simp] theorem setSrc_dres (s : State) (i : Nat) (x : EntSource) : (s.setSrc i x).dres = s.dres := rfl
@[simp] theorem setSrc_pipes (s : State) (i : Nat) (x : EntSource) : (s.setSrc i x).pipes = s.pipes := rfl
@[simp] theorem setSrc_reg (s : State) (i : Nat) (x : EntSource) : (s.setSrc i x).reg = s.reg := rfl
@[simp] theorem setSrc_carrels (s : State) (i : Nat) (x : EntSource) : (s.setSrc i x).carrels = s.carrels := rfl
@[simp] theorem setSrc_mirror (s : State) (i : Nat) (x : EntSource) : (s.setSrc i x).mirror = s.mirror := rfl
@[simp] theorem setSrc_flt (s : State) (i : Nat) (x : EntSource) : (s.setSrc i x).flt = s.flt := rfl
@[simp] theorem setSrc_cel (s : State) (i : Nat) (x : EntSource) : (s.setSrc i x).cel = s.cel := rfl
@[simp] theorem setSrc_tmp (s : State) (i : Nat) (x : EntSource) : (s.setSrc i x).tmp = s.tmp := rfl
@[simp] theorem setSrc_folio (s : State) (i : Nat) (x : EntSource) : (s.setSrc i x).folio = s.folio := rfl
@[simp] theorem setSrc_qdr (s : State) (i : Nat) (x : EntSource) : (s.setSrc i x).qdr = s.qdr := rfl
@[simp] theorem setSrc_boot (s : State) (i : Nat) (x : EntSource) : (s.setSrc i x).boot = s.boot := rfl
@[simp] theorem setSrc_freeCtr (s : State) (i : Nat) (x : EntSource) : (s.setSrc i x).freeCtr = s.freeCtr := rfl
@[simp] theorem setSrc_out (s : State) (i : Nat) (x : EntSource) : (s.setSrc i x).out = s.out := rfl
@[simp] theorem setSrc_pending (s : State) (i : Nat) (x : EntSource) : (s.setSrc i x).pending = s.pending := rfl

@[simp] theorem setFolSlot_now (s : State) (n : Nat) (x : FolSlot) : (s.setFolSlot n x).now = s.now := rfl
@[simp] theorem setFolSlot_ports (s : State) (n : Nat) (x : FolSlot) : (s.setFolSlot n x).ports = s.ports := rfl
@[simp] theorem setFolSlot_hop (s : State) (n : Nat) (x : FolSlot) : (s.setFolSlot n x).hop = s.hop := rfl
@[simp] theorem setFolSlot_sched (s : State) (n : Nat) (x : FolSlot) : (s.setFolSlot n x).sched = s.sched := rfl
@[simp] theorem setFolSlot_tuns (s : State) (n : Nat) (x : FolSlot) : (s.setFolSlot n x).tuns = s.tuns := rfl
@[simp] theorem setFolSlot_kilns (s : State) (n : Nat) (x : FolSlot) : (s.setFolSlot n x).kilns = s.kilns := rfl
@[simp] theorem setFolSlot_cat (s : State) (n : Nat) (x : FolSlot) : (s.setFolSlot n x).cat = s.cat := rfl
@[simp] theorem setFolSlot_ledger (s : State) (n : Nat) (x : FolSlot) : (s.setFolSlot n x).ledger = s.ledger := rfl
@[simp] theorem setFolSlot_ent (s : State) (n : Nat) (x : FolSlot) : (s.setFolSlot n x).ent = s.ent := rfl
@[simp] theorem setFolSlot_dres (s : State) (n : Nat) (x : FolSlot) : (s.setFolSlot n x).dres = s.dres := rfl
@[simp] theorem setFolSlot_pipes (s : State) (n : Nat) (x : FolSlot) : (s.setFolSlot n x).pipes = s.pipes := rfl
@[simp] theorem setFolSlot_reg (s : State) (n : Nat) (x : FolSlot) : (s.setFolSlot n x).reg = s.reg := rfl
@[simp] theorem setFolSlot_carrels (s : State) (n : Nat) (x : FolSlot) : (s.setFolSlot n x).carrels = s.carrels := rfl
@[simp] theorem setFolSlot_mirror (s : State) (n : Nat) (x : FolSlot) : (s.setFolSlot n x).mirror = s.mirror := rfl
@[simp] theorem setFolSlot_flt (s : State) (n : Nat) (x : FolSlot) : (s.setFolSlot n x).flt = s.flt := rfl
@[simp] theorem setFolSlot_cel (s : State) (n : Nat) (x : FolSlot) : (s.setFolSlot n x).cel = s.cel := rfl
@[simp] theorem setFolSlot_tmp (s : State) (n : Nat) (x : FolSlot) : (s.setFolSlot n x).tmp = s.tmp := rfl
@[simp] theorem setFolSlot_qdr (s : State) (n : Nat) (x : FolSlot) : (s.setFolSlot n x).qdr = s.qdr := rfl
@[simp] theorem setFolSlot_boot (s : State) (n : Nat) (x : FolSlot) : (s.setFolSlot n x).boot = s.boot := rfl
@[simp] theorem setFolSlot_freeCtr (s : State) (n : Nat) (x : FolSlot) : (s.setFolSlot n x).freeCtr = s.freeCtr := rfl
@[simp] theorem setFolSlot_out (s : State) (n : Nat) (x : FolSlot) : (s.setFolSlot n x).out = s.out := rfl
@[simp] theorem setFolSlot_pending (s : State) (n : Nat) (x : FolSlot) : (s.setFolSlot n x).pending = s.pending := rfl

@[simp] theorem setUnits_now (s : State) (e : EngineType) (u : UnitArr) : (s.setUnits e u).now = s.now := by cases e <;> rfl
@[simp] theorem setUnits_ports (s : State) (e : EngineType) (u : UnitArr) : (s.setUnits e u).ports = s.ports := by cases e <;> rfl
@[simp] theorem setUnits_hop (s : State) (e : EngineType) (u : UnitArr) : (s.setUnits e u).hop = s.hop := by cases e <;> rfl
@[simp] theorem setUnits_tuns (s : State) (e : EngineType) (u : UnitArr) : (s.setUnits e u).tuns = s.tuns := by cases e <;> rfl
@[simp] theorem setUnits_kilns (s : State) (e : EngineType) (u : UnitArr) : (s.setUnits e u).kilns = s.kilns := by cases e <;> rfl
@[simp] theorem setUnits_cat (s : State) (e : EngineType) (u : UnitArr) : (s.setUnits e u).cat = s.cat := by cases e <;> rfl
@[simp] theorem setUnits_ledger (s : State) (e : EngineType) (u : UnitArr) : (s.setUnits e u).ledger = s.ledger := by cases e <;> rfl
@[simp] theorem setUnits_ent (s : State) (e : EngineType) (u : UnitArr) : (s.setUnits e u).ent = s.ent := by cases e <;> rfl
@[simp] theorem setUnits_dres (s : State) (e : EngineType) (u : UnitArr) : (s.setUnits e u).dres = s.dres := by cases e <;> rfl
@[simp] theorem setUnits_pipes (s : State) (e : EngineType) (u : UnitArr) : (s.setUnits e u).pipes = s.pipes := by cases e <;> rfl
@[simp] theorem setUnits_reg (s : State) (e : EngineType) (u : UnitArr) : (s.setUnits e u).reg = s.reg := by cases e <;> rfl
@[simp] theorem setUnits_carrels (s : State) (e : EngineType) (u : UnitArr) : (s.setUnits e u).carrels = s.carrels := by cases e <;> rfl
@[simp] theorem setUnits_mirror (s : State) (e : EngineType) (u : UnitArr) : (s.setUnits e u).mirror = s.mirror := by cases e <;> rfl
@[simp] theorem setUnits_flt (s : State) (e : EngineType) (u : UnitArr) : (s.setUnits e u).flt = s.flt := by cases e <;> rfl
@[simp] theorem setUnits_cel (s : State) (e : EngineType) (u : UnitArr) : (s.setUnits e u).cel = s.cel := by cases e <;> rfl
@[simp] theorem setUnits_tmp (s : State) (e : EngineType) (u : UnitArr) : (s.setUnits e u).tmp = s.tmp := by cases e <;> rfl
@[simp] theorem setUnits_folio (s : State) (e : EngineType) (u : UnitArr) : (s.setUnits e u).folio = s.folio := by cases e <;> rfl
@[simp] theorem setUnits_qdr (s : State) (e : EngineType) (u : UnitArr) : (s.setUnits e u).qdr = s.qdr := by cases e <;> rfl
@[simp] theorem setUnits_boot (s : State) (e : EngineType) (u : UnitArr) : (s.setUnits e u).boot = s.boot := by cases e <;> rfl
@[simp] theorem setUnits_freeCtr (s : State) (e : EngineType) (u : UnitArr) : (s.setUnits e u).freeCtr = s.freeCtr := by cases e <;> rfl
@[simp] theorem setUnits_out (s : State) (e : EngineType) (u : UnitArr) : (s.setUnits e u).out = s.out := by cases e <;> rfl
@[simp] theorem setUnits_pending (s : State) (e : EngineType) (u : UnitArr) : (s.setUnits e u).pending = s.pending := by cases e <;> rfl

@[simp] theorem setOctet_octet_self (s : State) (k : Nat) (x : Octet) : (s.setOctet k x).octet k = x := Tab.getD_set_self _ k x _
theorem setOctet_octet_of_ne (s : State) {k j : Nat} (x : Octet) (h : j ≠ k) : (s.setOctet k x).octet j = s.octet j := Tab.getD_set_of_ne _ x _ h
@[simp] theorem setQp_qp_self (s : State) (k : Nat) (x : Qp) : (s.setQp k x).qp? k = some x := Tab.get?_set_self _ k x
theorem setQp_qp_of_ne (s : State) {k j : Nat} (x : Qp) (h : j ≠ k) : (s.setQp k x).qp? j = s.qp? j := Tab.get?_set_of_ne _ x h
@[simp] theorem setHopper_hopper_self (s : State) (k : Nat) (x : Hopper) : (s.setHopper k x).hopper? k = some x := Tab.get?_set_self _ k x
theorem setHopper_hopper_of_ne (s : State) {k j : Nat} (x : Hopper) (h : j ≠ k) : (s.setHopper k x).hopper? j = s.hopper? j := Tab.get?_set_of_ne _ x h
@[simp] theorem setSlip_slip_self (s : State) (k : Nat) (x : Slip) : (s.setSlip k x).slip? k = some x := Tab.get?_set_self _ k x
theorem setSlip_slip_of_ne (s : State) {k j : Nat} (x : Slip) (h : j ≠ k) : (s.setSlip k x).slip? j = s.slip? j := Tab.get?_set_of_ne _ x h
@[simp] theorem setSlot_slot_self (s : State) (k : Nat) (x : Slot) : (s.setSlot k x).slot k = x := Tab.getD_set_self _ k x _
theorem setSlot_slot_of_ne (s : State) {k j : Nat} (x : Slot) (h : j ≠ k) : (s.setSlot k x).slot j = s.slot j := Tab.getD_set_of_ne _ x _ h
@[simp] theorem setCarrel_carrel_self (s : State) (k : Nat) (x : Carrel) : (s.setCarrel k x).carrel k = x := Tab.getD_set_self _ k x _
theorem setCarrel_carrel_of_ne (s : State) {k j : Nat} (x : Carrel) (h : j ≠ k) : (s.setCarrel k x).carrel j = s.carrel j := Tab.getD_set_of_ne _ x _ h
@[simp] theorem setMbx_mbx_self (s : State) (k : Nat) (x : Mbx) : (s.setMbx k x).mbx k = x := Tab.getD_set_self _ k x _
theorem setMbx_mbx_of_ne (s : State) {k j : Nat} (x : Mbx) (h : j ≠ k) : (s.setMbx k x).mbx j = s.mbx j := Tab.getD_set_of_ne _ x _ h
@[simp] theorem setTun_tun_self (s : State) (k : Nat) (x : Tun) : (s.setTun k x).tun k = x := Tab.getD_set_self _ k x _
theorem setTun_tun_of_ne (s : State) {k j : Nat} (x : Tun) (h : j ≠ k) : (s.setTun k x).tun j = s.tun j := Tab.getD_set_of_ne _ x _ h
@[simp] theorem setKiln_kiln_self (s : State) (k : Nat) (x : KilnState) : (s.setKiln k x).kiln k = x := Tab.getD_set_self _ k x _
theorem setKiln_kiln_of_ne (s : State) {k j : Nat} (x : KilnState) (h : j ≠ k) : (s.setKiln k x).kiln j = s.kiln j := Tab.getD_set_of_ne _ x _ h
@[simp] theorem setDl_dl_self (s : State) (k : Nat) (x : DlRegs) : (s.setDl k x).dl k = x := Tab.getD_set_self _ k x _
theorem setDl_dl_of_ne (s : State) {k j : Nat} (x : DlRegs) (h : j ≠ k) : (s.setDl k x).dl j = s.dl j := Tab.getD_set_of_ne _ x _ h
@[simp] theorem setSrc_src_self (s : State) (k : Nat) (x : EntSource) : (s.setSrc k x).src k = x := Tab.getD_set_self _ k x _
theorem setSrc_src_of_ne (s : State) {k j : Nat} (x : EntSource) (h : j ≠ k) : (s.setSrc k x).src j = s.src j := Tab.getD_set_of_ne _ x _ h
@[simp] theorem setFolSlot_folSlot_self (s : State) (k : Nat) (x : FolSlot) : (s.setFolSlot k x).folSlot k = x := Tab.getD_set_self _ k x _
theorem setFolSlot_folSlot_of_ne (s : State) {k j : Nat} (x : FolSlot) (h : j ≠ k) : (s.setFolSlot k x).folSlot j = s.folSlot j := Tab.getD_set_of_ne _ x _ h
@[simp] theorem send_octet (s : State) (o : Out) (j : Nat) : (s.send o).octet j = s.octet j := rfl
@[simp] theorem sendAll_octet (s : State) (os : List Out) (j : Nat) : (s.sendAll os).octet j = s.octet j := rfl
@[simp] theorem drawn_octet (s : State) (n : Nat) (j : Nat) : (s.drawn n).octet j = s.octet j := rfl
@[simp] theorem setQp_octet (s : State) (q : Nat) (x : Qp) (j : Nat) : (s.setQp q x).octet j = s.octet j := rfl
@[simp] theorem delQp_octet (s : State) (q : Nat) (j : Nat) : (s.delQp q).octet j = s.octet j := rfl
@[simp] theorem setHopper_octet (s : State) (h : Nat) (x : Hopper) (j : Nat) : (s.setHopper h x).octet j = s.octet j := rfl
@[simp] theorem modHopper_octet (s : State) (h : Nat) (f : Hopper → Hopper) (j : Nat) : (s.modHopper h f).octet j = s.octet j := rfl
@[simp] theorem setSlip_octet (s : State) (i : Nat) (x : Slip) (j : Nat) : (s.setSlip i x).octet j = s.octet j := rfl
@[simp] theorem modSlip_octet (s : State) (i : Nat) (f : Slip → Slip) (j : Nat) : (s.modSlip i f).octet j = s.octet j := rfl
@[simp] theorem delSlip_octet (s : State) (i : Nat) (j : Nat) : (s.delSlip i).octet j = s.octet j := rfl
@[simp] theorem setSlot_octet (s : State) (n : Nat) (x : Slot) (j : Nat) : (s.setSlot n x).octet j = s.octet j := rfl
@[simp] theorem setCarrel_octet (s : State) (c : Nat) (x : Carrel) (j : Nat) : (s.setCarrel c x).octet j = s.octet j := rfl
@[simp] theorem setMbx_octet (s : State) (f : Nat) (m : Mbx) (j : Nat) : (s.setMbx f m).octet j = s.octet j := rfl
@[simp] theorem setTun_octet (s : State) (t : Nat) (x : Tun) (j : Nat) : (s.setTun t x).octet j = s.octet j := rfl
@[simp] theorem setKiln_octet (s : State) (k : Nat) (x : KilnState) (j : Nat) : (s.setKiln k x).octet j = s.octet j := rfl
@[simp] theorem setPage_octet (s : State) (fn p : Nat) (x : Page) (j : Nat) : (s.setPage fn p x).octet j = s.octet j := rfl
@[simp] theorem setDl_octet (s : State) (c : Nat) (x : DlRegs) (j : Nat) : (s.setDl c x).octet j = s.octet j := rfl
@[simp] theorem setSrc_octet (s : State) (i : Nat) (x : EntSource) (j : Nat) : (s.setSrc i x).octet j = s.octet j := rfl
@[simp] theorem setFolSlot_octet (s : State) (n : Nat) (x : FolSlot) (j : Nat) : (s.setFolSlot n x).octet j = s.octet j := rfl
@[simp] theorem setUnits_octet (s : State) (e : EngineType) (u : UnitArr) (j : Nat) : (s.setUnits e u).octet j = s.octet j := by cases e <;> rfl
@[simp] theorem send_qp (s : State) (o : Out) (j : Nat) : (s.send o).qp? j = s.qp? j := rfl
@[simp] theorem sendAll_qp (s : State) (os : List Out) (j : Nat) : (s.sendAll os).qp? j = s.qp? j := rfl
@[simp] theorem drawn_qp (s : State) (n : Nat) (j : Nat) : (s.drawn n).qp? j = s.qp? j := rfl
@[simp] theorem setOctet_qp (s : State) (n : Nat) (o : Octet) (j : Nat) : (s.setOctet n o).qp? j = s.qp? j := rfl
@[simp] theorem setHopper_qp (s : State) (h : Nat) (x : Hopper) (j : Nat) : (s.setHopper h x).qp? j = s.qp? j := rfl
@[simp] theorem modHopper_qp (s : State) (h : Nat) (f : Hopper → Hopper) (j : Nat) : (s.modHopper h f).qp? j = s.qp? j := rfl
@[simp] theorem setSlip_qp (s : State) (i : Nat) (x : Slip) (j : Nat) : (s.setSlip i x).qp? j = s.qp? j := rfl
@[simp] theorem modSlip_qp (s : State) (i : Nat) (f : Slip → Slip) (j : Nat) : (s.modSlip i f).qp? j = s.qp? j := rfl
@[simp] theorem delSlip_qp (s : State) (i : Nat) (j : Nat) : (s.delSlip i).qp? j = s.qp? j := rfl
@[simp] theorem setSlot_qp (s : State) (n : Nat) (x : Slot) (j : Nat) : (s.setSlot n x).qp? j = s.qp? j := rfl
@[simp] theorem setCarrel_qp (s : State) (c : Nat) (x : Carrel) (j : Nat) : (s.setCarrel c x).qp? j = s.qp? j := rfl
@[simp] theorem setMbx_qp (s : State) (f : Nat) (m : Mbx) (j : Nat) : (s.setMbx f m).qp? j = s.qp? j := rfl
@[simp] theorem setTun_qp (s : State) (t : Nat) (x : Tun) (j : Nat) : (s.setTun t x).qp? j = s.qp? j := rfl
@[simp] theorem setKiln_qp (s : State) (k : Nat) (x : KilnState) (j : Nat) : (s.setKiln k x).qp? j = s.qp? j := rfl
@[simp] theorem setPage_qp (s : State) (fn p : Nat) (x : Page) (j : Nat) : (s.setPage fn p x).qp? j = s.qp? j := rfl
@[simp] theorem setDl_qp (s : State) (c : Nat) (x : DlRegs) (j : Nat) : (s.setDl c x).qp? j = s.qp? j := rfl
@[simp] theorem setSrc_qp (s : State) (i : Nat) (x : EntSource) (j : Nat) : (s.setSrc i x).qp? j = s.qp? j := rfl
@[simp] theorem setFolSlot_qp (s : State) (n : Nat) (x : FolSlot) (j : Nat) : (s.setFolSlot n x).qp? j = s.qp? j := rfl
@[simp] theorem setUnits_qp (s : State) (e : EngineType) (u : UnitArr) (j : Nat) : (s.setUnits e u).qp? j = s.qp? j := by cases e <;> rfl
@[simp] theorem send_hopper (s : State) (o : Out) (j : Nat) : (s.send o).hopper? j = s.hopper? j := rfl
@[simp] theorem sendAll_hopper (s : State) (os : List Out) (j : Nat) : (s.sendAll os).hopper? j = s.hopper? j := rfl
@[simp] theorem drawn_hopper (s : State) (n : Nat) (j : Nat) : (s.drawn n).hopper? j = s.hopper? j := rfl
@[simp] theorem setOctet_hopper (s : State) (n : Nat) (o : Octet) (j : Nat) : (s.setOctet n o).hopper? j = s.hopper? j := rfl
@[simp] theorem setQp_hopper (s : State) (q : Nat) (x : Qp) (j : Nat) : (s.setQp q x).hopper? j = s.hopper? j := rfl
@[simp] theorem delQp_hopper (s : State) (q : Nat) (j : Nat) : (s.delQp q).hopper? j = s.hopper? j := rfl
@[simp] theorem setSlip_hopper (s : State) (i : Nat) (x : Slip) (j : Nat) : (s.setSlip i x).hopper? j = s.hopper? j := rfl
@[simp] theorem modSlip_hopper (s : State) (i : Nat) (f : Slip → Slip) (j : Nat) : (s.modSlip i f).hopper? j = s.hopper? j := rfl
@[simp] theorem delSlip_hopper (s : State) (i : Nat) (j : Nat) : (s.delSlip i).hopper? j = s.hopper? j := rfl
@[simp] theorem setSlot_hopper (s : State) (n : Nat) (x : Slot) (j : Nat) : (s.setSlot n x).hopper? j = s.hopper? j := rfl
@[simp] theorem setCarrel_hopper (s : State) (c : Nat) (x : Carrel) (j : Nat) : (s.setCarrel c x).hopper? j = s.hopper? j := rfl
@[simp] theorem setMbx_hopper (s : State) (f : Nat) (m : Mbx) (j : Nat) : (s.setMbx f m).hopper? j = s.hopper? j := rfl
@[simp] theorem setTun_hopper (s : State) (t : Nat) (x : Tun) (j : Nat) : (s.setTun t x).hopper? j = s.hopper? j := rfl
@[simp] theorem setKiln_hopper (s : State) (k : Nat) (x : KilnState) (j : Nat) : (s.setKiln k x).hopper? j = s.hopper? j := rfl
@[simp] theorem setPage_hopper (s : State) (fn p : Nat) (x : Page) (j : Nat) : (s.setPage fn p x).hopper? j = s.hopper? j := rfl
@[simp] theorem setDl_hopper (s : State) (c : Nat) (x : DlRegs) (j : Nat) : (s.setDl c x).hopper? j = s.hopper? j := rfl
@[simp] theorem setSrc_hopper (s : State) (i : Nat) (x : EntSource) (j : Nat) : (s.setSrc i x).hopper? j = s.hopper? j := rfl
@[simp] theorem setFolSlot_hopper (s : State) (n : Nat) (x : FolSlot) (j : Nat) : (s.setFolSlot n x).hopper? j = s.hopper? j := rfl
@[simp] theorem setUnits_hopper (s : State) (e : EngineType) (u : UnitArr) (j : Nat) : (s.setUnits e u).hopper? j = s.hopper? j := by cases e <;> rfl
@[simp] theorem send_slip (s : State) (o : Out) (j : Nat) : (s.send o).slip? j = s.slip? j := rfl
@[simp] theorem sendAll_slip (s : State) (os : List Out) (j : Nat) : (s.sendAll os).slip? j = s.slip? j := rfl
@[simp] theorem drawn_slip (s : State) (n : Nat) (j : Nat) : (s.drawn n).slip? j = s.slip? j := rfl
@[simp] theorem setOctet_slip (s : State) (n : Nat) (o : Octet) (j : Nat) : (s.setOctet n o).slip? j = s.slip? j := rfl
@[simp] theorem setQp_slip (s : State) (q : Nat) (x : Qp) (j : Nat) : (s.setQp q x).slip? j = s.slip? j := rfl
@[simp] theorem delQp_slip (s : State) (q : Nat) (j : Nat) : (s.delQp q).slip? j = s.slip? j := rfl
@[simp] theorem setHopper_slip (s : State) (h : Nat) (x : Hopper) (j : Nat) : (s.setHopper h x).slip? j = s.slip? j := rfl
@[simp] theorem modHopper_slip (s : State) (h : Nat) (f : Hopper → Hopper) (j : Nat) : (s.modHopper h f).slip? j = s.slip? j := rfl
@[simp] theorem setSlot_slip (s : State) (n : Nat) (x : Slot) (j : Nat) : (s.setSlot n x).slip? j = s.slip? j := rfl
@[simp] theorem setCarrel_slip (s : State) (c : Nat) (x : Carrel) (j : Nat) : (s.setCarrel c x).slip? j = s.slip? j := rfl
@[simp] theorem setMbx_slip (s : State) (f : Nat) (m : Mbx) (j : Nat) : (s.setMbx f m).slip? j = s.slip? j := rfl
@[simp] theorem setTun_slip (s : State) (t : Nat) (x : Tun) (j : Nat) : (s.setTun t x).slip? j = s.slip? j := rfl
@[simp] theorem setKiln_slip (s : State) (k : Nat) (x : KilnState) (j : Nat) : (s.setKiln k x).slip? j = s.slip? j := rfl
@[simp] theorem setPage_slip (s : State) (fn p : Nat) (x : Page) (j : Nat) : (s.setPage fn p x).slip? j = s.slip? j := rfl
@[simp] theorem setDl_slip (s : State) (c : Nat) (x : DlRegs) (j : Nat) : (s.setDl c x).slip? j = s.slip? j := rfl
@[simp] theorem setSrc_slip (s : State) (i : Nat) (x : EntSource) (j : Nat) : (s.setSrc i x).slip? j = s.slip? j := rfl
@[simp] theorem setFolSlot_slip (s : State) (n : Nat) (x : FolSlot) (j : Nat) : (s.setFolSlot n x).slip? j = s.slip? j := rfl
@[simp] theorem setUnits_slip (s : State) (e : EngineType) (u : UnitArr) (j : Nat) : (s.setUnits e u).slip? j = s.slip? j := by cases e <;> rfl
@[simp] theorem send_slot (s : State) (o : Out) (j : Nat) : (s.send o).slot j = s.slot j := rfl
@[simp] theorem sendAll_slot (s : State) (os : List Out) (j : Nat) : (s.sendAll os).slot j = s.slot j := rfl
@[simp] theorem drawn_slot (s : State) (n : Nat) (j : Nat) : (s.drawn n).slot j = s.slot j := rfl
@[simp] theorem setOctet_slot (s : State) (n : Nat) (o : Octet) (j : Nat) : (s.setOctet n o).slot j = s.slot j := rfl
@[simp] theorem setQp_slot (s : State) (q : Nat) (x : Qp) (j : Nat) : (s.setQp q x).slot j = s.slot j := rfl
@[simp] theorem delQp_slot (s : State) (q : Nat) (j : Nat) : (s.delQp q).slot j = s.slot j := rfl
@[simp] theorem setHopper_slot (s : State) (h : Nat) (x : Hopper) (j : Nat) : (s.setHopper h x).slot j = s.slot j := rfl
@[simp] theorem modHopper_slot (s : State) (h : Nat) (f : Hopper → Hopper) (j : Nat) : (s.modHopper h f).slot j = s.slot j := rfl
@[simp] theorem setSlip_slot (s : State) (i : Nat) (x : Slip) (j : Nat) : (s.setSlip i x).slot j = s.slot j := rfl
@[simp] theorem modSlip_slot (s : State) (i : Nat) (f : Slip → Slip) (j : Nat) : (s.modSlip i f).slot j = s.slot j := rfl
@[simp] theorem delSlip_slot (s : State) (i : Nat) (j : Nat) : (s.delSlip i).slot j = s.slot j := rfl
@[simp] theorem setCarrel_slot (s : State) (c : Nat) (x : Carrel) (j : Nat) : (s.setCarrel c x).slot j = s.slot j := rfl
@[simp] theorem setMbx_slot (s : State) (f : Nat) (m : Mbx) (j : Nat) : (s.setMbx f m).slot j = s.slot j := rfl
@[simp] theorem setTun_slot (s : State) (t : Nat) (x : Tun) (j : Nat) : (s.setTun t x).slot j = s.slot j := rfl
@[simp] theorem setKiln_slot (s : State) (k : Nat) (x : KilnState) (j : Nat) : (s.setKiln k x).slot j = s.slot j := rfl
@[simp] theorem setPage_slot (s : State) (fn p : Nat) (x : Page) (j : Nat) : (s.setPage fn p x).slot j = s.slot j := rfl
@[simp] theorem setDl_slot (s : State) (c : Nat) (x : DlRegs) (j : Nat) : (s.setDl c x).slot j = s.slot j := rfl
@[simp] theorem setSrc_slot (s : State) (i : Nat) (x : EntSource) (j : Nat) : (s.setSrc i x).slot j = s.slot j := rfl
@[simp] theorem setFolSlot_slot (s : State) (n : Nat) (x : FolSlot) (j : Nat) : (s.setFolSlot n x).slot j = s.slot j := rfl
@[simp] theorem setUnits_slot (s : State) (e : EngineType) (u : UnitArr) (j : Nat) : (s.setUnits e u).slot j = s.slot j := by cases e <;> rfl
@[simp] theorem send_carrel (s : State) (o : Out) (j : Nat) : (s.send o).carrel j = s.carrel j := rfl
@[simp] theorem sendAll_carrel (s : State) (os : List Out) (j : Nat) : (s.sendAll os).carrel j = s.carrel j := rfl
@[simp] theorem drawn_carrel (s : State) (n : Nat) (j : Nat) : (s.drawn n).carrel j = s.carrel j := rfl
@[simp] theorem setOctet_carrel (s : State) (n : Nat) (o : Octet) (j : Nat) : (s.setOctet n o).carrel j = s.carrel j := rfl
@[simp] theorem setQp_carrel (s : State) (q : Nat) (x : Qp) (j : Nat) : (s.setQp q x).carrel j = s.carrel j := rfl
@[simp] theorem delQp_carrel (s : State) (q : Nat) (j : Nat) : (s.delQp q).carrel j = s.carrel j := rfl
@[simp] theorem setHopper_carrel (s : State) (h : Nat) (x : Hopper) (j : Nat) : (s.setHopper h x).carrel j = s.carrel j := rfl
@[simp] theorem modHopper_carrel (s : State) (h : Nat) (f : Hopper → Hopper) (j : Nat) : (s.modHopper h f).carrel j = s.carrel j := rfl
@[simp] theorem setSlip_carrel (s : State) (i : Nat) (x : Slip) (j : Nat) : (s.setSlip i x).carrel j = s.carrel j := rfl
@[simp] theorem modSlip_carrel (s : State) (i : Nat) (f : Slip → Slip) (j : Nat) : (s.modSlip i f).carrel j = s.carrel j := rfl
@[simp] theorem delSlip_carrel (s : State) (i : Nat) (j : Nat) : (s.delSlip i).carrel j = s.carrel j := rfl
@[simp] theorem setSlot_carrel (s : State) (n : Nat) (x : Slot) (j : Nat) : (s.setSlot n x).carrel j = s.carrel j := rfl
@[simp] theorem setMbx_carrel (s : State) (f : Nat) (m : Mbx) (j : Nat) : (s.setMbx f m).carrel j = s.carrel j := rfl
@[simp] theorem setTun_carrel (s : State) (t : Nat) (x : Tun) (j : Nat) : (s.setTun t x).carrel j = s.carrel j := rfl
@[simp] theorem setKiln_carrel (s : State) (k : Nat) (x : KilnState) (j : Nat) : (s.setKiln k x).carrel j = s.carrel j := rfl
@[simp] theorem setPage_carrel (s : State) (fn p : Nat) (x : Page) (j : Nat) : (s.setPage fn p x).carrel j = s.carrel j := rfl
@[simp] theorem setDl_carrel (s : State) (c : Nat) (x : DlRegs) (j : Nat) : (s.setDl c x).carrel j = s.carrel j := rfl
@[simp] theorem setSrc_carrel (s : State) (i : Nat) (x : EntSource) (j : Nat) : (s.setSrc i x).carrel j = s.carrel j := rfl
@[simp] theorem setFolSlot_carrel (s : State) (n : Nat) (x : FolSlot) (j : Nat) : (s.setFolSlot n x).carrel j = s.carrel j := rfl
@[simp] theorem setUnits_carrel (s : State) (e : EngineType) (u : UnitArr) (j : Nat) : (s.setUnits e u).carrel j = s.carrel j := by cases e <;> rfl
@[simp] theorem send_mbx (s : State) (o : Out) (j : Nat) : (s.send o).mbx j = s.mbx j := rfl
@[simp] theorem sendAll_mbx (s : State) (os : List Out) (j : Nat) : (s.sendAll os).mbx j = s.mbx j := rfl
@[simp] theorem drawn_mbx (s : State) (n : Nat) (j : Nat) : (s.drawn n).mbx j = s.mbx j := rfl
@[simp] theorem setOctet_mbx (s : State) (n : Nat) (o : Octet) (j : Nat) : (s.setOctet n o).mbx j = s.mbx j := rfl
@[simp] theorem setQp_mbx (s : State) (q : Nat) (x : Qp) (j : Nat) : (s.setQp q x).mbx j = s.mbx j := rfl
@[simp] theorem delQp_mbx (s : State) (q : Nat) (j : Nat) : (s.delQp q).mbx j = s.mbx j := rfl
@[simp] theorem setHopper_mbx (s : State) (h : Nat) (x : Hopper) (j : Nat) : (s.setHopper h x).mbx j = s.mbx j := rfl
@[simp] theorem modHopper_mbx (s : State) (h : Nat) (f : Hopper → Hopper) (j : Nat) : (s.modHopper h f).mbx j = s.mbx j := rfl
@[simp] theorem setSlip_mbx (s : State) (i : Nat) (x : Slip) (j : Nat) : (s.setSlip i x).mbx j = s.mbx j := rfl
@[simp] theorem modSlip_mbx (s : State) (i : Nat) (f : Slip → Slip) (j : Nat) : (s.modSlip i f).mbx j = s.mbx j := rfl
@[simp] theorem delSlip_mbx (s : State) (i : Nat) (j : Nat) : (s.delSlip i).mbx j = s.mbx j := rfl
@[simp] theorem setSlot_mbx (s : State) (n : Nat) (x : Slot) (j : Nat) : (s.setSlot n x).mbx j = s.mbx j := rfl
@[simp] theorem setCarrel_mbx (s : State) (c : Nat) (x : Carrel) (j : Nat) : (s.setCarrel c x).mbx j = s.mbx j := rfl
@[simp] theorem setTun_mbx (s : State) (t : Nat) (x : Tun) (j : Nat) : (s.setTun t x).mbx j = s.mbx j := rfl
@[simp] theorem setKiln_mbx (s : State) (k : Nat) (x : KilnState) (j : Nat) : (s.setKiln k x).mbx j = s.mbx j := rfl
@[simp] theorem setPage_mbx (s : State) (fn p : Nat) (x : Page) (j : Nat) : (s.setPage fn p x).mbx j = s.mbx j := rfl
@[simp] theorem setDl_mbx (s : State) (c : Nat) (x : DlRegs) (j : Nat) : (s.setDl c x).mbx j = s.mbx j := rfl
@[simp] theorem setSrc_mbx (s : State) (i : Nat) (x : EntSource) (j : Nat) : (s.setSrc i x).mbx j = s.mbx j := rfl
@[simp] theorem setFolSlot_mbx (s : State) (n : Nat) (x : FolSlot) (j : Nat) : (s.setFolSlot n x).mbx j = s.mbx j := rfl
@[simp] theorem setUnits_mbx (s : State) (e : EngineType) (u : UnitArr) (j : Nat) : (s.setUnits e u).mbx j = s.mbx j := by cases e <;> rfl
@[simp] theorem send_tun (s : State) (o : Out) (j : Nat) : (s.send o).tun j = s.tun j := rfl
@[simp] theorem sendAll_tun (s : State) (os : List Out) (j : Nat) : (s.sendAll os).tun j = s.tun j := rfl
@[simp] theorem drawn_tun (s : State) (n : Nat) (j : Nat) : (s.drawn n).tun j = s.tun j := rfl
@[simp] theorem setOctet_tun (s : State) (n : Nat) (o : Octet) (j : Nat) : (s.setOctet n o).tun j = s.tun j := rfl
@[simp] theorem setQp_tun (s : State) (q : Nat) (x : Qp) (j : Nat) : (s.setQp q x).tun j = s.tun j := rfl
@[simp] theorem delQp_tun (s : State) (q : Nat) (j : Nat) : (s.delQp q).tun j = s.tun j := rfl
@[simp] theorem setHopper_tun (s : State) (h : Nat) (x : Hopper) (j : Nat) : (s.setHopper h x).tun j = s.tun j := rfl
@[simp] theorem modHopper_tun (s : State) (h : Nat) (f : Hopper → Hopper) (j : Nat) : (s.modHopper h f).tun j = s.tun j := rfl
@[simp] theorem setSlip_tun (s : State) (i : Nat) (x : Slip) (j : Nat) : (s.setSlip i x).tun j = s.tun j := rfl
@[simp] theorem modSlip_tun (s : State) (i : Nat) (f : Slip → Slip) (j : Nat) : (s.modSlip i f).tun j = s.tun j := rfl
@[simp] theorem delSlip_tun (s : State) (i : Nat) (j : Nat) : (s.delSlip i).tun j = s.tun j := rfl
@[simp] theorem setSlot_tun (s : State) (n : Nat) (x : Slot) (j : Nat) : (s.setSlot n x).tun j = s.tun j := rfl
@[simp] theorem setCarrel_tun (s : State) (c : Nat) (x : Carrel) (j : Nat) : (s.setCarrel c x).tun j = s.tun j := rfl
@[simp] theorem setMbx_tun (s : State) (f : Nat) (m : Mbx) (j : Nat) : (s.setMbx f m).tun j = s.tun j := rfl
@[simp] theorem setKiln_tun (s : State) (k : Nat) (x : KilnState) (j : Nat) : (s.setKiln k x).tun j = s.tun j := rfl
@[simp] theorem setPage_tun (s : State) (fn p : Nat) (x : Page) (j : Nat) : (s.setPage fn p x).tun j = s.tun j := rfl
@[simp] theorem setDl_tun (s : State) (c : Nat) (x : DlRegs) (j : Nat) : (s.setDl c x).tun j = s.tun j := rfl
@[simp] theorem setSrc_tun (s : State) (i : Nat) (x : EntSource) (j : Nat) : (s.setSrc i x).tun j = s.tun j := rfl
@[simp] theorem setFolSlot_tun (s : State) (n : Nat) (x : FolSlot) (j : Nat) : (s.setFolSlot n x).tun j = s.tun j := rfl
@[simp] theorem setUnits_tun (s : State) (e : EngineType) (u : UnitArr) (j : Nat) : (s.setUnits e u).tun j = s.tun j := by cases e <;> rfl
@[simp] theorem send_kiln (s : State) (o : Out) (j : Nat) : (s.send o).kiln j = s.kiln j := rfl
@[simp] theorem sendAll_kiln (s : State) (os : List Out) (j : Nat) : (s.sendAll os).kiln j = s.kiln j := rfl
@[simp] theorem drawn_kiln (s : State) (n : Nat) (j : Nat) : (s.drawn n).kiln j = s.kiln j := rfl
@[simp] theorem setOctet_kiln (s : State) (n : Nat) (o : Octet) (j : Nat) : (s.setOctet n o).kiln j = s.kiln j := rfl
@[simp] theorem setQp_kiln (s : State) (q : Nat) (x : Qp) (j : Nat) : (s.setQp q x).kiln j = s.kiln j := rfl
@[simp] theorem delQp_kiln (s : State) (q : Nat) (j : Nat) : (s.delQp q).kiln j = s.kiln j := rfl
@[simp] theorem setHopper_kiln (s : State) (h : Nat) (x : Hopper) (j : Nat) : (s.setHopper h x).kiln j = s.kiln j := rfl
@[simp] theorem modHopper_kiln (s : State) (h : Nat) (f : Hopper → Hopper) (j : Nat) : (s.modHopper h f).kiln j = s.kiln j := rfl
@[simp] theorem setSlip_kiln (s : State) (i : Nat) (x : Slip) (j : Nat) : (s.setSlip i x).kiln j = s.kiln j := rfl
@[simp] theorem modSlip_kiln (s : State) (i : Nat) (f : Slip → Slip) (j : Nat) : (s.modSlip i f).kiln j = s.kiln j := rfl
@[simp] theorem delSlip_kiln (s : State) (i : Nat) (j : Nat) : (s.delSlip i).kiln j = s.kiln j := rfl
@[simp] theorem setSlot_kiln (s : State) (n : Nat) (x : Slot) (j : Nat) : (s.setSlot n x).kiln j = s.kiln j := rfl
@[simp] theorem setCarrel_kiln (s : State) (c : Nat) (x : Carrel) (j : Nat) : (s.setCarrel c x).kiln j = s.kiln j := rfl
@[simp] theorem setMbx_kiln (s : State) (f : Nat) (m : Mbx) (j : Nat) : (s.setMbx f m).kiln j = s.kiln j := rfl
@[simp] theorem setTun_kiln (s : State) (t : Nat) (x : Tun) (j : Nat) : (s.setTun t x).kiln j = s.kiln j := rfl
@[simp] theorem setPage_kiln (s : State) (fn p : Nat) (x : Page) (j : Nat) : (s.setPage fn p x).kiln j = s.kiln j := rfl
@[simp] theorem setDl_kiln (s : State) (c : Nat) (x : DlRegs) (j : Nat) : (s.setDl c x).kiln j = s.kiln j := rfl
@[simp] theorem setSrc_kiln (s : State) (i : Nat) (x : EntSource) (j : Nat) : (s.setSrc i x).kiln j = s.kiln j := rfl
@[simp] theorem setFolSlot_kiln (s : State) (n : Nat) (x : FolSlot) (j : Nat) : (s.setFolSlot n x).kiln j = s.kiln j := rfl
@[simp] theorem setUnits_kiln (s : State) (e : EngineType) (u : UnitArr) (j : Nat) : (s.setUnits e u).kiln j = s.kiln j := by cases e <;> rfl
@[simp] theorem send_dl (s : State) (o : Out) (j : Nat) : (s.send o).dl j = s.dl j := rfl
@[simp] theorem sendAll_dl (s : State) (os : List Out) (j : Nat) : (s.sendAll os).dl j = s.dl j := rfl
@[simp] theorem drawn_dl (s : State) (n : Nat) (j : Nat) : (s.drawn n).dl j = s.dl j := rfl
@[simp] theorem setOctet_dl (s : State) (n : Nat) (o : Octet) (j : Nat) : (s.setOctet n o).dl j = s.dl j := rfl
@[simp] theorem setQp_dl (s : State) (q : Nat) (x : Qp) (j : Nat) : (s.setQp q x).dl j = s.dl j := rfl
@[simp] theorem delQp_dl (s : State) (q : Nat) (j : Nat) : (s.delQp q).dl j = s.dl j := rfl
@[simp] theorem setHopper_dl (s : State) (h : Nat) (x : Hopper) (j : Nat) : (s.setHopper h x).dl j = s.dl j := rfl
@[simp] theorem modHopper_dl (s : State) (h : Nat) (f : Hopper → Hopper) (j : Nat) : (s.modHopper h f).dl j = s.dl j := rfl
@[simp] theorem setSlip_dl (s : State) (i : Nat) (x : Slip) (j : Nat) : (s.setSlip i x).dl j = s.dl j := rfl
@[simp] theorem modSlip_dl (s : State) (i : Nat) (f : Slip → Slip) (j : Nat) : (s.modSlip i f).dl j = s.dl j := rfl
@[simp] theorem delSlip_dl (s : State) (i : Nat) (j : Nat) : (s.delSlip i).dl j = s.dl j := rfl
@[simp] theorem setSlot_dl (s : State) (n : Nat) (x : Slot) (j : Nat) : (s.setSlot n x).dl j = s.dl j := rfl
@[simp] theorem setCarrel_dl (s : State) (c : Nat) (x : Carrel) (j : Nat) : (s.setCarrel c x).dl j = s.dl j := rfl
@[simp] theorem setMbx_dl (s : State) (f : Nat) (m : Mbx) (j : Nat) : (s.setMbx f m).dl j = s.dl j := rfl
@[simp] theorem setTun_dl (s : State) (t : Nat) (x : Tun) (j : Nat) : (s.setTun t x).dl j = s.dl j := rfl
@[simp] theorem setKiln_dl (s : State) (k : Nat) (x : KilnState) (j : Nat) : (s.setKiln k x).dl j = s.dl j := rfl
@[simp] theorem setPage_dl (s : State) (fn p : Nat) (x : Page) (j : Nat) : (s.setPage fn p x).dl j = s.dl j := rfl
@[simp] theorem setSrc_dl (s : State) (i : Nat) (x : EntSource) (j : Nat) : (s.setSrc i x).dl j = s.dl j := rfl
@[simp] theorem setFolSlot_dl (s : State) (n : Nat) (x : FolSlot) (j : Nat) : (s.setFolSlot n x).dl j = s.dl j := rfl
@[simp] theorem setUnits_dl (s : State) (e : EngineType) (u : UnitArr) (j : Nat) : (s.setUnits e u).dl j = s.dl j := by cases e <;> rfl
@[simp] theorem send_src (s : State) (o : Out) (j : Nat) : (s.send o).src j = s.src j := rfl
@[simp] theorem sendAll_src (s : State) (os : List Out) (j : Nat) : (s.sendAll os).src j = s.src j := rfl
@[simp] theorem drawn_src (s : State) (n : Nat) (j : Nat) : (s.drawn n).src j = s.src j := rfl
@[simp] theorem setOctet_src (s : State) (n : Nat) (o : Octet) (j : Nat) : (s.setOctet n o).src j = s.src j := rfl
@[simp] theorem setQp_src (s : State) (q : Nat) (x : Qp) (j : Nat) : (s.setQp q x).src j = s.src j := rfl
@[simp] theorem delQp_src (s : State) (q : Nat) (j : Nat) : (s.delQp q).src j = s.src j := rfl
@[simp] theorem setHopper_src (s : State) (h : Nat) (x : Hopper) (j : Nat) : (s.setHopper h x).src j = s.src j := rfl
@[simp] theorem modHopper_src (s : State) (h : Nat) (f : Hopper → Hopper) (j : Nat) : (s.modHopper h f).src j = s.src j := rfl
@[simp] theorem setSlip_src (s : State) (i : Nat) (x : Slip) (j : Nat) : (s.setSlip i x).src j = s.src j := rfl
@[simp] theorem modSlip_src (s : State) (i : Nat) (f : Slip → Slip) (j : Nat) : (s.modSlip i f).src j = s.src j := rfl
@[simp] theorem delSlip_src (s : State) (i : Nat) (j : Nat) : (s.delSlip i).src j = s.src j := rfl
@[simp] theorem setSlot_src (s : State) (n : Nat) (x : Slot) (j : Nat) : (s.setSlot n x).src j = s.src j := rfl
@[simp] theorem setCarrel_src (s : State) (c : Nat) (x : Carrel) (j : Nat) : (s.setCarrel c x).src j = s.src j := rfl
@[simp] theorem setMbx_src (s : State) (f : Nat) (m : Mbx) (j : Nat) : (s.setMbx f m).src j = s.src j := rfl
@[simp] theorem setTun_src (s : State) (t : Nat) (x : Tun) (j : Nat) : (s.setTun t x).src j = s.src j := rfl
@[simp] theorem setKiln_src (s : State) (k : Nat) (x : KilnState) (j : Nat) : (s.setKiln k x).src j = s.src j := rfl
@[simp] theorem setPage_src (s : State) (fn p : Nat) (x : Page) (j : Nat) : (s.setPage fn p x).src j = s.src j := rfl
@[simp] theorem setDl_src (s : State) (c : Nat) (x : DlRegs) (j : Nat) : (s.setDl c x).src j = s.src j := rfl
@[simp] theorem setFolSlot_src (s : State) (n : Nat) (x : FolSlot) (j : Nat) : (s.setFolSlot n x).src j = s.src j := rfl
@[simp] theorem setUnits_src (s : State) (e : EngineType) (u : UnitArr) (j : Nat) : (s.setUnits e u).src j = s.src j := by cases e <;> rfl
@[simp] theorem send_folSlot (s : State) (o : Out) (j : Nat) : (s.send o).folSlot j = s.folSlot j := rfl
@[simp] theorem sendAll_folSlot (s : State) (os : List Out) (j : Nat) : (s.sendAll os).folSlot j = s.folSlot j := rfl
@[simp] theorem drawn_folSlot (s : State) (n : Nat) (j : Nat) : (s.drawn n).folSlot j = s.folSlot j := rfl
@[simp] theorem setOctet_folSlot (s : State) (n : Nat) (o : Octet) (j : Nat) : (s.setOctet n o).folSlot j = s.folSlot j := rfl
@[simp] theorem setQp_folSlot (s : State) (q : Nat) (x : Qp) (j : Nat) : (s.setQp q x).folSlot j = s.folSlot j := rfl
@[simp] theorem delQp_folSlot (s : State) (q : Nat) (j : Nat) : (s.delQp q).folSlot j = s.folSlot j := rfl
@[simp] theorem setHopper_folSlot (s : State) (h : Nat) (x : Hopper) (j : Nat) : (s.setHopper h x).folSlot j = s.folSlot j := rfl
@[simp] theorem modHopper_folSlot (s : State) (h : Nat) (f : Hopper → Hopper) (j : Nat) : (s.modHopper h f).folSlot j = s.folSlot j := rfl
@[simp] theorem setSlip_folSlot (s : State) (i : Nat) (x : Slip) (j : Nat) : (s.setSlip i x).folSlot j = s.folSlot j := rfl
@[simp] theorem modSlip_folSlot (s : State) (i : Nat) (f : Slip → Slip) (j : Nat) : (s.modSlip i f).folSlot j = s.folSlot j := rfl
@[simp] theorem delSlip_folSlot (s : State) (i : Nat) (j : Nat) : (s.delSlip i).folSlot j = s.folSlot j := rfl
@[simp] theorem setSlot_folSlot (s : State) (n : Nat) (x : Slot) (j : Nat) : (s.setSlot n x).folSlot j = s.folSlot j := rfl
@[simp] theorem setCarrel_folSlot (s : State) (c : Nat) (x : Carrel) (j : Nat) : (s.setCarrel c x).folSlot j = s.folSlot j := rfl
@[simp] theorem setMbx_folSlot (s : State) (f : Nat) (m : Mbx) (j : Nat) : (s.setMbx f m).folSlot j = s.folSlot j := rfl
@[simp] theorem setTun_folSlot (s : State) (t : Nat) (x : Tun) (j : Nat) : (s.setTun t x).folSlot j = s.folSlot j := rfl
@[simp] theorem setKiln_folSlot (s : State) (k : Nat) (x : KilnState) (j : Nat) : (s.setKiln k x).folSlot j = s.folSlot j := rfl
@[simp] theorem setPage_folSlot (s : State) (fn p : Nat) (x : Page) (j : Nat) : (s.setPage fn p x).folSlot j = s.folSlot j := rfl
@[simp] theorem setDl_folSlot (s : State) (c : Nat) (x : DlRegs) (j : Nat) : (s.setDl c x).folSlot j = s.folSlot j := rfl
@[simp] theorem setSrc_folSlot (s : State) (i : Nat) (x : EntSource) (j : Nat) : (s.setSrc i x).folSlot j = s.folSlot j := rfl
@[simp] theorem setUnits_folSlot (s : State) (e : EngineType) (u : UnitArr) (j : Nat) : (s.setUnits e u).folSlot j = s.folSlot j := by cases e <;> rfl

@[simp] theorem delQp_qp_self (s : State) (q : Nat) : (s.delQp q).qp? q = none := Tab.get?_erase_self _ q
@[simp] theorem delSlip_slip_self (s : State) (i : Nat) : (s.delSlip i).slip? i = none := Tab.get?_erase_self _ i
@[simp] theorem modSlip_slip_self (s : State) (i : Nat) (f : Slip → Slip) : (s.modSlip i f).slip? i = (s.slip? i).map f :=
  Tab.get?_mod_self _ i f
@[simp] theorem modHopper_hopper_self (s : State) (h : Nat) (f : Hopper → Hopper) :
    (s.modHopper h f).hopper? h = (s.hopper? h).map f := Tab.get?_mod_self _ h f
@[simp] theorem send_out (s : State) (o : Out) : (s.send o).out = s.out ++ [o] := rfl
@[simp] theorem sendAll_out (s : State) (os : List Out) : (s.sendAll os).out = s.out ++ os := rfl
@[simp] theorem drawn_freeCtr (s : State) (n : Nat) : (s.drawn n).freeCtr = s.freeCtr + n := rfl

/-- A draw of `n` bytes has `n` bytes. -/
@[simp] theorem freeBytes_length (s : State) (n : Nat) : (s.freeBytes n).length = n := by simp [freeBytes]

/-- Bytes drawn later are drawn from where the counter stands. -/
theorem freeBytes_drawn (s : State) (n m : Nat) :
    (s.drawn n).freeBytes m = (List.range m).map fun i => Config.freeByte (s.freeCtr + n + i) := rfl

end Sys2Proof.Machine.State
end

