-- ==== Sys2Proof/Laws/Mailbox.lean ====
section
/-!
SUPPORT. The mailbox: what accepting, checking and answering a command do, said once for all commands.
-/

namespace Sys2Proof.Machine

/-! ## Accepting a command -/

@[simp] theorem accept_mbx_of_ne (s : State) {fn f : Nat} (h : f ≠ fn) : (accept s fn).mbx f = s.mbx f :=
  State.setMbx_mbx_of_ne s _ h

@[simp] theorem accept_cmdWin (s : State) (fn : Nat) : ((accept s fn).mbx fn).cmdWin = (s.mbx fn).cmdWin := by simp [accept]
@[simp] theorem accept_session (s : State) (fn : Nat) : ((accept s fn).mbx fn).session = (s.mbx fn).session := by simp [accept]
@[simp] theorem accept_busy (s : State) (fn : Nat) : ((accept s fn).mbx fn).busy = (s.mbx fn).busy := by simp [accept]
@[simp] theorem accept_wait (s : State) (fn : Nat) : ((accept s fn).mbx fn).wait = (s.mbx fn).wait := by simp [accept]
@[simp] theorem accept_carrels (s : State) (fn : Nat) : (accept s fn).carrels = s.carrels := rfl
@[simp] theorem accept_cel (s : State) (fn : Nat) : (accept s fn).cel = s.cel := rfl
@[simp] theorem accept_tmp (s : State) (fn : Nat) : (accept s fn).tmp = s.tmp := rfl
@[simp] theorem accept_folio (s : State) (fn : Nat) : (accept s fn).folio = s.folio := rfl
@[simp] theorem accept_mirror (s : State) (fn : Nat) : (accept s fn).mirror = s.mirror := rfl
@[simp] theorem accept_ent (s : State) (fn : Nat) : (accept s fn).ent = s.ent := rfl
@[simp] theorem accept_cat (s : State) (fn : Nat) : (accept s fn).cat = s.cat := rfl
@[simp] theorem accept_hop (s : State) (fn : Nat) : (accept s fn).hop = s.hop := rfl
@[simp] theorem accept_admins (s : State) (fn : Nat) : (accept s fn).reg.admins = s.reg.admins := rfl
@[simp] theorem accept_pairsFenced (s : State) (fn : Nat) : (accept s fn).reg.pairsFenced = s.reg.pairsFenced := rfl
@[simp] theorem accept_boot (s : State) (fn : Nat) : (accept s fn).boot = s.boot := rfl
@[simp] theorem accept_dev (s : State) (fn : Nat) : (accept s fn).reg.dev = s.reg.dev := rfl
@[simp] theorem accept_carrel (s : State) (fn c : Nat) : (accept s fn).carrel c = s.carrel c := rfl
@[simp] theorem accept_slot (s : State) (fn n : Nat) : (accept s fn).slot n = s.slot n := rfl
@[simp] theorem accept_queueFull (s : State) (fn : Nat) : queueFull (accept s fn) = queueFull s := rfl

/-! ## The checks -/

/-- A command that is in the window, taken in sequence and given by one who may passes every check of R367 before its own. -/
theorem checkCmd_none {s : State} {fn : Nat} {c : CmdSpec} {p : Bytes} (h : Issued s fn c.code c.role p)
    (hl : c.lenOk p.length = true) (hr : c.rsvOk p = true) (ho : c.owns (accept s fn) fn p = true) :
    checkCmd (accept s fn) fn c p = none := by
  obtain ⟨-, -, -, h2, h3, -, -, hm, hd, hs, hlc, hq⟩ := h
  have henrol : EnrolOpen s fn c.code c.role → roleOk (accept s fn) fn c = true ∧ sessionOk (accept s fn) fn c = true ∧
      (c.role = .any ∨ c.role = .d → field (s.mbx fn).cmdWin 8 4 = 0) := by
    rintro ⟨hc, hr', hf, hl', ha⟩
    have he : enrolOpen (accept s fn) fn c = true := by
      simp only [enrolOpen, accept_tmp, accept_admins, hc, hf, ha]
      rcases hl' with h | h <;> simp [h]
    refine ⟨by simp [roleOk, hr', hf], by simp [sessionOk, hr', he], by simp [hr']⟩
  have hsm : sessionMatch ((accept s fn).mbx fn) = sessionMatch (s.mbx fn) := by simp [sessionMatch]
  have hrole : roleOk (accept s fn) fn c = true ∧ sessionOk (accept s fn) fn c = true ∧
      (c.role = .any ∨ c.role = .d → field (s.mbx fn).cmdWin 8 4 = 0) := by
    rcases hm with hm | hm
    case inr => exact henrol hm
    unfold MayCommand at hm
    unfold roleOk sessionOk
    cases hc : c.role <;> simp only [hc, hsm, accept_tmp, accept_dev, accept_carrel, accept_cmdWin] at hm ⊢
    case any => simp [hm]
    case oa =>
      obtain ⟨h1, h2⟩ := hm
      refine ⟨?_, ?_, by simp⟩
      · rcases h1 with h | h <;> simp [h]
      · rcases h2 with h | ⟨hf, hl'⟩
        · simp [h]
        · simp [hf, hl']
    case o =>
      obtain ⟨h1, h2⟩ := hm
      refine ⟨by simp [h1], ?_, by simp⟩
      rcases h2 with h | ⟨hf, hl'⟩
      · simp [h]
      · simp [h1, hl']
    case a =>
      obtain ⟨h1, hst, h2⟩ := hm
      refine ⟨by simp [h1, hst], ?_, by simp⟩
      rcases h2 with h | ⟨hf, -⟩
      · simp [h]
      · exact absurd hf h1
    case d => exact ⟨by simp [hm.1], by simp, fun _ => hm.2⟩
    case od =>
      obtain ⟨h1, h2⟩ := hm
      refine ⟨by simp [h1], ?_, by simp⟩
      rcases h2 with h | h <;> simp [h]
  obtain ⟨hR, hS, hF⟩ := hrole
  have hdev : devAdmits (accept s fn) c = true := by
    have hst : stageAdmits (accept s fn) c = true := by simp [stageAdmits, hs]
    rcases hd with hd | ⟨hd, he, hp, hb⟩
    · simp [devAdmits, hd, hst]
    · simp [devAdmits, mbxDead, hd, he, hp, hst, Nat.not_lt.mpr hb]
  have hlcs : lcsAdmits (accept s fn) fn c = true := by rcases hlc with h | h | h <;> simp [lcsAdmits, h]
  have hfree : ((c.role != .any && c.role != .d) || field (s.mbx fn).cmdWin 8 4 == 0) = true := by
    cases hc : c.role <;> simp_all
  simp only [checkCmd, accept_cmdWin, hl, hr, h2, h3, hR, ho, hS, hdev, hlcs, accept_queueFull, hq, hfree]
  simp

/-- A command that passes its checks is what its body makes of the accepted state. -/
theorem serve_issued {s : State} {fn : Nat} {c : CmdSpec} {p : Bytes} (body : State → Bytes → CmdRes)
    (h : Issued s fn c.code c.role p) (hl : c.lenOk p.length = true) (hr : c.rsvOk p = true)
    (ho : c.owns (accept s fn) fn p = true) :
    serve s fn c body = match body (accept s fn) p with
      | .done t a => respond t fn a
      | .doneThen t a after => after (respond t fn a)
      | .wait t w => t.setMbx fn { t.mbx fn with wait := w } := by
  have hc := checkCmd_none h hl hr ho
  obtain ⟨h0, hcode, hp, -, -, hseq, hrep, -⟩ := h
  subst hp
  unfold serve
  simp only [h0, hcode, hseq, hrep, hc, Bool.not_true, Bool.false_or, bne_self_eq_false, Bool.false_eq_true, if_false,
    Bool.false_and]
  all_goals cases body (accept s fn) (framePayload (s.mbx fn)) <;> rfl

/-- A body that is done answers. -/
theorem serve_done {s t : State} {fn : Nat} {c : CmdSpec} {p : Bytes} {a : Ans} (body : State → Bytes → CmdRes)
    (h : Issued s fn c.code c.role p) (hl : c.lenOk p.length = true) (hr : c.rsvOk p = true)
    (ho : c.owns (accept s fn) fn p = true) (hb : body (accept s fn) p = .done t a) : serve s fn c body = respond t fn a := by
  rw [serve_issued body h hl hr ho, hb]

/-- A body that waits leaves its command in the mailbox. -/
theorem serve_wait {s t : State} {fn : Nat} {c : CmdSpec} {p : Bytes} {w : MbxWait} (body : State → Bytes → CmdRes)
    (h : Issued s fn c.code c.role p) (hl : c.lenOk p.length = true) (hr : c.rsvOk p = true)
    (ho : c.owns (accept s fn) fn p = true) (hb : body (accept s fn) p = .wait t w) :
    serve s fn c body = t.setMbx fn { t.mbx fn with wait := w } := by
  rw [serve_issued body h hl hr ho, hb]

/-- A window that holds another command is left alone. -/
theorem serve_other {s : State} {fn : Nat} {c : CmdSpec} (body : State → Bytes → CmdRes)
    (h : field (s.mbx fn).cmdWin 0 2 ≠ c.code) : serve s fn c body = s := by
  unfold serve
  simp [h]

/-! ## Synchronous changes -/

/-- A change that need not wait for the standby is committed at once. -/
theorem syncBody_commit {c : SyncCmd} {s : State} {fn : Nat} {p : Bytes} (hc : c.check s fn p = none)
    (hb : syncBlocked s (c.carrel s fn p) = false) (hm : mirrors s (c.carrel s fn p) = false) :
    syncBody c s fn p = .done (c.commit s fn p).1 (c.commit s fn p).2 := by
  unfold syncBody
  simp only [hc, hb, hm]
  split <;> simp

/-- A refused one answers. -/
theorem syncBody_refused {c : SyncCmd} {s : State} {fn : Nat} {p : Bytes} {a : Ans} (hc : c.check s fn p = some a) :
    syncBody c s fn p = .done s a := by simp [syncBody, hc]

/-! ## Answering -/

@[simp] theorem respond_idle {s : State} {fn : Nat} (h : (s.mbx fn).busy = false) (a : Ans) (k : Bool) : respond s fn a k = s := by
  simp [respond, h]

theorem auditAppend_mbx (s : State) (b : Bytes) (f : Nat) : (auditAppend s b).mbx f = s.mbx f := by
  simp only [auditAppend]; split <;> rfl

/-- What an answer leaves in the mailbox. -/
theorem respond_mbx {s : State} {fn : Nat} (h : (s.mbx fn).busy = true) (a : Ans) :
    (respond s fn a).mbx fn = { s.mbx fn with
      cmdWin := [], rspWin := rspBytes s (s.mbx fn) a ((s.mbx fn).lastDseq + 1), busy := false
      rspReady := (s.mbx fn).rspReady.hit, lastDseq := (s.mbx fn).lastDseq + 1, wait := .none, restarted := false
      lastRsp := rspBytes s (s.mbx fn) a ((s.mbx fn).lastDseq + 1)
      session := if sessionMatch (s.mbx fn) then (s.mbx fn).session.map fun se => { se with lastAt := s.sec } else (s.mbx fn).session } := by
  have hs : ∀ b, (auditAppend s b).sec = s.sec := fun b => by simp only [auditAppend]; split <;> rfl
  simp [respond, h, hs]

theorem respond_mbx_of_ne (s : State) {fn f : Nat} (hf : f ≠ fn) (a : Ans) : (respond s fn a).mbx f = s.mbx f := by
  by_cases h : (s.mbx fn).busy = true
  · simp [respond, h, State.setMbx_mbx_of_ne _ _ hf, auditAppend_mbx]
  · rw [respond_idle (by simpa using h)]

end Sys2Proof.Machine
end

