-- ==== Sys2Proof/Laws/Tun.lean ====
section
/-!
SUPPORT. The register file of a tun: elements of packed values, what a register write changes, and what a vector operation
answers, said once for all of them.
-/

namespace Sys2Proof.Machine

/-! ## Elements -/

theorem velem_lt (w r j : Nat) : velem w r j < 2 ^ w := Nat.mod_lt _ (Nat.two_pow_pos w)

theorem vpack_lt (w : Nat) (es : List Nat) : vpack w es < 2 ^ (w * es.length) := by
  induction es with
  | nil => simp [vpack]
  | cons e es ih =>
    have h1 : e % 2 ^ w < 2 ^ w := Nat.mod_lt _ (Nat.two_pow_pos w)
    rw [vpack, List.length_cons, Nat.mul_succ, Nat.pow_add, Nat.mul_comm (2 ^ (w * es.length))]
    calc e % 2 ^ w + 2 ^ w * vpack w es < 2 ^ w + 2 ^ w * vpack w es := by omega
      _ = 2 ^ w * (vpack w es + 1) := by rw [Nat.mul_succ, Nat.add_comm]
      _ ≤ 2 ^ w * 2 ^ (w * es.length) := Nat.mul_le_mul_left _ ih

theorem velem_vpack (w : Nat) (es : List Nat) (j : Nat) : velem w (vpack w es) j = es.getD j 0 % 2 ^ w := by
  induction es generalizing j with
  | nil => simp [vpack, velem]
  | cons e es ih =>
    cases j with
    | zero => simp [velem, vpack, Nat.add_mod]
    | succ j =>
      have h1 : e % 2 ^ w < 2 ^ w := Nat.mod_lt _ (Nat.two_pow_pos w)
      have h2 : (e % 2 ^ w + 2 ^ w * vpack w es) / 2 ^ w = vpack w es := by
        rw [Nat.add_mul_div_left _ _ (Nat.two_pow_pos w), Nat.div_eq_of_lt h1, Nat.zero_add]
      rw [← (by simp : es.getD j 0 = (e :: es).getD (j + 1) 0), ← ih j]
      unfold velem
      rw [vpack, Nat.mul_succ, Nat.add_comm (w * j) w, Nat.pow_add, ← Nat.div_div_eq_div_mul, h2]

/-- Elements below `m` of a value whose low `w × m` bits are those of `v`, and above them those of `old`. -/
theorem velem_splice (w m v old j : Nat) :
    velem w (v % 2 ^ (w * m) + old / 2 ^ (w * m) * 2 ^ (w * m)) j = if j < m then velem w v j else velem w old j := by
  have hb : ∀ i, (v % 2 ^ (w * m) + old / 2 ^ (w * m) * 2 ^ (w * m)).testBit i
      = if i < w * m then v.testBit i else old.testBit i := by
    intro i
    rw [Nat.add_comm, Nat.mul_comm]
    rw [Nat.testBit_two_pow_mul_add _ (Nat.mod_lt _ (Nat.two_pow_pos _))]
    split
    · simp [Nat.testBit_mod_two_pow, *]
    · rw [Nat.testBit_div_two_pow]; congr 1; omega
  apply Nat.eq_of_testBit_eq
  intro i
  have he : ∀ r, (velem w r j).testBit i = (decide (i < w) && r.testBit (w * j + i)) := by
    intro r
    simp [velem, Nat.testBit_mod_two_pow, Nat.testBit_div_two_pow, Nat.add_comm]
  rw [apply_ite (fun n : Nat => n.testBit i), he, he, he, hb]
  by_cases hi : i < w
  · have hj : w * j + i < w * m ↔ j < m := by
      constructor
      · intro h; by_contra hc
        have : w * m ≤ w * j := Nat.mul_le_mul_left w (by omega)
        omega
      · intro h
        have : w * (j + 1) ≤ w * m := Nat.mul_le_mul_left w h
        rw [Nat.mul_succ] at this; omega
    by_cases h : j < m
    · simp [hi, h, hj.mpr h]
    · simp [hi, h, mt hj.mp h]
  · split <;> simp [hi]

theorem vreg_lt (x : Tun) (r : Nat) : vreg x r < 2 ^ 8192 := (Tab.getD x.v r 0).isLt

/-- An element as the statements read it. -/
theorem element_eq (w : Nat) (x : Tun) (r j : Nat) : element w x r j = BitVec.ofNat w (velem w (vreg x r) j) := by
  apply BitVec.eq_of_toNat_eq
  simp [element, velem, vreg, BitVec.extractLsb', Nat.shiftRight_eq_div_pow]

theorem element_toNat (w : Nat) (x : Tun) (r j : Nat) : (element w x r j).toNat = velem w (vreg x r) j := by
  rw [element_eq, BitVec.toNat_ofNat, Nat.mod_eq_of_lt (velem_lt _ _ _)]

theorem scalar_toNat (x : Tun) (r : Nat) : (scalar x r).toNat = sreg x r := by
  unfold scalar sreg; split <;> simp

/-! ## Register writes -/

theorem vTag_setIn (l : List Nat) (n m : Nat) (b : Bool) : (setIn l n b).contains m = if m = n then b else l.contains m := by
  unfold setIn
  cases b with
  | true =>
    by_cases h : n ∈ l
    · by_cases hm : m = n
      · subst hm; simp [h]
      · simp [h, hm]
    · by_cases hm : m = n
      · subst hm; simp [h]
      · simp [h, hm]
  | false =>
    by_cases hm : m = n
    · subst hm; simp
    · simp [hm]

/-- A register write touches the one register, with its tag and kind. -/
theorem setV_only (x : Tun) (d k v : Nat) (tag : Bool) (kind : ShareKind) :
    OnlyVector x (setV x d k v tag kind) x.vew d := by
  unfold setV
  split
  · exact ⟨rfl, fun _ _ => ⟨rfl, rfl, rfl⟩⟩
  · refine ⟨rfl, fun r hr => ⟨Tab.getD_set_of_ne _ _ _ hr, ?_, ?_⟩⟩
    · simp only [vTag, vTag_setIn, if_neg hr]
    · simp only [vKind]; split
      · exact Tab.getD_set_of_ne _ _ _ hr
      · rfl

theorem vreg_setV (x : Tun) (d k v : Nat) (tag : Bool) (kind : ShareKind) (hk : k ≤ 8192) (hv : v < 2 ^ k) :
    vreg (setV x d k v tag kind) d = v % 2 ^ k + vreg x d / 2 ^ k * 2 ^ k := by
  have hx := vreg_lt x d
  unfold setV
  split
  · next h => subst h; simp [Nat.mod_one]
  · simp only [vreg, Tab.getD_set_self, BitVec.toNat_ofNat]
    simp only [vreg] at hx
    by_cases hk' : k < 8192
    · simp only [hk', decide_true, if_true]
      apply Nat.mod_eq_of_lt
      have h1 := Nat.div_mul_le_self (Tab.getD x.v d 0).toNat (2 ^ k)
      have h2 := Nat.mod_lt v (Nat.two_pow_pos k)
      have h3 : 2 ^ 8192 = 2 ^ (8192 - k) * 2 ^ k := by rw [← Nat.pow_add]; congr 1; omega
      have h4 : (Tab.getD x.v d 0).toNat / 2 ^ k < 2 ^ (8192 - k) := by
        apply Nat.div_lt_of_lt_mul; rw [Nat.mul_comm, ← h3]; exact hx
      rw [h3]
      calc v % 2 ^ k + (Tab.getD x.v d 0).toNat / 2 ^ k * 2 ^ k
          < 2 ^ k + (Tab.getD x.v d 0).toNat / 2 ^ k * 2 ^ k := by omega
        _ = ((Tab.getD x.v d 0).toNat / 2 ^ k + 1) * 2 ^ k := by rw [Nat.add_mul, Nat.one_mul, Nat.add_comm]
        _ ≤ 2 ^ (8192 - k) * 2 ^ k := Nat.mul_le_mul_right _ h4
    · have : k = 8192 := by omega
      subst this
      rw [Nat.div_eq_of_lt hx]
      simp

theorem element_setV (x : Tun) (d w m v : Nat) (tag : Bool) (kind : ShareKind) (hm : w * m ≤ 8192)
    (hv : v < 2 ^ (w * m)) (j : Nat) :
    element w (setV x d (w * m) v tag kind) d j = if j < m then BitVec.ofNat w (velem w v j) else element w x d j := by
  rw [element_eq, vreg_setV x d _ v tag kind hm hv, velem_splice]
  split
  · rfl
  · rw [element_eq]

theorem widthOf_mul_effCount (x : Tun) (c : BitVec 2) : widthOf c * effCount x (widthOf c) ≤ 8192 := by
  have : effCount x (widthOf c) ≤ vlMax (widthOf c) := Nat.min_le_right _ _
  calc widthOf c * effCount x (widthOf c) ≤ widthOf c * vlMax (widthOf c) := Nat.mul_le_mul_left _ this
    _ ≤ 8192 := Nat.mul_div_le _ _

/-! ## Actions alone -/

@[simp] theorem vreg_atWord (w : Microword) (x : Tun) (r : Nat) : vreg (atWord w x) r = vreg x r := rfl
@[simp] theorem vTag_atWord (w : Microword) (x : Tun) (r : Nat) : vTag (atWord w x) r = vTag x r := rfl
@[simp] theorem vKind_atWord (w : Microword) (x : Tun) (r : Nat) : vKind (atWord w x) r = vKind x r := rfl
@[simp] theorem sreg_atWord (w : Microword) (x : Tun) (r : Nat) : sreg (atWord w x) r = sreg x r := rfl
@[simp] theorem sTag_atWord (w : Microword) (x : Tun) (r : Nat) : sTag (atWord w x) r = sTag x r := rfl
@[simp] theorem mreg_atWord (w : Microword) (x : Tun) (i : Nat) : mreg (atWord w x) i = mreg x i := rfl
@[simp] theorem effCount_atWord (w : Microword) (x : Tun) (n : Nat) : effCount (atWord w x) n = effCount x n := rfl
@[simp] theorem element_atWord (w : Microword) (x : Tun) (n r j : Nat) : element n (atWord w x) r j = element n x r j := rfl
@[simp] theorem scalar_atWord (w : Microword) (x : Tun) (r : Nat) : scalar (atWord w x) r = scalar x r := rfl
@[simp] theorem atWord_vew (w : Microword) (x : Tun) : (atWord w x).vew = w.vew := rfl
@[simp] theorem vopIn_atWord (w : Microword) (x : Tun) : vopIn w (atWord w x) = vopIn w x := rfl

/-- An action that succeeds changes its tun alone. -/
theorem actOn_ok {t : Nat} {w : Microword} {a : Act} {s : State} {x1 : Tun} (hl : tunLive (s.tun t) = true)
    (h : a (envOf s t (s.tun t)) w (atWord w (s.tun t)) (atWord w (s.tun t)) = .ok x1) :
    actOn t w a s = s.setTun t x1 := by
  simp [actOn, hl, h]

/-- An action that stops its routine does nothing else. -/
theorem actOn_error {t : Nat} {w : Microword} {a : Act} {s : State} {f : TunStop} (hl : tunLive (s.tun t) = true)
    (h : a (envOf s t (s.tun t)) w (atWord w (s.tun t)) (atWord w (s.tun t)) = .error f) :
    actOn t w a s = s.setTun t { s.tun t with ended := some (.status f.status) } := by
  simp [actOn, hl, h]

theorem onlyVector_atWord (w : Microword) (x : Tun) (d : Nat) : OnlyVector x (atWord w x) w.vew d :=
  ⟨rfl, fun _ _ => ⟨rfl, rfl, rfl⟩⟩

/-- What a vector operation answers when nothing stops it: with an effective count of zero nothing, else its results. -/
theorem vectorAct_ok {s : State} {t : Nat} {w : Microword} {code : Nat} {o : VOp}
    (hl : tunLive (s.tun t) = true) (hc : code ≠ 0) (ho : vopOf code = some o)
    (hw : o.widths.contains (widthOf w.vew) = true) (hp : (o.publicB && vTag (s.tun t) w.vsrcB.toNat) = false)
    (hb : o.bad (vopIn w (s.tun t)) = false) :
    actOn t w (vectorAct code) s = s.setTun t (
      let x := atWord w (s.tun t)
      let i := vopIn w x
      if !o.whole && i.n == 0 then x
      else
        let r := o.run i
        let tag := vopTag o w x
        let kind := kindOf (o.outKind.getD o.kind) w (vKind x w.vsrcA.toNat)
        let x := match r.vec with
          | some (k, v) => setV x w.vdst.toNat k v tag kind
          | none => x
        let x := match r.scal with
          | some v => setS x w.sd.toNat v tag
          | none => x
        if r.clamped && !tag then { x with qsat := true } else x) := by
  apply actOn_ok hl
  have h1 : (!o.widths.contains (widthOf w.vew)) = false := by rw [hw]; rfl
  have h2 : (vopIn w (s.tun t)).w = widthOf w.vew := rfl
  simp only [vectorAct, if_neg hc, ho, runVop, vopIn_atWord, h2, h1, vTag_atWord, hp, hb, Bool.false_eq_true, if_false]
  by_cases hz : (!o.whole && (vopIn w (s.tun t)).n == 0) = true
  · simp only [hz, if_true]
  · simp only [hz, Bool.false_eq_true, if_false]
    all_goals rfl

/-- A VL-governed vector operation whose result is a list of elements answers element-wise. -/
theorem elementWise_of_vout {s : State} {t : Nat} {w : Microword} {code : Nat} {o : VOp} {es : List Nat}
    {f : Nat → BitVec (widthOf w.vew)} (hl : tunLive (s.tun t) = true) (hc : code ≠ 0) (ho : vopOf code = some o)
    (hw : o.widths.contains (widthOf w.vew) = true) (hp : (o.publicB && vTag (s.tun t) w.vsrcB.toNat) = false)
    (hb : o.bad (vopIn w (s.tun t)) = false) (hn : o.whole = false)
    (hr : o.run (vopIn w (s.tun t)) = vout (widthOf w.vew) es)
    (hlen : es.length = effCount (s.tun t) (widthOf w.vew))
    (hf : ∀ j, j < es.length → BitVec.ofNat (widthOf w.vew) (es.getD j 0) = f j) :
    ElementWise s t w f (.next (actOn t w (vectorAct code) s)) := by
  rw [vectorAct_ok hl hc ho hw hp hb]
  refine ⟨_, rfl, ?_⟩
  have hlt := vpack_lt (widthOf w.vew) es
  have hm : widthOf w.vew * es.length ≤ 8192 := by rw [hlen]; exact widthOf_mul_effCount _ _
  have hvn : (vopIn w (s.tun t)).n = effCount (s.tun t) (widthOf w.vew) := rfl
  simp only [vopIn_atWord, hn, hr, vout, Bool.not_false, Bool.true_and, hvn]
  by_cases hz : effCount (s.tun t) (widthOf w.vew) = 0
  · simp only [hz, beq_self_eq_true, if_true]
    exact ⟨onlyVector_atWord _ _ _, fun j => by simp⟩
  · have hz' : (effCount (s.tun t) (widthOf w.vew) == 0) = false := by simpa using hz
    simp only [hz', Bool.false_eq_true, if_false, Bool.false_and]
    refine ⟨setV_only (atWord w (s.tun t)) _ _ _ _ _, fun j => ?_⟩
    rw [element_setV _ _ _ _ _ _ _ hm hlt, hlen]
    split
    · next h =>
      rw [velem_vpack, ← hf j (by omega)]
      apply BitVec.eq_of_toNat_eq; simp
    · rfl

end Sys2Proof.Machine
end

