-- ==== Sys2Proof/Tests/Slice0.lean ====
section
/-!
SUPPORT. Tests of the model: the well-formedness smoke tests, a witness for the hypotheses of every statement, and small checks
against the manual's own numbers.
-/

namespace Sys2Proof.Tests

open Sys2Proof Sys2Proof.Machine

-- One after the other: many kernel evaluations at once would want more threads than a check may have.
set_option Elab.async false

/-! ## Well-formedness: one ill-formed command for each kind of number that is checked -/

theorem test_wf_qpn_low : (Instr.cmRtu 0xFF).wf = false := by decide
theorem test_wf_qpn_high : (Instr.cnpReceived 0x40100).wf = false := by decide
theorem test_wf_qpn : (Instr.cmRtu 0x100).wf = true ∧ (Instr.cnpReceived 0x400FF).wf = true := by decide
theorem test_wf_psn : (Instr.invalidRequestPacket 0x100 16777216).wf = false := by decide
theorem test_wf_port : (Instr.linkUp 512).wf = false ∧ (Instr.linkUp 511).wf = true := by decide
theorem test_wf_priority : (Instr.portPfcStorm 0 8).wf = false := by decide
theorem test_wf_quanta : (Instr.pauseFrame 0 0 65536).wf = false := by decide
theorem test_wf_carrel : (Instr.gratuitousArp 256).wf = false := by decide
theorem test_wf_function : (Instr.mbxNop 256).wf = false ∧ (Instr.mbxNop 255).wf = true := by decide
theorem test_wf_hopper : (Instr.hopperStopped 262144).wf = false := by decide
theorem test_wf_cluster : (Instr.clusterNap .tun 17).wf = false ∧ (Instr.clusterNap .none 0).wf = false := by decide
theorem test_wf_tun : (Instr.tunWatchdog 136).wf = false ∧ (Instr.seqExit 135).wf = true := by decide
theorem test_wf_kiln : (Instr.kilnWipeDone 34).wf = false := by decide
theorem test_wf_reserved_field : (Instr.vadd 0 { reserved := 1 }).wf = false ∧ (Instr.vadd 0 {}).wf = true := by decide
theorem test_wf_counter : (Instr.ledgerWriteDone 16384 true).wf = false := by decide
theorem test_wf_shelfmark : (Instr.leaseGranted 2097152).wf = false ∧ (Instr.treeBuildQuantum 0 8).wf = false := by decide
theorem test_wf_entropy_source : (Instr.drbgReseed 41).wf = false := by decide
theorem test_wf_page : (Instr.dpgStart 0 4).wf = false ∧ (Instr.dpgAbort 0 3).wf = true := by decide
theorem test_wf_folio_slot : (Instr.cartridgeRemove 4).wf = false := by decide
theorem test_wf_channel : (Instr.qdrChannelLost 8).wf = false := by decide
/-! ## Open stacks -/

/-- Tun 0 runs a routine. -/
def live (x : Tun) : State := State.reset.setTun 0 { x with running := true }

/-- V1 and V2 tagged, S1 tagged. -/
def tagged : State := live { vtag := [1, 2], stag := [1] }

theorem wit_tun_live : tunLive ((live {}).tun 0) = true := by decide +kernel

theorem wit_shifts_by_element : tunLive (tagged.tun 0) = true ∧ vTag (tagged.tun 0) 0 = false ∧ vTag (tagged.tun 0) 1 = true := by
  decide +kernel

/-- R117: M0 and M1 hold the moduli of ML-KEM and ML-DSA after reset; the Montgomery product's odd modulus. -/
theorem wit_modular : tunLive ((live {}).tun 0) = true ∧ ModularReady ((live {}).tun 0) { vew := 1 } ∧
    modulusOf ((live {}).tun 0) { vew := 1 } % 2 = 1 := by
  unfold ModularReady; decide +kernel

/-- At width 16 VLMAX is 512: the largest stride is 256. -/
theorem wit_butterfly : ModularReady ((live {}).tun 0) { vew := 1, vperm := 8 } ∧
    modulusOf ((live {}).tun 0) { vew := 1, vperm := 8 } % 2 = 1 ∧ 2 * 2 ^ ((8 : BitVec 6).toNat % 16) ≤ vlMax (widthOf 1) := by
  unfold ModularReady; decide +kernel

theorem wit_fixed_point : ((1 : BitVec 2) = 1 ∨ (1 : BitVec 2) = 2) ∧ tunLive ((live {}).tun 0) = true := by decide +kernel

theorem wit_reduce : 0 < effCount ((live { vl := 1 }).tun 0) 8 ∧ effCount ((live {}).tun 0) 8 = 0 ∧ 1023 < vlMax 8 := by decide +kernel

/-- The largest block at width 8, and each of the four patterns. -/
theorem wit_permute : tunLive (tagged.tun 0) = true ∧ (0 : BitVec 2) ≠ 3 ∧ 2 ^ ((0x3A : BitVec 6).toNat % 16) ≤ vlMax (widthOf 0) ∧
    (0x0A : BitVec 6).toNat / 16 = 0 ∧ (0x1A : BitVec 6).toNat / 16 = 1 ∧ (0x2A : BitVec 6).toNat / 16 = 2 ∧
    (0x3A : BitVec 6).toNat / 16 = 3 ∧ vTag (tagged.tun 0) 0 = false ∧ vTag (tagged.tun 0) 1 = true := by decide +kernel

theorem wit_packing : tunLive ((live {}).tun 0) = true ∧ (8 : BitVec 32).toNat % 64 ≤ widthOf 0 := by decide +kernel

theorem wit_shares : 0 < effCount ((live { vl := 1, vtag := [1] }).tun 0) 64 ∧
    vTag ((live { vl := 1, vtag := [1] }).tun 0) (1 : BitVec 5).toNat = true ∧
    modulusOf ((live {}).tun 0) { vmod := 0 } ≠ 0 ∧ (0 : BitVec 5).getLsbD 4 = false := by decide +kernel

theorem wit_tags : 0 < effCount ((live { vl := 1 }).tun 0) 8 ∧ tunLive ((live { vl := 1 }).tun 0) = true := by decide +kernel

/-- The least modulus that `SMSET` takes, the greatest that it refuses, and a tagged source. -/
theorem wit_smset :
    2 ≤ ((scalar ((live { s := [(2, 2)] }).tun 0) 2).extractLsb' 0 31).toNat ∧
    ((scalar ((live { s := [(2, 1)] }).tun 0) 2).extractLsb' 0 31).toNat < 2 ∧
    sTag ((live { s := [(2, 2)] }).tun 0) 2 = false ∧ sTag (tagged.tun 0) 1 = true := by decide +kernel

/-- Keccak cores 1 and 4 at the bounds of the operands of their actions; SHA cores 5 and 6, the last mode. -/
theorem wit_hash_cores : tunLive ((live {}).tun 0) = true ∧
    (4 : BitVec 6).toNat % 8 = 4 ∧ (24 : BitVec 32).toNat % 256 ≤ 24 ∧
    (136 : BitVec 32).toNat % 256 + (136 : BitVec 32).toNat / 256 % 256 ≤ 8 * (kecCore ((live { kec := [(0, { rate := 17 })] }).tun 0) 0).rate ∧
    (0x18BF1F : BitVec 32).toNat / 65536 % 256 = 24 ∧ (0x18BF1F : BitVec 32).toNat / 256 % 256 < 8 * 24 ∧
    (0x0000C8 : BitVec 32).toNat % 256 + (0x0000C8 : BitVec 32).toNat / 256 % 256 ≤ 200 ∧
    (5 : BitVec 6).toNat % 8 = 5 ∧ (6 : BitVec 6).toNat % 8 = 6 ∧ (4 : BitVec 32).toNat % 8 ≤ 4 := by decide +kernel

/-- A load and a store of four fields at the end of the scratch and of the register file, with the post-increment. -/
def edge : Tun := { vl := 64, s := [(1, 523776)], vew := 1 }

theorem wit_gang : tunLive ((live edge).tun 0) = true ∧ GangOk (live edge) 0 := by unfold GangOk; decide +kernel

theorem wit_load : AccessOk (live edge) 0 { vew := 1, mld := 4, mldAddr := 0x11, vdst := 28 } 0x11 (64 * 4 * (16 / 8)) 28 4 ∧
    effCount ((live edge).tun 0) 16 = 64 := by
  unfold AccessOk; decide +kernel

theorem wit_broadcast_load : AccessOk (live edge) 0 { vew := 1, mld := 5, mldAddr := 0x11, vdst := 31 } 0x11 (16 / 8) 31 1 := by
  unfold AccessOk; decide +kernel

theorem wit_store : AccessOk (live edge) 0 { vew := 1, mst := 4, mstAddr := 0x11, vsrcB := 28 } 0x11 (64 * 4 * (16 / 8)) 28 4 := by
  unfold AccessOk; decide +kernel

/-- R126, R139: a tagged address, an odd address at width 16, a byte past the scratch, a fifth register past V31. -/
theorem wit_bad_access : sTag (tagged.tun 0) ((1 : BitVec 6).toNat % 16) = true ∧
    (scalar ((live { s := [(1, 1)] }).tun 0) 1).toNat % (16 / 8) ≠ 0 ∧
    scratchSize (live { s := [(1, 524288)], vl := 1 }) 0 <
      (scalar ((live { s := [(1, 524288)], vl := 1 }).tun 0) 1).toNat + effCount ((live { vl := 1 }).tun 0) 16 * 1 * (16 / 8) ∧
    32 < (29 : BitVec 5).toNat + 4 := by decide +kernel

theorem wit_excluded_forms : modulusOf ((live {}).tun 0) { vmod := 2 } = 0 ∧ modulusOf ((live {}).tun 0) { vmod := 2 } % 2 = 0 ∧
    2 ^ 15 ≤ modulusOf ((live {}).tun 0) { vew := 1, vmod := 1 } ∧ (16 : BitVec 5).getLsbD 4 = true ∧
    vlMax (widthOf 0) < 2 * 2 ^ ((10 : BitVec 6).toNat % 16) := by decide +kernel

/-- Eight bytes of RESULT are kept and the ninth ends the routine; a closed-stacks routine holds no tagged byte back, one with the
right releases it. -/
theorem wit_queues :
    ((vTag (tagged.tun 0) 0 && decide (0 < 8)) && (!false || !false)) = false ∧
    ((live { result := [], vl := 8 }).tun 0).result.length + effCount ((live { vl := 8 }).tun 0) 8 * (8 / 8) ≤ 8 ∧
    8 < ((live { result := [], vl := 9 }).tun 0).result.length + effCount ((live { vl := 9 }).tun 0) 8 * (8 / 8) ∧
    (vTag ((live { vtag := [1], vl := 1 }).tun 0) 1 && decide (0 < effCount ((live { vtag := [1], vl := 1 }).tun 0) 8)) = true ∧
    (envOf (live { vtag := [1] }) 0 ((live { vtag := [1] }).tun 0)).closed = true ∧
    (envOf (live {}) 0 ((live {}).tun 0)).hold = false ∧ (envOf (live {}) 0 ((live {}).tun 0)).dest = false := by
  decide +kernel

/-- Tun 0 serves slip 0, which has `HOLD` and a destination. -/
def serving (cs : CallSlip) (x : Tun) : State :=
  { State.reset with hop := { hoppers := [(0, { carrel := 0, index := 0 })], slips := [(0, { hopper := 0, carrel := 0, cs := cs, head := 0, phase := .running })] } }.setTun 0
    { x with running := true, sid := some 0 }

theorem wit_queues_of_the_slip :
    (envOf (serving { flags := 0x20 } { vl := 64 }) 0 ((serving { flags := 0x20 } { vl := 64 }).tun 0)).hold = true ∧
    effCount ((serving { flags := 0x20 } { vl := 64 }).tun 0) 8 * (8 / 8) = 64 ∧
    (envOf (serving { dest := 0x80000000 } {}) 0 ((serving { dest := 0x80000000 } {}).tun 0)).dest = true := by
  decide +kernel

theorem wit_control_fields : sTag (tagged.tun 0) 2 = false ∧ sTag (tagged.tun 0) 1 = true ∧
    ((live {}).tun 0).openRoutine = false ∧ ((live { openRoutine := true }).tun 0).openRoutine = true ∧ (3 : BitVec 4).toNat < 4 := by
  decide +kernel

/-- The word with its check bits (R144). -/
def checked (w : Microword) : Microword := { w with check := crc16 (le 22 ((packWord w).toNat % 2 ^ 176)) }

/-- Tun 0 stands at word 0 of the control store, which is `w`. -/
def atWord0 (w : Microword) (x : Tun) : State :=
  let s := live x
  { s with tuns := { s.tuns with store := [(0, packWord (checked w))] } }

theorem wit_sequencer (k : BitVec 4) (h : k = 0 ∨ k = 1 ∨ k = 3 ∨ k = 5 ∨ k = 6 ∨ k = 7 ∨ k = 8) :
    let s := atWord0 { seqOp := k } { stack := [7] }
    tunLive (s.tun 0) = true ∧ GangOk s 0 ∧ WordAt s 0 (checked { seqOp := k }) ∧ ActionsComplete s 0 (checked { seqOp := k }) ∧
    PureSequencing (checked { seqOp := k }) ∧ gangOf s 0 (s.tun 0) = [0] ∧ (checked { seqOp := k }).safe = false ∧
    (s.tun 0).stack.length < 8 := by
  unfold GangOk WordAt ActionsComplete PureSequencing
  rcases h with rfl | rfl | rfl | rfl | rfl | rfl | rfl <;> decide +kernel

/-- Branch and conditional call on the last condition code, with a flag read while it is not tagged. -/
theorem wit_conditions (k : BitVec 4) (h : k = 2 ∨ k = 4) :
    let s := atWord0 { seqOp := k, cond := 0x23 } { stack := [7] }
    WordAt s 0 (checked { seqOp := k, cond := 0x23 }) ∧ ActionsComplete s 0 (checked { seqOp := k, cond := 0x23 }) ∧
    ConditionReadable (s.tun 0) 0x23 ∧ ConditionReadable (s.tun 0) 0x0B := by
  unfold WordAt ActionsComplete ConditionReadable
  rcases h with rfl | rfl <;> decide +kernel

/-- A full return stack for the call, an empty one for the return. -/
theorem wit_stack_limits :
    8 ≤ ((atWord0 { seqOp := 3 } { stack := [1, 2, 3, 4, 5, 6, 7, 8] }).tun 0).stack.length ∧
    WordAt (atWord0 { seqOp := 3 } { stack := [1, 2, 3, 4, 5, 6, 7, 8] }) 0 (checked { seqOp := 3 }) ∧
    ((atWord0 { seqOp := 5 } {}).tun 0).stack = [] ∧ WordAt (atWord0 { seqOp := 5 } {}) 0 (checked { seqOp := 5 }) := by
  unfold WordAt; decide +kernel

/-- A running slip of class 5 on tun 0, with each request pending in turn. -/
def asked (ent : EntState) (abort susp : Bool) : State :=
  let s := serving { opcode := 0x5000 } {}
  ({ s with ent := { s.ent with state := ent } }).setSlip 0
    { hopper := 0, carrel := 0, cs := { opcode := 0x5000 }, head := 0, phase := .running, abortReq := abort, suspendReq := susp }

theorem wit_safe_points (e : EntState) (a b : Bool) :
    let s := asked e a b
    tunLive (s.tun 0) = true ∧ (s.tun 0).sid = some 0 ∧
    ∃ sl, s.slip? 0 = some sl ∧ sl.phase = .running ∧ sl.abortReq = a ∧ sl.suspendReq = b ∧ s.ent.state = e ∧ csClass sl.cs = 5 := by
  cases e <;> cases a <;> cases b <;> exact ⟨by decide, by decide, _, rfl, rfl, rfl, rfl, rfl, by decide⟩

theorem wit_watchdog : ((live { openRoutine := true }).tun 0).openRoutine = true ∧ ((live {}).tun 0).openRoutine = false := by decide +kernel

/-! Small checks of the vector unit against the manual's definitions. -/

/-- R123: (1000 × 20642679 + 2^31) / 2^32 is 5. -/
theorem test_vrmulhu_rounds :
    (match exec (.vrmulhu 0 { vew := 2, vsrcA := 1, vsrcB := 2, vdst := 3 })
        (live { v := [(1, 1000), (2, 20642679)], vl := 1 }) with
      | .next t => element 32 (t.tun 0) 3 0 | _ => 0) = 5 := by decide +kernel

/-- R123: at width 16, 32767 + 1 clamps and sets QSAT. -/
theorem test_vqadds_clamps :
    (match exec (.vqadds 0 { vew := 1, vsrcA := 1, vsrcB := 2, vdst := 3 }) (live { v := [(1, 32767), (2, 1)], vl := 1 }) with
      | .next t => (element 16 (t.tun 0) 3 0, (t.tun 0).qsat) | _ => (0, false)) = (32767, true) := by decide +kernel

/-- R122: 1 − 2 modulo 3329 is 3328. -/
theorem test_vmsub_wraps :
    (match exec (.vmsub 0 { vew := 1, vsrcA := 1, vsrcB := 2, vdst := 3 }) (live { v := [(1, 1), (2, 2)], vl := 1 }) with
      | .next t => element 16 (t.tun 0) 3 0 | _ => 0) = 3328 := by decide +kernel

/-- R119: an element at or above VL keeps its value. -/
theorem test_vadd_keeps_the_rest :
    (match exec (.vadd 0 { vew := 0, vsrcA := 1, vsrcB := 1, vdst := 1 }) (live { v := [(1, 0x0202)], vl := 1 }) with
      | .next t => element 16 (t.tun 0) 1 0 | _ => 0) = 0x0204 := by decide +kernel

/-- R130: 2^64 − 1 plus 1 is zero with a carry. -/
theorem test_sadd_carry :
    (match exec (.sadd 0 { sa := 1, sb := 2, sd := 3 }) (live { s := [(1, 0xFFFF_FFFF_FFFF_FFFF), (2, 1)] }) with
      | .next t => (scalar (t.tun 0) 3, (t.tun 0).fz, (t.tun 0).fc) | _ => (1, false, false)) = (0, true, true) := by decide +kernel

/-- R115: S0 takes no value. -/
theorem test_s0_reads_zero :
    (match exec (.sli 0 { imm := 5, sd := 0 }) (live {}) with
      | .next t => scalar (t.tun 0) 0 | _ => 1) = 0 := by decide +kernel

/-- R143: the fields of a packed word are read back. -/
theorem test_word_fields : unpackWord (packWord (checked { seqOp := 8, vop := 0x51, imm := 0x0405, sd := 15 })) =
    checked { seqOp := 8, vop := 0x51, imm := 0x0405, sd := 15 } := by decide +kernel

/-- R157: FAIL ends the routine with the status in its immediate. -/
theorem test_seq_fail :
    (match exec (.seqFail 0) (atWord0 { seqOp := 8, imm := 0x0405 } {}) with
      | .next t => (t.tun 0).ended | _ => none) = some (.status 0x0405) := by decide +kernel

/-! ## Slips -/

/-- Slip 0 runs on hopper 0 of carrel 0; its last stage, its data there. -/
def slipOf (cls set op : Nat) : Slip :=
  { hopper := 0, carrel := 0, cs := { opcode := BitVec.ofNat 16 (4096 * cls + 256 * set + op) }, head := 0, phase := .running }

def withSlip (sl : Slip) : State :=
  { State.reset with hop := { hoppers := [(0, { carrel := 0, index := 0, attach := .host })], slips := [(0, sl)] } }

/-- For every class, set and operation: a state in which the slip runs, and no policy is against it. -/
theorem wit_slip_runs (cls set op : Nat) (hc : cls < 16) (hs : set < 16) (ho : op < 256) :
    SlipRuns (withSlip (slipOf cls set op)) 0 (slipOf cls set op) cls op ∧ csSet (slipOf cls set op).cs = set ∧
    PolicyAdmits (withSlip (slipOf cls set op)) (slipOf cls set op) := by
  have hm : (4096 * cls + 256 * set + op) % 65536 = 4096 * cls + 256 * set + op := Nat.mod_eq_of_lt (by omega)
  refine ⟨⟨rfl, rfl, rfl, rfl, rfl, ?_, ?_⟩, ?_, rfl, fun k hk => by cases hk⟩
  · simp only [csClass, slipOf, BitVec.toNat_ofNat]; omega
  · simp only [csOp, slipOf, BitVec.toNat_ofNat]; omega
  · simp only [csSet, slipOf, BitVec.toNat_ofNat]; omega

theorem zeros_length (n : Nat) : (zeros n).length = n := List.length_replicate

theorem slice_append (a x c : Bytes) : slice (a ++ (x ++ c)) a.length x.length = x := by simp [slice, fit]

/-- R190: encapsulation keys whose first coefficient is 3328 and 3329; a decapsulation key that carries its own hash. -/
theorem wit_kem_inputs : coeffsOk [0x00, 0x0D, 0] = true ∧ coeffsOk [0x01, 0x0D, 0] = false ∧
    ∃ dk, dkOk 0 dk = true := by
  have hl : ∀ b : Bytes, (fit 32 b).length = 32 := fun b => by simp [fit, zeros_length]; omega
  refine ⟨by decide, by decide, zeros 768 ++ (zeros 800 ++ (fit 32 (Config.compute (.sha3 256) [zeros 800]) ++ zeros 32)), ?_⟩
  have h1 := slice_append (zeros 768) (zeros 800) (fit 32 (Config.compute (.sha3 256) [zeros 800]) ++ zeros 32)
  have h2 := slice_append (zeros 768 ++ zeros 800) (fit 32 (Config.compute (.sha3 256) [zeros 800])) (zeros 32)
  rw [zeros_length, zeros_length] at h1
  rw [List.length_append, zeros_length, zeros_length, hl, List.append_assoc] at h2
  simp only [dkOk, h1, h2, beq_self_eq_true]

/-- What an uninterpreted function answers decides between clauses: each such pair of clauses leaves no case out. -/
theorem wit_uninterpreted (p : Config.Prim) (xs : List Bytes) (kek d : Bytes) (s : State) :
    (Config.holds p xs = true ∨ Config.holds p xs = false) ∧ (unle (Config.compute p xs) % 257 ≠ 0 ∨ unle (Config.compute p xs) % 257 = 0) ∧
    (openRecord kek d = none ∨ ∃ r, openRecord kek d = some r) ∧ (allZero (s.freeBytes 32) = true ∨ allZero (s.freeBytes 32) = false) := by
  refine ⟨by cases Config.holds p xs <;> simp, (Decidable.em _).symm, ?_, by cases allZero (s.freeBytes 32) <;> simp⟩
  cases h : openRecord kek d
  · exact .inl rfl
  · exact .inr ⟨_, rfl⟩

/-- Stateful keys: an XMSS key of the first OID, whole and as a public key; an OID of no set; a slip that claims both. -/
theorem wit_stateful_key :
    stfOfMat ([0x0D, 0] ++ le 4 1 ++ zeros 600) = xmssSet 1 ∧ (xmssSet 1).isSome = true ∧
    (stfPkSet 13 (be 4 1 ++ zeros 64)).isSome = true ∧ stfPkSet 13 (be 4 0x16 ++ zeros 64) = none ∧
    (stfAsked 13 1 []).isSome = true ∧ (stfKey State.reset 5).cached = false ∧
    (stfKey (setStfKey State.reset 5 { cached := true }) 5).cached = true := by decide +kernel

theorem wit_code_kem : ckPadOk 3 [] = true ∧ (ckPadOk 9 [] = true ∨ ckPadOk 9 [] = false) := by
  refine ⟨by decide, ?_⟩; cases ckPadOk 9 [] <;> simp

/-- A state record of SHA-256 with nothing in it, the greatest total that it may reach, and a record of another function. -/
def dgst (f total : Nat) : Bytes := le 4 0x44475354 ++ [BitVec.ofNat 8 f, 1] ++ le 2 0 ++ le 8 total ++ zeros 368

theorem wit_digest_records :
    field (dgst 1 0) 0 4 = 0x44475354 ∧ field (dgst 1 0) 4 1 = 1 ∧ field (dgst 1 0) 5 1 = 1 ∧ field (dgst 1 0) 6 2 = field (dgst 1 0) 8 8 % 64 ∧
    allZero (slice (dgst 1 0) 48 168) = true ∧ allZero ((dgst 1 0).drop 216) = true ∧ field (dgst 1 0) 8 8 + 0 < 2 ^ 61 ∧
    field (dgst 2 0) 4 1 ≠ 1 ∧ 2 ^ 61 ≤ field (dgst 1 (2 ^ 61)) 8 8 + 0 ∧ field (dgst 1 (2 ^ 61)) 6 2 = field (dgst 1 (2 ^ 61)) 8 8 % 64 ∧
    State.reset.tmp.lcs = .factory ∧ ({ State.reset with tmp := { State.reset.tmp with lcs := .provisioned } }).tmp.lcs ≠ .factory := by
  decide +kernel

/-- Symmetric slips: a key of each length; held data and a message of 65,537 bytes; the flags of `PARAM`; check values of pass 1
that agree and that do not; XTS keys whose halves are equal and are not. -/
theorem wit_pipes (d : Bytes) :
    ([16, 24, 32, 32].getD 3 0 = 32 ∧ (zeros 16).length = [16, 24, 32, 32].getD 0 0 ∧ (zeros 15).length ≠ [16, 24, 32, 32].getD 0 0) ∧
    (decide ((zeros 65536).length ≤ 65536) = true ∧ decide ((zeros 65537).length ≤ 65536) = false) ∧
    (bit 0x200 9 = true ∧ bit 0 9 = false ∧ bit 0 8 = false ∧ bit 0 32 = false) ∧
    (let v := fit 16 (Config.compute .aesGcmTag [zeros 16, d])
     (zeros 16 ++ v).drop 16 = v ∧ (zeros 16 ++ v).take 16 = zeros 16 ∧ ([] : Bytes).drop 16 ≠ v) ∧
    ((fit 16 d).take 0 = ([] : Bytes).drop (0 - 0) ∧ (fit 16 d).take 16 ≠ ([] : Bytes).drop (0 - 16)) ∧
    ((zeros 32).take 16 = (zeros 32).drop 16 ∧ ¬ (zeros 16 ++ [1]).take 16 = (zeros 16 ++ [1]).drop 16) := by
  have hl : ∀ b : Bytes, (fit 16 b).length = 16 := fun b => by simp [fit, zeros_length]; omega
  refine ⟨by decide, ⟨by simp [zeros_length], by simp [zeros_length]⟩, by decide, ⟨rfl, rfl, fun h => ?_⟩, ⟨by simp, fun h => ?_⟩, by decide⟩
  · have := congrArg List.length h; simp [hl] at this
  · have := congrArg List.length h; simp [hl] at this

/-- Pass 1: a stored input of 65,537 bytes on a hopper that can post. -/
theorem wit_pass_one :
    let sl : Slip := { slipOf 4 0 1 with inData := zeros 65537, key := some { material := zeros 16 } }
    let sl' : Slip := { sl with cs := { sl.cs with keyRef := 0x80000000 } }
    ∃ h, (withSlip sl').hopper? 0 = some h ∧ canPost (withSlip sl') h = true ∧ sl'.head = 0 ∧ csChain sl'.cs = false ∧
      65536 < sl'.inData.length ∧ bit (csParam sl'.cs) 9 = false ∧ sl'.pass1 = none ∧
      (pipeKey (withSlip sl') sl').length = [16, 24, 32, 32].getD (csSet sl'.cs) 0 ∧ (sl'.inData.drop (65537 - 0)) = [] := by
  refine ⟨_, rfl, by decide, rfl, by decide, by simp [zeros_length], by decide, rfl, by decide, by simp [zeros_length]⟩

/-- Points and scalars of P-256: the base point as a public point, scalars 1 and n, a point off the curve. -/
def p256 : Curve := nistCurve 1

theorem wit_kilns :
    slipCurve State.reset (slipOf 6 1 1) = p256 ∧
    (1 ≠ 0 ∧ 1 < p256.n) ∧ ¬ (p256.n ≠ 0 ∧ p256.n < p256.n) ∧
    p256.pubPoint ([4] ++ be 32 p256.gx ++ be 32 p256.gy) = some (p256.gx, p256.gy) ∧
    p256.mul 1 (some (p256.gx, p256.gy)) = some (p256.gx, p256.gy) ∧
    p256.pubPoint ([4] ++ be 32 p256.gx ++ be 32 (p256.gy + 1)) = none ∧
    p256.rawPoint (be 32 p256.gx ++ be 32 p256.gy) = some (p256.gx, p256.gy) ∧ p256.rawPoint (zeros 64) = none := by
  decide +kernel

/-- RSA: public exponents 3 and 2; a ciphertext below the modulus and one equal to it. Curves: coordinates out of range. -/
theorem wit_rsa_and_curve :
    (3 ≤ unbe (be 4 3) ∧ unbe (be 4 3) % 2 = 1) ∧ ¬ (3 ≤ unbe (be 4 2) ∧ unbe (be 4 2) % 2 = 1) ∧
    unbe [0] < unbe ([5, 0, 0].take 1) ∧ unbe ([5, 0, 0].take 1) ≤ unbe [5] ∧
    curveFails (parseCurve 16 ([1] ++ zeros 15 ++ [2] ++ zeros 81)) [] [] = some 1 ∧ field ([1] ++ zeros 97) 0 1 ≠ 0 ∧ field (zeros 98) 0 1 = 0 ∧
    (∀ k : Curve, curveFails k [] [] = none ∨ ∃ i, curveFails k [] [] = some i) := by
  refine ⟨by decide, by decide, by decide, by decide, by decide +kernel, by decide, by decide, fun k => ?_⟩
  cases curveFails k [] []
  · exact .inl rfl
  · exact .inr ⟨_, rfl⟩

/-- Modular operands at the ends of their ranges; 2 is invertible modulo 3, 3 is not modulo 9. -/
theorem wit_field_operations :
    (3 ≤ unbe [3] ∧ unbe [3] % 2 = 1 ∧ unbe [2] < unbe [3] ∧ unbe [3] ≤ unbe [3]) ∧ (unbe [2] < 3 ∧ unbe [4] % 2 = 0) ∧
    invMod 2 3 = some 2 ∧ invMod 3 9 = none ∧ unbe (be 32 (p256.n - 1)) < p256.n ∧ p256.n ≤ unbe (be 32 p256.n) := by
  decide +kernel

/-- Entropy is ready and the client instance is live: a random slip gets its bytes. -/
def random : State :=
  let s := withSlip (slipOf 0 0 2)
  { s with ent := { s.ent with state := .ready, drbgs := [(25, { live := true })] } }

theorem wit_random : ∃ t, cliRequest random 0 false = some (t, random.freeBytes 0) ∧ (random.freeBytes 0).length ≤ 0 :=
  ⟨_, rfl, by simp [State.freeBytes]⟩

theorem wit_control_and_catalogue :
    let sl := { slipOf 0 0 1 with cs := { (slipOf 0 0 1).cs with outMax := 64 } }
    64 ≤ (cxOf (withSlip sl) sl).outMax ∧ (∃ h, (withSlip sl).hopper? 0 = some h) ∧
    ¬ (0x68 ≤ (slipAttr (slipOf 8 0 1).cs []).cls ∧ (slipAttr (slipOf 8 0 1).cs []).cls ≤ 0x6A) ∧
    (0x68 ≤ (slipAttr { opcode := 0x8001, dlExt := 0x10000000 } [[0x6A]]).cls → (slipAttr { opcode := 0x8001, dlExt := 0x10000000 } [[0x6A]]).cls ≤ 0x6A) ∧
    ({ slipOf 8 0 2 with key := some {} } : Slip).key = some {} ∧ ({ slipOf 8 0 0x20 with other := some {} } : Slip).other = some {} ∧
    (slipOf 8 0 0x40).uses = [] := by
  refine ⟨by decide, ⟨_, rfl⟩, by decide, by decide, rfl, rfl, rfl⟩

/-- A slip that only proves not approved when it runs, where the carrel and where the key allow approved services only. -/
theorem wit_not_approved :
    let sl : Slip := { slipOf 4 3 1 with
      cs := { (slipOf 4 3 1).cs with keyRef := 0x80000000 }, key := some { material := zeros 32, approvedOnly := true } }
    let s := withSlip sl
    SlipRuns s 0 sl 4 0x01 ∧ csSet sl.cs = 3 ∧ (pipeKey s sl).length = 32 ∧ sl.inData.length ≤ 65536 ∧
    (s.carrel 0).approvedOnly = false ∧ ((s.setCarrel 0 { s.carrel 0 with approvedOnly := true }).carrel 0).approvedOnly = true ∧
    SlipRuns (s.setCarrel 0 { s.carrel 0 with approvedOnly := true }) 0 sl 4 0x01 ∧
    ∃ k, sl.key = some k ∧ k.approvedOnly = true := by
  refine ⟨?_, by decide, by decide, by decide, rfl, rfl, ?_, ⟨_, rfl, rfl⟩⟩ <;> (unfold SlipRuns; decide)

/-! ## Fetching, dispatch, units -/

/-- A device that is READY, its carrel 0 ACTIVE with one host-attached hopper that has an entry to fetch, its entropy ready. -/
def ready : State :=
  { State.reset with
    reg := { State.reset.reg with dev := .ready, served := true }
    tmp := { State.reset.tmp with lcs := .provisioned }
    ent := { State.reset.ent with state := .ready, drbgs := [(0, { live := true }), (25, { live := true })] }
    qdr := { State.reset.qdr with guardKeys := true }
    carrels := [(0, { st := .active })]
    hop := { hoppers := [(0, { carrel := 0, index := 0, attach := .host, state := .active, p := 1 })] } }

theorem wit_fetch : ∃ h, ready.hopper? 0 = some h ∧ fetchOpen ready = true ∧ eligible ready 0 h = true ∧ fetchTurn ready 0 = true ∧
    0 < 1 ∧ 1 ≤ available ready 0 h ∧ eligible ready 0 { h with p := 0 } = false := by
  refine ⟨_, rfl, ?_⟩; decide +kernel

/-- A staged slip of a class on an engine, checked. -/
def staged (cls op : Nat) (e : EngineType) : Slip :=
  { slipOf cls 0 op with phase := .staged, engine := e, checked := true, fetched := true }

def waiting (sl : Slip) : State := { ready with hop := { ready.hop with slips := [(0, sl)] } }

theorem wit_dispatch_control :
    (startables (noteLeaseWait (checkReady (waiting (staged 0 0 .none)))) .none).head? = some (0, staged 0 0 .none) := by
  decide +kernel

theorem wit_dispatch_unit :
    let s := waiting (staged 5 1 .floor)
    let r := noteLeaseWait (checkReady s)
    let c := catchUp r .floor (startables r .floor)
    pickSlip c .floor ((startables c .floor).filter fun p => (chooseUnits c .floor p.2).isSome) = some (0, staged 5 1 .floor) ∧
    (chooseUnits c .floor (staged 5 1 .floor)).isSome = true ∧ openBroken c (staged 5 1 .floor) = none ∧
    shedIfLate c (staged 5 1 .floor) = false := by
  decide +kernel

/-- Clusters in each state; a warm pool of one cluster that is awake, and one too many. -/
def clustered (x : ClusterState) (more : Tab ClusterState) : State :=
  State.reset.setUnits .tun { clusters := (0, x) :: more }

theorem wit_clusters :
    clusterState ((clustered (.waking 5) []).units .tun) 0 = .waking 5 ∧ clusterState ((clustered .nap []).units .tun) 0 = .nap ∧
    clusterState ((clustered .idle [(1, .idle)]).units .tun) 0 = .idle ∧
    warmTarget (clustered .idle []) .tun < awakeClusters (clustered .idle []) .tun ∧
    (let s := { clustered .idle [] with sched := { (clustered .idle []).sched with warmTun := 8 } }
     clusterState (s.units .tun) 0 = .idle ∧ awakeClusters s .tun ≤ warmTarget s .tun ∧ clusterDropped s .tun 0 = false) := by
  decide +kernel

/-- A slip that has executed, alone in its chain. -/
def executed : Slip := { slipOf 0 0 0 with phase := .executed }

theorem wit_execution_complete :
    ∃ h, chainOf (waiting executed) 0 = [(0, executed)] ∧ executed.head = 0 ∧ executed.chainComplete = true ∧ executed.slotOps = [] ∧
      executed.secret = none ∧ executed.writesLeft = 0 ∧ isLate (waiting executed) executed = false ∧ executed.status ≠ 0x0504 ∧
      (waiting executed).hopper? 0 = some h := by
  refine ⟨_, by decide, by decide, by decide, by decide, by decide, by decide, by decide +kernel, by decide, rfl⟩

theorem wit_stages_and_suspension :
    (let sl := { slipOf 5 0 1 with final := false }
     sl.phase = .running ∧ sl.readsLeft = 0 ∧ unitAwake (waiting sl) sl = true ∧ endedTun (waiting sl) sl = none ∧ sl.final = false ∧
     csInline sl.cs = false ∧ csClass sl.cs ≠ 2) ∧
    ({ slipOf 5 0 1 with readsLeft := 1 } : Slip).readsLeft ≠ 0 ∧
    (let sl := { slipOf 4 0 1 with isLong := true, cfg := { long := true }, engine := .pipe, suspendReq := true }
     sl.phase = .running ∧ sl.abortReq = false ∧ sl.suspendReq = true ∧ sl.isLong = true ∧ sl.cfg.long = true ∧ sl.engine = .pipe) ∧
    suspendable { slipOf 5 1 1 with isLong := true, cfg := { long := true }, engine := .tun } = true ∧
    yields { slipOf 2 1 1 with isLong := true, engine := .floor } = true ∧
    (let sl := { slipOf 4 0 1 with isLong := true, cfg := { long := true }, engine := .floor }
     let s := { waiting sl with hop := { ready.hop with slips := [(0, sl), (1, { staged 5 1 .floor with head := 1 })] } }
     suspendedCount s < contextLimit s ∧ (s.carrel 0).st ≠ .quiescing ∧ startables s .floor ≠ [] ∧
     startables (waiting sl) .floor = []) := by
  decide +kernel

theorem wit_hopper_stop :
    let stop : Hopper := { carrel := 0, index := 0, state := .stopping }
    (∃ h, (ready.setHopper 0 stop).hopper? 0 = some h ∧ h.state = .stopping ∧ inFlight (ready.setHopper 0 stop) 0 = 0) ∧
    inFlight ((waiting executed).setHopper 0 stop) 0 ≠ 0 := by
  exact ⟨⟨_, rfl, rfl, by decide⟩, by decide⟩

/-- A tun that runs a slip, its sources set to act within the device; fenced units; a scrub and a wipe in progress. -/
theorem wit_units :
    let sl := { slipOf 1 0 1 with engine := .tun, unit := some 0 }
    let s := waiting sl
    sourceEngine 0x201 = .tun ∧ 0 < physUnits .tun ∧ Tab.has (s.units .tun).fenced 0 = false ∧
    (∀ n ∈ [0x201, 0x300, 0x301], (srcCfg s n).minor.getLsbD 3 = false ∧ (srcCfg s n).severe.getLsbD 3 = false) ∧
    (s.hop.slips.filter fun p => p.2.engine == .tun && (match logicalOf .tun (s.units .tun) 0 with
      | some l => (heldUnits p.2).contains l
      | none => false)) = [(0, sl)] ∧ sl.retried = false ∧ s.cel.stage < 4 ∧ admitted s sl = true := by
  decide +kernel

theorem wit_retest :
    Tab.get? ((State.reset.setUnits .tun { fenced := [(0, .minor)], map := [(0, none)] }).units .tun).fenced 0 = some .minor ∧
    (vacant .tun ((State.reset.setUnits .tun { fenced := [(0, .minor)], map := [(0, none)] }).units .tun)).head? = some 0 ∧
    Tab.get? ((State.reset.setUnits .tun { fenced := [(0, .severe)] }).units .tun).fenced 0 = some .severe ∧
    ((State.reset.setTun 0 { scrubbing := true }).tun 0).scrubbing = true ∧ ((State.reset.setKiln 0 { wiping := true }).kiln 0).wiping = true ∧
    ready.flt.errLatch.flag = false ∧ ready.reg.dev ≠ .failed ∧ ready.ent.state ≠ .failed ∧
    ({ ready with flt := { ready.flt with errLatch := { flag := true } } }).flt.errLatch.flag = true := by
  decide +kernel

/-- An open-stacks image with one entry, and a slip of class 0xF on tun 0. -/
def img : OstkImage :=
  { id := 1, version := 1, entries := [{ addr := 0x3FFF, flags := 0, minCycles := 0, estBase := 0, estPerKib := 0, keyUsage := 0 }]
    declassify := false, minLib := 0, signer := 0, carrels := 1, measure := [], words := [] }

theorem wit_open_stacks :
    let sl := { slipOf 15 0 0 with engine := .tun, unit := some 0 }
    let s := { waiting sl with tuns := { State.reset.tuns with active := some img } }
    opReady s 0 0xF (fun _ => true) = some sl ∧ (physUnitsOf s sl).head? = some 0 ∧ s.tuns.active = some img ∧
    (s.tun 0).running = false ∧ (img.entries[csOp sl.cs]?).isSome = true := by
  decide +kernel

theorem wit_mask_reseed :
    let s := { ready with ent := { ready.ent with drbgs := [(17, { live := true })] } }
    s.ent.state ≠ .failed ∧ (drbg s 17).live = true ∧ reseedDue s 17 = false ∧ (drbg s 17).reseedDue = false ∧ 17 + s.ent.nextMsk % 8 = 17 := by
  decide +kernel

/-! ## Doorbells and queue pairs -/

/-- A doorbell record of hopper 0: sequence 1, producer index `p`. -/
def bell (p : Nat) : Bytes := le 4 0 ++ le 4 1 ++ le 4 p ++ le 4 0

theorem wit_doorbell_records : ∃ h, ready.hopper? 0 = some h ∧ h.p = 1 ∧ h.ci = 0 ∧ h.depthLog2 = 6 ∧
    (field (bell 64) 0 4 = 0 ∧ field (bell 64) 4 4 = 1 ∧ field (bell 64) 8 4 = 64 ∧ field (bell 64) 12 2 = 0 ∧ field (bell 64) 14 2 = 0) ∧
    (64 ≤ 2 ^ h.depthLog2 ∧ (1 : Nat) ≤ 64) ∧ ((0#32 - h.ci).toNat < (h.p - h.ci).toNat) ∧ 2 ^ h.depthLog2 < (65#32 - h.ci).toNat ∧
    field (le 4 1 ++ zeros 12) 0 4 ≠ 0 ∧ 1 < field (zeros 12 ++ le 4 2) 12 2 ∧ field (zeros 12 ++ [0, 0, 1, 0]) 14 2 ≠ 0 := by
  refine ⟨_, rfl, rfl, rfl, rfl, ?_⟩; decide +kernel

/-- Queue pair 0x100 serves hopper 0 of carrel 0. -/
def qp0 : Qp := { carrel := 0, phase := .rts, hopFirst := 0, hopCount := 1 }

def linked (q : Qp) (h : Hopper) : State := (ready.setQp 0x100 q).setHopper 0 h

theorem wit_doorbell_writes :
    let s := linked qp0 { carrel := 0, index := 0, qpn := some 0x100 }
    s.qp? 0x100 = some qp0 ∧ qp0.phase = .rts ∧ qp0.recvPsn = BitVec.ofNat 24 0 ∧ (zeros 1024).length = 1024 ∧ (zeros 15).length % 16 ≠ 0 ∧
    (0 : W32) = qp0.dbRkey ∧ hopperAt s 0 0 = some 0 ∧ hopperAt s 0 1 = none ∧ 1024 < (zeros 1025).length ∧ (1 : W32) ≠ qp0.dbRkey ∧
    (∀ x ∈ (List.range (((zeros 16).length + 15) / 16)).map fun i => hopperAt s 0 (0 / 16 + i),
      ∃ hn h, x = some hn ∧ s.hopper? hn = some h ∧ h.qpn = some 0x100) := by
  refine ⟨by decide, rfl, by decide, by decide +kernel, by decide, rfl, by decide, by decide, by decide +kernel, by decide, ?_⟩
  intro x hx
  rw [show (List.range (((zeros 16).length + 15) / 16)).map
    (fun i => hopperAt (linked qp0 { carrel := 0, index := 0, qpn := some 0x100 }) 0 (0 / 16 + i)) = [some 0] by decide +kernel] at hx
  exact ⟨0, { carrel := 0, index := 0, qpn := some 0x100 }, List.mem_singleton.mp hx, by decide, rfl⟩

theorem wit_host_doorbells : ∃ h, hopperAt ready 0 0 = some 0 ∧ ready.hopper? 0 = some h ∧ h.attach = .host ∧ 0 < 65536 ∧
    (zeros 16).length = 16 ∧ (zeros 8).length = 8 ∧
    Tab.get? ({ ready with hop := { ready.hop with hostLatch := [(0, zeros 8)] } }).hop.hostLatch (65536 * 0 + 0) = some (zeros 8) := by
  refine ⟨_, by decide, rfl, rfl, by decide, by decide, by decide, by decide⟩

/-- A token of carrel 0 for hopper 0, and a connection request that names it. -/
def token : Token := { value := 7, carrel := 0, first := 0, count := 1, mtu := 4096, expiry := 1 }

def req : CmReq :=
  { port := 0, vlan := 0, dstIp := .v4 2, rc := true, pathMtu := 1024, respRes := 16, rnrRetry := 6, retryCnt := 7, ackTimeout := 14, clientQpn := 5
    clientGid := 0, clientPsn := 9
    priv := le 4 0x44424E54 ++ le 2 1 ++ le 2 0 ++ le 16 7 ++ zeros 8 ++ zeros 60 }

def offered : State :=
  let h : Hopper := { carrel := 0, index := 0, state := .active }
  let s := ready.setHopper 0 h
  { s with
    carrels := [(0, { st := .active, net := { ports := [0], v4 := [(2, 24)] } })]
    ports := { s.ports with tokens := [(1, token)] } }

theorem wit_connect :
    liveToken offered (BitVec.ofNat 128 (field req.priv 8 16)) (field req.priv 6 2) = some (1, token) ∧
    reqRefused offered req (some (1, token)) = none ∧ reqRefused ready req none = some 2 ∧ freeQpn offered = some 0x100 ∧
    (offered.ports.qps.any fun p => p.2.token == some 1) = false ∧ (offered.hop.hoppers.all fun p => p.2.qpn.isNone) = true := by
  decide +kernel

theorem wit_rebind :
    let w : Qp := { qp0 with phase := .waitDrain [0x101] }
    let busy : Qp := { qp0 with phase := .draining, outstanding := [{ id := 1, kind := .ring 0 0, read := true, addr := 0, len := 64 }] }
    ((ready.setQp 0x100 w).setQp 0x101 qp0).qp? 0x100 = some w ∧ qp0.outstanding = [] ∧
    ((ready.setQp 0x100 w).setQp 0x101 busy).qp? 0x101 = some busy ∧ busy.outstanding ≠ [] ∧
    (let r : Qp := { qp0 with phase := .repSent }
     ∃ h, (linked r { carrel := 0, index := 0 }).qp? 0x100 = some r ∧ (linked r { carrel := 0, index := 0 }).hopper? 0 = some h ∧
      h.carrel = 0 ∧ h.held = [] ∧ h.statusPending = 0) ∧
    (let e : Qp := { qp0 with phase := .error }
     (ready.setQp 0x100 e).qp? 0x100 = some e ∧ e.phase = .error ∧ qp0.phase ≠ .error ∧ qp0.phase ≠ .repSent) := by
  refine ⟨by decide, by decide, by decide, by decide, ⟨_, by decide, rfl, rfl, rfl, rfl⟩, by decide⟩

/-- A queue pair with one request outstanding: a READ of input data, or a WRITE. -/
def asking (r : Req) (retry rnr : Nat) : State :=
  ready.setQp 0x100 { qp0 with outstanding := [r], retryLeft := retry, rnrLeft := rnr, rate := 1 / 10, target := 1 / 10 }

def readReq : Req := { id := 1, kind := .input 0 0, read := true, addr := 0, len := 4 }

theorem wit_requests :
    findReq (asking readReq 7 6) 0x100 1 = some readReq ∧ (zeros 4).length = readReq.len ∧ (zeros 3).length ≠ readReq.len ∧
    isRing readReq = false ∧
    (let w : Req := { readReq with kind := .returnSlip 0 0, read := false, imm := some 1 }
     findReq (asking w 7 6) 0x100 1 = some w ∧ w.read = false ∧ w.imm ≠ none ∧ isRing w = false) ∧
    (let w : Req := { readReq with kind := .returnSlip 0 0, read := false, rnrWait := true }
     findReq (asking w 7 0) 0x100 1 = some w ∧ w.rnrWait = true) ∧
    (∃ q, (asking readReq 0 0).qp? 0x100 = some q ∧ q.phase = .rts ∧ q.outstanding = [readReq] ∧ q.retryLeft = 0 ∧ q.rnrLeft = 0) ∧
    (∃ q, (asking readReq 1 1).qp? 0x100 = some q ∧ q.outstanding ≠ [] ∧ q.retryLeft ≠ 0 ∧ q.rnrLeft ≠ 0) ∧
    (∃ h, ready.hopper? 0 = some h) ∧
    (Tab.getD ({ ready with ports := { ready.ports with hostReqs := [(0, [readReq])] } }).ports.hostReqs 0 []).find? (fun x => x.id == 1) =
      some readReq := by
  refine ⟨by decide +kernel, by decide, by decide, by decide, by decide +kernel, by decide +kernel, ⟨_, rfl, ?_⟩, ⟨_, rfl, ?_⟩, ⟨_, rfl⟩, by decide⟩ <;>
    decide +kernel

/-- The least rate, and an octet whose ports carry at least that. -/
theorem wit_rates :
    let s := asking readReq 7 6
    let s' := { s with ports := { s.ports with octets := [(0, { mode := 1, state := .up })] } }
    ∃ q : Qp, s'.qp? 0x100 = some q ∧ q.phase = .rts ∧ 0 < q.alpha ∧ q.alpha ≤ 1 ∧ 1 / 10 ≤ q.rate ∧ q.rate ≤ q.target ∧
      q.target ≤ (portRate s' q.port : Rat) :=
  ⟨{ qp0 with outstanding := [readReq], retryLeft := 7, rnrLeft := 6, rate := 1 / 10, target := 1 / 10 }, by decide +kernel⟩

/-! ## Frames, addresses, ports -/

theorem wit_frames :
    carrelOn offered 0 0 = some 0 ∧ onNetwork offered 0 = true ∧ hasIp (offered.carrel 0).net (.v4 2) = true ∧
    hasIp (offered.carrel 0).net (.v4 3) = false ∧ carrelOn offered 0 1 = none ∧
    (let s := offered.setCarrel 0 { st := .active, net := { ports := [0], v6 := [(2, 64)] } }
     carrelOn s 0 0 = some 0 ∧ onNetwork s 0 = true ∧ hasIp (s.carrel 0).net (.v6 2) = true) ∧
    (offered.ports.qps.filter fun p => p.2.carrel == 0) = [] ∧ Tab.get? ({ ready with ports := { ready.ports with announce := [(0, 2)] } }).ports.announce 0 = some 2 := by
  decide +kernel

/-- A next hop in each state, last used at cycle 0 (R29: forgotten 10 s later). -/
def hopping (st : NhState) (now : Nat) : State :=
  { ready with now := now, ports := { ready.ports with nextHops := [{ carrel := 0, ip := .v4 2, port := 0, st := st, lastUse := 0 }] } }

theorem wit_next_hops :
    (∃ h, (hopping (.resolving 1) 0).ports.nextHops.find? (isHop 0 (.v4 2)) = some h ∧ h.st = .resolving 1) ∧
    (∃ h, (hopping (.resolving 2) 0).ports.nextHops.find? (isHop 0 (.v4 2)) = some h ∧ h.st = .resolving 2) ∧
    (∃ h, (hopping (.resolved 1) 375000000000).ports.nextHops.find? (isHop 0 (.v4 2)) = some h ∧
      375000000000 ≤ (hopping (.resolved 1) 375000000000).now - h.lastUse) ∧
    (∃ h, (hopping (.resolved 1) 374999999999).ports.nextHops.find? (isHop 0 (.v4 2)) = some h ∧
      (hopping (.resolved 1) 374999999999).now - h.lastUse < 375000000000) := by
  refine ⟨⟨_, rfl, rfl⟩, ⟨_, rfl, rfl⟩, ⟨_, rfl, by decide⟩, ⟨_, rfl, by decide⟩⟩

/-- Octet 0 with PFC on priority 7, its link up on the last port; a storm that is ignored. -/
def paused (x : PfcState) (up : BitVec 8) : State :=
  { ready with ports := { ready.ports with
    octets := [(0, { mode := 1, state := if up = 0 then .down else .up, pfcEn := 0x80, portUp := up })], pfc := [(7, x)] } }

theorem wit_pauses :
    ((paused {} 0).octet 0).pfcEn.getLsbD 7 = true ∧ (pfcAt (paused {} 0) 0 7).ignoring = false ∧ ((paused {} 0).octet 0).pfcEn.getLsbD 6 = false ∧
    (pfcAt (paused { pausedSince := some 0 } 0) 0 7).pausedSince ≠ none ∧ (pfcAt (paused { pausedSince := some 0 } 0) 0 7).storm = false ∧
    (pfcAt (paused { ignoring := true } 0) 0 7).ignoring = true ∧
    ((paused {} 0).octet 0).state = .down ∧ 0 < modePorts ((paused {} 0).octet 0).mode ∧
    ((paused {} 1).octet 0).portUp.getLsbD 0 = true ∧ ((paused {} 1).octet 0).portUp.getLsbD 7 = false := by
  decide +kernel

/-! ## Boot -/

/-- A device in the middle of its boot, stage `n` done. -/
def booting (n : Nat) : State := { State.reset with boot := { State.reset.boot with stage := n } }

theorem wit_boot_in_place (n : Nat) :
    (booting n).reg.dev = .booting ∧ (booting n).boot.stage = n ∧ (booting n).boot.shedHold = false ∧ (booting n).boot.coldWait = false ∧
    (booting n).cel.mainPower = true ∧ (booting n).tmp.lcs = .factory ∧ (booting n).tmp.evidence < 1024 ∧ (booting n).reg.trial = .none ∧
    (booting n).ledger.counters = [] ∧ (booting n).tmp.lcs ≠ .returned ∧ (booting n).tmp.pendingEv = false ∧
    (booting n).tmp.responded = false ∧ (booting n).cel.cellarKey = true ∧ (booting n).boot.waiting = false ∧
    (booting n).reg.trialReverted = false ∧ (booting n).flt.log = [] :=
  ⟨rfl, rfl, rfl, rfl, rfl, rfl, (by decide : State.reset.tmp.evidence < 1024), rfl, rfl, (by decide : State.reset.tmp.lcs ≠ .returned), rfl, rfl,
    rfl, rfl, rfl, rfl⟩

theorem wit_boot_out_of_place :
    ({ State.reset with cel := { State.reset.cel with mainPower := false } }).cel.mainPower = false ∧
    ({ State.reset with reg := { State.reset.reg with dev := .off } }).reg.dev = .off ∧ State.reset.reg.dev ≠ .off ∧
    ({ State.reset with boot := { State.reset.boot with shedHold := true, coldWait := true, waiting := true } }).boot.shedHold = true ∧
    ({ booting 5 with tmp := { State.reset.tmp with lcs := .scrap } }).tmp.lcs = .scrap ∧
    ({ booting 6 with tmp := { State.reset.tmp with lcs := .service, evidence := 1024 } }).tmp.evidence = 1024 := by decide

/-- What the stages find: PLLs locked or not, an image of the floor version, known answers that pass, channels that pass. -/
theorem wit_boot_results :
    (ctrFinal (booting 3) 0 ≤ 0 ∧ (⟨0, 0, [], []⟩ : FwImage).version < ctrFinal (setCounter (booting 3) 0 { cells := [{ value := 1, state := .system }] }) 0) ∧
    (∀ k, k < 8 → channelPasses { katOk := true, channels := (List.range 8).map fun _ => (77, 77, true) } k = true) ∧
    ({ booting 5 with tmp := { State.reset.tmp with pendingEv := true, evidence := 1022 } }).tmp.evidence < 1023 ∧
    ({ katOk := false } : Stage8).katOk = false := by
  refine ⟨?_, ?_, by decide, rfl⟩
  · decide +kernel
  · decide +kernel

/-- Stage 9: no cartridge is current yet, and one is, with nothing to restore. -/
theorem wit_boot_archive :
    mayRestore (setCounter (booting 8) 288 { cells := [{ value := 1, state := .system }] }) = false ∧
    (let s := { booting 8 with folio := { State.reset.folio with abandoned := true } }
     mayRestore s = true ∧ archiveUnion s = [] ∧ orphans s = [] ∧ markedImage s = none) ∧
    ((booting 8).setSlot 0 { valid := true }).slot 0 = { valid := true } := by
  decide +kernel

theorem wit_boot_last_stages :
    ({ booting 9 with boot := { (booting 9).boot with waiting := true } }).boot.waiting = true ∧
    ({ booting 11 with tmp := { State.reset.tmp with lcs := .returned } }).tmp.lcs = .returned := by decide

/-! ## Mailbox commands -/

/-- The state serves commands. -/
abbrev Serving (s : State) : Prop :=
  s.reg.served = true ∧ s.reg.switching = false ∧ s.reg.dev = .ready ∧ s.cel.stage = 0 ∧
  (s.tmp.lcs = .factory ∨ s.tmp.lcs = .provisioned ∨ s.tmp.lcs = .service) ∧ queueFull s = false

/-- Function `fn` has put a command into its window: code, session ID, payload. Its session is number 1. -/
def issue (s : State) (fn code sid : Nat) (p : Bytes) : State :=
  s.setMbx fn { s.mbx fn with
    busy := true, wait := .none, seqOpen := true, session := some { id := 1, key := 0, lastAt := 0 }
    cmdWin := le 2 code ++ (le 2 p.length ++ (zeros 4 ++ (le 4 sid ++ (zeros 4 ++ p)))) }

theorem le_length (n v : Nat) : (le n v).length = n := by
  induction n generalizing v with
  | zero => rfl
  | succ n ih => simp [le, ih]

theorem unle_le (n v : Nat) : unle (le n v) = v % 256 ^ n := by
  induction n generalizing v with
  | zero => simp [le, unle, Nat.mod_one]
  | succ n ih =>
    simp only [le, unle, ih]
    rw [show 256 ^ (n + 1) = 256 * 256 ^ n from Nat.pow_succ', Nat.mod_mul (a := 256)]
    exact congrArg (· + _) (BitVec.toNat_ofNat v 8)

theorem field_append (a x c : Bytes) : field (a ++ (x ++ c)) a.length x.length = unle x := by
  rw [field, slice_append]

theorem issue_mbx (s : State) (fn code sid : Nat) (p : Bytes) : (issue s fn code sid p).mbx fn = { s.mbx fn with
    busy := true, wait := .none, seqOpen := true, session := some { id := 1, key := 0, lastAt := 0 }
    cmdWin := le 2 code ++ (le 2 p.length ++ (zeros 4 ++ (le 4 sid ++ (zeros 4 ++ p)))) } := by
  simp [issue]

theorem issue_fields (s : State) (fn code sid : Nat) (p : Bytes) (hc : code < 65536) (hs : sid < 65536) (hp : p.length ≤ 4080) :
    let w := ((issue s fn code sid p).mbx fn).cmdWin
    field w 0 2 = code ∧ field w 2 2 = p.length ∧ field w 8 4 = sid ∧ field w 12 4 = 0 ∧ slice w 16 p.length = p := by
  simp only [issue_mbx]
  have h0 := field_append [] (le 2 code) (le 2 p.length ++ (zeros 4 ++ (le 4 sid ++ (zeros 4 ++ p))))
  have h2 := field_append (le 2 code) (le 2 p.length) (zeros 4 ++ (le 4 sid ++ (zeros 4 ++ p)))
  have h8 := field_append (le 2 code ++ le 2 p.length ++ zeros 4) (le 4 sid) (zeros 4 ++ p)
  have h12 := field_append (le 2 code ++ le 2 p.length ++ zeros 4 ++ le 4 sid) (zeros 4) p
  have h16 := slice_append (le 2 code ++ le 2 p.length ++ zeros 4 ++ le 4 sid ++ zeros 4) p []
  simp only [List.length_append, le_length, zeros_length, List.append_assoc, unle_le, List.append_nil, List.nil_append, List.length_nil]
    at h0 h2 h8 h12 h16
  refine ⟨by rw [h0]; omega, by rw [h2]; omega, by rw [h8]; omega, by rw [h12]; decide, by simpa using h16⟩

/-- Every state that serves, every code and every payload: the command is issued, by its role. -/
theorem wit_issued (s : State) (fn code : Nat) (role : Role) (p : Bytes) (h : Serving s) (hc : code < 65536) (hp : p.length ≤ 4080)
    (hr : match role with
      | .any => True
      | .d | .o | .od => fn = 0
      | .oa => fn = 0 ∨ (s.carrel fn).st ≠ .absent
      | .a => fn ≠ 0 ∧ (s.carrel fn).st ≠ .absent) :
    Issued (issue s fn code (if role = .any ∨ role = .d ∨ role = .od then 0 else 1) p) fn code role p := by
  obtain ⟨h1, h2, h3, h4, h5, h6⟩ := h
  obtain ⟨f0, f2, f8, f12, f16⟩ := issue_fields s fn code (if role = .any ∨ role = .d ∨ role = .od then 0 else 1) p hc (by split <;> omega) hp
  refine ⟨?_, f0, ?_, by rw [f2]; exact hp, f12, ?_, ?_, .inl ?_, .inl h3, h4, h5, h6⟩
  · have e : ∀ sid, canServe (issue s fn code sid p) fn = true := fun sid => by
      unfold canServe mbxDead; rw [issue_mbx]; simp [issue, State.setMbx, h1, h2, h3]
    exact e _
  · unfold framePayload; rw [f2]; exact f16
  · simp [hseqOk, issue_mbx]
  · simp [isReplay, issue_mbx]
  · unfold MayCommand
    rw [f8]
    cases role <;> simp_all [sessionMatch, issue, State.carrel]

theorem wit_serving : Serving ready ∧ Serving { ready with tmp := { ready.tmp with lcs := .factory } } ∧
    Serving { ready with tmp := { ready.tmp with lcs := .service } } := by decide

/-- The states on which the commands are given: in the factory, and with function 0's carrel as it is. -/
def factory : State := { ready with tmp := { ready.tmp with lcs := .factory } }

theorem wit_mailbox :
    let s := issue ready 0 1 0 []
    canServe s 0 = true ∧ field (s.mbx 0).cmdWin 0 2 = 1 ∧ again (s.mbx 0) = false ∧ isReplay (s.mbx 0) = false ∧ hseqOk (s.mbx 0) = true ∧
    (s.mbx 0).busy = true ∧ (State.reset.mbx 0).busy = false ∧ canServe State.reset 0 = false ∧
    checkCmd (accept s 0) 0 { code := 1, role := .any, lenOk := (· == 0) } [] = none ∧ checkCmd (accept (issue ready 0 1 1 []) 0) 0 { code := 1, role := .any, lenOk := (· == 0) } [] = some { status := 0x0101 } := by
  decide +kernel

/-- A device whose entropy unit has failed, and a device whose registrar pairs have. -/
def entropyLost : State :=
  { ready with reg := { ready.reg with dev := .failed }, ent := { ready.ent with state := .failed }, boot := { ready.boot with stage := 13 } }

def pairsLost : State := { ready with reg := { ready.reg with dev := .failed, pairsFenced := 2 } }

theorem wit_failed :
    DevServes entropyLost ∧ Issued (issue entropyLost 0 1 0 []) 0 1 .any [] ∧
    (let s := issue entropyLost 0 1 0 []
     (s.mbx 0).busy = true ∧ (s.mbx 0).wait = .none ∧ s.reg.served = true ∧ s.reg.switching = false ∧ s.reg.dev ≠ .recovery) ∧
    pairsLost.reg.dev = .failed ∧ mbxDead pairsLost = true ∧ mbxDead entropyLost = false := by
  unfold Issued EnrolOpen DevServes MayCommand
  decide +kernel

/-- Carrel 0 without an enrolled key, in SERVICE: its first key is enrolled without a session (R482); the next needs one. -/
theorem test_enrol_without_session :
    let s := { ready with tmp := { ready.tmp with lcs := .service }, reg := { ready.reg with admins := [] } }
    EnrolOpen s 0 0x0014 .oa ∧ Issued (issue s 0 0x0014 0 (zeros 5)) 0 0x0014 .oa (zeros 5) ∧
    sessionOk { s with reg := { s.reg with admins := [(1, 300)] } } 0 { code := 0x0014, role := .oa, lenOk := lenIs 5 } = false := by
  intro s
  unfold EnrolOpen Issued MayCommand EnrolOpen DevServes
  decide +kernel

/-- The next number, the last number again with its frame, and a number out of order. -/
theorem wit_sequence :
    let m : Mbx := { busy := true, seqOpen := false, lastHseq := 6, cmdWin := le 2 1 ++ zeros 2 ++ le 4 7 ++ zeros 8 }
    let again' : Mbx := { m with lastHseq := 7, lastFrame := m.cmdWin }
    isReplay m = false ∧ hseqOk m = true ∧ isReplay again' = true ∧ isReplay { m with lastHseq := 8 } = false ∧
    hseqOk { m with lastHseq := 8 } = false := by
  decide +kernel

theorem wit_information : cmdDefined 0xFFFF = false ∧ (zeros 8 ++ le 4 0xFFFF).length = 12 ∧
    ∀ p, algTable.length ≤ field p 8 4 ∨ field p 8 4 < algTable.length :=
  ⟨by decide, by decide, fun _ => (Nat.lt_or_ge _ _).symm⟩

theorem wit_challenge : ∃ t b, ready.ent.state = .ready ∧ sysRequest (accept (issue ready 0 0x10 0 []) 0) 32 = (t, some b) ∧
    ({ ready with ent := { ready.ent with state := .failed } }).ent.state = .failed ∧
    ({ ready with ent := { ready.ent with state := .starting } }).ent.state = .starting ∧
    ((ready.setMbx 0 { wait := .entropy 5 }).mbx 0).wait = .entropy 5 :=
  ⟨_, _, rfl, rfl, rfl, rfl, rfl⟩

/-- A login with an ML-DSA and one with an ECDSA key: locked, without a nonce, and by whatever its signature is worth. -/
def login (alg len : Nat) : Bytes := le 4 0x40 ++ le 2 alg ++ le 2 len ++ le 4 0 ++ zeros len

theorem wit_login :
    (login 3 96).length = 12 + field (login 3 96) 6 2 ∧ field (login 3 96) 0 4 < 2 ^ 21 ∧ field (login 3 96) 8 4 = 0 ∧
    (field (login 3 96) 4 2 = 3 ∧ field (login 3 96) 6 2 = 96) ∧ (field (login 1 3309) 4 2 = 1 ∧ field (login 1 3309) 6 2 = 3309) ∧
    loginOk (accept ready 0) 0 (login 3 96) = false ∧ ready.now < ({ lockUntil := 1 } : Mbx).lockUntil ∧
    ((accept (issue ready 0 0x11 0 (login 3 96)) 0).mbx 0).lockUntil ≤ ready.now ∧
    (∀ s : State, loginOk s 0 (login 3 96) = true ∨ loginOk s 0 (login 3 96) = false) := by
  refine ⟨by decide +kernel, by decide +kernel, by decide +kernel, by decide +kernel, by decide +kernel, by decide +kernel, by decide, by decide +kernel,
    fun s => by cases loginOk s 0 (login 3 96) <;> simp⟩

theorem wit_login_failures : resets (accept ready 0) 0x003 = false ∧ 0 + 1 < 3 ∧ 3 ≤ ({ fails := 2 } : Mbx).fails + 1 := by decide +kernel

/-- Session times at the ends of their range, and just outside; a session that has idled, and one that has not. -/
theorem wit_sessions :
    (60 ≤ field (le 4 60) 0 4 ∧ field (le 4 3600) 0 4 ≤ 3600 ∧ field (le 4 59) 0 4 < 60 ∧ 3600 < field (le 4 3601) 0 4 ∧ (le 4 60).length = 4) ∧
    (∃ se, ((issue ready 0 0x12 1 []).mbx 0).session = some se) ∧
    (∃ se : Session, ((ready.setMbx 0 { session := some { id := 1, key := 0, timeout := 0, lastAt := 0 } }).mbx 0).session = some se ∧
      ((ready.setMbx 0 { session := some { id := 1, key := 0, timeout := 0, lastAt := 0 } }).mbx 0).busy = false ∧ se.lastAt + se.timeout ≤ ready.sec) ∧
    (∃ se : Session, ((issue ready 0 0x12 1 []).mbx 0).session = some se ∧ ready.sec < se.lastAt + se.timeout) := by
  refine ⟨by decide, ⟨_, rfl⟩, ⟨_, rfl, rfl, by decide⟩, ⟨_, rfl, by decide⟩⟩

/-- Carrel 0 with a key at slot 256 that may be enrolled, or may not; two and one keys enrolled. -/
def keyed (cls : Nat) (admins : Tab Nat) : State :=
  let s := ready.setSlot 256 { valid := true, keyClass := cls, usage := 8 }
  { s with reg := { s.reg with admins := admins } }

theorem wit_admin_keys :
    (le 4 256 ++ [3]).length = 5 ∧ field (le 4 256 ++ [3]) 0 4 < 2 ^ 21 ∧ field (le 4 256 ++ [3]) 4 1 ≤ 3 ∧ adminOpen (keyed 0x19 []) 0 = true ∧
    slotCheck13 (keyed 0x19 []) 0 256 = none ∧ adminClass ((keyed 0x19 []).slot 256) = true ∧ slotCheck13 (keyed 0x10 []) 0 256 = none ∧
    adminClass ((keyed 0x10 []).slot 256) = false ∧ Tab.get? (keyed 0x19 []).reg.admins (4 * 0 + 3) = none ∧
    Tab.get? (keyed 0x19 [(0, 1), (3, 2)]).reg.admins (4 * 0 + 3) = some 2 ∧ 2 ≤ (enrolled (keyed 0x19 [(0, 1), (3, 2)]) 0).length ∧
    Tab.get? (keyed 0x19 [(3, 2)]).reg.admins (4 * 0 + 3) = some 2 ∧ (enrolled (keyed 0x19 [(3, 2)]) 0).length ≤ 1 := by
  decide +kernel

/-! Settings -/

/-- OCT_CONFIG of octet 63: mode, media, flags. -/
def octCfg (mode media flags : Nat) : Bytes := [63, BitVec.ofNat 8 mode, BitVec.ofNat 8 media, BitVec.ofNat 8 flags, 0, 0, 0, 0] ++ le 4 0

theorem wit_octets :
    let p := octCfg 4 2 0
    let q := octCfg 1 0 4
    p.length = 12 ∧ field p 3 1 < 8 ∧ field p 6 2 = 0 ∧ bit (field p 3 1) 2 = false ∧ bit (field q 3 1) 2 = true ∧ field p 0 1 ≤ 63 ∧
    (ready.octet 63).state = .off ∧ 1 ≤ field p 1 1 ∧ field p 1 1 ≤ 4 ∧ field p 2 1 ≤ 2 ∧ bit (field p 3 1) 1 = false ∧
    ((ready.setOctet 63 { mode := 1, state := .down }).octet 63).state ≠ .off ∧ field p 1 1 ≠ 0 ∧
    ¬ (field p 1 1 = 1 ∧ field p 2 1 = 0) := by
  decide +kernel

theorem wit_settings :
    (let v := 128 + 2 ^ 8 * 16 + 2 ^ 13 * 32 + 2 ^ 19 * 256
     field (le 4 v) 0 4 = v ∧ v < 2 ^ 28 ∧ bits v 7 0 ≤ 128 ∧ bits v 12 8 ≤ 16 ∧ bits v 18 13 ≤ 32 ∧ bits v 27 19 ≤ 256) ∧
    (field [16] 0 1 ≤ 16 ∧ (ready.pipes.pages.any fun y => y.2.busy) = false ∧ ((ready.setPage 0 0 { busy := true }).pipes.pages.any fun y => y.2.busy) = true) ∧
    field (le 2 16383) 0 2 < 2 ^ 14 ∧ field (le 4 16383) 0 4 < 2 ^ 14 := by
  decide +kernel

theorem wit_fault_commands :
    (let p : Bytes := [2, 0, 1]
     field p 0 1 = 2 ∧ p.length = 3 ∧ field p 1 1 = 0 ∧ field p 2 1 ≤ 1 ∧ factory.tmp.lcs = .factory) ∧
    (let p : Bytes := [1, 0] ++ le 2 0x100 ++ le 2 1 ++ le 2 0 ++ le 8 (2 ^ 10 + 2 ^ 18 * 3600000)
     field p 0 1 = 1 ∧ p.length = 16 ∧ field p 1 1 = 0 ∧ field p 6 2 = 0 ∧ field p 4 2 = 1 ∧ field p 2 2 < 1024 ∧ field p 8 8 < 2 ^ 41 ∧
     srcValueOk ready (field p 2 2) (field p 8 8) = true) ∧
    (let p : Bytes := [3, 0] ++ le 2 0x142 ++ le 2 0xFFFF ++ [1]
     field p 0 1 = 3 ∧ p.length = 7 ∧ field p 1 1 = 0 ∧ field p 6 1 < 2 ∧ injectState factory (field p 2 2) = true ∧ factory.flt.fi = none ∧
     injectable (field p 2 2) = true ∧ isUnitSource (field p 2 2) = false ∧ field p 4 2 = 0xFFFF) ∧
    (isUnitSource 0x102 = false ∧ reported ready { source := 0x102 } = true ∧ ready.reg.pairsFenced = 0 ∧ ready.reg.dev ≠ .failed) := by
  decide +kernel

/-- A window that passes, all zeros which does not, a source in service among six; an instance and the pool. -/
theorem wit_entropy :
    let six : Tab EntSource := (List.range 6).map fun i => (i, { inService := true })
    let s := { ready with ent := { ready.ent with sources := six, pool := 1 } }
    (s.src 0).inService = true ∧ (s.src 7).inService = false ∧ s.ent.state ≠ .failed ∧
    health (windowOf (s.src 0) (List.replicate 1024 0)) ≠ none ∧ health (windowOf (s.src 0) [0, 1, 1, 0]) = none ∧
    5 ≤ srcCount s ∧ resets s 0x0C0 = false ∧ (drbg s 0).live = true ∧ 0 < s.ent.pool ∧ ready.ent.pool = 0 := by
  decide +kernel

theorem wit_entropy_and_attestation :
    (zeros 68).length = 68 ∧ field (zeros 68) 1 1 < 2 ∧ field (zeros 68) 2 2 = 0 ∧ field (zeros 68) 0 1 ≤ 7 ∧ nonApprovedHere factory 0 = false ∧
    (let p := [7, 0, 0, 0] ++ le 4 1048576 ++ zeros 8
     p.length = 16 ∧ allZero (slice p 1 3) = true ∧ field p 0 1 ≤ 7 ∧ 1 ≤ field p 4 4 ∧ field p 4 4 ≤ 1048576) ∧
    (zeros 40 ++ le 4 0xFFFFFFFF).length = 44 ∧ secretGrant ready = false ∧
    secretGrant { ready with tmp := { ready.tmp with grantActive := true, rights := 0x80 } } = true ∧
    ({ ready with reg := { ready.reg with aliasKeys := true } }).reg.aliasKeys = true ∧ (zeros 8 ++ le 4 0xFFFFFFFF).length = 12 := by
  decide +kernel

/-! Images, tamper, life cycle -/

theorem wit_images :
    (zeros 12).length = 12 ∧ imgHeaderOk [] = false ∧
    (∀ (s : State) (b : Bytes), imageCheck s b = none ∨ ∃ k a, imageCheck s b = some (k, a)) ∧
    (∀ (s : State) (b : Bytes), fwCheck s b = none ∨ ∃ a, fwCheck s b = some a) ∧
    archiveOk (ready.setFolSlot 0 { state := .mounted }) = true := by
  refine ⟨by decide, by decide +kernel, fun s b => ?_, fun s b => ?_, by decide +kernel⟩
  · cases h : imageCheck s b
    · exact .inl rfl
    · exact .inr ⟨_, _, rfl⟩
  · cases h : fwCheck s b
    · exact .inl rfl
    · exact .inr ⟨_, rfl⟩

theorem wit_activation :
    let tuns (st ac : Option OstkImage) (d : Option (Option Nat × Bool)) := { ready with tuns := { ready.tuns with staged := st, active := ac, draining := d } }
    (tuns none none none).tuns.staged = none ∧ (tuns (some img) none none).tuns.staged ≠ none ∧ (tuns none (some img) none).tuns.active ≠ none ∧
    (tuns (some img) none (some (some 0, false))).tuns.draining = some (some 0, false) ∧ openBusy (tuns (some img) none (some (some 0, false))) = false ∧
    openBusy (waiting { slipOf 15 0 0 with unit := some 0, engine := .tun }) = true := by
  decide +kernel

theorem wit_firmware :
    let fw : FwImage := ⟨1, 1, [], []⟩
    field [0] 0 1 = 0 ∧ field [1] 0 1 = 1 ∧ ({ ready with reg := { ready.reg with staged := some fw } }).reg.staged ≠ none ∧ ready.reg.staged = none ∧
    Machine.waiting (ready.setMbx 0 { wait := .fwReset }) .fwReset ≠ [] ∧ Machine.waiting ready .fwReset = [] ∧
    ({ booting 3 with reg := { (booting 3).reg with trial := .running } }).reg.trial = .running ∧ (booting 3).reg.dev ≠ .ready ∧
    ready.reg.trial ≠ .running := by
  decide +kernel

theorem wit_tamper :
    let lcs (l : Lcs) := { ready with tmp := { ready.tmp with lcs := l, loopEn := 1 } }
    ready.tmp.lcs ≠ .blank ∧ ready.cel.mainPower = true ∧ ready.tmp.responded = false ∧ ready.reg.dev ≠ .off ∧ ready.cel.s4Done = false ∧
    256 < 512 ∧ (0 : Nat) < 256 ∧ ({ ready with cel := { ready.cel with s4Done := true } }).cel.s4Done = true ∧ loopLive (lcs .service) 0 = true ∧ loopLive ready 0 = false ∧
    ({ ready with cel := { ready.cel with mainPower := false } }).cel.mainPower = false ∧ (lcs .blank).tmp.lcs = .blank ∧
    reseedDue ready 0 = false ∧
    (let o := { ready with now := 125000000, boot := { ready.boot with stage := 6 }, tmp := { ready.tmp with outN := true } }
     o.tmp.outN = true ∧ 6 ≤ o.boot.stage ∧ 125000000 ≤ o.now - o.tmp.outSince) ∧ ready.now - ready.tmp.outSince < 125000000 := by
  decide +kernel

/-- LCS_TRANSITION to RETURNED with consent, at the limits of voltage and temperature; to SERVICE from the factory, not accepted. -/
theorem wit_life_cycle :
    (let p : Bytes := [4, 1, 0, 0] ++ zeros 16
     p.length = 20 ∧ field p 1 1 < 2 ∧ field p 3 1 = 0 ∧ lcsOf (field p 0 1) = some .returned ∧ ready.tmp.busy = false ∧
     (∀ q ∈ ready.carrels, q.1 = 0 ∨ (q.2.st ≠ .active ∧ q.2.st ≠ .quiescing)) ∧ ready.cel.warn = false ∧ bit (field p 1 1) 0 = true ∧
     slice p 4 16 = fit 16 ready.reg.serial ∧ lcsAccepts ready .returned = true) ∧
    lcsOf 3 = some .service ∧ lcsAccepts factory .service = false ∧
    (let b (n : Nat) := { ready with tmp := { ready.tmp with busy := true, groups := n, lcsFn := some 0 } }
     (b 2).tmp.busy = true ∧ 2 ≤ (b 2).tmp.groups ∧ (b 2).tmp.halted = false ∧ (b 1).tmp.groups = 1 ∧ (b 1).tmp.lcsFn ≠ none) := by
  decide +kernel

theorem wit_debug :
    let g (r : BitVec 9) := { ready with tmp := { ready.tmp with grantActive := true, rights := r } }
    (zeros 13).length = 13 ∧ field (zeros 13) 12 1 < 2 ∧ nonApprovedHere ready 0 = false ∧ grantFormatOk ready [] = false ∧
    grantNonceOk ready [] = false ∧ grantNonceOk { ready with tmp := { ready.tmp with nonce := some (zeros 32, 0) } } [] = true ∧
    (g 2).tmp.grantActive = true ∧ (g 2).tmp.expiry.toNat ≤ (g 2).sec ∧ reaching (g 2).tmp.rights = false ∧ reaching (g 0x80).tmp.rights = true := by
  decide +kernel

/-- A grant of trace rights in the right form. -/
theorem wit_grant_format :
    let b : Bytes := le 4 0x54474244 ++ le 2 1 ++ le 2 128 ++ zeros 48 ++ le 8 2 ++ le 4 86400 ++ le 4 0 ++ le 2 3 ++ le 2 96 ++ zeros 52 ++ zeros 4819
    grantFormatOk ready b = true := by
  decide +kernel

/-! Carrels and migration -/

/-- A configuration that CRL_CREATE takes: block 1, room for slots and extents, VLAN 5. -/
def carrel1 : Carrel := { slotQuota := 16, extentQuota := 64, runs := [(1, 1)], net := { vlan := 5, ports := [0] } }

/-- Carrel 1 exists in a state. -/
def with1 (st : CarrelState) : State := ready.setCarrel 1 { carrel1 with st := st }

/-- `CRL_CREATE` of carrel 1 with an ML-DSA administrator key. -/
def creation (x : Carrel) : Bytes := cfgBytes 1 x ++ le 2 0x19 ++ le 2 1952 ++ zeros 1952

theorem wit_unshared : Unshared ready 1 ∧ Unshared ready 0 := by unfold Unshared; decide +kernel

theorem wit_carrel_creation :
    516 ≤ (creation carrel1).length ∧ cfgFormat (creation carrel1) = true ∧ (creation carrel1).length = 516 + field (creation carrel1) 514 2 ∧
    field (creation carrel1) 6 1 = 1 ∧ (ready.carrel 1).st = .absent ∧ ((with1 .active).carrel 1).st ≠ .absent ∧
    sharesOk (creation { carrel1 with shareTun := 0 }) = false ∧ createBad ready 1 (creation carrel1) = none ∧ ready.ent.state = .ready := by
  decide +kernel

theorem wit_random_bytes (n : Nat) : sysRequest ready n = ((sysRequest ready n).1, some (ready.freeBytes n)) := rfl

/-- `CRL_CONFIG` of carrel 1 by function 1: groups, and the record. -/
def config (groups : Nat) (x : Carrel) : Bytes := le 4 groups ++ cfgBytes 1 x

theorem wit_carrel_config :
    (config 15 carrel1).length = 516 ∧ field (config 15 carrel1) 0 4 < 16 ∧ cfgFormat ((config 15 carrel1).drop 4) = true ∧
    cfgOwns (with1 .configured) 1 (config 9 carrel1) = true ∧ cfgOwns (with1 .configured) 0 (config 4 carrel1) = true ∧
    field (config 9 carrel1) 10 1 = 1 ∧ cfgState .active (config 8 carrel1) = false ∧ cfgState .configured (config 9 carrel1) = true ∧
    cfgBad (with1 .configured) 1 (config 9 carrel1) = none ∧ cfgBad (with1 .configured) 1 (config 4 carrel1) = none ∧
    bit (field (config 4 carrel1) 0 4) 2 = true ∧ bit (field (config 9 carrel1) 0 4) 2 = false := by
  decide +kernel

/-- Each command in a state its rule admits and in one it does not. -/
theorem wit_carrel_states (st : CarrelState) :
    ((with1 st).carrel 1).st = st ∧ Serving (with1 st) ∧ Unshared (with1 st) 1 ∧ ((with1 st).carrel 1).exported = false ∧
    (((with1 st).setCarrel 1 { carrel1 with st := st, exported := true }).carrel 1).exported = true ∧ carrelSlips (with1 st) 1 = [] ∧
    mirrors (with1 st) 1 = false ∧ field [1] 0 1 = 1 ∧ field [0] 0 1 = 0 ∧ (1 : Nat) ≠ 0 := by
  unfold Unshared; cases st <;> decide +kernel

/-- A carrel with a key enrolled that is kept, and one whose only key goes with the reset. -/
theorem wit_carrel_reset :
    resetStrands (with1 .quiesced) 1 = false ∧
    (let s := (with1 .quiesced).setSlot 1 { valid := true, owner := 1, depth := 1, parent := 1 }
     resetStrands { s with reg := { s.reg with admins := [(4, 1)] } } 1 = true) := by decide +kernel

theorem wit_carrel_slips : carrelSlips (waiting executed) 0 ≠ [] := by decide

theorem wit_carrel_destruction :
    let s := ((with1 .quiesced).setSlot 1 { valid := true, persistent := true }).setFolSlot 0 { state := .mounted }
    ((s.carrel 1).st = .quiesced) ∧ (s.slot 1).persistent = true ∧ archiveOk s = true ∧ Unshared s 1 ∧
    (let p := [1, 0] ++ le 2 0x19 ++ le 2 1952 ++ zeros 1952
     6 ≤ p.length ∧ field p 1 1 = 0 ∧ p.length = 6 + field p 4 2 ∧ p.drop 6 ≠ [] ∧ adminKeyBad (field p 2 2) (p.drop 6) = none) := by
  unfold Unshared; decide +kernel

/-- The steps of a migration of carrel 1: room for the messages and not, the step each command expects and another. -/
theorem wit_migration :
    let p (phase room : Nat) : Bytes := [1, BitVec.ofNat 8 phase] ++ zeros 38 ++ le 4 room
    let g (step : Nat) (target : Bool) : Migration := { id := zeros 32, target := target, step := step, startedAt := 0 }
    let m (st : CarrelState) (x : Option Migration) := (with1 st).setCarrel 1 { carrel1 with st := st, migration := x }
    (p 1 6419).length = 44 ∧ allZero (slice (p 1 6419) 2 6) = true ∧ field (p 5 6419) 1 1 = 5 ∧ field (p 1 6418) 40 4 < 6419 ∧
    6419 ≤ field (p 1 6419) 40 4 ∧ 7987 ≤ field (p 2 7987) 40 4 ∧ ((m .frozen none).carrel 1).st = .frozen ∧
    ((m .frozen none).carrel 1).migration = none ∧ (ready.carrel 1).st = .absent ∧ ((m .absent (some (g 1 true))).carrel 1).migration = some (g 1 true) ∧
    (g 3 true).step ≠ 1 ∧ (g 2 false).step = 2 ∧ (g 3 true).step = 3 ∧ (g 3 true).target = true := by
  decide +kernel

/-- What a peer's signature and an image's tag are worth decides between the clauses. -/
theorem wit_migration_checks (s : State) (c : Nat) (m cs : Bytes) (n : Nat) (ok : Bool) (g : Migration) (i : Image) :
    (msgBad s c m cs n ok = none ∨ ∃ a, msgBad s c m cs n ok = some a) ∧ (openImage g m = none ∨ ∃ i, openImage g m = some i) ∧
    (imageBad s c g i = none ∨ ∃ a, imageBad s c g i = some a) := by
  refine ⟨?_, ?_, ?_⟩
  · cases h : msgBad s c m cs n ok <;> simp
  · cases h : openImage g m <;> simp
  · cases h : imageBad s c g i <;> simp

/-! Hoppers, bindings, catalogue -/

/-- A block of `HOP_CREATE`: host-attached, 64 entries, weight 1, or with a depth out of range. -/
def block (depth : Nat) : Bytes := zeros 28 ++ [BitVec.ofNat 8 depth, 1, 0, 1] ++ zeros 16

theorem wit_hopper_creation :
    (block 6).length = 48 ∧ blockFormat (block 6) = true ∧ adminOpen ready 0 = true ∧ adminOpen (ready.setCarrel 0 { st := .frozen }) 0 = false ∧
    hopperOk (blockHopper 0 0 (block 5)) (field (block 5) 29 1) = false ∧ hopperOk (blockHopper 0 0 (block 6)) (field (block 6) 29 1) = true ∧
    hopperOk (blockHopper 0 0 (block 16)) (field (block 16) 29 1) = true ∧
    (let s := { ready with hop := State.reset.hop }
     (hoppersOwned s 0).length < (s.carrel 0).hopperMax ∧ nextHopper s 0 = some (0, 0)) ∧ bit (field (block 6) 35 1) 1 = false := by
  decide +kernel

theorem wit_hopper_commands :
    let h (st : HopState) : Hopper := { carrel := 0, index := 0, state := st }
    let s (st : HopState) := ready.setHopper 0 (h st)
    let p := le 4 0 ++ le 4 0xFFF ++ block 6
    (s .stopped).hopper? 0 = some (h .stopped) ∧ (h .stopped).carrel = 0 ∧ (h .stopped).state = .stopped ∧ (h .stopped).held = [] ∧
    p.length = 56 ∧ field p 4 4 < 4096 ∧ blockFormat (p.drop 8) = true ∧ field p 4 4 % 128 ≠ 0 ∧ (h .active).state ≠ .stopped ∧
    field (le 4 0 ++ le 4 0x80 ++ block 6) 4 4 % 128 = 0 ∧ hopperOk (applyBlock (h .stopped) (field p 4 4) (p.drop 8)) (field p 37 1) = true ∧
    (applyBlock (h .stopped) (field p 4 4) (p.drop 8)).urgent = false ∧ (h .stopped).broken = false ∧ staticCovers (s .stopped) 0 = false ∧
    ready.hopper? 9 = none := by
  decide +kernel

theorem wit_binding_commands :
    let s := ready.setHopper 0 { carrel := 0, index := 0 }
    let n := s.setCarrel 0 { st := .active, net := { ports := [3] } }
    let tok (mtu : Nat) : Bytes := le 4 0 ++ le 2 1 ++ le 2 mtu ++ zeros 8
    let st (q : Nat) : Bytes := le 4 q ++ zeros 28 ++ le 2 4096 ++ le 2 1 ++ le 4 0 ++ le 2 3 ++ [16, 0]
    (tok 4096).length = 16 ∧ runOwned s 0 (field (tok 4096) 0 4) (field (tok 4096) 4 2) = true ∧
    (1 ≤ field (tok 4096) 4 2 ∧ field (tok 4096) 4 2 ≤ 64 ∧ mtuOk (field (tok 4096) 6 2) = true) ∧ mtuOk (field (tok 1000) 6 2) = false ∧
    (let t := { ready with ports := { ready.ports with tokens := [(1, token)] } }
     Tab.get? t.ports.tokens (field (le 4 1 ++ [1]) 0 4) = some token ∧ field (le 4 1 ++ [1]) 4 1 < 2 ∧ token.carrel = 0) ∧
    (let p := st 0x400FF
     p.length = 44 ∧ field p 24 4 < 2 ^ 24 ∧ field p 28 4 < 2 ^ 24 ∧ field p 43 1 < 2 ∧ runOwned n 0 (field p 36 4) (field p 34 2) = true ∧
     0x100 ≤ field p 0 4 ∧ field p 0 4 < 0x100 + 262144 ∧ field p 4 4 < 2 ^ 24 ∧ mtuOk (field p 32 2) = true ∧ 1 ≤ field p 34 2 ∧
     field p 34 2 ≤ 64 ∧ 1 ≤ field p 42 1 ∧ field p 42 1 ≤ 16 ∧ (n.carrel 0).net.ports.contains (field p 40 2) = true ∧
     n.qp? (field p 0 4) = none ∧ runTaken n (field p 36 4) (field p 34 2) = none ∧
     runTaken (ready.setCarrel 0 { st := .active, net := { ports := [3] } }) (field p 36 4) (field p 34 2) = some 0 ∧
     (n.carrel 0).st = .active ∧ ((n.setCarrel 0 { st := .configured, net := { ports := [3] } }).carrel 0).st ≠ .active) ∧
    field (st 0xFF) 0 4 < 0x100 ∧ (ready.setQp 0x100 qp0).qp? (field (le 4 0x100) 0 4) = some qp0 ∧ qp0.carrel = 0 := by
  decide +kernel

/-- `CAT_IMPORT` of an AES-128 key, allocated, as a child of carrel 0's anchor; of an undefined class. -/
def import' (cls : Nat) : Bytes :=
  le 4 (2 ^ 30) ++ [BitVec.ofNat 8 cls, 0] ++ zeros 58 ++ le 4 16 ++ zeros 12 ++ zeros 16

def shelved : State :=
  let s := ready.setCarrel 0 { st := .active, slotQuota := 16, runs := [(0, 1)] }
  s.setSlot 0 { valid := true, persistent := true }

theorem wit_import :
    80 ≤ (import' 1).length ∧ importFormat (import' 1) = true ∧ syncBusy shelved = false ∧
    (match importPlan shelved 0 (import' 1) [] with | .ok r => some r | .error _ => none) = some (256, 0) ∧
    (match importPlan shelved 0 (import' 0xEE) [] with | .ok _ => none | .error a => some a.status) = some 0x0407 ∧
    (importSlot shelved 0 (import' 1) []).mirrored = false := by
  decide +kernel

/-- Slot 256 of carrel 0, of a class and persistent or not, on a device with a mounted cartridge or without. -/
def shelf (persistent mounted : Bool) : State :=
  let s := shelved.setSlot 256 { valid := true, persistent := persistent, keyClass := 1, depth := 1, keyLen := 16, usage := 3 }
  if mounted then s.setFolSlot 0 { state := .mounted } else s

theorem wit_deaccession (a b : Bool) :
    let s := shelf a b
    inAllot s 0 256 = true ∧ (s.slot 256).valid = true ∧ lastAdmin s 0 256 = false ∧ (s.slot 256).deacPending = none ∧
    slotCheck13 s 0 256 = none ∧ adminOpen s 0 = true ∧ (s.slot 256).persistent = a ∧ archiveOk s = b ∧ Unshared s 0 ∧
    field (le 4 256) 0 4 % 2 ^ 21 = 256 ∧ field (le 4 255) 0 4 % 2 ^ 21 < 256 ∧ field (le 4 256) 0 4 < 2 ^ 21 := by
  unfold Unshared; cases a <;> cases b <;> decide +kernel

theorem wit_replacement :
    let p : Bytes := le 4 256 ++ [1, 0] ++ zeros 58 ++ le 4 16 ++ zeros 12 ++ zeros 16
    importFormat p = true ∧ importAlloc p = false ∧ bit (parseSeg p).flags 3 = false ∧
    replaceBad (shelf true true) 0 256 p (importMaterial p []) = none := by
  decide +kernel

theorem wit_deaccession_waits (peer tomb : Bool) :
    let s := ((shelf true true).setSlot 256 { (shelf true true).slot 256 with deacPending := some (some 0), deacPeer := peer, deacTomb := tomb }).setMbx
      0 { busy := true, wait := .deaccession 256 }
    (s.slot 256).deacPending = some (some 0) ∧ (s.mbx 0).wait = .deaccession 256 ∧ (s.slot 256).deacPeer = peer ∧ (s.slot 256).deacTomb = tomb := by
  cases peer <;> cases tomb <;> decide +kernel

theorem wit_attributes :
    let p (usage : Nat) : Bytes := le 4 256 ++ le 2 usage ++ le 2 1 ++ zeros 16
    (p 1).length = 24 ∧ field (p 1) 0 4 < 2 ^ 21 ∧ field (p 1) 4 2 < 1024 ∧ field (p 1) 6 2 < 4 ∧
    attrsOk (shelf true true) ((shelf true true).slot 256) (withAttrs ((shelf true true).slot 256) (p 1)) = true ∧
    attrsOk (shelf true true) ((shelf true true).slot 256) (withAttrs ((shelf true true).slot 256) (p 4)) = false ∧
    ((shelf true true).slot 256).mirrored = false ∧ inAllot (shelf true true) 0 1024 = false := by
  decide +kernel

theorem wit_signers :
    let s (cls : Nat) := (shelf true true).setSlot 256 { valid := true, keyClass := cls }
    slotCheck13 (s 0x19) 0 256 = none ∧ ((s 0x19).slot 256).keyClass = 0x19 ∧ ¬ (1 = 0x19 ∨ 1 = 0x1A ∨ 1 = 0x6D) ∧ slotCheck13 (s 1) 0 256 = none ∧
    signerOk (putAttrs (s 0x19) 256 { (s 0x19).slot 256 with ostkSigner := true }) = true ∧
    signerOk (putAttrs { s 0x19 with tuns := { ready.tuns with active := some { img with signer := 256 } } } 256
      { (s 0x19).slot 256 with ostkSigner := false }) = false := by
  decide +kernel

/-! The mirror pair -/

/-- A device in a pair state, the link up, the heartbeat there. -/
def pair (st : PairState) : State :=
  { with1 .active with mirror := { ready.mirror with state := st, linkUp := true, hbPresent := true, linkKeys := true } }

theorem wit_pair_commands (st : PairState) :
    (pair st).mirror.state = st ∧ Serving (pair st) ∧ (zeros 17).length = 17 ∧ field (zeros 17) 16 1 = 0 ∧ field (zeros 16 ++ [1]) 16 1 = 1 ∧
    (pair st).tmp.lcs = .provisioned ∧ factory.tmp.lcs = .factory ∧ (pair st).mirror.copied = false ∧
    (zeros 64).length = 64 ∧ bit (field (zeros 64) 0 1) 0 = false ∧ bit (field (zeros 64) 32 1) 0 = false := by
  cases st <;> decide +kernel

theorem wit_pairing_ends :
    raising { ready with mirror := { ready.mirror with state := .pairing } } = false ∧
    homedHere { ready with mirror := { ready.mirror with state := .pairing } } = [] ∧
    (∃ x ∈ [({ carrel := 1, state := 1, config := [] } : PeerCarrel)], ((pair .pairing).carrel x.carrel).st ≠ .absent) ∧
    ((pair .pairing).carrel 1).st ≠ .absent := by
  refine ⟨by decide +kernel, by decide +kernel, ⟨_, List.mem_singleton.mpr rfl, by decide +kernel⟩, by decide +kernel⟩

theorem wit_arbitration :
    (∀ k ∈ mapCarrels ([2] ++ zeros 63) 0 ++ mapCarrels ([2] ++ zeros 63) 32, ((pair .degraded).carrel k).st ≠ .absent) ∧
    (∃ k ∈ mapCarrels ([4] ++ zeros 63) 0 ++ mapCarrels ([4] ++ zeros 63) 32, ((pair .degraded).carrel k).st = .absent) ∧
    homeOf (setHome (pair .degraded) 1 .peer) 1 = .peer ∧ homeOf (pair .degraded) 1 = .here := by
  refine ⟨by decide +kernel, ⟨2, by decide +kernel, by decide +kernel⟩, by decide +kernel, by decide +kernel⟩

theorem wit_rehoming :
    field [1] 0 1 = 1 ∧ ((pair .paired).carrel 1).st ≠ .absent ∧ homeOf (pair .paired) 1 = .here ∧ ((pair .paired).carrel 2).st = .absent ∧
    homeOf (setHome (pair .paired) 1 .peer) 1 = .peer ∧ ((setHome (pair .paired) 1 .peer).carrel 1).st ≠ .absent ∧ canTakeover (pair .paired) = true := by
  decide +kernel

/-- A synchronous command of carrel 1: sent to the standby while PAIRED, refused while DEGRADED; a second one waits. -/
theorem wit_synchronous :
    let s (st : PairState) := issue (pair st) 1 0x0203 1 [1]
    activateCmd.spec.code = 0x0203 ∧ activateCmd.spec.lenOk [1].length = true ∧ activateCmd.spec.rsvOk [1] = true ∧
    activateCmd.spec.owns (accept (s .paired) 1) 1 [1] = true ∧ activateCmd.carrel (accept (s .paired) 1) 1 [1] = 1 ∧
    syncBusy (s .paired) = false ∧ mirrors (s .paired) 1 = true ∧ syncBlocked (s .degraded) 1 = true ∧
    (let q := (s .paired).setCarrel 1 { carrel1 with st := .quiesced }
     activateCmd.check (accept q 1) 1 [1] = none ∧ activateCmd.recs (accept q 1) 1 [1] ≠ []) ∧
    syncBusy { pair .paired with mirror := { (pair .paired).mirror with waits := [(0, .mailbox 1)] } } = true := by
  decide +kernel

theorem wit_acknowledgements :
    let s := { issue (pair .paired) 1 0x0203 1 [1] with mirror := { (pair .paired).mirror with waits := [(4, .mailbox 1), (5, .useBlock 256 64)] } }
    let w := s.setMbx 1 { s.mbx 1 with wait := .mirror 4 }
    Tab.get? w.mirror.waits 4 = some (.mailbox 1) ∧ (w.mbx 1).wait = .mirror 4 ∧ (syncCmdOf (field (w.mbx 1).cmdWin 0 2)).isSome = true ∧
    field (w.mbx 1).cmdWin 0 2 ≠ 0x0201 ∧ (w.mbx 1).claim = none ∧ Tab.get? w.mirror.waits 5 = some (.useBlock 256 64) ∧
    Tab.get? w.mirror.waits 6 = none := by
  decide +kernel

theorem wit_batches :
    let s := { setHome (pair .paired) 1 .peer with hop := { State.reset.hop with hoppers := [(7, { carrel := 1, index := 0 })] } }
    (pair .paired).mirror.linkUp = true ∧ ready.mirror.linkUp = false ∧ Tab.get? (pair .paired).mirror.batches 3 = none ∧
    Tab.get? ({ pair .paired with mirror := { (pair .paired).mirror with batches := [(3, [])] } }).mirror.batches 3 = some [] ∧
    before 0xFFFF_FFFF#32 0#32 = true ∧ before 0#32 0#32 = false ∧ pairLive s = true ∧ pairLive ready = false ∧
    (∃ h, s.hopper? 7 = some h ∧ homeOf s h.carrel = .peer) := by
  refine ⟨by decide +kernel, by decide +kernel, by decide +kernel, by decide +kernel, by decide +kernel, by decide +kernel, by decide +kernel,
    by decide +kernel, ⟨_, rfl, by decide +kernel⟩⟩

theorem wit_standby :
    let none' (n : Nat) : State := { pair .paired with ledger := { ready.ledger with counters := (List.range n).map fun i => (i, { cells := [] }) } }
    ((none' 0).slot 5).valid = false ∧ ((none' 0).slot 5).ledger = none ∧ (putSlot (pair .paired) { shelf := 256, header := [], extent := [] }).isSome = true ∧
    ((pair .paired).carrel 1).st ≠ .absent ∧ homeOf (pair .paired) 1 ≠ .peer ∧ ((pair .paired).carrel 2).st = .absent ∧
    (∀ (s : State) x, putSlot s x = none ∨ ∃ t, putSlot s x = some t) := by
  refine ⟨by decide +kernel, by decide +kernel, by decide +kernel, by decide +kernel, by decide +kernel, by decide +kernel, fun s x => ?_⟩
  cases putSlot s x <;> simp

theorem wit_link :
    (pair .paired).mirror.waits = [] ∧ ready.mirror.hbPresent = false ∧ (pair .degraded).mirror.hbPresent = true ∧ canTakeover (pair .degraded) = true ∧
    (let t := reportSrc { pair .degraded with mirror := { (pair .degraded).mirror with hbPresent := false, linkUp := false } } 0x1E2
     t.mirror.state = .degraded ∧ t.mirror.linkUp = false ∧ canTakeover t = true) ∧ ready.mirror.linkKeys = false ∧ (pair .paired).mirror.linkKeys = true := by
  decide +kernel

/-! ## Ledger, catalogue passes, QDR, folio -/

/-- Counter 1024 with a write in progress, after `k` attempts. -/
def writingTo (k : Nat) (l : Bool) : State :=
  setCounter ready 1024 { cells := List.replicate 8 (mkCell 1024 0 .bound 0), lost := l, writing := [{ cell := 0, value := 5, state := .bound, bindGen := 0, attempts := k, why := .set }] }

theorem wit_ledger_writes :
    (counter ready 1024).writing = [] ∧
    (∃ w, (counter (writingTo 6 false) 1024).writing = [w] ∧ w.why = .set ∧ w.attempts < 7 ∧ w.cell < (counter (writingTo 6 false) 1024).cells.length ∧
      (counter (writingTo 6 false) 1024).lost = false ∧ ctrValue (writingTo 6 false) 1024 ≤ w.value) ∧
    (∃ w, (counter (writingTo 7 false) 1024).writing = [w] ∧ w.why = .set ∧ 7 ≤ w.attempts) ∧
    ready.cel.stage = 0 ∧ ready.cel.mainPower = true ∧ (∃ x, Tab.get? (writingTo 0 true).ledger.counters 1024 = some x ∧ x.lost = true) ∧
    (∃ x, Tab.get? (writingTo 0 false).ledger.counters 1024 = some x ∧ x.lost = false) := by
  refine ⟨by decide +kernel, ⟨_, rfl, by decide +kernel⟩, ⟨_, rfl, by decide +kernel⟩, rfl, rfl, ⟨_, rfl, rfl⟩, ⟨_, rfl, rfl⟩⟩

/-- An XMSS key of height 10 whose next tree is being built; a due record, a tombstone, an orphan. -/
theorem wit_trees_and_passes :
    let s := setStfKey (ready.setSlot 300 { valid := true, persistent := true, keyClass := 0x41, material := [0x0D, 0] ++ le 4 1 ++ zeros 100 }) 300 { building := [(0, 0)] }
    (stfSetOf (s.slot 300)).isSome = true ∧ Tab.get? (stfKey s 300).building 0 = some 0 ∧ s.cel.stage = 0 ∧ Tab.get? (stfKey s 300).building 1 = none ∧
    Tab.has s.ledger.keys 300 = true ∧ Tab.has ready.ledger.keys 300 = false ∧ (s.ledger.keys.filter fun p => p.2.cached).length ≤ 32 ∧
    orphans ready = [] ∧ 300 ∉ s.cat.tombstones ∧ Tab.get? s.cat.archivePending 300 = none ∧
    (let t := { s with cat := { s.cat with archivePending := [(300, 7)] } }
     Tab.get? t.cat.archivePending 300 = some 7 ∧ (t.slot 300).valid = true ∧ (t.slot 300).persistent = true) ∧
    300 ∈ ({ s with cat := { s.cat with tombstones := [300] } }).cat.tombstones := by
  decide +kernel

/-- Trained QDR, unpaired with all channels and paired with all of them; the last group of each. -/
def qdr (paired : Bool) : State := { ready with qdr := { ready.qdr with trained := true, chOk := 0xFF, paired := paired } }

theorem wit_qdr :
    (qdr true).qdr.trained = true ∧ (qdr true).cel.stage < 4 ∧ ready.qdr.trained = false ∧ (qdr true).qdr.chOk.getLsbD 7 = true ∧
    resets (qdr true) 0x184 = false ∧ resets { qdr true with flt := { ready.flt with cfg := [(0x184, { severe := 0x1F })] } } 0x184 = true ∧
    qdrGone true [0, 1, 2, 3, 4, 5, 6] = false ∧ qdrGone false [0, 1, 2, 3, 4, 5, 6] = true ∧
    129023 < (if (qdr false).qdr.paired then 64512 else 129024) ∧ (if (qdr true).qdr.paired then 64512 else 129024) ≤ 64512 ∧
    (qdr true).qdr.guardKeys = true := by
  decide +kernel

theorem wit_slot_recovery :
    let m := (pair .paired).setSlot 1024 { valid := true, mirrored := true, persistent := true }
    let r (s : State) := { s with qdr := { s.qdr with recovering := [1024] } }
    m.mirror.state = .paired ∧ (m.slot 1024).valid = true ∧ (m.slot 1024).mirrored = true ∧ 1024 ∉ m.qdr.recovering ∧
    1024 ∈ (r m).qdr.recovering ∧ ((r m).slot 1024).persistent = true ∧ (ready.slot 1024).mirrored = false ∧ (ready.slot 1024).persistent = false := by
  decide +kernel

/-- Slot 3 of folio in a state. -/
def fol (x : FolSlot) : State := { ready with boot := { ready.boot with stage := 9 } }.setFolSlot 3 x

theorem wit_folio_insertion :
    (ready.folSlot 3).present = false ∧ ((fol { present := true }).folSlot 3).present = true ∧
    ((fol { present := true, anchoring := true }).folSlot 3).anchoring = true ∧ ((fol { present := true }).folSlot 3).writing = none ∧
    ((fol { state := .identifying, polls := 98 }).folSlot 3).polls < 99 ∧ 99 ≤ ((fol { state := .identifying, polls := 99 }).folSlot 3).polls ∧
    (fol { state := .identifying }).boot.stage = 9 ∧ ((fol {}).folSlot 3).state ≠ .identifying := by
  decide +kernel

/-- A cartridge of the least size in each class, and one sector short. -/
theorem wit_folio_classes :
    let x (tenure counter : Nat) : MountInfo := { rpmb := .ok, secCount := 67108864, ancSlot := 3, serial := ready.reg.serial, tenure := tenure, counter := counter }
    let s := setCounter ready 291 { cells := [{ value := 2 ^ 32 + 5, state := .system, check := 0 }] }
    let s' := ledgerRaise ready 291 (2 ^ 32 + 5)
    (x 1 5).idFail = 0 ∧ 67108864 ≤ (x 1 5).secCount.toNat ∧ ({ x 1 5 with secCount := 67108863 }).secCount.toNat < 67108864 ∧
    ({ x 1 5 with idFail := 3 }).idFail ≠ 0 ∧ (x 1 5).serial = s.reg.serial ∧ ({ x 1 5 with serial := [1] }).serial ≠ s.reg.serial ∧
    classify ready (x 0 0) = .current ∧ classify ready (x 0 1) = .shadowLost ∧ classify ready (x 0 2) = .inconsistent ∧
    classify ready (x 1 0) = .inconsistent ∧ (0 < shadow s' 3 / 2 ^ 32 → classify s' (x 0 5) = .stale) := by
  decide +kernel

theorem wit_folio_reconciliation :
    (let f : FolSlot := { state := .reconciling, present := true }
     mayAdopt (fol f) f = true ∧ worn f = false ∧ worn { f with rpmbCnt := 0xFFFF_FFFF#32 } = true) ∧
    (let f : FolSlot := { state := .mounted, present := true }
     let r : FolRecord := { seq := 1, kind := .devSec 0 }
     let s := { fol f with folio := { (fol f).folio with queue := [r] } }
     nextRec s f = some r ∧ f.writing = none ∧ nextRec (fol f) f = none ∧ ({ f with writing := some 1 } : FolSlot).writing = some 1) ∧
    (let f : FolSlot := { state := .mounted, highSeq := 2, anchorHigh := 1, anchorAt := some 0 }
     let s := { fol f with now := 1250000000 }
     f.anchoring = false ∧ f.anchorHigh < f.highSeq ∧ s.cel.stage = 0 ∧ 1250000000 ≤ s.now - 0 ∧ ({ s with now := 1249999999 }).now - 0 < 1250000000 ∧
     worn { f with anchoring := true, rpmbCnt := f.rpmbCnt + 1 } = false ∧ folReads f = true ∧ folReads {} = false) := by
  decide +kernel

theorem wit_folio_archive :
    (fol {}).boot.stage = 9 ∧ (fol {}).boot.waiting = false ∧ queueFull (fol {}) = false ∧
    (let s := { booting 9 with boot := { (booting 9).boot with waiting := true } }
     s.boot.stage = 9 ∧ s.boot.waiting = true ∧ s.folio.abandoned = false) ∧
    queueFull { fol {} with folio := { (fol {}).folio with queue := [{ seq := 1, kind := .faultCfg [] }] } } = false := by
  decide +kernel

/-! ## Registers, power -/

/-- Function 1 has four direct pages, page 3 with the given contents, and a session or none. -/
def paged (x : Page) (session : Bool) : State :=
  (((with1 .active).setCarrel 1 { carrel1 with st := .active, directPages := 4 }).setPage 1 3 x).setMbx 1
    { session := if session then some { id := 1, key := 0, lastAt := 0 } else none }

theorem wit_pages :
    3 < ((paged {} true).carrel 1).directPages ∧ ¬ (3 < (ready.carrel 1).directPages) ∧ ((paged { busy := true } true).page 1 3).busy = true ∧
    ((paged { busy := true, queued := true } true).page 1 3).queued = true ∧ ((paged {} true).page 1 3).busy = false ∧
    ((paged {} true).mbx 1).session.isSome = true ∧ ((paged {} false).mbx 1).session = none ∧ ((paged {} true).page 1 3).keyLoaded = false ∧
    ((paged {} true).page 1 3).key = [] := by
  decide +kernel

theorem wit_page_start :
    let p : Page := { key := List.replicate 8 0, keyLoaded := true, ctrl := 0x10004010, len := 16 }
    let s := paged p true
    let on := { s with pipes := { s.pipes with directCnt := 16 } }
    startRefusal on 1 { p with retried := false, approved := false, outLen := 0 } = none ∧
    startRefusal s 1 { p with retried := false, approved := false, outLen := 0 } = some 0x0601 := by
  decide +kernel

theorem wit_page_runs :
    let x : Page := { busy := true, unit := some 0, ctrl := 0x4001, abortReq := true }
    pageRuns (paged x true) x = true ∧ x.queued = false ∧ (pgMode x).isSome = true ∧ pageRuns (paged {} true) {} = false := by
  decide +kernel

theorem wit_event_bits : (255 : BitVec 8) = 255 ∧ ({ cnt := 254 } : EvtBit).cnt ≠ 255 := by decide

theorem wit_mailbox_registers :
    ((issue ready 0 1 0 []).mbx 0).busy = true ∧ (ready.mbx 0).busy = false ∧ 8 ≤ 8 ∧ 4088 + 8 ≤ 4096 ∧ mbxDead ready = false ∧
    mbxDead { ready with reg := { ready.reg with dev := .failed } } = true ∧ (1 : W64).getLsbD 0 = true ∧ (0 : W64).getLsbD 0 = false ∧
    (ready.mbx 0).evqCfg.getLsbD 0 = false := by
  decide +kernel

/-- A device past its boot at a shed stage. -/
def shedding (stage : Nat) (done : Bool) : State :=
  { ready with boot := { ready.boot with stage := 13 }, cel := { ready.cel with stage := stage, s4Abandoned := done } }

theorem wit_shedding (n : Nat) :
    13 ≤ (shedding n true).boot.stage ∧ (shedding n true).cel.stage = n ∧ (shedding n true).cel.mainPower = true ∧ ready.boot.stage < 13 ∧
    (shedding n true).cel.s4Abandoned = true ∧ (shedding n false).cel.s4Abandoned = false ∧ (shedding n true).cel.s4Done = false ∧
    (shedding n true).hop.slips = [] ∧ (shedding n true).pipes.pages = [] :=
  ⟨Nat.le_refl 13, rfl, rfl, by decide, rfl, rfl, rfl, rfl, rfl⟩

theorem wit_power :
    let off := { ready with cel := { ready.cel with mainPower := false } }
    off.cel.mainPower = false ∧ ready.cel.mainPower = true ∧ ready.cel.xtalOk = true ∧ ({ ready with cel := { ready.cel with xtalOk := false } }).cel.xtalOk = false ∧
    ({ ready with cel := { ready.cel with s4Done := true } }).cel.s4Done = true := by
  decide +kernel

theorem wit_clocks :
    pllIdle ready 7 = false ∧ pllIdle ready 8 = true ∧ resets ready 0x041 = false ∧ resets ready 0x042 = false ∧
    resets { ready with flt := { ready.flt with cfg := [(0x041, { severe := 0x1F }), (0x042, { severe := 0x1F })] } } 0x041 = true := by
  decide +kernel

theorem wit_queue : ({ ready with pending := [] } : State).pending = [] ∧ DresFormed State.reset.dres := by
  unfold DresFormed; decide

/-- The front command is the one that a step runs: a counter read with another command behind it. -/
theorem test_step_takes_the_front :
    (match step { ready with pending := [.hopperEngineResetDone, .errNRelease], hop := { ready.hop with resetting := true } } with
      | .next t => (t.hop.resetting, t.pending.length) | _ => (true, 0)) = (false, 1) := by
  decide +kernel

/-- R10: an event counter is read and cleared. -/
theorem test_event_counter_read :
    (match exec (.ledEvt2 0) { ready with ledger := { ready.ledger with lowFree := { flag := true, cnt := 3 } } } with
      | .next t => (t.ledger.lowFree, t.out.length) | _ => ({}, 0)) = ({ flag := true, cnt := 0 }, 1) := by
  decide +kernel

/-- R67, R72: a doorbell moves P, and never back. -/
theorem test_doorbell :
    (match exec (.hostDoorbell 0 0 (bell 3)) ready with
      | .next t => (t.hopper? 0).map fun h => (h.p, h.lastDbSeq) | _ => none) = some (3, 1) := by
  decide +kernel

/-- R60: the first port that trains brings its octet up. -/
theorem test_link_up :
    (match exec (.linkUp 0) (paused {} 0) with
      | .next t => ((t.octet 0).state, (t.octet 0).portUp) | _ => (.off, 0)) = (.up, 1) := by
  decide +kernel

/-- R54: a congestion notification halves a rate whose α is 1, down to 100 Mbit/s. -/
theorem test_cnp :
    (match exec (.cnpReceived 0x100) (ready.setQp 0x100 { qp0 with rate := 100 }) with
      | .next t => (t.qp? 0x100).map fun q => (q.rate, q.alpha) | _ => none) = some (50, 1) := by
  decide +kernel

/-- R301: 2 + 2 modulo 3. -/
theorem test_modadd :
    let sl := { slipOf 7 0 1 with cs := { (slipOf 7 0 1).cs with auxLen := 1, outMax := 16 }, inData := [2, 2], auxData := [3] }
    (match exec (.modadd 0) (withSlip sl) with
      | .next t => (t.slip? 0).map fun y => (y.status, y.out) | _ => none) = some (0, [1]) := by
  decide +kernel

/-- R302: doubling the point at infinity of P-256 is refused, the base point is on the curve. -/
theorem test_pdbl :
    let sl (b : Bytes) := { slipOf 7 1 0x11 with cs := { (slipOf 7 1 0x11).cs with outMax := 64 }, inData := b }
    (match exec (.pdbl 0) (withSlip (sl (zeros 64))) with
      | .next t => (t.slip? 0).map fun y => y.status | _ => none) = some 0x0403 ∧
    (match exec (.pdbl 0) (withSlip (sl (be 32 p256.gx ++ be 32 p256.gy))) with
      | .next t => (t.slip? 0).map fun y => (y.status, y.out.length) | _ => none) = some (0, 64) := by
  decide +kernel

/-- R375: `MBX_NOP` answers `OK` with the next `DEVICE_SEQ`. -/
theorem test_mbx_nop :
    (match exec (.mbxNop 0) (issue ready 0 1 0 []) with
      | .next t => ((t.mbx 0).busy, (t.mbx 0).lastDseq, (t.mbx 0).rspReady.flag) | _ => (true, 0, false)) = (false, 1, true) := by
  decide +kernel

/-- R398: a carrel that is QUIESCED is activated; its state in the state record follows. -/
theorem test_activate :
    (match exec (.crlActivate 1) (issue (with1 .quiesced) 1 0x0203 1 [1]) with
      | .next t => (t.carrel 1).st | _ => .absent) = .active := by
  decide +kernel

/-- R486: a transition advances one state at a time. -/
theorem test_lcs_group :
    (match exec .lcsGroupDone { ready with tmp := { ready.tmp with busy := true, groups := 2, lcsFn := some 0 } } with
      | .next t => (t.tmp.lcs, t.tmp.groups) | _ => (.blank, 0)) = (.service, 1) := by
  decide +kernel

/-- R475, R492: a tamper response leaves no cellar key and the output asserted. -/
theorem test_tamper :
    (match exec (.tmpShield 4) ready with
      | .next t => (t.cel.cellarKey, t.tmp.outN, t.reg.dev) | _ => (true, false, .off)) = (false, true, .booting) := by
  decide +kernel

end Sys2Proof.Tests
end

section
/-!
SUPPORT. What the reset of a function makes of its mailbox (R392): the operations it is made of leave the registrar alone, add
events, or reset the chip.
-/

namespace Sys2Proof.Machine

/-! ## Operations that leave the registrar alone -/

/-- A fold of operations that leave the registrar alone leaves it alone. -/
theorem foldl_reg {α : Type} {f : State → α → State} (hf : ∀ s a, (f s a).reg = s.reg) (l : List α) (s : State) :
    (l.foldl f s).reg = s.reg := by
  induction l generalizing s with
  | nil => rfl
  | cons a l ih => rw [List.foldl_cons, ih, hf]

@[simp] theorem clearPageKeys_reg (s : State) (fn : Nat) : (clearPageKeys s fn).reg = s.reg := rfl
@[simp] theorem dropCarries_reg (s : State) (head : Nat) : (dropCarries s head).reg = s.reg := rfl
@[simp] theorem archiveCarrel_reg (s : State) (c : Nat) : (archiveCarrel s c).reg = s.reg := rfl
@[simp] theorem idleClusters_reg (s : State) (e : EngineType) (cs : List Nat) : (idleClusters s e cs).reg = s.reg :=
  State.setUnits_reg ..
@[simp] theorem notePeak_reg (s : State) (e : EngineType) : (notePeak s e).reg = s.reg := State.setUnits_reg ..

@[simp] theorem auditAppend_reg (s : State) (b : Bytes) : (auditAppend s b).reg = s.reg := by
  unfold auditAppend; split <;> rfl

@[simp] theorem freeUnit_reg (s : State) (sid : Nat) : (freeUnit s sid).reg = s.reg := by
  unfold freeUnit
  cases s.slip? sid with
  | none => rfl
  | some sl =>
    have hw := foldl_reg (f := wipeTun) fun _ _ => rfl
    dsimp only
    split
    · rfl
    · split <;> simp [hw]

@[simp] theorem ledgerRelease_reg (s : State) (n : Nat) : (ledgerRelease s n).reg = s.reg := by
  unfold ledgerRelease ledgerWrite
  dsimp only
  split
  · split <;> rfl
  · rfl

@[simp] theorem releaseClaim_reg (s : State) (n : Nat) : (releaseClaim s n).reg = s.reg := by
  unfold releaseClaim; dsimp only; split <;> rfl

@[simp] theorem releaseAll_reg (s : State) (sl : Slip) : (releaseAll s sl).reg = s.reg := by
  have hu : (if sl.usesCounted then s else sl.uses.foldl releaseUse s).reg = s.reg := by
    split
    · rfl
    · exact foldl_reg (f := releaseUse) (fun _ _ => rfl) _ _
  unfold releaseAll
  cases sl.destClaim <;> cases sl.counterClaim <;> simp [hu]

@[simp] theorem countRs_reg (s : State) (sl : Slip) (status : Nat) : (countRs s sl status).reg = s.reg := by
  unfold countRs; dsimp only; split <;> rfl

@[simp] theorem useHop_reg (s : State) (c port : Nat) (ip : IpAddr) : (useHop s c port ip).reg = s.reg := by
  unfold useHop; split <;> rfl

@[simp] theorem pumpQp_reg (s : State) (q : Nat) : (pumpQp s q).reg = s.reg := by
  unfold pumpQp
  cases s.qp? q with
  | none => rfl
  | some qp =>
    dsimp only
    split
    · rfl
    · split
      · rfl
      · split <;> simp

@[simp] theorem addReq_reg (s : State) (q : Nat) (r : Req) : (addReq s q r).reg = s.reg := by
  unfold addReq; split <;> simp

@[simp] theorem postWrite_reg (s : State) (h : Hopper) (kind : ReqKind) (addr : W64) (data : Bytes) (imm : Option W32) :
    (postWrite s h kind addr data imm).reg = s.reg := by
  unfold postWrite
  cases h.attach with
  | host => rfl
  | network => cases h.qpn <;> simp

@[simp] theorem postHeld_reg (s : State) (hn : Nat) (e : HeldRs) : (postHeld s hn e).reg = s.reg := by
  unfold postHeld
  split
  · rfl
  · next h _ =>
    have ho := foldl_reg (f := fun s o => postWrite s h (.output hn o.1) o.2.1 o.2.2 none) (fun _ _ => postWrite_reg ..) e.outs s
    dsimp only
    split
    · split <;> simp [ho]
    · simp [ho]

theorem flushHeld_reg (n : Nat) (s : State) (hn : Nat) : (flushHeld n s hn).reg = s.reg := by
  induction n generalizing s with
  | zero => rfl
  | succ n ih =>
    unfold flushHeld
    split
    · rfl
    · split
      · rfl
      · split
        · simp [ih]
        · rfl

theorem flushStatus_reg (n : Nat) (s : State) (hn : Nat) : (flushStatus n s hn).reg = s.reg := by
  induction n generalizing s with
  | zero => rfl
  | succ n ih =>
    unfold flushStatus
    split
    · rfl
    · split
      · rfl
      · simp [ih]

@[simp] theorem flushHopper_reg (s : State) (hn : Nat) : (flushHopper s hn).reg = s.reg := by
  unfold flushHopper
  cases s.hopper? hn <;> simp [flushStatus_reg, flushHeld_reg]

/-! ## Events -/

/-- Of a mailbox, `y` differs from `x` at most in what the queueing of events moves: `DEVICE_SEQ` and the event ring (R365,
R379). -/
def OnlyEvents (x y : Mbx) : Prop :=
  y = { x with lastDseq := y.lastDseq, evqTail := y.evqTail, evqOverflow := y.evqOverflow }

theorem OnlyEvents.refl (x : Mbx) : OnlyEvents x x := rfl

theorem OnlyEvents.trans {x y z : Mbx} (h : OnlyEvents x y) (h' : OnlyEvents y z) : OnlyEvents x z := by
  unfold OnlyEvents at *
  rw [h', h]

theorem eventTo_mbx (s : State) (fn code : Nat) (data : Bytes) (f : Nat) :
    OnlyEvents (s.mbx f) ((eventTo s fn code data).mbx f) := by
  by_cases hf : f = fn
  · subst hf
    unfold eventTo
    dsimp only
    split
    · rw [State.setMbx_mbx_self]; rfl
    · split
      · rw [State.send_mbx, State.send_mbx, State.setMbx_mbx_self]; rfl
      · rw [State.setMbx_mbx_self]; rfl
  · have h : (eventTo s fn code data).mbx f = s.mbx f := by
      unfold eventTo
      dsimp only
      split
      · exact State.setMbx_mbx_of_ne _ _ hf
      · split
        · exact State.setMbx_mbx_of_ne _ _ hf
        · exact State.setMbx_mbx_of_ne _ _ hf
    rw [h]; exact .refl _

/-- An event moves nothing of a mailbox but its event ring. -/
theorem queueEvent_mbx (s : State) (code : Nat) (data : Bytes) (vf : Option Nat) (f : Nat) :
    OnlyEvents (s.mbx f) ((queueEvent s code data vf).mbx f) := by
  have h0 := eventTo_mbx s 0 code data f
  unfold queueEvent
  cases vf with
  | none => exact h0
  | some c =>
    dsimp only
    split
    · exact h0
    · exact h0.trans (eventTo_mbx ..)

theorem mbx_of_reg {s t : State} (h : t.reg = s.reg) (f : Nat) : t.mbx f = s.mbx f := by
  simp only [State.mbx, h]

theorem OnlyEvents.of_reg {s t : State} (h : t.reg = s.reg) (f : Nat) : OnlyEvents (s.mbx f) (t.mbx f) := by
  rw [mbx_of_reg h]; exact .refl _

theorem countFault_reg (s : State) (r : FaultReport) : (countFault s r).reg = s.reg := by
  unfold countFault; dsimp only; split <;> rfl

/-- Collecting an event moves nothing of a mailbox but its event ring. -/
theorem collect_mbx (s : State) (r : FaultReport) (applied : BitVec 8) (coincident fenced subst : Bool) (f : Nat) :
    OnlyEvents (s.mbx f) ((collect s r applied coincident fenced subst).mbx f) := by
  unfold collect
  extract_lets severe mask inj merge s1 _ s2 _ s3 _ s4
  have h1 : s1.reg = s.reg := countFault_reg s r
  have h2 : s2.reg = s.reg := by simp only [s2]; split <;> exact h1
  have h3 : s3.reg = s.reg := by simp only [s3]; split <;> exact h2
  have h4 : s4.reg = s.reg := (auditAppend_reg _ _).trans h3
  split
  · exact .of_reg h3 f
  · split
    · exact .of_reg h4 f
    · exact (OnlyEvents.of_reg h4 f).trans (queueEvent_mbx ..)

/-! ## Completing the slips of a hopper that stops -/

/-- A chip reset has come: no mailbox has anything recorded, no slip is in flight and no hopper exists (R541). -/
structure Emptied (s : State) : Prop where
  mbx : s.reg.mbx = []
  hoppers : s.hop.hoppers = []
  slips : s.hop.slips = []

theorem emptied_chipReset (s : State) : Emptied (chipReset s) := ⟨rfl, rfl, rfl⟩

theorem Emptied.hopper {s : State} (h : Emptied s) (n : Nat) : s.hopper? n = none := by simp [State.hopper?, h.hoppers]
theorem Emptied.slip {s : State} (h : Emptied s) (n : Nat) : s.slip? n = none := by simp [State.slip?, h.slips]

/-- From `s` to `t` the mailbox of `f` keeps all but its event ring, unless the chip was reset. -/
structure MbxKept (f : Nat) (s t : State) : Prop where
  kept : OnlyEvents (s.mbx f) (t.mbx f) ∨ Emptied t
  stays : Emptied s → Emptied t

namespace MbxKept

theorem refl (f : Nat) (s : State) : MbxKept f s s := ⟨.inl (.refl _), id⟩

theorem trans {f : Nat} {s t u : State} (h : MbxKept f s t) (h' : MbxKept f t u) : MbxKept f s u := by
  refine ⟨?_, fun he => h'.stays (h.stays he)⟩
  rcases h.kept with h1 | h1
  · exact h'.kept.imp_left h1.trans
  · exact .inr (h'.stays h1)

theorem foldl {f : Nat} {α : Type} {g : State → α → State} (hg : ∀ s a, MbxKept f s (g s a)) (l : List α) (s : State) :
    MbxKept f s (l.foldl g s) := by
  induction l generalizing s with
  | nil => exact refl f s
  | cons a l ih => exact (hg s a).trans (ih _)

end MbxKept

/-- A fault either resets the chip or moves nothing of a mailbox but its event ring. -/
theorem faultEvent_mbx (s : State) (r : FaultReport) (f : Nat) :
    OnlyEvents (s.mbx f) ((faultEvent s r).mbx f) ∨ Emptied (faultEvent s r) := by
  unfold faultEvent
  extract_lets m s1 s2
  have h1 : OnlyEvents (s.mbx f) (s1.mbx f) := collect_mbx ..
  have h2 : s2.reg = s1.reg := by
    simp only [s2]
    split
    · unfold errPin assertErrN; split <;> rfl
    · rfl
  split
  · exact .inr (emptied_chipReset s2)
  · exact .inl (h1.trans (.of_reg h2 f))

theorem completeSlip_kept (f : Nat) (s : State) (sid status outLen : Nat) (outs : List (W32 × W64 × Bytes)) (late : Bool) :
    MbxKept f s (completeSlip s sid status outLen outs late) := by
  refine ⟨?_, fun h => by simpa [completeSlip, h.slip sid] using h⟩
  unfold completeSlip
  split
  · exact .inl (.refl _)
  · next sl _ =>
    extract_lets s1
    split
    · exact .inl (.of_reg (freeUnit_reg s sid) f)
    · extract_lets cseq e s2 s3 s4 s5
      have h4 : s4.reg = s.reg := (countRs_reg s2 sl status).trans (freeUnit_reg s sid)
      have h5 : OnlyEvents (s.mbx f) (s5.mbx f) ∨ Emptied s5 := by
        have hd : ∀ b, OnlyEvents (s.mbx f) ((deadlineFault s4 sl b).mbx f) ∨ Emptied (deadlineFault s4 sl b) := fun b =>
          (faultEvent_mbx (s4.setDl ..) _ f).imp_left (OnlyEvents.of_reg h4 f).trans
        simp only [s5]
        split
        · exact hd true
        · split
          · exact hd false
          · exact .inl (.of_reg h4 f)
      rcases h5 with h5 | h5
      · exact .inl (h5.trans (.of_reg (flushHopper_reg ..) f))
      · exact .inr (by simpa [flushHopper, h5.hopper] using h5)

theorem breakOne_kept (f : Nat) (s : State) (sid : Nat) (late : Bool) : MbxKept f s (breakOne s sid late) := by
  refine ⟨?_, fun h => by simpa [breakOne, h.slip sid] using h⟩
  unfold breakOne
  split
  · exact .inl (.refl _)
  · next sl _ =>
    exact (completeSlip_kept ..).kept.imp_left (OnlyEvents.of_reg (releaseAll_reg s sl) f).trans

theorem breakChain_kept (f : Nat) (s : State) (head : Nat) : MbxKept f s (breakChain s head) :=
  MbxKept.trans (t := dropCarries s head) ⟨.inl (.of_reg (dropCarries_reg s head) f), fun h => ⟨h.mbx, h.hoppers, h.slips⟩⟩
    (.foldl (fun t (p : Nat × Bool) => breakOne_kept f t p.1 p.2) _ _)

theorem breakOpenChain_kept (f : Nat) (s : State) (hn : Nat) : MbxKept f s (breakOpenChain s hn) := by
  refine ⟨?_, fun h => by simpa [breakOpenChain, h.hopper hn] using h⟩
  unfold breakOpenChain
  split
  · exact .inl (.refl _)
  · split
    · exact .inl (.refl _)
    · exact (breakChain_kept f (s.setHopper ..) _).kept

theorem setHopState_kept (f : Nat) (s : State) (hn : Nat) (st : HopState) : MbxKept f s (setHopState s hn st) := by
  refine ⟨.inl ?_, fun h => by simpa [setHopState, h.hopper hn] using h⟩
  unfold setHopState
  split
  · exact .refl _
  · split
    · exact .refl _
    · unfold hopperEvent
      split
      · exact .refl _
      · exact queueEvent_mbx (s.setHopper ..) ..

theorem stopHostHoppers_kept (f : Nat) (s : State) (fn : Nat) : MbxKept f s (stopHostHoppers s fn) := by
  unfold stopHostHoppers
  extract_lets hs s1
  have h1 : MbxKept f s s1 := .foldl (fun t hn => (setHopState_kept f t hn _).trans (breakOpenChain_kept ..)) hs s
  split
  · exact h1
  · exact h1.trans ⟨.inl (.of_reg (archiveCarrel_reg s1 fn) f), fun h => ⟨h.mbx, h.hoppers, h.slips⟩⟩

/-! ## The reset of a function -/

/-- What the reset of a function leaves in its mailbox: no session and no command; the login lock stays (R392, R390). -/
structure MbxReset (lock : Nat) (y : Mbx) : Prop where
  session : y.session = none
  busy : y.busy = false
  wait : y.wait = .none
  lockUntil : y.lockUntil = lock

theorem MbxReset.of_onlyEvents {lock : Nat} {x y : Mbx} (hx : MbxReset lock x) (h : OnlyEvents x y) : MbxReset lock y := by
  rw [h]; exact ⟨hx.session, hx.busy, hx.wait, hx.lockUntil⟩

theorem mbxReset_freshMbx (m : Mbx) : MbxReset m.lockUntil (freshMbx m) := ⟨rfl, rfl, rfl, rfl⟩

theorem endSession_lockUntil (s : State) (fn cause : Nat) : ((endSession s fn cause).mbx fn).lockUntil = (s.mbx fn).lockUntil := by
  unfold endSession
  split
  · rfl
  · have h := queueEvent_mbx (closeSession s fn) 5 [BitVec.ofNat 8 cause] (some fn) fn
    have hc : ((closeSession s fn).mbx fn).lockUntil = (s.mbx fn).lockUntil := by
      rw [closeSession, mbx_of_reg (clearPageKeys_reg ..), State.setMbx_mbx_self]
    rw [sessionEvent, h, hc]

theorem cutCommand_mbx (s : State) (fn : Nat) (m : Mbx) (f : Nat) : (cutCommand s fn m).mbx f = s.mbx f := by
  unfold cutCommand; split <;> rfl

theorem mbx_of_not_has {s : State} {fn : Nat} (h : ¬ Tab.has s.reg.mbx fn = true) : s.mbx fn = {} := by
  simp only [Tab.has, Option.isSome_iff_ne_none, not_not] at h
  simp [State.mbx, Tab.getD, h]

/-- After its function's reset a mailbox of which anything is recorded holds no session and no command; the login lock stays
(R392). -/
theorem resetFunction_mbx {s : State} {fn : Nat} {y : Mbx} (hy : Tab.get? (resetFunction s fn).reg.mbx fn = some y) :
    MbxReset (s.mbx fn).lockUntil y := by
  unfold resetFunction at hy
  extract_lets s1 m s2 s3 at hy
  have hm : m.lockUntil = (s.mbx fn).lockUntil := endSession_lockUntil s fn 3
  have h2 : s2.mbx fn = m := cutCommand_mbx s1 fn m fn
  have h3 : MbxReset (s.mbx fn).lockUntil (s3.mbx fn) := by
    rw [← hm]
    by_cases hh : Tab.has s2.reg.mbx fn = true
    · simpa [s3, hh] using mbxReset_freshMbx m
    · have he := mbx_of_not_has hh
      rw [← h2]
      simp only [s3, if_neg hh, he]
      exact ⟨rfl, rfl, rfl, rfl⟩
  rcases (stopHostHoppers_kept fn s3 fn).kept with hk | hk
  · have h4 := h3.of_onlyEvents hk
    have hm' : (stopHostHoppers s3 fn).mbx fn = y := by rw [State.mbx, Tab.getD, hy, Option.getD_some]
    rwa [hm'] at h4
  · rw [hk.mbx] at hy; exact absurd hy nofun

end Sys2Proof.Machine
end

section
/-!
SUPPORT. The registers of the host link: what an access to a direct page, to a mailbox, to a W1C register and to an event counter
does, once for each.
-/

namespace Sys2Proof.Machine

/-! ## Event bits (R8 to R10) -/

namespace EvtBit

theorem hit_cnt_of_ne {e : EvtBit} (h : e.cnt ≠ 255) : (hit e).cnt = e.cnt + 1 := if_neg h
theorem hit_cnt_of_eq {e : EvtBit} (h : e.cnt = 255) : (hit e).cnt = 255 := if_pos h

end EvtBit

/-- A state in which no bit rises queues no ledger event. -/
@[simp] theorem ledEvent_self (s : State) : ledEvent s s = s := by simp [ledEvent]

/-- A state in which no bit rises queues no catalogue event. -/
@[simp] theorem catEvent_self (s : State) : catEvent s s = s := by simp [catEvent]

/-- Equal states are equal answers. -/
theorem next_congr {s t : State} (h : s = t) : (.next s : Res) = .next t := congrArg Host.Outcome.next h

/-! ## Direct pages (R278 to R285) -/

theorem pageThere_iff {s : State} {fn p : Nat} : pageThere s fn p = true ↔ p < 4 ∧ p < (s.carrel fn).directPages := by
  simp [pageThere]

section
variable {s : State} {fn p : Nat}

theorem pageWrite_absent (h : ¬ pageThere s fn p = true) (f : Page → Page) : pageWrite s fn p f = s := if_neg h

theorem pageWrite_busy (h : pageThere s fn p = true) (hb : (s.page fn p).busy = true) (f : Page → Page) :
    pageWrite s fn p f = ignoreWrite s fn p := by simp [pageWrite, h, hb]

theorem pageWrite_idle (h : pageThere s fn p = true) (hb : (s.page fn p).busy = false) (f : Page → Page) :
    pageWrite s fn p f = s.setPage fn p (f (s.page fn p)) := by simp [pageWrite, h, hb]

/-- The register's page, and what a write makes of the page when it takes effect (R280 to R282). -/
def pageReg (v hw : W64) : RegName → Option (Nat × (Page → Page))
  | .dpgIv0 p => some (p, fun x => { x with iv0 := v })
  | .dpgIv1 p => some (p, fun x => { x with iv1 := v })
  | .dpgCtrl p => some (p, fun x => { x with ctrl := v &&& 0x0000_1FFF_FFFF_FFFF#64 })
  | .dpgSrc p => some (p, fun x => { x with src := v })
  | .dpgDst p => some (p, fun x => { x with dst := v })
  | .dpgAad p => some (p, fun x => { x with aad := v })
  | .dpgLen p => some (p, fun x => { x with len := v &&& 0x001F_FFFF_01FF_FFFF#64 })
  | .dpgTag0 p => some (p, fun x => { x with tag0 := v })
  | .dpgTag1 p => some (p, fun x => { x with tag1 := v })
  | .dpgSts p => some (p, fun x => { x with done := w1cAt v hw 1 x.done, wrIgnored := w1cAt v hw 2 x.wrIgnored })
  | _ => none

/-- A write to a register of a page is a write to that page. -/
theorem registerWrite_page {v hw : W64} {r : RegName} {f : Page → Page} (hr : pageReg v hw r = some (p, f)) :
    exec (.registerWrite fn r v hw) s = .next (pageWrite s fn p f) := by
  cases r <;> cases hr <;> rfl

/-- `START` needs a session, an ACTIVE carrel and a key (R282). -/
theorem startRefusal_closed {x : Page}
    (h : (s.mbx fn).session = none ∨ (s.carrel fn).st ≠ .active ∨ x.keyLoaded = false) :
    startRefusal s fn x = some St.stateRejected := by
  have hc : (s.mbx fn).session.isNone = true ∨ (s.carrel fn).st ≠ .active ∨ s.pipes.directCnt = 0 ∨
      x.keyLoaded = false := by
    rcases h with h | h | h
    · exact .inl (by rw [h]; rfl)
    · exact .inr (.inl h)
    · exact .inr (.inr (.inr h))
  exact if_pos hc

theorem dpgStart_absent (h : ¬ pageThere s fn p = true) : exec (.dpgStart fn p) s = .next s := by
  change execDpgStart fn p s = _
  simp [execDpgStart, h]

theorem dpgStart_busy (h : pageThere s fn p = true) (hb : (s.page fn p).busy = true) :
    exec (.dpgStart fn p) s = .next (ignoreWrite s fn p) := by
  change execDpgStart fn p s = _
  simp [execDpgStart, h, hb]

/-- The page as `START` takes it up: what the operation before left of its outcome is gone. -/
def restarted (x : Page) : Page := { x with retried := false, approved := false, outLen := 0 }

/-- The page with its operation waiting for a direct pipe, after every one started before (R279, R282). -/
def queuedPage (s : State) (x : Page) : Page :=
  { restarted x with busy := true, queued := true, startedAt := (s.pipes.pages.map fun z => z.2.startedAt).foldl max 0 + 1 }

/-- `START` of a page that is not busy: refused with a status, or the page waits for a direct pipe (R282). -/
theorem dpgStart_idle (h : pageThere s fn p = true) (hb : (s.page fn p).busy = false) :
    exec (.dpgStart fn p) s = .next ((startRefusal s fn (restarted (s.page fn p))).elim
      (servePages (s.setPage fn p (queuedPage s (s.page fn p))))
      fun st => endPage (s.setPage fn p (restarted (s.page fn p))) fn p st) := by
  change execDpgStart fn p s = _
  unfold queuedPage restarted
  rw [execDpgStart, if_neg (by simp [h])]
  dsimp only
  rw [if_neg (by simp [hb])]
  split
  · next hr => rw [hr]; rfl
  · next hr => rw [hr]; rfl

theorem dpgStart_refused (h : pageThere s fn p = true) (hb : (s.page fn p).busy = false) {st : Nat}
    (hr : startRefusal s fn (restarted (s.page fn p)) = some st) :
    exec (.dpgStart fn p) s = .next (endPage (s.setPage fn p (restarted (s.page fn p))) fn p st) := by
  rw [dpgStart_idle h hb, hr]; rfl

theorem dpgStart_queued (h : pageThere s fn p = true) (hb : (s.page fn p).busy = false)
    (hr : startRefusal s fn (restarted (s.page fn p)) = none) :
    exec (.dpgStart fn p) s = .next (servePages (s.setPage fn p (queuedPage s (s.page fn p)))) := by
  rw [dpgStart_idle h hb, hr]; rfl

theorem dpgAbort_absent (h : ¬ pageThere s fn p = true) : exec (.dpgAbort fn p) s = .next s :=
  next_congr (if_neg h)

theorem dpgAbort_queued (h : pageThere s fn p = true) (hb : (s.page fn p).busy = true) (hq : (s.page fn p).queued = true) :
    exec (.dpgAbort fn p) s = .next (endPage s fn p St.aborted) :=
  next_congr ((if_pos h).trans ((if_pos hb).trans (if_pos hq)))

theorem dpgAbort_running (h : pageThere s fn p = true) (hb : (s.page fn p).busy = true) (hq : (s.page fn p).queued = false) :
    exec (.dpgAbort fn p) s = .next (s.setPage fn p { s.page fn p with abortReq := true }) :=
  next_congr ((if_pos h).trans ((if_pos hb).trans (if_neg (Bool.eq_false_iff.mp hq))))

theorem dpgAbort_idle (h : pageThere s fn p = true) (hb : (s.page fn p).busy = false) : exec (.dpgAbort fn p) s = .next s :=
  next_congr ((if_pos h).trans (if_neg (Bool.eq_false_iff.mp hb)))

theorem dpgKey_absent (h : ¬ pageThere s fn p = true) (i : Nat) (v : W64) : exec (.dpgKey fn p i v) s = .next s := by
  change execDpgKey fn p i v s = _
  simp [execDpgKey, h]

theorem dpgKey_no_session (h : pageThere s fn p = true) {i : Nat} (hi : i < 8) (hs : (s.mbx fn).session = none) (v : W64) :
    exec (.dpgKey fn p i v) s = .next (ignoreWrite s fn p) := by
  change execDpgKey fn p i v s = _
  simp [execDpgKey, h, hs, Nat.not_le.mpr hi]

/-- The key registers of a page, of which none has been written since they were cleared or all are held (R283). -/
def keyWords (x : Page) : List W64 := if x.key.isEmpty then List.replicate 8 0#64 else x.key

theorem keyWords_length {x : Page} (h : x.key.length = 8 ∨ x.key = []) : (keyWords x).length = 8 := by
  rcases h with h | h
  · have hne : x.key ≠ [] := List.ne_nil_of_length_pos (by omega)
    simp [keyWords, hne, h]
  · simp [keyWords, h]

theorem dpgKey_written (h : pageThere s fn p = true) (hb : (s.page fn p).busy = false) {i : Nat} (hi : i < 8)
    (hs : (s.mbx fn).session.isSome = true) (v : W64) :
    exec (.dpgKey fn p i v) s = .next (s.setPage fn p { s.page fn p with
      key := (keyWords (s.page fn p)).set i v, keyLoaded := true }) := by
  change execDpgKey fn p i v s = _
  simp [execDpgKey, h, Nat.not_le.mpr hi, Option.isNone_eq_false_iff.mpr hs, pageWrite_idle h hb, keyWords]

theorem dpgDone_idle {r : PageData}
    (h : (s.page fn p).busy = false ∨ (s.page fn p).queued = true ∨ pageRuns s (s.page fn p) = false) :
    exec (.dpgDone fn p r) s = .next s := by
  have hc : ((s.page fn p).busy && !(s.page fn p).queued && pageRuns s (s.page fn p)) = false := by
    rcases h with h | h | h <;> simp [h]
  change execDpgDone fn p r s = _
  simp [execDpgDone, hc]

theorem dpgDone_running {r : PageData} (hb : (s.page fn p).busy = true) (hq : (s.page fn p).queued = false)
    (hr : pageRuns s (s.page fn p) = true) :
    exec (.dpgDone fn p r) s = .next (servePages (finishPage s fn p r)) := by
  change execDpgDone fn p r s = _
  simp [execDpgDone, hb, hq, hr]

/-- An operation that `ABORT` has asked to stop ends with that status at its next check (R282). -/
theorem finishPage_aborted {r : PageData} {mode : PipeMode} {back : Bool} (hm : pgMode (s.page fn p) = some (mode, back))
    (ha : (s.page fn p).abortReq = true) : finishPage s fn p r = endPage s fn p St.aborted := by
  simp [finishPage, hm, ha]

theorem dpgEvt_absent (h : ¬ pageThere s fn p = true) (hw : W32) : exec (.dpgEvt fn p hw) s = .next (s.send (.regRead 0)) :=
  if_neg h

theorem dpgEvt_there (h : pageThere s fn p = true) (hw : W32) :
    exec (.dpgEvt fn p hw) s = .next (answerRead (s.setPage fn p { s.page fn p with
        done := rcAt hw 0 (s.page fn p).done, wrIgnored := rcAt hw 1 (s.page fn p).wrIgnored })
      [(s.page fn p).done, (s.page fn p).wrIgnored]) := if_pos h

end

/-! ## The mailbox region (R358, R362) -/

section
variable {s : State} {fn : Nat}

theorem mbxDead_iff : mbxDead s = true ↔ s.reg.dev = .failed ∧ ¬(s.ent.state = .failed ∧ s.reg.pairsFenced < 2) := by
  simp [mbxDead, imp_iff_not_or]

theorem windowWrite_busy (h : (s.mbx fn).busy = true) (off width : Nat) (v : W64) :
    windowWrite s fn off width v = s.setMbx fn { s.mbx fn with wrIgnored := (s.mbx fn).wrIgnored.hit } := if_pos h

theorem windowWrite_idle (h : (s.mbx fn).busy = false) {off width : Nat} (hk : width ≤ 8) (ho : off + width ≤ 4096) (v : W64) :
    windowWrite s fn off width v = s.setMbx fn { s.mbx fn with cmdWin := splice (s.mbx fn).cmdWin off (le width v.toNat) } := by
  simp [windowWrite, h, hk, ho]

theorem goWrite_dead (h : mbxDead s = true) (v : W64) : goWrite s fn v = s := if_pos h

theorem goWrite_busy (hd : mbxDead s = false) (hb : (s.mbx fn).busy = true) (v : W64) :
    goWrite s fn v = s.setMbx fn { s.mbx fn with wrIgnored := (s.mbx fn).wrIgnored.hit } := by simp [goWrite, hd, hb]

theorem goWrite_idle (hd : mbxDead s = false) (hb : (s.mbx fn).busy = false) (v : W64) :
    goWrite s fn v = if v.getLsbD 0 then s.setMbx fn { s.mbx fn with busy := true } else s := by simp [goWrite, hd, hb]

theorem evqBaseWrite_open (hb : (s.mbx fn).busy = false) (he : (s.mbx fn).evqCfg.getLsbD 0 = false) (v : W64) :
    evqBaseWrite s fn v = s.setMbx fn { s.mbx fn with evqBase := v } := by
  simp only [evqBaseWrite, hb, he, Bool.or_self, Bool.false_eq_true, if_false]

end

end Sys2Proof.Machine

open Sys2Proof Sys2Proof.Machine

/-- Settles O55: an access does what the rule of its register says; a function's reset ends its session and its command because,
of all that follows it, only events and a chip reset reach the mailbox. -/
theorem registerAccessesTakeEffect : Obligations.RegisterAccessesTakeEffect := by
  unfold Obligations.RegisterAccessesTakeEffect
  intro s fn pg n v hw h x m there ignored w1c rc answer wr
  have hthere : pageThere s fn pg = true ↔ there := pageThere_iff
  refine ⟨?evt, ?absent, ?busy, ?idle, ?doneIdle, ?doneRuns, ?aborted, ?dpgEvt, ⟨rfl, rfl⟩, ?winBusy, ?winIdle, ?goDead,
    mbxDead_iff, ?go, ?noGo, ?goBusy, rfl, rfl, rfl, ?evqBase, rfl, ?vf, rfl, ?pf, ?octEvt, ?dlEvt, ?ledCat, rfl, rfl, rfl, rfl,
    rfl, rfl, ?folEvt, ?flr, rfl, ?vfDisable, rfl⟩
  case evt => exact fun e => ⟨rfl, EvtBit.hit_cnt_of_ne, EvtBit.hit_cnt_of_eq, rfl, rfl, rfl, rfl, rfl, rfl, rfl, rfl⟩
  case absent =>
    intro ht
    have ht' := mt hthere.mp ht
    exact ⟨dpgStart_absent ht', dpgAbort_absent ht', next_congr (pageWrite_absent ht' _), fun i => dpgKey_absent ht' i v,
      dpgEvt_absent ht' h, (registerWrite_page rfl).trans (next_congr (pageWrite_absent ht' _))⟩
  case busy =>
    intro ht hb
    have ht' := hthere.mpr ht
    have hi : ∀ f, pageWrite s fn pg f = ignored := pageWrite_busy ht' hb
    have hwr : ∀ {r f}, pageReg v hw r = some (pg, f) → wr r = .next ignored := fun hr =>
      (registerWrite_page hr).trans (next_congr (hi _))
    exact ⟨dpgStart_busy ht' hb, next_congr (hi _), hwr rfl, hwr rfl, dpgAbort_queued ht' hb,
      dpgAbort_running ht' hb⟩
  case idle =>
    intro ht hb y
    have ht' := hthere.mpr ht
    have hi : ∀ f, pageWrite s fn pg f = s.setPage fn pg (f x) := pageWrite_idle ht' hb
    have hwr : ∀ {r f z}, pageReg v hw r = some (pg, f) → f x = z → wr r = .next (s.setPage fn pg z) := fun hr hz =>
      (registerWrite_page hr).trans (next_congr ((hi _).trans (by rw [hz])))
    refine ⟨fun st => dpgStart_refused ht' hb, dpgStart_queued ht' hb, fun hc => startRefusal_closed hc,
      dpgAbort_idle ht' hb, next_congr (hi _), hwr rfl rfl, hwr rfl rfl, hwr rfl rfl, hwr rfl rfl, hwr rfl rfl, hwr rfl rfl,
      hwr rfl rfl, hwr rfl rfl, hwr rfl rfl, hwr rfl rfl, fun i hi hs => ?key, fun i hi hs => dpgKey_no_session ht' hi hs v⟩
    case key =>
      refine ⟨_, dpgKey_written ht' hb hi hs v, rfl, fun hk => ?_, rfl⟩
      exact List.getElem?_set_self (by rwa [keyWords_length hk])
  case doneIdle => exact fun r => dpgDone_idle
  case doneRuns => exact fun r => dpgDone_running
  case aborted => exact fun r mode back => finishPage_aborted
  case dpgEvt => exact fun ht => dpgEvt_there (hthere.mpr ht) h
  case winBusy => exact fun hb o k => next_congr (windowWrite_busy hb o k v)
  case winIdle => exact fun hb o k hk ho => next_congr (windowWrite_idle hb hk ho v)
  case goDead => exact fun hd => next_congr (goWrite_dead hd v)
  case go => exact fun hd hb hv => next_congr ((goWrite_idle hd hb v).trans (if_pos hv))
  case noGo => exact fun hd hb hv => next_congr ((goWrite_idle hd hb v).trans (if_neg (Bool.eq_false_iff.mp hv)))
  case goBusy => exact fun hd hb => next_congr (goWrite_busy hd hb v)
  case evqBase => exact fun hb he => next_congr (evqBaseWrite_open hb he v)
  case vf =>
    intro hf
    exact ⟨next_congr (if_neg hf), next_congr (if_neg hf), next_congr (if_neg hf), next_congr (if_neg hf)⟩
  case pf =>
    rintro rfl
    refine ⟨rfl, rfl, rfl, fun h0 => ?_, fun hn => next_congr (if_pos hn)⟩
    subst h0
    exact next_congr (ledEvent_self _)
  case octEvt => exact fun hn => if_pos hn
  case dlEvt => exact fun hn => if_pos hn
  case ledCat =>
    intro h0
    subst h0
    have hl : ∀ (u : State) es, (Host.Outcome.next (answerRead (ledEvent u u) es) : Res) = .next (answerRead u es) :=
      fun u es => by rw [ledEvent_self]
    have hc : ∀ (u : State) es, (Host.Outcome.next (answerRead (catEvent u u) es) : Res) = .next (answerRead u es) :=
      fun u es => by rw [catEvent_self]
    exact ⟨hl _ _, hl _ _, hc _ _⟩
  case folEvt => exact fun hn => if_pos hn
  case flr =>
    refine ⟨_, rfl, rfl, fun y hy => ?_⟩
    obtain ⟨hs, hb, hw, hl⟩ := resetFunction_mbx hy
    exact ⟨hs, hb, hw, hl⟩
  case vfDisable =>
    change Host.Outcome.next _ = _
    by_cases hn : 1 ≤ n ∧ n ≤ 255 <;> simp [hn]
end

section
/-!
SUPPORT. The clusters of a unit type: what the end of a wake, a nap and the way to DORMANT make of a cluster in each of its states
(R16, R102, R458).
-/

namespace Sys2Proof.Machine

section
variable {s : State} {e : EngineType} {c : Nat}

theorem wakeComplete_waking {at' : Nat} (h : clusterState (s.units e) c = .waking at') :
    exec (.wakeComplete e c) s = .next (setCluster s e c (if clusterHeld s e c then .run else .idle)) := by
  change execWakeComplete e c s = _
  rw [execWakeComplete, h]

theorem clusterNap_outsideWarmPool (h : clusterState (s.units e) c = .idle)
    (hw : warmTarget s e < awakeClusters s e ∨ clusterDropped s e c = true) :
    exec (.clusterNap e c) s = .next (setCluster s e c .nap) := if_pos ⟨h, hw⟩

theorem clusterNap_inWarmPool (hw : awakeClusters s e ≤ warmTarget s e) (hd : clusterDropped s e c = false) :
    exec (.clusterNap e c) s = .next s :=
  if_neg fun ⟨_, h⟩ => h.elim (Nat.not_lt.mpr hw) (Bool.eq_false_iff.mp hd)

theorem clusterDormant_nap (h : clusterState (s.units e) c = .nap) :
    exec (.clusterDormant e c) s = .next (setCluster s e c .dormant) := by
  change execClusterDormant e c s = _
  rw [execClusterDormant, h]

theorem clusterDormant_of_ne (h : clusterState (s.units e) c ≠ .nap) : exec (.clusterDormant e c) s = .next s := by
  change execClusterDormant e c s = _
  unfold execClusterDormant
  split
  · next hn => exact absurd hn h
  · rfl

end

end Sys2Proof.Machine

open Sys2Proof Sys2Proof.Machine

/-- Settles O33: the state of the cluster alone decides, and a nap needs the cluster outside the warm pool besides (R102). -/
theorem clustersWakeAndRest : Obligations.ClustersWakeAndRest := by
  unfold Obligations.ClustersWakeAndRest
  intro s e c st is
  exact ⟨fun _ => wakeComplete_waking, clusterNap_outsideWarmPool, fun _ => clusterNap_inWarmPool, clusterDormant_nap,
    clusterDormant_of_ne⟩
end

section
/-!
SUPPORT. A unit fault whose re-run ends late: the deadline fault may reset the chip, and then nothing is fenced (R19, R114, R445).
-/

namespace Sys2Proof.Machine

/-- A slip on tun 0 that has been re-run once and is past its deadline of 1 us. -/
def lateRerun : Slip :=
  { hopper := 0, carrel := 0, cs := { dlExt := 1 }, head := 0, phase := .running, engine := .tun, unit := some 0, retried := true }

/-- A READY device that runs it, on which a missed deadline (source 0x140) resets the chip. -/
def deadlineResets : State :=
  { State.reset with
    now := 2000
    reg := { State.reset.reg with dev := .ready }
    carrels := [(0, { st := .active })]
    hop := { hoppers := [(0, { carrel := 0, index := 0, attach := .host, state := .active })], slips := [(0, lateRerun)] }
    flt := { State.reset.flt with cfg := [(0x140, { minor := 0x08#5, severe := 0x08#5, thresh := 1, windowMs := 1 })] } }

/-- No source of the unit fault itself resets the chip. -/
theorem deadlineResets_quiet : ∀ n ∈ [0x200, 0x300, 0x301],
    (srcCfg deadlineResets n).minor.getLsbD 3 = false ∧ (srcCfg deadlineResets n).severe.getLsbD 3 = false := by decide

/-- The aborted slip's return slip is late, so the chip resets after the fence; of the fenced tun nothing is recorded then. -/
theorem unitFault_deadlineResets_unfenced : Tab.get? ((unitFault deadlineResets .tun 0 0x200).units .tun).fenced 0 = none := rfl

end Sys2Proof.Machine

open Sys2Proof Sys2Proof.Machine

/-- Refutes O35: the faulted tun ran a slip that was re-run before, which therefore ends with `ABORTED` (R19). It is late, and its
deadline fault, source 0x140, has `CHIP_RESET` in its mask, which the hypotheses on the sources leave open. The chip is reset within
the step, and the tun is no longer fenced after it. -/
theorem not_unitsFaultAreWipedAndReturn : ¬ Obligations.UnitsFaultAreWipedAndReturn := by
  unfold Obligations.UnitsFaultAreWipedAndReturn
  intro h
  obtain ⟨hfault, -⟩ := h deadlineResets .tun 0 0x200
  obtain ⟨t, hrun, hfenced, -⟩ := hfault rfl (by decide) rfl deadlineResets_quiet
  have ht : unitFault deadlineResets .tun 0 0x200 = t := Host.Outcome.next.inj hrun
  rw [← ht, unitFault_deadlineResets_unfenced] at hfenced
  exact Bool.false_ne_true hfenced
end

section
/-!
SUPPORT. Doorbells: what one record makes of its hopper, and what a WRITE to the doorbell region and a store of the host come to
(R44 to R49, R71 to R73, R75).
-/

namespace Sys2Proof.Machine

section
variable {s : State}

/-! ## One record (R45, R46, R71 to R73) -/

section
variable {hn : Nat} {h : Hopper} {b : Bytes} (hh : s.hopper? hn = some h)
include hh

theorem doorbellRecord_malformed (hb : recordOk hn b = false) : doorbellRecord s hn b = doorbellError s h.carrel (some hn) := by
  simp [doorbellRecord, hh, hb]

variable (hb : recordOk hn b = true) (ht : field b 12 2 = 0)
include hb ht

/-- A producer index further ahead than the ring is long. -/
theorem doorbellRecord_past (hd : depth h < (BitVec.ofNat 32 (field b 8 4) - h.ci).toNat) :
    doorbellRecord s hn b = doorbellError s h.carrel (some hn) := by
  unfold doorbellRecord
  simp only [hh, hb, ht, if_pos hd]
  rfl

section
variable (hd : (BitVec.ofNat 32 (field b 8 4) - h.ci).toNat ≤ depth h)
include hd

theorem doorbellRecord_advances (hne : BitVec.ofNat 32 (field b 8 4) ≠ h.p)
    (hle : (h.p - h.ci).toNat ≤ (BitVec.ofNat 32 (field b 8 4) - h.ci).toNat) :
    doorbellRecord s hn b = s.setHopper hn { h with
      lastDbSeq := BitVec.ofNat 32 (field b 4 4), p := BitVec.ofNat 32 (field b 8 4)
      arrivals := h.arrivals ++ [(BitVec.ofNat 32 (field b 8 4), s.now)] } := by
  have hfwd : BitVec.ofNat 32 (field b 8 4) ≠ h.p ∧
      (BitVec.ofNat 32 (field b 8 4) - h.ci).toNat ≥ (h.p - h.ci).toNat := ⟨hne, hle⟩
  unfold doorbellRecord
  simp only [hh, hb, ht, if_neg (Nat.not_lt.mpr hd), if_pos hfwd]
  rfl

/-- A producer index that would not move P forward moves nothing. -/
theorem doorbellRecord_stays
    (hp : BitVec.ofNat 32 (field b 8 4) = h.p ∨ (BitVec.ofNat 32 (field b 8 4) - h.ci).toNat < (h.p - h.ci).toNat) :
    doorbellRecord s hn b = s.setHopper hn { h with lastDbSeq := BitVec.ofNat 32 (field b 4 4) } := by
  have hfwd : ¬ (BitVec.ofNat 32 (field b 8 4) ≠ h.p ∧
      (BitVec.ofNat 32 (field b 8 4) - h.ci).toNat ≥ (h.p - h.ci).toNat) := by
    rintro ⟨hne, hle⟩
    exact hp.elim hne (Nat.not_lt.mpr hle)
  unfold doorbellRecord
  simp only [hh, hb, ht, if_neg (Nat.not_lt.mpr hd), if_neg hfwd]
  rfl

end

end

/-! ## A WRITE to the doorbell region (R46 to R49) -/

@[simp] theorem cnpFor_unmarked (s : State) (q : Nat) : cnpFor s q false = s := by
  unfold cnpFor
  split <;> simp

/-- The hoppers at the positions that a WRITE of `len` bytes at `off` covers, in order. -/
def rungHoppers (s : State) (carrel off len : Nat) : List (Option Nat) :=
  (List.range ((len + 15) / 16)).map fun i => hopperAt s carrel (off / 16 + i)

/-- Each of the positions has a hopper, bound to the queue pair. -/
def allBound (s : State) (qpn : Nat) (hops : List (Option Nat)) : Bool :=
  hops.all fun h => (h.bind s.hopper?).any fun x => x.qpn == some qpn

theorem allBound_iff {qpn : Nat} {hops : List (Option Nat)} :
    allBound s qpn hops = true ↔ ∀ x ∈ hops, ∃ hn h, x = some hn ∧ s.hopper? hn = some h ∧ h.qpn = some qpn := by
  simp only [allBound, List.all_eq_true, Option.any_eq_true, Option.bind_eq_some_iff, beq_iff_eq]
  refine forall₂_congr fun x _ => ⟨?_, ?_⟩
  · rintro ⟨h, ⟨hn, hx, hh⟩, hq⟩
    exact ⟨hn, h, hx, hh, hq⟩
  · rintro ⟨hn, h, hx, hh, hq⟩
    exact ⟨h, ⟨hn, hx, hh⟩, hq⟩

/-- The records of a WRITE, each at its position's hopper. -/
def ringAll (hops : List (Option Nat)) (data : Bytes) (s : State) : State :=
  hops.zipIdx.foldl (fun s x => doorbellRecord s (x.1.getD 0) (slice data (16 * x.2) 16)) s

/-- Where every position has its hopper, a pass over the positions takes each record at its hopper. -/
theorem foldl_zipIdx_eq_ringAll {qpn : Nat} {hops : List (Option Nat)} (hb : allBound s qpn hops = true) {data : Bytes}
    {f : State → Option Nat × Nat → State}
    (hf : ∀ u hn k, f u (some hn, k) = doorbellRecord u hn (slice data (16 * k) 16)) (t : State) :
    hops.zipIdx.foldl f t = ringAll hops data t := by
  refine List.foldl_ext _ _ _ fun u x hx => ?_
  obtain ⟨y, k⟩ := x
  obtain ⟨hn, h, rfl, -⟩ := allBound_iff.mp hb y (List.fst_mem_of_mem_zipIdx hx)
  exact hf u hn k

section
variable {qpn psn : Nat} {rkey : W32} {off : Nat} {data : Bytes} {q : Qp} (hq : s.qp? qpn = some q) (hrts : q.phase = .rts)
  (hpsn : q.recvPsn = BitVec.ofNat 24 psn)
include hq hrts hpsn

/-- A WRITE in sequence is refused, or acknowledged and its records taken one by one. -/
theorem doorbellWrite_inSequence :
    exec (.doorbellWrite qpn psn false rkey off data) s =
      let hops := rungHoppers s q.carrel off data.length
      let taken := (s.setQp qpn { q with recvPsn := q.recvPsn + 1 }).send (.ack qpn psn)
      if 1024 < data.length then .next (qpError (s.send (.nakInvalidRequest qpn psn)) qpn none 0x3FFFF)
      else if rkey ≠ q.dbRkey ∨ off % 16 ≠ 0 ∨ allBound s qpn hops = false then
        .next (qpError (s.send (.nakRemoteAccess qpn psn)) qpn none 0x3FFFF)
      else if data.length % 16 ≠ 0 then .next (hops.foldl (fun r x => doorbellError r q.carrel x) taken)
      else .next (ringAll hops data taken) := by
  have hks : ((List.range ((data.length + 15) / 16)).map fun i => off / 16 + i).map (hopperAt s q.carrel) =
      rungHoppers s q.carrel off data.length := List.map_map ..
  change execDoorbellWrite qpn psn false rkey off data s = _
  unfold execDoorbellWrite
  simp only [hq, hrts, hpsn, cnpFor_unmarked, hks, BitVec.sub_self, BitVec.toNat_ofNat, Nat.zero_mod, ne_eq, not_true_eq_false,
    if_false]
  congr 1
  by_cases hb : allBound s qpn (rungHoppers s q.carrel off data.length) = true
  · rw [foldl_zipIdx_eq_ringAll hb fun _ _ _ => rfl]; rfl
  · have hb' := Bool.eq_false_iff.mpr hb
    rw [if_pos (.inr (.inr hb')), if_pos (.inr (.inr hb'))]

end

/-! ## Doorbells of the host (R75) -/

theorem hostDoorbell_whole {fn k : Nat} {data : Bytes} (hk : k < 65536) (hl : data.length = 16) :
    exec (.hostDoorbell fn (16 * k) data) s = .next (hostRecord { s with hop := { s.hop with
      hostLatch := Tab.erase s.hop.hostLatch (65536 * fn + k) } } fn k data) := by
  have hd : 16 * k / 16 = k := by omega
  change execHostDoorbell fn (16 * k) data s = _
  simp [execHostDoorbell, hd, hl, Nat.not_le.mpr hk]

theorem hostDoorbell_firstHalf {fn k : Nat} {data : Bytes} (hk : k < 65536) (hl : data.length = 8) :
    exec (.hostDoorbell fn (16 * k) data) s = .next { s with hop := { s.hop with
      hostLatch := Tab.set s.hop.hostLatch (65536 * fn + k) data } } := by
  have hd : 16 * k / 16 = k := by omega
  change execHostDoorbell fn (16 * k) data s = _
  simp [execHostDoorbell, hd, hl, Nat.not_le.mpr hk]

theorem hostDoorbell_secondHalf {fn k : Nat} {data b : Bytes} (hk : k < 65536) (hl : data.length = 8)
    (hb : Tab.get? s.hop.hostLatch (65536 * fn + k) = some b) :
    exec (.hostDoorbell fn (16 * k + 8) data) s = .next (hostRecord { s with hop := { s.hop with
      hostLatch := Tab.erase s.hop.hostLatch (65536 * fn + k) } } fn k (b ++ data)) := by
  have hd : (16 * k + 8) / 16 = k := by omega
  have hm : (16 * k + 8) % 16 = 8 := by omega
  change execHostDoorbell fn (16 * k + 8) data s = _
  simp [execHostDoorbell, hd, hm, hl, hb, Nat.not_le.mpr hk]

/-- A record at the position of a hopper attached to the host is that hopper's. -/
theorem hostRecord_attached {fn k hn : Nat} {h : Hopper} (hk : hopperAt s fn k = some hn) (hh : s.hopper? hn = some h)
    (ha : h.attach = .host) (b : Bytes) : hostRecord s fn k b = doorbellRecord s hn b := by
  simp [hostRecord, hk, hh, ha]

end

end Sys2Proof.Machine

open Sys2Proof Sys2Proof.Machine

/-- Settles O36: a record is judged by its form and by where its producer index lies between the consumer index and the end of the
ring; a WRITE by its length, its key, its place and the binding of every hopper it rings. -/
theorem doorbellsMoveTheProducerIndex : Obligations.DoorbellsMoveTheProducerIndex := by
  unfold Obligations.DoorbellsMoveTheProducerIndex
  intro s record
  refine ⟨?index, ?malformed, ?write, ?host⟩
  case index =>
    rintro hn h seq pi b hh ⟨hhn, rfl, rfl, ht, -, hr⟩ p h'
    have hok : recordOk hn b = true := by simp [recordOk, hhn, ht, hr]
    exact ⟨doorbellRecord_advances hh hok ht, doorbellRecord_stays hh hok ht, doorbellRecord_past hh hok ht⟩
  case malformed =>
    intro hn h b hh hbad
    have hok : recordOk hn b = false := by
      rcases hbad with hb | hb | hb
      · simp [recordOk, hb]
      · simp [recordOk, Nat.not_le.mpr hb]
      · simp [recordOk, hb]
    exact doorbellRecord_malformed hh hok
  case write =>
    intro qpn psn rkey off data q hq hrts hpsn run hops bound taken
    have hrun := doorbellWrite_inSequence (rkey := rkey) (off := off) (data := data) hq hrts hpsn
    have hbound : allBound s qpn hops = true ↔ bound := allBound_iff
    have hgood : rkey = q.dbRkey → off % 16 = 0 → bound →
        ¬ (rkey ≠ q.dbRkey ∨ off % 16 ≠ 0 ∨ allBound s qpn hops = false) := by
      intro hk ho hb
      simp [hk, ho, hbound.mpr hb]
    refine ⟨fun hl hm hk ho hb => ?_, fun hl hm hk ho hb => ?_, fun hl hbad => ?_, fun hl => hrun.trans (if_pos hl)⟩
    · exact hrun.trans ((if_neg (Nat.not_lt.mpr hl)).trans ((if_neg (hgood hk ho hb)).trans (if_neg (not_not.mpr hm))))
    · exact hrun.trans ((if_neg (Nat.not_lt.mpr hl)).trans ((if_neg (hgood hk ho hb)).trans (if_pos hm)))
    · rw [← hbound, Bool.not_eq_true] at hbad
      exact hrun.trans ((if_neg (Nat.not_lt.mpr hl)).trans (if_pos hbad))
  case host =>
    intro fn k hn h data hk hat hh ha key clear
    have hrec : ∀ b, hostRecord clear fn k b = doorbellRecord clear hn b := hostRecord_attached (s := clear) hat hh ha
    exact ⟨fun hl => (hostDoorbell_whole hk hl).trans (next_congr (hrec _)), hostDoorbell_firstHalf hk,
      fun b hl hb => (hostDoorbell_secondHalf hk hl hb).trans (next_congr (hrec _))⟩
end

section
/-!
SUPPORT. Queue pairs and their hoppers: what events leave alone, what binding and unbinding make of the hoppers, and what each
connection message does (R35 to R43, R57).
-/

namespace Sys2Proof.Machine

/-! ## Events leave all but the mailboxes and the messages sent (R365, R380) -/

/-- A fold of operations that keep a part of the state keeps it. -/
theorem foldl_keeps {α β : Type} (part : State → β) {f : State → α → State} (hf : ∀ s a, part (f s a) = part s)
    (l : List α) (s : State) : part (l.foldl f s) = part s := by
  induction l generalizing s with
  | nil => rfl
  | cons a l ih => rw [List.foldl_cons, ih, hf]

/-- From `s` to `t` nothing but the mailboxes and the messages sent has changed. -/
def OnlyMailboxes (s t : State) : Prop := t = { s with reg := { s.reg with mbx := t.reg.mbx }, out := t.out }

namespace OnlyMailboxes

theorem refl (s : State) : OnlyMailboxes s s := rfl

theorem trans {s t u : State} (h : OnlyMailboxes s t) (h' : OnlyMailboxes t u) : OnlyMailboxes s u := by
  unfold OnlyMailboxes at *
  rw [h', h]

end OnlyMailboxes

theorem eventTo_only (s : State) (fn code : Nat) (data : Bytes) : OnlyMailboxes s (eventTo s fn code data) := by
  unfold eventTo
  dsimp only
  split
  · rfl
  · split <;> rfl

theorem queueEvent_only (s : State) (code : Nat) (data : Bytes) (vf : Option Nat) :
    OnlyMailboxes s (queueEvent s code data vf) := by
  unfold queueEvent
  have h0 := eventTo_only s 0 code data
  cases vf with
  | none => exact h0
  | some c =>
    dsimp only
    split
    · exact h0
    · exact h0.trans (eventTo_only ..)

theorem hopperEvent_only (s : State) (n : Nat) : OnlyMailboxes s (hopperEvent s n) := by
  unfold hopperEvent
  split
  · exact .refl s
  · exact queueEvent_only ..

@[simp] theorem hopperEvent_ports (s : State) (n : Nat) : (hopperEvent s n).ports = s.ports := by rw [hopperEvent_only s n]
@[simp] theorem hopperEvent_carrels (s : State) (n : Nat) : (hopperEvent s n).carrels = s.carrels := by rw [hopperEvent_only s n]
@[simp] theorem hopperEvent_hop (s : State) (n : Nat) : (hopperEvent s n).hop = s.hop := by rw [hopperEvent_only s n]

/-! ## Binding hoppers (R57) -/

/-- The hopper takes the binding `b`, and its event is queued. -/
def bindHopper (b : Option Nat) (s : State) (hn : Nat) : State := hopperEvent (s.modHopper hn fun h => { h with qpn := b }) hn

theorem bindHopper_hopper (b : Option Nat) (s : State) (hn j : Nat) :
    (bindHopper b s hn).hopper? j = if j = hn then (s.hopper? j).map fun h => { h with qpn := b } else s.hopper? j := by
  have he : (bindHopper b s hn).hopper? j = (s.modHopper hn fun h => { h with qpn := b }).hopper? j := by
    simp only [State.hopper?, bindHopper, hopperEvent_hop]
  rw [he]
  split
  · next h => rw [h, State.modHopper_hopper_self]
  · next h => exact Tab.get?_mod_of_ne _ _ h

theorem modHopper_eq {s : State} {hn : Nat} {h : Hopper} (hh : s.hopper? hn = some h) (f : Hopper → Hopper) :
    s.modHopper hn f = s.setHopper hn (f h) := by
  have hg : Tab.get? s.hop.hoppers hn = some h := hh
  simp [State.modHopper, State.setHopper, Tab.mod, hg]

/-- Each hopper of the list takes the binding, and no other changes. -/
theorem foldl_bindHopper_hopper (b : Option Nat) (l : List Nat) (s : State) (j : Nat) :
    (l.foldl (bindHopper b) s).hopper? j = if j ∈ l then (s.hopper? j).map fun h => { h with qpn := b } else s.hopper? j := by
  induction l generalizing s with
  | nil => rfl
  | cons hn l ih =>
    rw [List.foldl_cons, ih, bindHopper_hopper]
    by_cases hj : j = hn
    · cases h : s.hopper? j <;> simp [← hj]
    · simp [hj]

@[simp] theorem bindHopper_ports (b : Option Nat) (s : State) (hn : Nat) : (bindHopper b s hn).ports = s.ports :=
  hopperEvent_ports _ hn
@[simp] theorem bindHopper_carrels (b : Option Nat) (s : State) (hn : Nat) : (bindHopper b s hn).carrels = s.carrels :=
  hopperEvent_carrels _ hn

@[simp] theorem unbind_qp (s : State) (q n : Nat) : (unbind s q).qp? n = s.qp? n := by
  have h : (unbind s q).ports = s.ports := foldl_keeps State.ports (bindHopper_ports none) (hoppersOf s q) s
  simp only [State.qp?, h]

@[simp] theorem unbind_carrel (s : State) (q c : Nat) : (unbind s q).carrel c = s.carrel c := by
  have h : (unbind s q).carrels = s.carrels := foldl_keeps State.carrels (bindHopper_carrels none) (hoppersOf s q) s
  simp only [State.carrel, h]

/-- A listed entry that a lookup finds is in the table. -/
theorem Tab.mem_of_get? {α : Type} {t : Tab α} {k : Nat} {v : α} (h : Tab.get? t k = some v) : (k, v) ∈ t := by
  induction t with
  | nil => exact absurd h nofun
  | cons p t ih =>
    obtain ⟨k', v'⟩ := p
    unfold Tab.get? at h
    split at h
    · next hk => rw [hk, Option.some.inj h]; exact List.mem_cons_self
    · exact List.mem_cons_of_mem _ (ih h)

theorem mem_hoppersOf {s : State} {q hn : Nat} {h : Hopper} (hh : s.hopper? hn = some h) (hq : h.qpn = some q) :
    hn ∈ hoppersOf s q :=
  List.mem_map.mpr ⟨(hn, h), List.mem_filter.mpr ⟨Tab.mem_of_get? hh, by simp [hq]⟩, rfl⟩

/-- No hopper is bound to the queue pair any more. -/
theorem unbind_hopper {s : State} {q hn : Nat} {h : Hopper} (hh : (unbind s q).hopper? hn = some h) : h.qpn ≠ some q := by
  have hu : (unbind s q).hopper? hn = _ := foldl_bindHopper_hopper none (hoppersOf s q) s hn
  rw [hu] at hh
  split at hh
  · obtain ⟨x, -, rfl⟩ := Option.map_eq_some_iff.mp hh
    exact nofun
  · next hm => exact fun hq => hm (mem_hoppersOf hh hq)

/-! ## A queue pair is given up (R57) -/

section
variable {s : State} {n : Nat} {q : Qp} (hq : s.qp? n = some q)
include hq

/-- With nothing outstanding, nothing fails. -/
theorem failOutstanding_idle (ho : q.outstanding = []) :
    failOutstanding s n = s.setQp n { q with outstanding := [] } := by
  simp [failOutstanding, hq, ho]

theorem closeQp_idle (hp : q.phase ≠ .error) (ho : q.outstanding = []) :
    closeQp s n = (unbind ((s.setQp n { q with phase := .error }).send (.dreq n)) n).setQp n
      { q with phase := .error, outstanding := [] } := by
  have hu : (unbind ((s.setQp n { q with phase := .error }).send (.dreq n)) n).qp? n = some { q with phase := .error } := by
    rw [unbind_qp, State.send_qp, State.setQp_qp_self]
  rw [closeQp, hq]
  exact (if_neg hp).trans (failOutstanding_idle hu ho)

/-- An error without a fault source is counted, and the queue pair given up. -/
theorem qpError_unreported (hp : q.phase ≠ .error) (hopper : Nat) :
    let c := s.carrel q.carrel
    qpError s n none hopper =
      closeQp (s.setCarrel q.carrel { c with stats := { c.stats with qpErr := c.stats.qpErr + 1 } }) n := by
  simp [qpError, hq, hp]

end

/-! ## Connection messages (R35, R38 to R43) -/

section
variable {s : State} {n : Nat} {q : Qp}

theorem qpPhase_eq (hq : s.qp? n = some q) : qpPhase s n = some q.phase := by simp [qpPhase, hq]

theorem sendRep_qp (hq : s.qp? n = some q) : (sendRep s n).qp? n = some { q with phase := .repSent } := by
  rw [sendRep, hq]
  exact State.setQp_qp_self ..

theorem cmReq_refused {r : CmReq} {code : Nat}
    (h : reqRefused s r (liveToken s (BitVec.ofNat 128 (field r.priv 8 16)) (field r.priv 6 2)) = some code) :
    exec (.cmReq r) s = .next (s.send (.rej r.port code)) := by
  change execCmReq r s = _
  simp only [execCmReq, h]

/-- The queue pair that an accepted request makes, `old` being those its hoppers were bound to (R39, R40). -/
def requestedQp (s : State) (r : CmReq) (tid : Nat) (k : Token) (n : Nat) (old : List Nat) : Qp :=
  let rnd := s.freeBytes 7
  { carrel := k.carrel, phase := .waitDrain old, token := some tid, hopFirst := k.first, hopCount := k.count
    peerQpn := r.clientQpn, peerGid := r.clientGid, port := r.port, pmtu := min r.pathMtu (min k.mtu 4096)
    readDepth := min 16 r.respRes, immGranted := bit (field r.priv 28 4) 0
    clientRkey := BitVec.ofNat 32 (field r.priv 24 4), dbRkey := BitVec.ofNat 32 (field rnd 0 4)
    sendPsn := BitVec.ofNat 24 (field rnd 4 3), recvPsn := r.clientPsn, ackT := r.ackTimeout, retryCnt := r.retryCnt
    retryLeft := r.retryCnt, rnrCnt := r.rnrRetry, rnrLeft := r.rnrRetry
    srcPort := BitVec.ofNat 16 (0xC000 + Config.freeNat 101 [n] % 0x4000) }

/-- A request under a token that no queue pair uses, for hoppers none of which is bound, is answered at once. -/
theorem cmReq_accepted {r : CmReq} {tid : Nat} {k : Token}
    (ht : liveToken s (BitVec.ofNat 128 (field r.priv 8 16)) (field r.priv 6 2) = some (tid, k))
    (hr : reqRefused s r (some (tid, k)) = none) (hf : freeQpn s = some n)
    (hu : (s.ports.qps.any fun p => p.2.token == some tid) = false) (hb : ∀ hn h, s.hopper? hn = some h → h.qpn = none) :
    exec (.cmReq r) s = .next (sendRep ((s.drawn 7).setQp n (requestedQp s r tid k n [])) n) := by
  have hlive : ((runOf k.first k.count).filterMap fun hn => (s.hopper? hn).bind (·.qpn)) = [] := by
    refine List.filterMap_eq_nil_iff.mpr fun hn _ => ?_
    cases hh : s.hopper? hn with
    | none => rfl
    | some h => exact hb hn h hh
  have hhalf : ∀ g : Nat × Qp → Bool, (s.ports.qps.filter fun p => p.2.token == some tid && g p) = [] := by
    intro g
    refine List.filter_eq_nil_iff.mpr fun p hp => ?_
    simp [List.any_eq_false.mp hu p hp]
  change execCmReq r s = _
  simp only [execCmReq, ht, hr, hf, hlive, hhalf]
  rfl

theorem rebindDrainDone_drained {old : List Nat} (hq : s.qp? n = some q) (hp : q.phase = .waitDrain old)
    (hd : ∀ o ∈ old, ∀ x, s.qp? o = some x → x.outstanding = []) :
    exec (.rebindDrainDone n) s = .next (rebindOn s n old) := by
  have hall : (old.all fun o => (s.qp? o).all fun x => x.outstanding.isEmpty) = true := by
    simp only [List.all_eq_true, Option.all_eq_true, List.isEmpty_iff]
    exact hd
  change execRebindDrainDone n s = _
  simp only [execRebindDrainDone, qpPhase_eq hq, hp, if_pos hall]

theorem rebindDrainDone_waiting {old : List Nat} {o : Nat} {x : Qp} (hq : s.qp? n = some q) (hp : q.phase = .waitDrain old)
    (ho : o ∈ old) (hx : s.qp? o = some x) (hne : x.outstanding ≠ []) : exec (.rebindDrainDone n) s = .next s := by
  have hall : ¬ (old.all fun o => (s.qp? o).all fun x => x.outstanding.isEmpty) = true := by
    simp only [List.all_eq_true, Option.all_eq_true, List.isEmpty_iff]
    exact fun h => hne (h o ho x hx)
  change execRebindDrainDone n s = _
  simp only [execRebindDrainDone, qpPhase_eq hq, hp, if_neg hall]

theorem rebindDrainTimeout_waiting {old : List Nat} (hq : s.qp? n = some q) (hp : q.phase = .waitDrain old) :
    exec (.rebindDrainTimeout n) s = .next (rebindOn s n old) := by
  change execRebindDrainTimeout n s = _
  simp only [execRebindDrainTimeout, qpPhase_eq hq, hp]

theorem cmRtu_answered (hq : s.qp? n = some q) (hp : q.phase = .repSent) : exec (.cmRtu n) s = .next (establish s n) := by
  change execCmRtu n s = _
  simp only [execCmRtu, qpPhase_eq hq, hp]

theorem cmRtu_of_ne (hq : s.qp? n = some q) (hp : q.phase ≠ .repSent) : exec (.cmRtu n) s = .next s := by
  change execCmRtu n s = _
  unfold execCmRtu
  split
  · next h => exact absurd (Option.some.inj ((qpPhase_eq hq).symm.trans h)) hp
  · rfl

theorem cmDrep_error (hq : s.qp? n = some q) (hp : q.phase = .error) : exec (.cmDrep n) s = .next (s.delQp n) := by
  change execCmDrep n s = _
  simp only [execCmDrep, qpPhase_eq hq, hp]

theorem cmDrep_of_ne (hq : s.qp? n = some q) (hp : q.phase ≠ .error) : exec (.cmDrep n) s = .next s := by
  change execCmDrep n s = _
  unfold execCmDrep
  split
  · next h => exact absurd (Option.some.inj ((qpPhase_eq hq).symm.trans h)) hp
  · rfl

theorem invalidRequestPacket_rts (hq : s.qp? n = some q) (hp : q.phase = .rts) (psn : Nat) :
    exec (.invalidRequestPacket n psn) s = .next (qpError (s.send (.nakInvalidRequest n psn)) n none 0x3FFFF) := by
  change execInvalidRequestPacket n psn s = _
  simp only [execInvalidRequestPacket, qpPhase_eq hq, hp]

theorem cmDreq_idle (hq : s.qp? n = some q) (ho : q.outstanding = []) :
    exec (.cmDreq n) s = .next (((unbind ((s.send (.drep n)).setQp n { q with phase := .error }) n).setQp n
      { q with phase := .error, outstanding := [] }).delQp n) := by
  have hu : (unbind ((s.send (.drep n)).setQp n { q with phase := .error }) n).qp? n = some { q with phase := .error } := by
    rw [unbind_qp, State.setQp_qp_self]
  change execCmDreq n s = _
  simp only [execCmDreq, hq, failOutstanding_idle hu ho]

/-! ## A queue pair becomes ready (R54, R57) -/

/-- A hopper with nothing held and no status block asked for has nothing to write. -/
theorem flushHopper_idle {hn : Nat} {h : Hopper} (hh : s.hopper? hn = some h) (hheld : h.held = []) (hsb : h.statusPending = 0) :
    flushHopper s hn = s := by
  simp [flushHopper, hh, hheld, hsb, flushHeld, flushStatus]

/-- The queue pair as it becomes ready: at the full rate of its port. -/
def readyQp (s : State) (q : Qp) : Qp :=
  { q with phase := .rts, rate := portRate s q.port, target := portRate s q.port, alpha := 1, periods := 0 }

/-- A queue pair of one hopper that has nothing to write becomes ready. -/
theorem establish_single {hn : Nat} {h : Hopper} (hq : s.qp? n = some q) (hc : q.hopCount = 1) (hf : q.hopFirst = hn)
    (hh : s.hopper? hn = some h) (hcar : h.carrel = q.carrel) (hheld : h.held = []) (hsb : h.statusPending = 0) :
    establish s n = bindHopper (some n) (s.setQp n (readyQp s q)) hn := by
  have hown : ((s.hopper? hn).any fun h => h.carrel == q.carrel) = true := by simp [hh, hcar]
  have hrun : (runOf q.hopFirst q.hopCount).filter (fun hn => ((s.setQp n (readyQp s q)).hopper? hn).any fun h =>
      h.carrel == q.carrel) = [hn] := by simp [runOf, hc, hf, hown]
  have hb : (bindHopper (some n) (s.setQp n (readyQp s q)) hn).hopper? hn = some { h with qpn := some n } := by
    rw [bindHopper_hopper, if_pos rfl, State.setQp_hopper, hh]; rfl
  unfold readyQp at hrun hb
  simp only [establish, hq, hrun]
  exact flushHopper_idle hb hheld hsb

end

end Sys2Proof.Machine

open Sys2Proof Sys2Proof.Machine

/-- Settles O37: a message acts on the phase of its queue pair; unbinding takes the queue pair off every hopper that names it. -/
theorem queuePairsConnectAndDisconnect : Obligations.QueuePairsConnectAndDisconnect := by
  unfold Obligations.QueuePairsConnectAndDisconnect
  intro s n
  refine ⟨fun r code => cmReq_refused, ?accepted, fun q old hq hp => rebindDrainDone_drained hq hp,
    fun q old o x hq hp => rebindDrainDone_waiting hq hp, fun q old hq hp => rebindDrainTimeout_waiting hq hp,
    fun q hq => ⟨rfl, _, sendRep_qp hq, rfl⟩, ?rtu, fun q hq => cmRtu_of_ne hq, ?dreq, fun q hq => cmDrep_error hq,
    fun q hq => cmDrep_of_ne hq, fun q psn hq hp => invalidRequestPacket_rts hq hp psn, ?error⟩
  case accepted =>
    intro r tid k ht hr hf hu hb
    exact ⟨_, _, cmReq_accepted ht hr hf hu hb, sendRep_qp (State.setQp_qp_self ..), rfl, rfl, rfl, rfl, rfl, rfl, rfl, rfl, rfl,
      rfl⟩
  case rtu =>
    intro q hn h hq hp hc hf hh hcar hheld hsb
    refine ⟨_, readyQp s q, { h with qpn := some n },
      (cmRtu_answered hq hp).trans (next_congr (establish_single hq hc hf hh hcar hheld hsb)), ?_, rfl, rfl, rfl, ?_, rfl⟩
    · simp only [State.qp?, bindHopper_ports]
      exact State.setQp_qp_self ..
    · rw [bindHopper_hopper, if_pos rfl, State.setQp_hopper, hh]; rfl
  case dreq =>
    intro q hq ho
    exact ⟨_, cmDreq_idle hq ho, State.delQp_qp_self .., fun hn h hh => unbind_hopper hh⟩
  case error =>
    intro q hq hp ho t
    have hclose := closeQp_idle (s := s.setCarrel q.carrel { s.carrel q.carrel with
      stats := { (s.carrel q.carrel).stats with qpErr := (s.carrel q.carrel).stats.qpErr + 1 } }) hq hp ho
    have ht : t = _ := (qpError_unreported hq hp 0x3FFFF).trans hclose
    rw [ht]
    refine ⟨⟨_, State.setQp_qp_self .., rfl⟩, fun hn h hh => unbind_hopper hh, ?_⟩
    rw [State.setQp_carrel, unbind_carrel, State.send_carrel, State.setQp_carrel, State.setCarrel_carrel_self]
end

section
/-!
SUPPORT. Requests of a queue pair: what settles them, what resends them, what ends them; its rate (R50 to R54, R58, R76).
-/

namespace Sys2Proof.Machine

/-- Of two writes to one entry the second counts. -/
@[simp] theorem Tab.set_set {α : Type} (t : Tab α) (k : Nat) (v w : α) : Tab.set (Tab.set t k v) k w = Tab.set t k w := by
  induction t with
  | nil => simp [Tab.set]
  | cons p t ih =>
    obtain ⟨k', v'⟩ := p
    by_cases h1 : k < k'
    · simp [Tab.set, h1]
    · by_cases h2 : k = k'
      · simp [Tab.set, h2]
      · simp [Tab.set, h1, h2, ih]

@[simp] theorem State.setQp_setQp (s : State) (n : Nat) (x y : Qp) : (s.setQp n x).setQp n y = s.setQp n y := by
  simp [State.setQp]

section
variable {s : State} {n rid : Nat} {q : Qp} {r : Req}

@[simp] theorem reqHopper_setQp (s : State) (n : Nat) (x : Qp) (r : Req) : reqHopper (s.setQp n x) r = reqHopper s r := rfl

/-- The request that is found is the one asked for. -/
theorem findReq_id (h : findReq s n rid = some r) : r.id = rid := by
  obtain ⟨x, -, hx⟩ := Option.bind_eq_some_iff.mp h
  split at hx
  · have hp := List.find?_some hx
    simp only [Bool.and_eq_true, beq_iff_eq] at hp
    exact hp.1
  · exact absurd hx nofun

/-- An answer to the only request outstanding settles nothing else. -/
theorem settled_single (h : r.id = rid) : settled rid [r] = ([], []) := by simp [settled, h]

/-- A queue pair of which nothing is outstanding any more, its retry budgets renewed (R58). -/
def settledQp (q : Qp) : Qp := { q with retryLeft := q.retryCnt, rnrLeft := q.rnrCnt, outstanding := [] }

/-! ## Answers (R50, R51, R58) -/

section
variable (hq : s.qp? n = some q) (hf : findReq s n rid = some r)
include hq hf

theorem settleReq_single (ho : q.outstanding = [r]) : settleReq s n rid = s.setQp n (settledQp q) := by
  simp [settleReq, hq, ho, settled_single (findReq_id hf), settledQp]

theorem rdmaReadResponse_whole {data : Bytes} (hr : r.read = true) (hl : data.length = r.len) (ho : q.outstanding = [r]) :
    exec (.rdmaReadResponse n rid false data) s = .next (afterAck (deliverData (s.setQp n (settledQp q)) r data) n) := by
  change execRdmaReadResponse n rid false data s = _
  simp [execRdmaReadResponse, hf, hr, hl, settleReq_single hq hf ho]

theorem rdmaReadResponse_mismatch {data : Bytes} (hr : r.read = true) (hl : data.length ≠ r.len) (ho : q.outstanding = [r])
    (hring : isRing r = false) :
    exec (.rdmaReadResponse n rid false data) s =
      .next (qpError (failReq (s.setQp n (settledQp q)) [] St.lengthMismatch r) n (some 0x102) (reqHopper s r)) := by
  change execRdmaReadResponse n rid false data s = _
  simp [execRdmaReadResponse, hf, hr, hl, hring, settleReq_single hq hf ho]

theorem rdmaWriteAck_settles (hr : r.read = false) (ho : q.outstanding = [r]) :
    exec (.rdmaWriteAck n rid false) s = .next (afterAck (written (s.setQp n (settledQp q)) r) n) := by
  change execRdmaWriteAck n rid false s = _
  simp [execRdmaWriteAck, hf, hr, settleReq_single hq hf ho]

theorem nakRemoteAccessError_fails (ho : q.outstanding = [r]) (hring : isRing r = false) :
    exec (.nakRemoteAccessError n rid) s = .next (qpError (s.setQp n q) n (some 0x101) (reqHopper s r)) := by
  have hqr : { q with outstanding := [r] } = q := by rw [← ho]
  change execNakRemoteAccessError n rid s = _
  simp [execNakRemoteAccessError, hf, hq, ho, settled_single (findReq_id hf), hring, hqr]

theorem nakPsnSequenceError_resends :
    exec (.nakPsnSequenceError n rid) s =
      .next (s.sendAll (((q.outstanding.dropWhile fun x => x.id != rid).filter (·.sent)).map fun x => .resend n x.id)) := by
  change execNakPsnSequenceError n rid s = _
  simp only [execNakPsnSequenceError, hf, hq]

/-! ## Receiver not ready (R52, R58) -/

theorem rnrNak_waits (hi : r.imm ≠ none) :
    exec (.rnrNak n rid) s = .next (s.setQp n { q with
      outstanding := q.outstanding.map fun x => if x.id = rid then { x with rnrWait := true } else x }) := by
  change execRnrNak n rid s = _
  simp [execRnrNak, hf, hq, modReq, Option.isSome_iff_ne_none.mpr hi]

variable (hw : r.rnrWait = true)
include hw

theorem rnrRetry_exceeded (h0 : q.rnrLeft = 0) :
    exec (.rnrRetry n rid) s = .next (qpError s n (some 0x105) (reqHopper s r)) := by
  change execRnrRetry n rid s = _
  simp [execRnrRetry, hf, hq, hw, h0]

theorem rnrRetry_resends (h0 : q.rnrLeft ≠ 0) :
    exec (.rnrRetry n rid) s = .next ((s.setQp n { q with
      rnrLeft := q.rnrLeft - 1
      outstanding := q.outstanding.map fun x => if x.id = rid then { x with rnrWait := false } else x }).send (.resend n rid)) := by
  change execRnrRetry n rid s = _
  simp [execRnrRetry, hf, hq, hw, h0, modReq]

end

theorem nakInvalidRequest_fails (hf : findReq s n rid = some r) :
    exec (.nakInvalidRequest n rid) s = .next (qpError s n (some 0x106) (reqHopper s r)) := by
  change execNakInvalidRequest n rid s = _
  simp only [execNakInvalidRequest, hf]

/-- Input data that has arrived stands in its slip, which waits for one READ less (R81). -/
theorem deliverData_input {sid off : Nat} {d : Bytes} {sl : Slip} (hk : r.kind = .input sid off) (hs : s.slip? sid = some sl) :
    (deliverData s r d).slip? sid = some { sl with readsLeft := sl.readsLeft - 1, inData := splice sl.inData off d } := by
  simp [deliverData, hk, inputArrived, hs]

/-- The acknowledgement of a return slip is what the hopper's `LAST_COMPLETION_SEQ` follows (R93). -/
theorem written_returnSlip {hn : Nat} {h : Hopper} {c : W32} (hh : s.hopper? hn = some h) (hk : r.kind = .returnSlip hn c) :
    written s r = s.setHopper hn { h with lastAckCseq := c } := by
  simp only [written, hk, modHopper_eq hh]

/-! ## No answer (R58) -/

section
variable (hq : s.qp? n = some q) (hp : q.phase = .rts)
include hq hp

theorem ackTimeout_exceeded {rs : List Req} (ho : q.outstanding = r :: rs) (h0 : q.retryLeft = 0) :
    exec (.ackTimeout n) s = .next (qpError s n (some 0x104) (reqHopper s r)) := by
  change execAckTimeout n s = _
  simp [execAckTimeout, hq, hp, ho, h0]

theorem ackTimeout_resends (ho : q.outstanding ≠ []) (h0 : q.retryLeft ≠ 0) :
    exec (.ackTimeout n) s = .next ((s.setQp n { q with retryLeft := q.retryLeft - 1 }).sendAll
      ((q.outstanding.filter (·.sent)).map fun r => .resend n r.id)) := by
  obtain ⟨r, rs, hr⟩ := List.exists_cons_of_ne_nil ho
  change execAckTimeout n s = _
  simp [execAckTimeout, hq, hp, hr, h0]

/-! ## Rates (R54) -/

theorem cnpReceived_cuts :
    exec (.cnpReceived n) s = .next ((s.setQp n { q with
      target := q.rate, rate := rateFloor (q.rate * (1 - q.alpha / 2)), alpha := (1 - 1 / 16) * q.alpha + 1 / 16
      periods := 0 }).setOctet (q.port / 8) { s.octet (q.port / 8) with cnpRx := (s.octet (q.port / 8)).cnpRx + 1 }) := by
  change execCnpReceived n s = _
  simp [execCnpReceived, hq, hp]

/-- Where the rate of a queue pair climbs in a quiet period: to its target, which after five periods rises by 5 Gbit/s up to the
rate of the port. -/
def raisedTarget (s : State) (q : Qp) : Rat :=
  if q.periods < 5 then q.target
  else if q.target + 5 > (portRate s q.port : Rat) then (portRate s q.port : Rat) else q.target + 5

theorem ratePeriod_raises :
    exec (.ratePeriod n) s = .next (s.setQp n { q with
      alpha := (1 - 1 / 16) * q.alpha, target := raisedTarget s q, rate := rateFloor ((q.rate + raisedTarget s q) / 2)
      periods := q.periods + 1 }) := by
  change execRatePeriod n s = _
  simp [execRatePeriod, hq, hp, raisedTarget]

end

theorem rateFloor_eq_max (x : Rat) : rateFloor x = max (1 / 10) x := by
  unfold rateFloor
  split
  · next h => exact (max_eq_left h.le).symm
  · next h => exact (max_eq_right (not_lt.mp h)).symm

theorem raisedTarget_eq (s : State) (q : Qp) :
    raisedTarget s q = if q.periods < 5 then q.target else min (portRate s q.port : Rat) (q.target + 5) := by
  unfold raisedTarget
  split
  · rfl
  · split
    · next h => exact (min_eq_left (le_of_lt h)).symm
    · next h => exact (min_eq_right (not_lt.mp h)).symm

/-- The target never falls in a quiet period, and never passes the rate of the port. -/
theorem raisedTarget_between (ht : q.target ≤ portRate s q.port) :
    q.target ≤ raisedTarget s q ∧ raisedTarget s q ≤ portRate s q.port := by
  rw [raisedTarget_eq]
  split
  · exact ⟨le_rfl, ht⟩
  · exact ⟨le_min ht (by linarith), min_le_left _ _⟩

/-! ## Host attachment (R76) -/

theorem hostDmaCompletion_delivers {fn : Nat} {d : Bytes}
    (hf : (Tab.getD s.ports.hostReqs fn []).find? (fun x => x.id == rid) = some r) (hl : d.length = r.len) :
    exec (.hostDmaCompletion fn rid (.data d)) s = .next (deliverData { s with ports := { s.ports with
      hostReqs := Tab.set s.ports.hostReqs fn ((Tab.getD s.ports.hostReqs fn []).filter fun y => y.id != rid) } } r d) := by
  change execHostDmaCompletion fn rid (.data d) s = _
  simp [execHostDmaCompletion, hf, hl]

end

end Sys2Proof.Machine

open Sys2Proof Sys2Proof.Machine

/-- Settles O38: an answer acts on the request that it names, a timeout on all that are outstanding; the rate is cut to no less than
its floor and climbs half way to its target. -/
theorem requestsAreAnsweredOrRetried : Obligations.RequestsAreAnsweredOrRetried := by
  unfold Obligations.RequestsAreAnsweredOrRetried
  intro s n rid q hq others fails
  refine ⟨fun r data hf => rdmaReadResponse_whole hq hf, fun r data hf => rdmaReadResponse_mismatch hq hf,
    fun sid off d sl hs => deliverData_input rfl hs, fun r hf => rdmaWriteAck_settles hq hf,
    fun hn h c r hh => written_returnSlip hh, fun r hf => nakRemoteAccessError_fails hq hf, fun r => nakInvalidRequest_fails,
    fun r hf => nakPsnSequenceError_resends hq hf, fun r hf => rnrNak_waits hq hf, fun r hf => rnrRetry_exceeded hq hf,
    fun r hf => rnrRetry_resends hq hf, fun r rs hp => ackTimeout_exceeded hq hp, ackTimeout_resends hq, ?cut, ?raise,
    fun fn r d => hostDmaCompletion_delivers⟩
  case cut =>
    intro hp ha0 ha1 hr
    refine ⟨_, _, cnpReceived_cuts hq hp, State.setQp_qp_self .., rfl, rfl, rateFloor_eq_max _, ?_, ?_, ?_⟩
    · have hcut : q.rate * (1 - q.alpha / 2) ≤ q.rate * 1 := mul_le_mul_of_nonneg_left (by linarith) (by linarith)
      rw [rateFloor_eq_max]
      exact max_le hr (by linarith)
    · norm_num
    · rw [State.setOctet_octet_self]
  case raise =>
    intro hp hrt ht hr
    obtain ⟨hlo, hhi⟩ := raisedTarget_between (s := s) ht
    have hrate : rateFloor ((q.rate + raisedTarget s q) / 2) = (q.rate + raisedTarget s q) / 2 := by
      rw [rateFloor_eq_max]
      exact max_eq_right (by linarith)
    refine ⟨_, _, ratePeriod_raises hq hp, State.setQp_qp_self .., ?_, rfl, raisedTarget_eq s q, hrate, ?_, ?_⟩
    · norm_num
    · dsimp only; rw [hrate]; linarith
    · dsimp only; rw [hrate]; linarith
end

section
/-!
SUPPORT. Frames, addresses and next hops: what each event makes of the port's counters, of the resolution entries and of the
announcements (R22, R28, R29, R33, R34).
-/

namespace Sys2Proof.Machine

section
variable {s : State} {port vlan c : Nat} {ip : IpAddr}

/-! ## Frames (R28, R33) -/

/-- The octet of the port has counted one discarded frame. -/
def frameDropped (s : State) (port : Nat) : State :=
  s.setOctet (port / 8) { s.octet (port / 8) with rxDrop := (s.octet (port / 8)).rxDrop + 1 }

theorem frameDiscarded_filtered (h : carrelOn s port vlan = some c) :
    exec (.frameDiscarded port vlan .filtered) s = .next ((frameDropped s port).setCarrel c
      { s.carrel c with stats := { (s.carrel c).stats with rxDrop := (s.carrel c).stats.rxDrop + 1 } }) := by
  change execFrameDiscarded port vlan .filtered s = _
  simp only [execFrameDiscarded, h]
  rfl

/-! ## Address requests (R28) -/

theorem arpRequest_answered {mac : BitVec 48} {sender target : BitVec 32} (hc : carrelOn s port vlan = some c)
    (hn : onNetwork s c = true) (ht : hasIp (s.carrel c).net (.v4 target) = true) (hd : sender ≠ target) :
    exec (.arpRequest port vlan mac sender target) s = .next (s.send (.arpReply port c target (s.carrel c).net.mac mac)) := by
  change execArpRequest port vlan mac sender target s = _
  simp [execArpRequest, hc, hn, ht, hd]

theorem arpRequest_elsewhere {target : BitVec 32} (hc : carrelOn s port vlan = some c)
    (ht : hasIp (s.carrel c).net (.v4 target) = false) (mac : BitVec 48) (sender : BitVec 32) :
    exec (.arpRequest port vlan mac sender target) s = .next s := by
  change execArpRequest port vlan mac sender target s = _
  simp [execArpRequest, hc, ht]

theorem neighborSolicitation_answered {mac : BitVec 48} {sender target : BitVec 128} (hc : carrelOn s port vlan = some c)
    (hn : onNetwork s c = true) (ht : hasIp (s.carrel c).net (.v6 target) = true) (hd : sender ≠ target) :
    exec (.neighborSolicitation port vlan mac sender target) s =
      .next (s.send (.neighborAdvert port c target (s.carrel c).net.mac mac)) := by
  change execNeighborSolicitation port vlan mac sender target s = _
  simp [execNeighborSolicitation, hc, hn, ht, hd]

theorem neighborSolicitation_noCarrel (hc : carrelOn s port vlan = none) (mac : BitVec 48) (sender target : BitVec 128) :
    exec (.neighborSolicitation port vlan mac sender target) s = .next s := by
  change execNeighborSolicitation port vlan mac sender target s = _
  simp [execNeighborSolicitation, hc]

/-! ## Next hops (R29) -/

theorem pumpCarrel_idle (h : (s.ports.qps.filter fun p => p.2.carrel == c) = []) : pumpCarrel s c = s := by
  simp [pumpCarrel, h]

/-- An entry of the next hop is taken off. -/
theorem find?_setHop_none (s : State) (c : Nat) (ip : IpAddr) :
    (setHop s c ip fun _ => none).ports.nextHops.find? (isHop c ip) = none := by
  simp only [setHop, List.find?_eq_none, List.mem_filterMap]
  rintro h ⟨h', -, hh⟩
  split at hh
  · exact absurd hh nofun
  · next hn => exact Option.some.inj hh ▸ hn

section
variable {h : NextHop} (hf : s.ports.nextHops.find? (isHop c ip) = some h)
include hf

theorem resolutionRetry_repeats {k : Nat} (hst : h.st = .resolving k) (hk : k < 2) :
    exec (.resolutionRetry c ip) s =
      .next ((setHop s c ip fun h => some { h with st := .resolving (k + 1) }).send (.resolve h.port c ip false)) := by
  change execResolutionRetry c ip s = _
  simp [execResolutionRetry, hf, hst, hk]

theorem resolutionRetry_givesUp {k : Nat} (hst : h.st = .resolving k) (hk : 2 ≤ k) :
    exec (.resolutionRetry c ip) s = .next (setHop s c ip fun h => some { h with st := .unreachable }) := by
  change execResolutionRetry c ip s = _
  simp [execResolutionRetry, hf, hst, Nat.not_lt.mpr hk]

/-- 300 s of 1.25 GHz cycles after its last use an entry is dropped. -/
theorem nextHopCacheExpiry_forgets (ht : 375000000000 ≤ s.now - h.lastUse) :
    exec (.nextHopCacheExpiry c ip) s = .next (setHop s c ip fun _ => none) := by
  change execNextHopCacheExpiry c ip s = _
  simp [execNextHopCacheExpiry, hf, ht]

theorem nextHopCacheExpiry_refreshes {mac : BitVec 48} (hst : h.st = .resolved mac) (ht : s.now - h.lastUse < 375000000000) :
    exec (.nextHopCacheExpiry c ip) s = .next (s.send (.resolve h.port c ip true)) := by
  change execNextHopCacheExpiry c ip s = _
  simp [execNextHopCacheExpiry, hf, hst, Nat.not_le.mpr ht]

end

/-! ## Announcements (R34) -/

theorem gratuitousArp_due {k : Nat} (h : Tab.get? s.ports.announce c = some k) :
    exec (.gratuitousArp c) s = .next (({ s with ports := { s.ports with
      announce := if k ≤ 1 then Tab.erase s.ports.announce c else Tab.set s.ports.announce c (k - 1) } }).sendAll
        (announcements s c)) := by
  change execGratuitousArp c s = _
  simp only [execGratuitousArp, h]

end

end Sys2Proof.Machine

open Sys2Proof Sys2Proof.Machine

/-- Settles O39: the carrel of the port and VLAN, the entry of the next hop and the count of announcements decide. -/
theorem framesAndAddressesAreHandled : Obligations.FramesAndAddressesAreHandled := by
  unfold Obligations.FramesAndAddressesAreHandled
  intro s port vlan c ip n o dropped x hop
  refine ⟨rfl, rfl, frameDiscarded_filtered, fun mac sender target => arpRequest_answered,
    fun mac sender target hc _ ht => arpRequest_elsewhere hc ht mac sender,
    fun mac sender target => neighborSolicitation_answered,
    fun mac sender target hc => neighborSolicitation_noCarrel hc mac sender target,
    fun mac hq => next_congr (pumpCarrel_idle hq), fun h k hf => resolutionRetry_repeats hf,
    fun h k hf => resolutionRetry_givesUp hf,
    fun h hf ht => ⟨_, nextHopCacheExpiry_forgets hf ht, find?_setHop_none s c ip, rfl⟩,
    fun h mac hf => nextHopCacheExpiry_refreshes hf, fun k hk => ⟨_, gratuitousArp_due hk, rfl, rfl⟩⟩
end

section
/-!
SUPPORT. Pause frames and links: what each event of a port makes of its octet and of its priorities (R56, R58, R60).
-/

namespace Sys2Proof.Machine

section
variable {s : State} {port prio : Nat}

/-- A pause frame is obeyed only on a priority where PFC is enabled and pause is not ignored (R56). -/
theorem pauseFrame_refused
    (h : 8 ≤ prio ∨ (s.octet (port / 8)).pfcEn.getLsbD prio = false ∨ (pfcAt s port prio).ignoring = true) (quanta : Nat) :
    exec (.pauseFrame port prio quanta) s = .next s := if_pos h

/-- The priority while it is paused for `quanta` of 512 bit times; a pause that still runs goes on (R56). -/
def pausedFor (s : State) (port prio quanta : Nat) : PfcState :=
  let x := pfcAt s port prio
  { x with
    pausedSince := if x.pausedSince.isSome ∧ s.now ≤ x.pausedUntil then x.pausedSince else some s.now
    pausedUntil := s.now + quanta * 640 / modeRate (s.octet (port / 8)).mode }

theorem pausedFor_since (s : State) (port prio quanta : Nat) : (pausedFor s port prio quanta).pausedSince ≠ none := by
  unfold pausedFor
  dsimp only
  split
  · next h => exact Option.isSome_iff_ne_none.mp h.1
  · exact nofun

section
variable (hp : prio < 8) (hen : (s.octet (port / 8)).pfcEn.getLsbD prio = true) (hig : (pfcAt s port prio).ignoring = false)
include hp hen hig

theorem pauseFrame_pauses {quanta : Nat} (hq : quanta ≠ 0) :
    exec (.pauseFrame port prio quanta) s = .next (setPfc s port prio (pausedFor s port prio quanta)) := by
  change execPauseFrame port prio quanta s = _
  simp [execPauseFrame, pausedFor, Nat.not_le.mpr hp, hen, hig, hq]

theorem pauseFrame_resumes :
    exec (.pauseFrame port prio 0) s = .next (setPfc s port prio
      { pfcAt s port prio with pausedSince := none, unpausedSince := s.now, storm := false }) := by
  change execPauseFrame port prio 0 s = _
  simp [execPauseFrame, Nat.not_le.mpr hp, hen, hig]

end

/-- A storm is recorded once for each pause, and where configured pause is ignored from then on (R56). -/
theorem portPfcStorm_recorded (hp : prio < 8) (hsince : (pfcAt s port prio).pausedSince ≠ none)
    (hst : (pfcAt s port prio).storm = false) :
    exec (.portPfcStorm port prio) s =
      let ign := (s.octet (port / 8)).pfcIgnore.getLsbD prio
      .next (reportSrc ((setPfc s port prio { pfcAt s port prio with
        storm := true, ignoring := ign, pausedSince := if ign then none else (pfcAt s port prio).pausedSince }).setOctet (port / 8)
          { s.octet (port / 8) with pfcStorm := (s.octet (port / 8)).pfcStorm.hit }) 0x109 0xFF (BitVec.ofNat 32 (port / 8))) := by
  change execPortPfcStorm port prio s = _
  simp [execPortPfcStorm, Option.isNone_eq_false_iff.mpr (Option.isSome_iff_ne_none.mpr hsince), hst, hp]

theorem pfcIgnoreRelease_ends (h : (pfcAt s port prio).ignoring = true) :
    exec (.pfcIgnoreRelease port prio) s =
      .next (setPfc s port prio { pfcAt s port prio with ignoring := false, storm := false }) := if_pos h

theorem pfcIgnoreRelease_obeying (h : (pfcAt s port prio).ignoring = false) : exec (.pfcIgnoreRelease port prio) s = .next s :=
  if_neg (Bool.eq_false_iff.mp h)

/-- The octet once a port of it has trained (R60). -/
def withPortUp (o : Octet) (p : Nat) : Octet :=
  { o with state := .up, portUp := o.portUp ||| BitVec.ofNat 8 (2 ^ p), laneLock := o.laneLock ||| portLanes o.mode p }

theorem linkUp_trained (hs : (s.octet (port / 8)).state = .down ∨ (s.octet (port / 8)).state = .up)
    (hp : port % 8 < modePorts (s.octet (port / 8)).mode) :
    exec (.linkUp port) s =
      let t := s.setOctet (port / 8) (withPortUp (s.octet (port / 8)) (port % 8))
      .next { t with flt := { t.flt with octetReset := t.flt.octetReset.filter (· != port / 8) } } := if_pos ⟨hs, hp⟩

/-- The octet once a port of it is down: DOWN itself with the last one (R58, R60). -/
def withPortDown (o : Octet) (p : Nat) : Octet :=
  let up := o.portUp &&& ~~~(BitVec.ofNat 8 (2 ^ p))
  { o with
    portUp := up, laneLock := o.laneLock &&& ~~~(portLanes o.mode p), linkFlap := o.linkFlap.hit
    state := if up = 0 then .down else .up }

theorem linkDown_up (h : (s.octet (port / 8)).portUp.getLsbD (port % 8) = true) :
    exec (.linkDown port) s = .next (reportSrc (s.setOctet (port / 8) (withPortDown (s.octet (port / 8)) (port % 8)))
      0x108 0xFF (BitVec.ofNat 32 (port / 8))) := next_congr (if_pos h)

theorem linkDown_down (h : (s.octet (port / 8)).portUp.getLsbD (port % 8) = false) : exec (.linkDown port) s = .next s :=
  next_congr (if_neg (Bool.eq_false_iff.mp h))

end

end Sys2Proof.Machine

open Sys2Proof Sys2Proof.Machine

/-- Settles O40: whether a priority obeys pause, whether a storm is new and whether a port is up decides what its event does. -/
theorem pausesAndLinksChangePortState : Obligations.PausesAndLinksChangePortState := by
  unfold Obligations.PausesAndLinksChangePortState
  intro s port prio n p o x bit'
  refine ⟨?pauses, ?resumes, fun quanta h => pauseFrame_refused h quanta, fun hp hs hst => portPfcStorm_recorded hp hs hst,
    pfcIgnoreRelease_ends, pfcIgnoreRelease_obeying, ⟨_, rfl, rfl, rfl, rfl⟩, ?linkUp, ?linkDown, linkDown_down⟩
  case pauses =>
    intro quanta hp hen hig hq
    exact ⟨_, pauseFrame_pauses hp hen hig hq, pausedFor_since s port prio quanta, rfl⟩
  case resumes =>
    intro hp hen hig
    exact ⟨_, pauseFrame_resumes hp hen hig, rfl, rfl⟩
  case linkUp =>
    intro hs hp
    have hself : (s.setOctet n (withPortUp o p)).octet n = withPortUp o p := State.setOctet_octet_self ..
    refine ⟨_, linkUp_trained hs hp, ?_, ?_, ?_, fun m hm => State.setOctet_octet_of_ne s _ hm⟩
    · exact congrArg Octet.state hself
    · exact congrArg Octet.portUp hself
    · simp [n]
  case linkDown => exact fun h => ⟨_, linkDown_up h, rfl, rfl⟩
end

section
/-!
SUPPORT. A command in a mailbox's window, said for all commands: one that passes the registrar's checks is what its body answers,
one whose object is another carrel's is denied, and a change that nothing shares is committed at once (R363, R367, R423).
-/

namespace Sys2Proof.Machine

/-- The command is in the window, taken in sequence by one who may give it; its length and its reserved fields are as asked, and
its objects are the function's. -/
structure Passes (s : State) (fn : Nat) (c : CmdSpec) (p : Bytes) : Prop where
  issued : Issued s fn c.code c.role p
  len : c.lenOk p.length = true
  rsv : c.rsvOk p = true
  owns : c.owns (accept s fn) fn p = true

section
variable {s t : State} {fn : Nat} {p : Bytes} {a : Ans}

theorem Passes.answers {c : CmdSpec} {body : State → Bytes → CmdRes} (h : Passes s fn c p)
    (hb : body (accept s fn) p = .done t a) : AnswersIn t fn a (.next (serve s fn c body)) :=
  next_congr (serve_done body h.issued h.len h.rsv h.owns hb)

/-- A command on an object of another carrel is denied (R367 step 4). -/
theorem serve_denied {c : CmdSpec} (body : State → Bytes → CmdRes) (h : Issued s fn c.code c.role p) (hr : c.role = .oa)
    (hl : c.lenOk p.length = true) (hrsv : c.rsvOk p = true) (ho : c.owns (accept s fn) fn p = false) :
    serve s fn c body = respond (accept s fn) fn (fail St.roleDenied) := by
  obtain ⟨h0, hcode, hp, h2, h3, hseq, hrep, -⟩ := h
  subst hp
  have hc : checkCmd (accept s fn) fn c (framePayload (s.mbx fn)) = some (fail St.roleDenied) := by
    simp [checkCmd, hr, hl, hrsv, h2, h3, ho]
  unfold serve
  simp only [h0, hcode, hseq, hrep, hc, Bool.not_true, Bool.false_or, bne_self_eq_false, Bool.false_eq_true, if_false,
    Bool.false_and]

section
variable {c : SyncCmd} (h : Passes s fn c.spec p)
include h

theorem serveSync_refused (hb : syncBusy s = false) (hc : c.check (accept s fn) fn p = some a) :
    AnswersIn (accept s fn) fn a (.next (serveSync s fn c)) := by
  rw [serveSync, if_neg (Bool.eq_false_iff.mp hb)]
  exact h.answers (syncBody_refused hc)

/-- A change that nothing shares takes effect at once. -/
theorem serveSync_committed (hu : Unshared s fn) (hk : c.carrel (accept s fn) fn p = fn)
    (hc : c.check (accept s fn) fn p = none) (hcom : c.commit (accept s fn) fn p = (t, a)) :
    AnswersIn t fn a (.next (serveSync s fn c)) := by
  obtain ⟨hb, hd, hm⟩ := hu
  have hbody := syncBody_commit hc (by rw [hk]; exact hd) (by rw [hk]; exact hm)
  rw [hcom] at hbody
  rw [serveSync, if_neg (Bool.eq_false_iff.mp hb)]
  exact h.answers hbody

end

end

end Sys2Proof.Machine
end

section
/-!
SUPPORT. The hopper and binding commands: what each checks and commits (R38, R43, R57, R63 to R66, R87, R93, R376).
-/

namespace Sys2Proof.Machine

/-! ## Free hopper numbers (R63) -/

/-- The number found is below the bound and not in use. -/
theorem lowestFreeFrom_some {used : List Nat} {n k m : Nat} (h : lowestFreeFrom used n k = some m) : m ∉ used ∧ m < k + n := by
  induction n generalizing k with
  | zero => exact absurd h nofun
  | succ n ih =>
    unfold lowestFreeFrom at h
    split at h
    · obtain ⟨hm, hlt⟩ := ih h
      exact ⟨hm, by omega⟩
    · next hk =>
      obtain rfl := Option.some.inj h
      exact ⟨by simpa using hk, by omega⟩

theorem Tab.get?_of_notMem_keys {α : Type} {t : Tab α} {k : Nat} (h : k ∉ Tab.keys t) : Tab.get? t k = none :=
  Option.eq_none_iff_forall_ne_some.mpr fun _ hv => h (List.mem_map_of_mem (f := Prod.fst) (Tab.mem_of_get? hv))

/-- A new hopper takes a number below the device's limit that no hopper has. -/
theorem nextHopper_free {s : State} {c n k : Nat} (h : nextHopper s c = some (n, k)) :
    s.hopper? n = none ∧ n < hopperLimit s := by
  unfold nextHopper at h
  split at h
  · next m _ hm _ =>
    obtain ⟨rfl, -⟩ := Prod.mk.inj (Option.some.inj h)
    obtain ⟨hfree, hlt⟩ := lowestFreeFrom_some hm
    exact ⟨Tab.get?_of_notMem_keys hfree, by omega⟩
  · exact absurd h nofun

section
variable {s : State} {fn : Nat} {p : Bytes}

/-! ## Commands on one hopper -/

section
variable {h : Hopper} (hh : s.hopper? (field p 0 4) = some h)
include hh

theorem ownsHopper_of_carrel (hc : h.carrel = fn) : ownsHopper s fn p = true := by simp [ownsHopper, hh, hc]

theorem hopIdle_iff : hopIdle s (field p 0 4) = true ↔ h.state = .stopped ∧ h.held = [] := by simp [hopIdle, hh]

theorem hopCheck_admitted {ok : Hopper → Bool} (ho : adminOpen s fn = true) (hk : ok h = true) : hopCheck s fn p ok = none := by
  simp [hopCheck, ho, hh, hk]

theorem hopCheck_rejected {ok : Hopper → Bool} (ho : adminOpen s fn = true) (hk : ok h = false) :
    hopCheck s fn p ok = some (hopRejected s (field p 0 4)) := by
  simp [hopCheck, ho, hh, hk]

/-! ## HOP_CONFIG (R66) -/

section
variable (ho : adminOpen s fn = true)
include ho

theorem hopConfigCheck_busy (hm : field p 4 4 % 128 ≠ 0) (hi : ¬ (h.state = .stopped ∧ h.held = [])) :
    hopConfigCmd.check s fn p = some (hopRejected s (field p 0 4)) := by
  have hidle : hopIdle s (field p 0 4) = false := Bool.eq_false_iff.mpr (mt (hopIdle_iff hh).mp hi)
  simp [hopConfigCmd, hopNew, hh, ho, hm, hidle]

theorem hopConfigCheck_admitted (hm : field p 4 4 % 128 = 0 ∨ (h.state = .stopped ∧ h.held = []))
    (hok : hopperOk (applyBlock h (field p 4 4) (p.drop 8)) (if bit (field p 4 4) 5 then field p 37 1 else 0) = true)
    (hu : (applyBlock h (field p 4 4) (p.drop 8)).urgent = true → h.urgent = false → urgentCount s < 4096) :
    hopConfigCmd.check s fn p = none := by
  have hidle : (field p 4 4 % 128 != 0 && !hopIdle s (field p 0 4)) = false := by
    rcases hm with hm | hm
    · simp [hm]
    · simp [(hopIdle_iff hh).mpr hm]
  have hurg : ((applyBlock h (field p 4 4) (p.drop 8)).urgent && !h.urgent && decide (4096 ≤ urgentCount s)) = false := by
    simpa using hu
  simp only [hopConfigCmd, hopNew, hh, Option.map_some, ho, hidle, hok, hurg]
  rfl

omit ho in
theorem hopConfigCommit : hopConfigCmd.commit s fn p =
    (archiveCarrel (s.setHopper (field p 0 4) (applyBlock h (field p 4 4) (p.drop 8))) fn, {}) := by
  simp only [hopConfigCmd, hopNew, hh, Option.map_some]

/-! ## HOP_DELETE, HOP_RESET_IDX (R66) -/

theorem hopDeleteCheck_admitted (hi : h.state = .stopped ∧ h.held = []) (hs : staticCovers s (field p 0 4) = false) :
    hopDeleteCmd.check s fn p = none := by
  simp [hopDeleteCmd, ho, (hopIdle_iff hh).mpr hi, hs]

theorem hopDeleteCheck_rejected (hi : ¬ (h.state = .stopped ∧ h.held = []) ∨ staticCovers s (field p 0 4) = true) :
    hopDeleteCmd.check s fn p = some (hopRejected s (field p 0 4)) := by
  rcases hi with hi | hi
  · simp [hopDeleteCmd, ho, Bool.eq_false_iff.mpr (mt (hopIdle_iff hh).mp hi)]
  · simp [hopDeleteCmd, ho, hi]

theorem hopResetCheck_admitted (hi : h.state = .stopped ∧ h.held = []) : hopResetCmd.check s fn p = none := by
  simp [hopResetCmd, ho, (hopIdle_iff hh).mpr hi]

theorem hopResetCheck_rejected (hi : ¬ (h.state = .stopped ∧ h.held = [])) :
    hopResetCmd.check s fn p = some (hopRejected s (field p 0 4)) := by
  simp [hopResetCmd, ho, Bool.eq_false_iff.mpr (mt (hopIdle_iff hh).mp hi)]

end

end

/-- What `HOP_QUERY` asks of its frame. -/
def hopQuerySpec : CmdSpec := { code := 0x0307, role := .oa, lenOk := lenIs 4, owns := ownsHopper }

theorem hopQuery_answers {h : Hopper} (hp : Passes s fn hopQuerySpec p) (hh : (accept s fn).hopper? (field p 0 4) = some h)
    (ho : adminOpen (accept s fn) fn = true) :
    AnswersIn (accept s fn) fn { payload := sbBytes (accept s fn) (field p 0 4) h h.sbSeq ++ hopBlock h }
      (exec (.hopQuery fn) s) := by
  refine Passes.answers hp ?_
  simp only [hh, ho, if_true]

/-! ## HOP_CREATE (R63, R376) -/

theorem hopCreateCheck_closed (ho : adminOpen s fn = false) : hopCreateCmd.check s fn p = some (crlRejected s fn) := by
  simp [hopCreateCmd, ho]

theorem hopCreateCheck_invalid (ho : adminOpen s fn = true) (hok : hopperOk (blockHopper fn 0 p) (field p 29 1) = false) :
    hopCreateCmd.check s fn p = some (fail St.paramInvalid) := by
  simp [hopCreateCmd, ho, hok]

theorem hopCreateCheck_admitted (ho : adminOpen s fn = true) (hok : hopperOk (blockHopper fn 0 p) (field p 29 1) = true)
    (hmax : (hoppersOwned s fn).length < (s.carrel fn).hopperMax) (hu : bit (field p 35 1) 1 = true → urgentCount s < 4096)
    {x : Nat × Nat} (hn : nextHopper s fn = some x) : hopCreateCmd.check s fn p = none := by
  have hroom : ¬ (s.carrel fn).hopperMax ≤ (hoppersOwned s fn).length := Nat.not_le.mpr hmax
  simp only [hopCreateCmd, ho, hok, hn]
  simpa [hroom] using hu

theorem hopCreateCommit {n k : Nat} (hn : nextHopper s fn = some (n, k)) :
    hopCreateCmd.commit s fn p =
      (archiveCarrel (s.setHopper n (blockHopper fn k p)) fn, { payload := le 4 n ++ le 2 k }) := by
  simp only [hopCreateCmd, hn]

/-! ## Binding tokens (R38) -/

/-- A draw on `SYS` changes the entropy unit and the count of free bytes alone. -/
theorem sysRequest_only (s : State) (n : Nat) :
    (sysRequest s n).1 = { s with ent := (sysRequest s n).1.ent, freeCtr := (sysRequest s n).1.freeCtr } := by
  have hr : ∀ i, reseed s i = { s with ent := (reseed s i).ent } := by
    intro i
    unfold reseed takeBlock
    by_cases h : s.ent.pool = 0 <;> simp only [h, if_true, if_false] <;> rfl
  unfold sysRequest
  dsimp only
  by_cases hd : reseedDue s 0 = true
  · rw [if_pos hd, hr 0]; split <;> rfl
  · rw [if_neg hd]; split <;> rfl

/-- The fields of `BIND_TOKEN_ISSUE` are in range. -/
def TokenFieldsOk (p : Bytes) : Prop := 1 ≤ field p 4 2 ∧ field p 4 2 ≤ 64 ∧ mtuOk (field p 6 2) = true

theorem tokenIssueCheck_admitted (ho : adminOpen s fn = true) (hg : TokenFieldsOk p) : tokenIssueCmd.check s fn p = none := by
  obtain ⟨h1, h2, h3⟩ := hg
  have h1' : field p 4 2 ≠ 0 := by omega
  simp [tokenIssueCmd, ho, h1', h2, h3]

theorem tokenIssueCheck_invalid (ho : adminOpen s fn = true) (hg : ¬ TokenFieldsOk p) :
    tokenIssueCmd.check s fn p = some (fail St.paramInvalid) := by
  have hbad : field p 4 2 = 0 ∨ 64 < field p 4 2 ∨ mtuOk (field p 6 2) = false := by
    simpa only [TokenFieldsOk, not_and_or, not_le, Nat.lt_one_iff, Bool.not_eq_true] using hg
  simp only [tokenIssueCmd, ho, if_pos hbad]
  rfl

theorem bindTokenIssue_invalid (h : Passes s fn tokenIssueCmd.spec p) (hb : syncBusy s = false) (ho : adminOpen s fn = true)
    (hg : ¬ TokenFieldsOk p) : AnswersIn (accept s fn) fn (fail St.paramInvalid) (exec (.bindTokenIssue fn) s) := by
  have hc : tokenIssueCmd.check (accept s fn) fn p = some (fail St.paramInvalid) := tokenIssueCheck_invalid ho hg
  change AnswersIn _ fn _ (execBindTokenIssue fn s)
  rw [execBindTokenIssue, if_neg (Bool.eq_false_iff.mp hb)]
  exact h.answers (by simp only [hc])

theorem bindTokenIssue_issued (h : Passes s fn tokenIssueCmd.spec p) (hu : Unshared s fn) (ho : adminOpen s fn = true)
    (hg : TokenFieldsOk p) (he : s.ent.state = .ready) {t : State} {b : Bytes} (hr : sysRequest (accept s fn) 16 = (t, some b)) :
    AnswersIn (putToken t fn (tokenOf t fn p)) fn
      { payload := le 16 (tokenOf t fn p).value.toNat ++ le 4 (tokenOf t fn p).id } (exec (.bindTokenIssue fn) s) := by
  obtain ⟨hb, hd, hm⟩ := hu
  have ht : t = { accept s fn with ent := t.ent, freeCtr := t.freeCtr } := by
    have hs := sysRequest_only (accept s fn) 16
    rwa [hr] at hs
  have hcar : t.carrel fn = s.carrel fn := by rw [ht]; rfl
  have hmir : t.mirror = s.mirror := by rw [ht]; rfl
  have ho' : adminOpen t fn = true := by rw [adminOpen, hcar]; exact ho
  have hd' : syncBlocked t fn = false := by rw [syncBlocked, homeOf, hmir]; exact hd
  have hm' : mirrors t fn = false := by rw [mirrors, homeOf, hmir]; exact hm
  have hc : tokenIssueCmd.check (accept s fn) fn p = none := tokenIssueCheck_admitted ho hg
  change AnswersIn _ fn _ (execBindTokenIssue fn s)
  rw [execBindTokenIssue, if_neg (Bool.eq_false_iff.mp hb)]
  refine h.answers ?_
  simp only [hc, withRandom, accept_ent, he, hr]
  exact syncBody_commit (tokenIssueCheck_admitted ho' hg) hd' hm'

/-! ## Static bindings (R43) -/

/-- The fields of `BIND_STATIC` are in range. -/
def StaticFieldsOk (s : State) (fn : Nat) (p : Bytes) : Prop :=
  0x100 ≤ field p 0 4 ∧ field p 0 4 < 0x100 + 262144 ∧ field p 4 4 < 2 ^ 24 ∧ mtuOk (field p 32 2) = true ∧
  1 ≤ field p 34 2 ∧ field p 34 2 ≤ 64 ∧ 1 ≤ field p 42 1 ∧ field p 42 1 ≤ 16 ∧
  (s.carrel fn).net.ports.contains (field p 40 2) = true

theorem staticFieldsOk_iff : StaticFieldsOk s fn p ↔
    ¬ (field p 0 4 < 0x100 ∨ 0x100 + 262144 ≤ field p 0 4 ∨ 2 ^ 24 ≤ field p 4 4 ∨ mtuOk (field p 32 2) = false ∨
      field p 34 2 = 0 ∨ 64 < field p 34 2 ∨ field p 42 1 = 0 ∨ 16 < field p 42 1 ∨
      (s.carrel fn).net.ports.contains (field p 40 2) = false) := by
  simp only [StaticFieldsOk, not_or, Bool.not_eq_false, not_lt, not_le, Nat.one_le_iff_ne_zero, ne_eq]

section
variable (ho : adminOpen s fn = true)
include ho

theorem bindStaticCheck_invalid (hg : ¬ StaticFieldsOk s fn p) : bindStaticCmd.check s fn p = some (fail St.paramInvalid) := by
  rw [staticFieldsOk_iff, not_not] at hg
  simp only [bindStaticCmd, ho, if_pos hg]
  rfl

variable (hg : StaticFieldsOk s fn p) (hq : s.qp? (field p 0 4) = none)
include hg hq

theorem bindStaticCheck_admitted (hr : runTaken s (field p 36 4) (field p 34 2) = none) : bindStaticCmd.check s fn p = none := by
  have hfree : Tab.has s.ports.qps (field p 0 4) = false := by rw [Tab.has, ← State.qp?, hq]; rfl
  simp only [bindStaticCmd, ho, if_neg (staticFieldsOk_iff.mp hg), hfree, hr]
  rfl

theorem bindStaticCheck_taken {k : Nat} (hr : runTaken s (field p 36 4) (field p 34 2) = some k) :
    bindStaticCmd.check s fn p = some (hopRejected s k) := by
  have hfree : Tab.has s.ports.qps (field p 0 4) = false := by rw [Tab.has, ← State.qp?, hq]; rfl
  simp only [bindStaticCmd, ho, if_neg (staticFieldsOk_iff.mp hg), hfree, hr]
  rfl

end

end

end Sys2Proof.Machine

open Sys2Proof Sys2Proof.Machine

/-- Settles O49: each command's check is read off the hopper that it names; a change that nothing shares is committed at once. -/
theorem hopperAndBindingCommandsTakeEffect : Obligations.HopperAndBindingCommandsTakeEffect := by
  unfold Obligations.HopperAndBindingCommandsTakeEffect
  intro s fn p r hn is open' hopBad
  refine ⟨?create, ?onHopper, ?notOwned, ?tokenIssue, ?tokenRevoke, ?static, ?release⟩
  case create =>
    rintro ⟨hi, hl⟩ hf hu
    have hp : Passes s fn hopCreateCmd.spec p := ⟨hi, beq_iff_eq.mpr hl, hf, rfl⟩
    refine ⟨fun ho => serveSync_refused hp hu.1 (hopCreateCheck_closed ho),
      fun ho hok => serveSync_refused hp hu.1 (hopCreateCheck_invalid ho hok), fun n k ho hok hmax hurg hnext => ?_⟩
    obtain ⟨hfree, hlt⟩ := nextHopper_free hnext
    exact ⟨hfree, hlt, serveSync_committed hp hu rfl (hopCreateCheck_admitted (s := r) ho hok hmax hurg hnext)
      (hopCreateCommit (s := r) hnext)⟩
  case onHopper =>
    intro h hh hcar idle
    have hr : r.hopper? hn = some h := hh
    have hown : ownsHopper r fn p = true := ownsHopper_of_carrel hr hcar
    have hpass : ∀ {code}, is code 4 → Passes s fn (hopSpec code) p := fun ⟨hi, hl⟩ => ⟨hi, beq_iff_eq.mpr hl, rfl, hown⟩
    refine ⟨?config, ?start, ?stop, ?delete, ?reset, ?query⟩
    case config =>
      rintro ⟨hi, hl⟩ hmask hf hu ho x
      have hp : Passes s fn hopConfigCmd.spec p := ⟨hi, beq_iff_eq.mpr hl, by simp [hopConfigCmd, hmask, hf], hown⟩
      exact ⟨fun hm hbusy => serveSync_refused hp hu.1 (hopConfigCheck_busy hr ho hm hbusy), fun hm hok hurg =>
        serveSync_committed hp hu rfl (hopConfigCheck_admitted hr ho hm hok hurg) (hopConfigCommit hr)⟩
    case start =>
      intro hi ho hu
      exact ⟨fun hs hbr => serveSync_committed (c := hopStartCmd) (hpass hi) hu rfl
          (hopCheck_admitted hr ho (by simp [hs, hbr])) rfl,
        fun hs => serveSync_refused (c := hopStartCmd) (hpass hi) hu.1 (hopCheck_rejected hr ho (by simp [hs]))⟩
    case stop =>
      intro hi ho hu
      exact ⟨fun hs => serveSync_committed (c := hopStopCmd) (hpass hi) hu rfl (hopCheck_admitted hr ho (by simp [hs])) rfl,
        fun hs => serveSync_refused (c := hopStopCmd) (hpass hi) hu.1 (hopCheck_rejected hr ho (by simp [hs]))⟩
    case delete =>
      intro hi ho hu
      exact ⟨fun hid hst => serveSync_committed (c := hopDeleteCmd) (hpass hi) hu rfl
          (hopDeleteCheck_admitted hr ho hid hst) rfl,
        fun hid => serveSync_refused (c := hopDeleteCmd) (hpass hi) hu.1 (hopDeleteCheck_rejected hr ho hid)⟩
    case reset =>
      intro hi ho hu
      exact ⟨fun hid => serveSync_committed (c := hopResetCmd) (hpass hi) hu rfl (hopResetCheck_admitted hr ho hid)
          (Prod.ext (modHopper_eq hr zeroIndices) rfl),
        fun hid => serveSync_refused (c := hopResetCmd) (hpass hi) hu.1 (hopResetCheck_rejected hr ho hid)⟩
    case query =>
      rintro ⟨hi, hl⟩ ho
      exact hopQuery_answers ⟨hi, beq_iff_eq.mpr hl, rfl, hown⟩ hr ho
  case notOwned =>
    rintro hno ⟨hi, hl⟩
    refine next_congr (serve_denied _ hi rfl (beq_iff_eq.mpr hl) rfl ?_)
    refine Bool.eq_false_iff.mpr fun hown => ?_
    obtain ⟨h, hh, hc⟩ := (Option.any_eq_true ..).mp hown
    exact hno h hh (beq_iff_eq.mp hc)
  case tokenIssue =>
    rintro ⟨hi, hl⟩ hown hu ho good
    have hp : Passes s fn tokenIssueCmd.spec p := ⟨hi, beq_iff_eq.mpr hl, rfl, hown⟩
    exact ⟨bindTokenIssue_invalid hp hu.1 ho, fun t b hg he hreq => bindTokenIssue_issued hp hu ho hg he hreq⟩
  case tokenRevoke =>
    rintro k ⟨hi, hl⟩ hlt hk hc ho hu t
    have hown : ((Tab.get? r.ports.tokens hn).any fun t => t.carrel == fn) = true := by
      have hk' : Tab.get? r.ports.tokens hn = some k := hk
      simp [hk', hc]
    have hp : Passes s fn tokenRevokeCmd.spec p := ⟨hi, beq_iff_eq.mpr hl, decide_eq_true hlt, hown⟩
    have hbit : bit (field p 4 1) 0 = true ↔ field p 4 1 = 1 := by
      simp only [bit, pow_zero, Nat.div_one, beq_iff_eq]; omega
    exact serveSync_committed hp hu rfl (if_pos ho) 
      (Prod.ext (ite_congr (propext hbit) (fun _ => rfl) fun _ => rfl) rfl)
  case static =>
    rintro ⟨hi, hl⟩ h24 h28 h43 ho hu hown good t
    have hp : Passes s fn bindStaticCmd.spec p :=
      ⟨hi, beq_iff_eq.mpr hl, by simp only [bindStaticCmd, h24, h28, h43, decide_true, Bool.and_self], hown⟩
    refine ⟨fun hg => serveSync_refused hp hu.1 (bindStaticCheck_invalid (s := r) ho hg), fun hg hq hrun => ?_,
      fun k hg hq hrun => serveSync_refused hp hu.1 (bindStaticCheck_taken (s := r) ho hg hq hrun)⟩
    have hc := bindStaticCheck_admitted (s := r) ho hg hq hrun
    exact ⟨fun ha => serveSync_committed hp hu rfl hc (Prod.ext (if_pos ha) rfl),
      fun ha => serveSync_committed hp hu rfl hc (Prod.ext (if_neg ha) rfl)⟩
  case release =>
    rintro q ⟨hi, hl⟩ hq hc ho hu
    have hown : ((r.qp? hn).any fun q => q.carrel == fn) = true := by
      have hq' : r.qp? hn = some q := hq
      simp [hq', hc]
    have hp : Passes s fn bindReleaseCmd.spec p := ⟨hi, beq_iff_eq.mpr hl, rfl, hown⟩
    exact serveSync_committed hp hu rfl (if_pos ho) rfl
end

section
/-!
SUPPORT. The fault collector and the registrar pairs: what a report leaves alone, what its mask depends on, and the reports of the
checkers (R357, R439 to R445).
-/

namespace Sys2Proof.Machine

/-! ## What a report leaves alone -/

theorem noteDev_only (old s : State) : OnlyMailboxes s (noteDev old s) := by
  unfold noteDev
  split
  · exact .refl s
  · exact queueEvent_only ..

@[simp] theorem auditAppend_ent (s : State) (b : Bytes) : (auditAppend s b).ent = s.ent := by
  unfold auditAppend; split <;> rfl

@[simp] theorem queueEvent_ent (s : State) (code : Nat) (data : Bytes) (vf : Option Nat) :
    (queueEvent s code data vf).ent = s.ent := by rw [queueEvent_only s code data vf]

/-- Collecting an event leaves the entropy unit alone. -/
theorem collect_ent (s : State) (r : FaultReport) (applied : BitVec 8) (coincident fenced subst : Bool) :
    (collect s r applied coincident fenced subst).ent = s.ent := by
  unfold collect
  extract_lets severe mask inj merge s1 _ s2 _ s3 _ s4
  have h1 : s1.ent = s.ent := by simp only [s1, countFault]; split <;> rfl
  have h2 : s2.ent = s.ent := by simp only [s2]; split <;> exact h1
  have h3 : s3.ent = s.ent := by simp only [s3]; split <;> exact h2
  have h4 : s4.ent = s.ent := (auditAppend_ent _ _).trans h3
  split
  · exact h3
  · split
    · exact h4
    · rw [queueEvent_ent, h4]

/-- A report that resets neither the chip nor a block leaves the entropy unit alone. -/
theorem report_ent {s : State} {r : FaultReport} (hr : (strongest (eventMask s r)).getLsbD 3 = false)
    (hb : ∀ t, blockReset t r = t) : (report s r).ent = s.ent := by
  unfold report
  extract_lets m s1 s2
  have h2 : s2.ent = s.ent := by
    simp only [s2]
    split
    · simp only [errPin, assertErrN]; split <;> exact collect_ent ..
    · exact collect_ent ..
  rw [if_neg (Bool.eq_false_iff.mp hr)]
  split
  · rw [hb]; exact h2
  · exact h2

/-- The mask of an event depends on its source and unit, on the collector, on the device's state and life cycle, and on the time. -/
theorem eventMask_congr {s t : State} {r r' : FaultReport} (hsrc : r'.source = r.source) (hphys : r'.phys = r.phys)
    (hflt : t.flt = s.flt) (htmp : t.tmp = s.tmp) (hdev : t.reg.dev = s.reg.dev) (hnow : t.now = s.now) :
    eventMask t r' = eventMask s r := by
  have hcounted : counted t = counted s := by unfold counted; rw [hdev, htmp, hflt]
  have hcount : countEvent t = countEvent s := by funext k w; unfold countEvent; rw [hflt, hnow]
  have hcfg : srcCfg t = srcCfg s := by funext n; unfold srcCfg; rw [hflt]
  have hkey : fltKey r' = fltKey r := by unfold fltKey; rw [hsrc, hphys]
  have hsevere : isSevere t r' = isSevere s r := by unfold isSevere; rw [hcounted, hcount, hcfg, hkey, hsrc]
  unfold eventMask
  rw [hsevere, hcfg, hsrc]

/-! ## Checkers (R436, R441, R445) -/

/-- A single event of a source without a unit is reported alone. -/
theorem checkerReport_single {s : State} {e : FaultReport} (hu : isUnitSource e.source = false) (hr : reported s e = true) :
    exec (.checkerReport [e]) s = .next (if anyResets s [e] then report s e else afterReport (report s e) e) := by
  have hf : [e].filter (reported s) = [e] := by simp [hr]
  have ha : reportAll s [e] = report s e := by simp [reportAll, reportOne, hu]
  change execCheckerReport [e] s = _
  simp only [execCheckerReport, hf, ha, List.foldl_cons, List.foldl_nil]

/-- Beyond the collector only the registrar pairs and the memory guard act on a report. -/
theorem afterReport_of_ne {s : State} {e : FaultReport} (h1 : e.source ≠ 0x001) (h2 : e.source ≠ 0x182)
    (h3 : e.source ≠ 0x183) : afterReport s e = s := by simp [afterReport, h1, h2, h3]

theorem afterReport_lockstep {s : State} {e : FaultReport} (h : e.source = 0x001) : afterReport s e = fencePair s := if_pos h

/-! ## The registrar pairs (R357) -/

/-- What the registrar records of its pairs. -/
def pairsOf (s : State) : Nat × Bool := (s.reg.pairsFenced, s.reg.switching)

theorem OnlyMailboxes.pairsOf {s t : State} (h : OnlyMailboxes s t) : Machine.pairsOf t = Machine.pairsOf s := by rw [h]; rfl

theorem dropClaim_pairsOf (s : State) (fn : Nat) : pairsOf (dropClaim s fn) = pairsOf s := by
  unfold dropClaim
  split
  · rfl
  · next n _ =>
    change pairsOf (releaseClaim s n) = pairsOf s
    simp only [pairsOf, releaseClaim_reg]

theorem restartCmds_pairsOf (s : State) : pairsOf (restartCmds s) = pairsOf s :=
  foldl_keeps pairsOf dropClaim_pairsOf (Tab.keys s.reg.mbx) s

/-- The first miscompare fences one pair and switches to the spare. -/
theorem fencePair_first {s : State} (h : s.reg.pairsFenced = 0) : pairsOf (fencePair s) = (1, true) := by
  have hlt : ¬ 2 ≤ s.reg.pairsFenced := by omega
  rw [fencePair, if_neg hlt, if_pos h, (noteDev_only _ _).pairsOf, restartCmds_pairsOf]
  rfl

end Sys2Proof.Machine
end

section
/-!
SUPPORT. The entropy unit: blocks, reseeding, latch-out (R340 to R346).
-/

namespace Sys2Proof.Machine

section
variable {s : State} {n : Nat}

/-! ## Windows (R340, R341, R343) -/

theorem entWindowComplete_passes {ws : List Nat} (hin : (s.src n).inService = true) (hh : health (windowOf (s.src n) ws) = none)
    (hst : s.ent.state ≠ .failed) :
    exec (.entWindowComplete n ws) s = .next (addBlock (s.setSrc n { s.src n with windows := (s.src n).windows + 1 })) := by
  change execEntWindowComplete n ws s = _
  simp only [execEntWindowComplete, hin, hh]
  exact next_congr (if_neg hst)

theorem entWindowComplete_fails {ws : List Nat} {b : Bool} (hin : (s.src n).inService = true)
    (hh : health (windowOf (s.src n) ws) = some b) :
    exec (.entWindowComplete n ws) s =
      .next (latchOut s n ((if (s.src n).windows = 0 then 1 else 3) + (if b then 0 else 1))) := by
  change execEntWindowComplete n ws s = _
  simp only [execEntWindowComplete, hin, hh]
  cases b <;> rfl

theorem entWindowComplete_out (hin : (s.src n).inService = false) (ws : List Nat) :
    exec (.entWindowComplete n ws) s = .next s := by
  change execEntWindowComplete n ws s = _
  simp [execEntWindowComplete, hin]

/-! ## Latch-out (R341) -/

/-- Latching one source out takes at most one from those in service. -/
theorem srcCount_setSrc_le (s : State) (n : Nat) (x : EntSource) : srcCount s ≤ srcCount (s.setSrc n x) + 1 := by
  have hsub : ((List.range 8).filter fun i => (s.src i).inService) ⊆
      n :: (List.range 8).filter fun i => ((s.setSrc n x).src i).inService := by
    intro i hi
    obtain ⟨hlt, hin⟩ := List.mem_filter.mp hi
    by_cases h : i = n
    · rw [h]; exact List.mem_cons_self
    · exact List.mem_cons_of_mem _ (List.mem_filter.mpr ⟨hlt, by rw [State.setSrc_src_of_ne s x h]; exact hin⟩)
  exact (List.Nodup.subperm (List.nodup_range.filter _) hsub).length_le

/-- The source out of service for a cause, and recorded so in `ENT_STS`. -/
def sourceOut (s : State) (n cause : Nat) : State :=
  let t := s.setSrc n { s.src n with inService := false, cause := BitVec.ofNat 4 cause }
  { t with ent := { t.ent with srcFail := t.ent.srcFail.hit } }

theorem srcCount_sourceOut_le (s : State) (n cause : Nat) : srcCount s ≤ srcCount (sourceOut s n cause) + 1 :=
  srcCount_setSrc_le s n { s.src n with inService := false, cause := BitVec.ofNat 4 cause }

@[simp] theorem sourceOut_src (s : State) (n cause : Nat) :
    (sourceOut s n cause).src n = { s.src n with inService := false, cause := BitVec.ofNat 4 cause } :=
  State.setSrc_src_self s n { s.src n with inService := false, cause := BitVec.ofNat 4 cause }

theorem entEvent_only (s : State) : OnlyMailboxes s (entEvent s) := queueEvent_only ..

/-- The latch-out's own report acts on the collector alone, unless its source resets the chip. -/
theorem reportLatched_ent (hr : resets s 0x0C0 = false) (cause : Nat) (detail : W32) :
    (reportSrc (entEvent (sourceOut s n cause)) 0x0C0 0xFF detail).ent = (sourceOut s n cause).ent := by
  have hone := entEvent_only (sourceOut s n cause)
  have hent : (entEvent (sourceOut s n cause)).ent = (sourceOut s n cause).ent := by rw [hone]
  refine (report_ent ?_ fun t => by simp [blockReset]).trans hent
  rw [← hr, resets]
  congr 2
  exact eventMask_congr rfl rfl (by rw [hone]; rfl) (by rw [hone]; rfl) (by rw [hone]; rfl) (by rw [hone]; rfl)

/-- With enough other sources in service, a latch-out does nothing else to the entropy unit. -/
theorem latchOut_ent (hin : (s.src n).inService = true) (hc : 5 ≤ srcCount s) (hr : resets s 0x0C0 = false) (cause : Nat) :
    (latchOut s n cause).ent = (sourceOut s n cause).ent := by
  have hent := reportLatched_ent (n := n) hr cause (BitVec.ofNat 32 n)
  have hcount : ¬ srcCount (reportSrc (entEvent (sourceOut s n cause)) 0x0C0 0xFF (BitVec.ofNat 32 n)) < 4 := by
    have hle := srcCount_sourceOut_le s n cause
    have heq : srcCount (reportSrc (entEvent (sourceOut s n cause)) 0x0C0 0xFF (BitVec.ofNat 32 n)) =
        srcCount (sourceOut s n cause) := by simp only [srcCount, State.src, hent]
    omega
  have hlat : latchOut s n cause =
      noteDev s (reportSrc (entEvent (sourceOut s n cause)) 0x0C0 0xFF (BitVec.ofNat 32 n)) := by
    rw [latchOut, hin]
    refine (if_neg (by simp)).trans ((if_neg (Bool.eq_false_iff.mp hr)).trans ?_)
    exact congrArg (noteDev s) (if_neg fun h => hcount h.1)
  rw [hlat, noteDev_only s (reportSrc _ _ _ _)]
  exact hent

theorem entSrcFail_out (hin : (s.src n).inService = false) (cause : Nat) : exec (.entSrcFail n cause) s = .next s := by
  change Host.Outcome.next (latchOut s n cause) = _
  simp [latchOut, hin]

/-! ## Reseeding (R344, R346) -/

@[simp] theorem drbg_setDrbg_self (s : State) (i : Nat) (d : Drbg) : drbg (setDrbg s i d) i = d := Tab.getD_set_self ..

theorem drbg_setDrbg_of_ne (s : State) {i j : Nat} (d : Drbg) (h : j ≠ i) : drbg (setDrbg s i d) j = drbg s j :=
  Tab.getD_set_of_ne _ _ _ h

/-- With a block in the pool, a DRBG takes it as its seed. -/
theorem reseed_stocked (hp : 0 < s.ent.pool) (i : Nat) :
    reseed s i =
      let t := setDrbg { s with ent := { s.ent with pool := s.ent.pool - 1 } } i
        { live := true, requests := 0, seededAt := s.now, reseedDue := false }
      { t with ent := { t.ent with reseedTot := t.ent.reseedTot + 1 } } := by
  simp [reseed, takeBlock, Nat.ne_of_gt hp]

theorem reseed_empty (hp : s.ent.pool = 0) (i : Nat) :
    reseed s i = poolEmpty (setDrbg s i { drbg s i with reseedDue := true }) := by
  simp [reseed, takeBlock, hp]

theorem drbgReseed_live (hl : (drbg s n).live = true) : exec (.drbgReseed n) s = .next (reseed s n) := next_congr (if_pos hl)

end

end Sys2Proof.Machine
end

section
/-!
SUPPORT. The settings of the device, the fault collector's commands, the entropy unit's tests and the attestation: what each
command answers (R61, R62, R102, R243, R279, R355, R388, R389, R440 to R442, R450, R451).
-/

namespace Sys2Proof.Machine

section
variable {s : State} {fn : Nat} {p : Bytes}

/-! ## Octets (R61, R62) -/

/-- `OCT_CONFIG` is in the window with this value of `FECTH_ONLY`, well formed. -/
structure OctIssued (s : State) (fn : Nat) (p : Bytes) (only : Bool) : Prop where
  issued : Issued s fn 0x0101 .o p
  len : p.length = 12
  flags : field p 3 1 < 8
  rsv : field p 6 2 = 0
  only : bit (field p 3 1) 2 = only

theorem Issued.payload {code : Nat} {role : Role} (h : Issued s fn code role p) : framePayload (s.mbx fn) = p := by
  obtain ⟨-, -, hp, -⟩ := h
  exact hp

section
variable {only : Bool} (h : OctIssued s fn p only)
include h

theorem OctIssued.passes : Passes s fn octSpec p :=
  ⟨h.issued, beq_iff_eq.mpr h.len, by simp only [octSpec, h.flags, h.rsv, decide_true]; rfl, rfl⟩

theorem OctIssued.fecthIs (b : Bool) : fecthIs s fn b = (only == b) := by
  rw [Machine.fecthIs, h.issued.payload, h.only]

end

theorem fecthOnly_sets (h : OctIssued s fn p true) (hn : field p 0 1 ≤ 63) :
    AnswersIn ((accept s fn).setOctet (field p 0 1) { s.octet (field p 0 1) with
      fecTh := if field p 8 4 = 0 then (s.octet (field p 0 1)).fecTh else BitVec.ofNat 32 (field p 8 4) }) fn {}
      (exec (.fecthOnly fn) s) := by
  change AnswersIn _ fn _ (execFecthOnly fn s)
  rw [execFecthOnly, h.fecthIs]
  exact h.passes.answers (if_neg (Nat.not_lt.mpr hn))

section
variable (h : OctIssued s fn p false) (hn : field p 0 1 ≤ 63)
include h hn

theorem octConfig_rejected (hst : (s.octet (field p 0 1)).state ≠ .off) (hm : field p 1 1 ≠ 0)
    (hd : ¬ (field p 1 1 = (s.octet (field p 0 1)).mode.toNat ∧ field p 2 1 = (s.octet (field p 0 1)).media.toNat)) :
    AnswersIn (accept s fn) fn (rejected 6 (octCode (s.octet (field p 0 1)).state)) (exec (.octConfig fn) s) := by
  change AnswersIn _ fn _ (execOctConfig fn s)
  rw [execOctConfig, h.fecthIs]
  exact h.passes.answers ((if_neg (Nat.not_lt.mpr hn)).trans (if_pos ⟨hst, hd, hm⟩))

theorem octConfig_sets (hst : (s.octet (field p 0 1)).state = .off) (hm : field p 1 1 ≤ 4) (hmed : field p 2 1 ≤ 2)
    (hk : bit (field p 3 1) 1 = false) :
    AnswersIn (setOctetCfg (accept s fn) (field p 0 1) p) fn {} (exec (.octConfig fn) s) := by
  have hkeep : ¬ (bit (field p 3 1) 1 && !((accept s fn).octet (field p 0 1)).keepAlive &&
      decide (8 ≤ (keepAlive (accept s fn)).length)) = true := by simp [hk]
  change AnswersIn _ fn _ (execOctConfig fn s)
  rw [execOctConfig, h.fecthIs]
  exact h.passes.answers ((if_neg (Nat.not_lt.mpr hn)).trans ((if_neg fun hc => hc.1 hst).trans
    ((if_neg hkeep).trans (if_neg (by omega)))))

end

/-- A powered octet comes up from `OFF`, DOWN or held down, with the payload's configuration (R62). -/
theorem setOctetCfg_powered {n : Nat} (hst : (s.octet n).state = .off) (h1 : 1 ≤ field p 1 1) (h4 : field p 1 1 ≤ 4) :
    ∃ y : Octet, setOctetCfg s n p = s.setOctet n y ∧ y.mode = BitVec.ofNat 3 (field p 1 1) ∧
      y.media = BitVec.ofNat 2 (field p 2 1) ∧
      y.fecTh = (if field p 8 4 = 0 then (s.octet n).fecTh else BitVec.ofNat 32 (field p 8 4)) ∧
      (y.state = .down ∨ y.state = .forcedDown) := by
  have hmode : ¬ BitVec.ofNat 3 (field p 1 1) = 0 := by bv_omega
  rw [setOctetCfg]
  exact ⟨_, (if_neg hmode).trans (if_pos hst), rfl, rfl, rfl, (ite_eq_or_eq _ _ _).symm⟩

/-! ## Warm minimum, direct group, low threshold, ledger (R102, R243, R279) -/

theorem warmMinSet_sets (hi : Issued s fn 0x0102 .o p) (hl : p.length = 4) (hv : field p 0 4 < 2 ^ 28)
    (ht : bits (field p 0 4) 7 0 ≤ 128) (hf : bits (field p 0 4) 12 8 ≤ 16) (hk : bits (field p 0 4) 18 13 ≤ 32)
    (hp : bits (field p 0 4) 27 19 ≤ 256) :
    AnswersIn { accept s fn with sched := { s.sched with
      warmTun := BitVec.ofNat 8 (bits (field p 0 4) 7 0), warmFloor := BitVec.ofNat 5 (bits (field p 0 4) 12 8)
      warmKiln := BitVec.ofNat 6 (bits (field p 0 4) 18 13), warmPipe := BitVec.ofNat 9 (bits (field p 0 4) 27 19) } } fn {}
      (exec (.warmMinSet fn) s) :=
  Passes.answers ⟨hi, beq_iff_eq.mpr hl, decide_eq_true hv, rfl⟩ (if_neg (by omega))

theorem directCntSet_sets (hi : Issued s fn 0x0103 .o p) (hl : p.length = 1) (hn : field p 0 1 ≤ 16)
    (hb : (s.pipes.pages.any fun y => y.2.busy) = false) :
    AnswersIn { accept s fn with pipes := { s.pipes with directCnt := BitVec.ofNat 5 (field p 0 1) } } fn {}
      (exec (.directCntSet fn) s) :=
  Passes.answers ⟨hi, beq_iff_eq.mpr hl, rfl, rfl⟩ ((if_neg (Bool.eq_false_iff.mp hb)).trans (if_neg (Nat.not_lt.mpr hn)))

theorem directCntSet_busy (hi : Issued s fn 0x0103 .o p) (hl : p.length = 1) (hb : (s.pipes.pages.any fun y => y.2.busy) = true) :
    AnswersIn (accept s fn) fn (devRejected s) (exec (.directCntSet fn) s) :=
  Passes.answers ⟨hi, beq_iff_eq.mpr hl, rfl, rfl⟩ (if_pos hb)

theorem ledLowThSet_sets (hi : Issued s fn 0x0104 .o p) (hl : p.length = 2) (hv : field p 0 2 < 2 ^ 14) :
    AnswersIn { accept s fn with ledger := { s.ledger with lowTh := BitVec.ofNat 14 (field p 0 2) } } fn {}
      (exec (.ledLowThSet fn) s) :=
  Passes.answers ⟨hi, beq_iff_eq.mpr hl, decide_eq_true hv, rfl⟩ rfl

/-- No bit above a number's length is set. -/
theorem bit_of_lt {v i : Nat} (h : v < 2 ^ i) : bit v i = false := by simp [bit, Nat.div_eq_of_lt h]

theorem ledQuery_counter (hi : Issued s fn 0x0410 .oa p) (hl : p.length = 4) (hf : fn = 0) (hv : field p 0 4 < 2 ^ 14) :
    AnswersIn (accept s fn) fn { payload := counterBytes s (field p 0 4) } (exec (.ledQuery fn) s) := by
  have hb : bit (field p 0 4) 31 = false := bit_of_lt (by omega)
  have hhi : bits (field p 0 4) 30 14 = 0 := by rw [bits, Nat.div_eq_of_lt hv, Nat.zero_mod]
  refine Passes.answers ⟨hi, beq_iff_eq.mpr hl, ?_, ?_⟩ ?_
  · simp [hb, hhi]
  · simp [hf]
  · refine (if_pos (by simp [hb])).trans ?_
    rw [Nat.mod_eq_of_lt hv]
    rfl

/-! ## The fault collector's commands (R440, R450, R451) -/

/-- The operation that `FLT_CONFIG` names is its payload's first byte. -/
theorem Issued.fltOp {code : Nat} {role : Role} (h : Issued s fn code role p) : fltOp s fn = field p 0 1 := by
  rw [Machine.fltOp, h.payload]

theorem setProfile_sets (hi : Issued s fn 0x0105 .o p) (hop : field p 0 1 = 2) (hl : p.length = 3) (hr : field p 1 1 = 0)
    (hv : field p 2 1 ≤ 1) (hlc : s.tmp.lcs = .factory) :
    let on := field p 2 1 == 1
    AnswersIn { accept s fn with flt := { s.flt with
      counted := on, counts := if s.flt.counted = on then s.flt.counts else [] } } fn {} (exec (.setProfile fn) s) := by
  change AnswersIn _ fn _ (execSetProfile fn s)
  rw [execSetProfile, hi.fltOp, if_neg (not_not.mpr hop)]
  exact Passes.answers ⟨hi, beq_iff_eq.mpr hl, beq_iff_eq.mpr hr, rfl⟩
    ((if_neg (not_not.mpr hlc)).trans (if_neg (Nat.not_lt.mpr hv)))

theorem srcValues_single (h : field p 4 2 = 1) : srcValues p = [(field p 2 2, field p 8 8)] := by simp [srcValues, h]

theorem setSource_sets (hi : Issued s fn 0x0105 .o p) (hop : field p 0 1 = 1) (hl : p.length = 16) (hr : field p 1 1 = 0)
    (hr' : field p 6 2 = 0) (hcnt : field p 4 2 = 1) (hn : field p 2 2 < 1024) (hv : field p 8 8 < 2 ^ 41)
    (hok : srcValueOk s (field p 2 2) (field p 8 8) = true) :
    let cfg := Tab.set s.flt.cfg (field p 2 2) (parseSrcCfg (field p 8 8) (lockedSource (field p 2 2)))
    AnswersIn (queueRecord { accept s fn with flt := { s.flt with cfg := cfg } } (.faultCfg cfg)) fn {}
      (exec (.setSource fn) s) := by
  have hc : countOk p = true := by simp [countOk, hcnt]
  have hvs := srcValues_single hcnt
  have hok' : srcValueOk (accept s fn) (field p 2 2) (field p 8 8) = true := hok
  change AnswersIn _ fn _ (execSetSource fn s)
  rw [execSetSource, hi.fltOp, hop]
  refine Passes.answers ⟨hi, ?_, ?_, rfl⟩ ?_
  · simp [fltSpec, hl]
  · simpa [fltSpec, hr, hr', hc, hcnt, hl, hvs] using hv
  · refine (if_neg ?_).trans ?_
    · simpa [hc, hcnt, hvs, hok'] using hn
    · rw [hvs]; rfl

theorem fiArm_arms (hi : Issued s fn 0x0105 .o p) (hop : field p 0 1 = 3) (hl : p.length = 7) (hr : field p 1 1 = 0)
    (hm : field p 6 1 < 2) (hst : injectState s (field p 2 2) = true) (hfi : s.flt.fi = none)
    (hinj : injectable (field p 2 2) = true) (hu : isUnitSource (field p 2 2) = false) (hph : field p 4 2 = 0xFFFF) :
    AnswersIn { accept s fn with flt := { s.flt with
      fi := some ⟨field p 2 2, field p 4 2, bit (field p 6 1) 0⟩, fiCount := 0 } } fn {} (exec (.fiArm fn) s) := by
  have hst' : injectState (accept s fn) (field p 2 2) = true := hst
  have hfi' : (accept s fn).flt.fi = none := hfi
  change AnswersIn _ fn _ (execFiArm fn s)
  rw [execFiArm, hi.fltOp, if_neg (not_not.mpr hop)]
  exact Passes.answers ⟨hi, beq_iff_eq.mpr hl, by simp only [fltSpec, hr, hm, decide_true]; rfl, rfl⟩
    ((if_neg (by simp [hst'])).trans ((if_neg (by simp [hfi'])).trans (if_neg (by simp [hinj, hu, hph]))))

theorem fiDisarm_disarms (hi : Issued s fn 0x0105 .o p) (hop : field p 0 1 = 4) (hl : p.length = 1) :
    AnswersIn { accept s fn with flt := { s.flt with fi := none } } fn {} (exec (.fiDisarm fn) s) := by
  change AnswersIn _ fn _ (execFiDisarm fn s)
  rw [execFiDisarm, hi.fltOp, if_neg (not_not.mpr hop)]
  exact Passes.answers ⟨hi, beq_iff_eq.mpr hl, rfl, rfl⟩ rfl

theorem resetCounts_clears (hi : Issued s fn 0x0105 .o p) (hop : field p 0 1 = 5) (hl : p.length = 1) :
    AnswersIn { accept s fn with flt := { s.flt with counts := [] } } fn {} (exec (.resetCounts fn) s) := by
  change AnswersIn _ fn _ (execResetCounts fn s)
  rw [execResetCounts, hi.fltOp, if_neg (not_not.mpr hop)]
  exact Passes.answers ⟨hi, beq_iff_eq.mpr hl, rfl, rfl⟩ rfl

/-! ## Tests of the entropy unit (R355) -/

theorem entTestPattern_sets (hi : Issued s fn 0x0701 .o p) (hl : p.length = 68) (h2 : field p 1 1 < 2) (hr : field p 2 2 = 0)
    (hlc : s.tmp.lcs = .factory) (hn : field p 0 1 ≤ 7) (ha : nonApprovedHere s fn = false) :
    AnswersIn ((accept s fn).setSrc (field p 0 1) { s.src (field p 0 1) with
      pattern := if bit (field p 1 1) 0 then some (slice p 4 64) else none }) fn {} (exec (.entTestPattern fn) s) :=
  Passes.answers ⟨hi, beq_iff_eq.mpr hl, by simp only [h2, hr, decide_true]; rfl, rfl⟩
    ((if_neg (not_not.mpr hlc)).trans ((if_neg (Nat.not_lt.mpr hn)).trans (if_neg (Bool.eq_false_iff.mp ha))))

theorem entRawCapture_captures (hi : Issued s fn 0x0702 .o p) (hl : p.length = 16) (hr : allZero (slice p 1 3) = true)
    (hlc : s.tmp.lcs = .factory) (hn : field p 0 1 ≤ 7) (h1 : 1 ≤ field p 4 4) (hmax : field p 4 4 ≤ 1048576)
    (ha : nonApprovedHere s fn = false) (ws : Bytes) :
    AnswersIn ((accept s fn).send (.dmaWrite fn (BitVec.ofNat 64 (field p 8 8)) (fit ((field p 4 4 + 7) / 8) ws))) fn {}
      (exec (.entRawCapture fn ws) s) := by
  have hlc' : ¬ (decide ((accept s fn).tmp.lcs ≠ .factory) && !granted (accept s fn) 6) = true := by simp [hlc]
  exact Passes.answers ⟨hi, beq_iff_eq.mpr hl, hr, rfl⟩
    ((if_neg hlc').trans ((if_neg (by omega)).trans (if_neg (Bool.eq_false_iff.mp ha))))

/-! ## Attestation (R388, R389) -/

/-- Bytes that fit the area given are written to it. -/
theorem hostWrite_fits {addr room : Nat} {b : Bytes} (h : b.length ≤ room) (a : Ans) :
    hostWrite s fn addr room b a = .done (s.send (.dmaWrite fn (BitVec.ofNat 64 addr) b)) a := if_neg (Nat.not_lt.mpr h)

theorem attQuote_quotes (hi : Issued s fn 0x0801 .any p) (hl : p.length = 44) (hg : secretGrant s = false)
    (hk : s.reg.aliasKeys = true) (hroom : (quote (accept s fn) fn (p.take 32)).length ≤ field p 40 4) :
    AnswersIn ((accept s fn).send (.dmaWrite fn (BitVec.ofNat 64 (field p 32 8)) (quote (accept s fn) fn (p.take 32)))) fn
      { payload := le 4 (quote (accept s fn) fn (p.take 32)).length } (exec (.attQuote fn) s) := by
  have hg' : secretGrant (accept s fn) = false := hg
  have hk' : (accept s fn).reg.aliasKeys = true := hk
  exact Passes.answers ⟨hi, beq_iff_eq.mpr hl, rfl, rfl⟩ ((if_neg (by simp [hg', hk'])).trans (hostWrite_fits hroom _))

theorem attQuote_erased (hi : Issued s fn 0x0801 .any p) (hl : p.length = 44) (hg : secretGrant s = true) :
    AnswersIn (accept s fn) fn (devRejected s) (exec (.attQuote fn) s) := by
  have hg' : secretGrant (accept s fn) = true := hg
  exact Passes.answers ⟨hi, beq_iff_eq.mpr hl, rfl, rfl⟩ (if_pos (by rw [hg', Bool.true_or]))

theorem attCerts_writes (hi : Issued s fn 0x0802 .any p) (hl : p.length = 12)
    (hroom : (certs (accept s fn)).flatten.length ≤ field p 8 4) :
    AnswersIn ((accept s fn).send (.dmaWrite fn (BitVec.ofNat 64 (field p 0 8)) (certs (accept s fn)).flatten)) fn
      { payload := (certs (accept s fn)).flatMap fun c => le 4 c.length } (exec (.attCerts fn) s) :=
  Passes.answers ⟨hi, beq_iff_eq.mpr hl, rfl, rfl⟩ (hostWrite_fits hroom _)

end

end Sys2Proof.Machine

open Sys2Proof Sys2Proof.Machine

/-- Settles O44: a command in range is what its body makes of the accepted state; a latch-out touches nothing else of the entropy
unit because its own report acts on the collector alone. -/
theorem settingsAndCheckersTakeEffect : Obligations.SettingsAndCheckersTakeEffect := by
  unfold Obligations.SettingsAndCheckersTakeEffect
  intro s fn n p r is oct o th v flt quote' cs x
  have hoct : ∀ {only}, oct only → OctIssued s fn p only := fun ⟨hi, hl, hf, hr, ho⟩ => ⟨hi, hl, hf, hr, ho⟩
  refine ⟨fun h => fecthOnly_sets (hoct h), fun h hn hst hm hd => octConfig_rejected (hoct h) hn hst hm hd, ?octSet,
    warmMinSet_sets, directCntSet_sets, directCntSet_busy, ledLowThSet_sets, ledQuery_counter, ?reclaim,
    fun ⟨hi, hop⟩ => setProfile_sets hi hop, fun ⟨hi, hop⟩ => setSource_sets hi hop,
    fun ⟨hi, hop⟩ => fiArm_arms hi hop, fun ⟨hi, hop⟩ => fiDisarm_disarms hi hop, fun ⟨hi, hop⟩ => resetCounts_clears hi hop,
    ?checker, ?lockstep, rfl, ?fence, rfl, fun ws => entWindowComplete_passes, fun ws b => entWindowComplete_fails, fun ws h => entWindowComplete_out h ws, ?srcFail,
    fun cause h => entSrcFail_out h cause, ?reseed, ?wait, entTestPattern_sets,
    fun ws hi hl hr hlc hn h1 hmax ha => entRawCapture_captures hi hl hr hlc hn h1 hmax ha ws, attQuote_quotes,
    attQuote_erased, attCerts_writes⟩
  case octSet =>
    intro h hn hst h1 h4 hmed hk
    obtain ⟨y, hset, hmode, hmedia, hth, hstate⟩ := setOctetCfg_powered (s := r) (p := p) hst h1 h4
    have hself : (setOctetCfg r (field p 0 1) p).octet (field p 0 1) = y := by rw [hset, State.setOctet_octet_self]
    refine ⟨_, octConfig_sets (hoct h) hn hst h4 hmed hk, ?_, ?_, ?_, ?_, fun m hm => ?_⟩
    · rw [hself, hmode]
    · rw [hself, hmedia]
    · rw [hself, hth]; rfl
    · rw [hself]; exact hstate
    · rw [hset]; exact State.setOctet_octet_of_ne r y hm
  case reclaim =>
    intro hi hl t
    exact Passes.answers ⟨hi, beq_iff_eq.mpr (by rw [hl]; rfl), rfl, rfl⟩ rfl
  case checker =>
    intro e hu hr h1 h2 h3
    rw [checkerReport_single hu hr, afterReport_of_ne h1 h2 h3, ite_self]
  case lockstep =>
    intro e he
    rw [checkerReport_single (by rw [he]; rfl) (by simp [reported, he]), afterReport_lockstep he]
  case fence =>
    intro t h0
    exact Prod.mk.inj (fencePair_first h0)
  case srcFail =>
    intro cause hin hc hr
    have hent := latchOut_ent hin hc hr cause
    have hsrc : (latchOut s n cause).src n = { s.src n with inService := false, cause := BitVec.ofNat 4 cause } := by
      rw [State.src, hent]; exact sourceOut_src ..
    refine ⟨_, rfl, ?_, ?_, ?_, ?_⟩
    · rw [hsrc]
    · rw [hsrc]
    · rw [hent]; rfl
    · rw [hent]; rfl
  case reseed =>
    intro hl hp
    refine ⟨_, drbgReseed_live hl, ?_, ?_, fun i hi => ?_⟩
    · rw [reseed_stocked hp]; exact drbg_setDrbg_self ..
    · rw [reseed_stocked hp]; rfl
    · rw [reseed_stocked hp]; exact drbg_setDrbg_of_ne { s with ent := { s.ent with pool := s.ent.pool - 1 } } _ hi
  case wait =>
    intro hl hp
    refine ⟨_, drbgReseed_live hl, ?_, ?_⟩
    · rw [reseed_empty hp]; exact drbg_setDrbg_self ..
    · rw [reseed_empty hp]; rfl
end

section
/-!
SUPPORT. The order of a table of slips. The model writes its tables through `Tab.set`, which keeps their keys ascending
(`Tab.ascending_set`); but a state is plain data and may hold a table in any order. Where a slip stands behind one of a greater
number, a write to it goes in before that one, and its old entry stays. Here: what a write does to a table in order, and two slips
in order and out of order.
-/

namespace Sys2Proof.Machine

namespace Tab

variable {α : Type} {t : Tab α} {k : Nat}

/-- The keys ascend. -/
def Ascending (t : Tab α) : Prop := (keys t).Pairwise (· < ·)

theorem ascending_cons {p : Nat × α} : Ascending (p :: t) ↔ (∀ q ∈ t, p.1 < q.1) ∧ Ascending t := by
  simp [Ascending, keys]

theorem mem_of_mem_set {v : α} {q : Nat × α} (h : q ∈ set t k v) : q = (k, v) ∨ q ∈ t := by
  induction t with
  | nil => exact .inl (List.mem_singleton.mp h)
  | cons p t ih =>
    unfold set at h
    split at h
    · exact List.mem_cons.mp h
    · split at h
      · exact (List.mem_cons.mp h).imp_right (List.mem_cons_of_mem p)
      · rcases List.mem_cons.mp h with h | h
        · exact .inr (h ▸ List.mem_cons_self)
        · exact (ih h).imp_right (List.mem_cons_of_mem p)

/-- A write keeps the order. -/
theorem ascending_set (ht : Ascending t) (k : Nat) (v : α) : Ascending (set t k v) := by
  induction t with
  | nil => exact List.pairwise_singleton _ _
  | cons p t ih =>
    obtain ⟨hlt, ht⟩ := ascending_cons.mp ht
    unfold set
    split
    · next hk =>
      refine ascending_cons.mpr ⟨fun q hq => ?_, ascending_cons.mpr ⟨hlt, ht⟩⟩
      rcases List.mem_cons.mp hq with rfl | hq
      · exact hk
      · exact Nat.lt_trans hk (hlt q hq)
    · split
      · next hk => exact ascending_cons.mpr ⟨hk ▸ hlt, ht⟩
      · refine ascending_cons.mpr ⟨fun q hq => ?_, ih ht⟩
        rcases mem_of_mem_set hq with rfl | hq
        · omega
        · exact hlt q hq

/-- A write to a key of a table in order replaces its one entry in place. -/
theorem Ascending.split {v : α} (ht : Ascending t) (hk : get? t k = some v) :
    ∃ a b, t = a ++ (k, v) :: b ∧ ∀ w, set t k w = a ++ (k, w) :: b := by
  induction t with
  | nil => exact absurd hk nofun
  | cons p t ih =>
    obtain ⟨hlt, ht⟩ := ascending_cons.mp ht
    by_cases hp : k = p.1
    · have hv : p.2 = v := Option.some.inj ((if_pos hp).symm.trans hk)
      exact ⟨[], t, by rw [hp, ← hv]; rfl, fun w => by simp [set, hp]⟩
    · have hk' : get? t k = some v := (if_neg hp).symm.trans hk
      have hgt : ¬ k < p.1 := Nat.not_lt.mpr (hlt _ (mem_of_get? hk')).le
      obtain ⟨a, b, htab, hset⟩ := ih ht hk'
      exact ⟨p :: a, b, by rw [htab]; rfl, fun w => by simp [set, hp, hgt, hset]⟩

/-- A count over the table does not change where the entry counts as before. -/
theorem Ascending.length_filter_set {v w : α} (ht : Ascending t) (hk : get? t k = some v) {f : Nat × α → Bool}
    (hf : f (k, w) = f (k, v)) : ((set t k w).filter f).length = (t.filter f).length := by
  obtain ⟨a, b, htab, hset⟩ := ht.split hk
  rw [hset, htab]
  cases hv : f (k, v) <;> simp [hf, hv]

/-- A filter that lets through one entry, and that entry as it is written over, lets through just the new one. -/
theorem Ascending.filter_set_singleton {v w : α} (ht : Ascending t) (hk : get? t k = some v) {f : Nat × α → Bool}
    (hf : t.filter f = [(k, v)]) (hw : f (k, w) = true) : (set t k w).filter f = [(k, w)] := by
  obtain ⟨a, b, htab, hset⟩ := ht.split hk
  have hv : f (k, v) = true := (List.mem_filter.mp (hf ▸ List.mem_singleton_self (k, v))).2
  have hlen := congrArg List.length hf
  simp only [htab, List.filter_append, List.filter_cons, hv, if_true, List.length_append, List.length_cons,
    List.length_nil] at hlen
  have ha : a.filter f = [] := List.length_eq_zero_iff.mp (by omega)
  have hb : b.filter f = [] := List.length_eq_zero_iff.mp (by omega)
  simp [hset, ha, hb, hw]

end Tab

/-- Hopper 0 of the host, with these slips in flight. -/
def withSlips (slips : Tab Slip) : State :=
  { State.reset with hop := { hoppers := [(0, { carrel := 0, index := 0, attach := .host })], slips := slips } }

theorem withSlips_hopper (slips : Tab Slip) : (withSlips slips).hopper? 0 = some { carrel := 0, index := 0, attach := .host } := rfl

/-- A slip staged on that hopper, the first of a chain of its own. -/
def stagedSlip : Slip := { hopper := 0, carrel := 0, cs := {}, head := 1 }

/-- Slip 0 stands before slip 1, where the model puts it. -/
def inOrder (sl : Slip) : State := withSlips [(0, sl), (1, stagedSlip)]

theorem ascending_inOrder (sl : Slip) : Tab.Ascending (inOrder sl).hop.slips := List.pairwise_pair.mpr Nat.zero_lt_one

/-- Slip 0 stands behind slip 1. -/
def outOfOrder (sl : Slip) : State := withSlips [(1, stagedSlip), (0, sl)]

end Sys2Proof.Machine
end

section
/-!
SUPPORT. STATUS (R79, R93): how an operation starts and ends on its slip, and the status block that it reports, of a table in order
and of one out of order.
-/

namespace Sys2Proof.Machine

section
variable {s : State} {sid : Nat} {sl : Slip}

/-! ## Running an operation (R81 step 11) -/

theorem modSlip_eq (h : s.slip? sid = some sl) (f : Slip → Slip) : s.modSlip sid f = s.setSlip sid (f sl) := by
  have hm : Tab.mod s.hop.slips sid f = Tab.set s.hop.slips sid (f sl) := by
    rw [Tab.mod, show Tab.get? s.hop.slips sid = some sl from h]
  rw [State.modSlip, hm]; rfl

theorem foldl_countUse (l : List Nat) (s : State) : ∃ x, l.foldl countUse s = { s with cat := { s.cat with slots := x } } := by
  induction l generalizing s with
  | nil => exact ⟨_, rfl⟩
  | cons n l ih => exact ih (countUse s n)

/-- The uses of a slip are counted once: its slots change, and the slip notes it (R321). -/
theorem startUses_eq (h : s.slip? sid = some sl) : ∃ x, startUses s sid =
    if sl.usesCounted then s else { s.setSlip sid { sl with usesCounted := true } with cat := { s.cat with slots := x } } := by
  obtain ⟨x, hx⟩ := foldl_countUse sl.uses s
  refine ⟨x, ?_⟩
  rw [startUses, h]
  dsimp only
  split
  · rfl
  · rw [hx]
    exact modSlip_eq (s := { s with cat := { s.cat with slots := x } }) h _

theorem startUses_slip (h : s.slip? sid = some sl) : (startUses s sid).slip? sid = some { sl with usesCounted := true } := by
  obtain ⟨x, hx⟩ := startUses_eq h
  rw [hx]
  split
  · next hu => rw [h, ← hu]
  · exact State.setSlip_slip_self ..

theorem startUses_keeps (h : s.slip? sid = some sl) :
    (startUses s sid).hop.hoppers = s.hop.hoppers ∧ (startUses s sid).carrels = s.carrels ∧ (startUses s sid).now = s.now := by
  obtain ⟨x, hx⟩ := startUses_eq h
  rw [hx]
  split <;> exact ⟨rfl, rfl, rfl⟩

theorem judged_approved {o : OpOut} (h : o.approved = true) (s : State) (sl : Slip) : judged s sl o = o := by simp [judged, h]

theorem runOp_of_slipRuns {cls op : Nat} {ok : Slip → Bool} {f : Slip → State → State × OpOut} {t : State} {o : OpOut}
    (h : SlipRuns s sid sl cls op) (hok : ok sl = true) (hf : f sl (startUses s sid) = (t, o)) :
    runOp s sid cls ok f = finishOp t sid (judged t sl o) := by
  obtain ⟨hs, hp, hl, hr, hu, hc, -⟩ := h
  have hready : opReady s sid cls ok = some sl := by simp [opReady, hs, hp, hl, hr, hu, hc, hok]
  rw [runOp, hready]
  simp only [hf]

/-- A successful result that fits the slip's area stays in the slip (R83). -/
theorem finishOp_fits (h : s.slip? sid = some sl) {o : OpOut} (hok : o.status = St.ok)
    (hfit : o.out.length ≤ (cxOf s sl).outMax) :
    (finishOp s sid o).slip? sid = some { sl with
      phase := .executed, status := St.ok, outLen := o.outLen.getD o.out.length, out := o.out, inline := o.inline
      secret := o.secret, slotOps := o.slotOps, approved := o.approved } := by
  simp [finishOp, h, hok, Nat.not_lt.mpr hfit]

/-! ## The status block (R93) -/

theorem sbBytes_length (s : State) (hn : Nat) (h : Hopper) (q : W32) : (sbBytes s hn h q).length = 64 := by
  simp [sbBytes, le, zeros]

/-- The block is that of the hopper, its slips in flight, its carrel and the clock. -/
theorem sbBytes_congr {t : State} {hn : Nat} (hf : inFlight t hn = inFlight s hn) (hc : t.carrels = s.carrels)
    (hnow : t.now = s.now) (h : Hopper) (q : W32) : sbBytes t hn h q = sbBytes s hn h q := by
  simp only [sbBytes, sbFlags, State.carrel, hf, hc, hnow]

theorem inFlight_startUses (hs : Tab.Ascending s.hop.slips) (h : s.slip? sid = some sl) (hn : Nat) :
    inFlight (startUses s sid) hn = inFlight s hn := by
  obtain ⟨x, hx⟩ := startUses_eq h
  rw [hx]
  split
  · rfl
  · exact hs.length_filter_set h rfl

/-- Of a table in order, STATUS reports the block of the state that it was given, as O30 has it. -/
theorem ctlStatus_of_ascending {h : Hopper} (hs : Tab.Ascending s.hop.slips) (hr : SlipRuns s sid sl 0 0x01)
    (hset : csSet sl.cs = 0) (hh : s.hopper? sl.hopper = some h) (hfit : 64 ≤ (cxOf s sl).outMax) :
    ∃ s' y, exec (.ctlStatus sid) s = .next s' ∧ s'.slip? sid = some y ∧ y.phase = .executed ∧ y.status = 0 ∧
      y.out = sbBytes s sl.hopper h (h.sbSeq + 1) ∧
      s'.hopper? sl.hopper = some { h with sbSeq := h.sbSeq + 1, dbDiscarded := false } := by
  have ⟨hsl, _, _, _, _, _, hop⟩ := hr
  obtain ⟨hhop, hcar, hnow⟩ := startUses_keeps hsl
  have hblock := sbBytes_congr (inFlight_startUses hs hsl sl.hopper) hcar hnow h (h.sbSeq + 1)
  have hh' : (startUses s sid).hopper? sl.hopper = some h := by rw [State.hopper?, hhop]; exact hh
  have hok : isControl 0x01 sl = true := by simp [isControl, hop, hset]
  have hrun := runOp_of_slipRuns (f := ctlStatusBlock) hr hok (by rw [ctlStatusBlock, hh'])
  rw [hblock, judged_approved rfl] at hrun
  refine ⟨_, _, next_congr hrun, finishOp_fits (sl := { sl with usesCounted := true }) (startUses_slip hsl) rfl ?_, rfl, rfl, rfl,
    State.setHopper_hopper_self ..⟩
  exact (sbBytes_length ..).trans_le hfit

end

/-- A STATUS slip that runs, with an output area of 64 bytes. -/
def statusSlip : Slip := { hopper := 0, carrel := 0, cs := { opcode := 1, outMax := 64 }, head := 0, phase := .running }

theorem statusSlip_runs : SlipRuns (outOfOrder statusSlip) 0 statusSlip 0 0x01 := by unfold SlipRuns; decide

theorem statusSlip_admitted : PolicyAdmits (outOfOrder statusSlip) statusSlip := ⟨rfl, fun _ hk => by cases hk⟩

theorem statusSlip_fits : 64 ≤ (cxOf (outOfOrder statusSlip) statusSlip).outMax := by decide

/-- The low byte of the number of slips in flight, in a status block. -/
def inFlightByte (b : Bytes) : Byte := b.getD 24 0

theorem inFlightByte_sbBytes (s : State) (hn : Nat) (h : Hopper) (q : W32) :
    inFlightByte (sbBytes s hn h q) = BitVec.ofNat 8 (inFlight s hn) := by
  simp [inFlightByte, sbBytes, le]

theorem inFlight_outOfOrder (sl : Slip) (hs : sl.hopper = 0) : inFlight (outOfOrder sl) 0 = 2 := by
  simp [inFlight, outOfOrder, withSlips, stagedSlip, hs]

/-- To count the slip's uses is to write the slip; the block that it reports then counts its old entry too. -/
theorem ctlStatus_outOfOrder :
    ((runOp (outOfOrder statusSlip) 0 0 (isControl 0x01) ctlStatusBlock).slip? 0).map (fun y => inFlightByte y.out) = some 3 := by
  decide

/-- The same two slips in order: the block counts two. -/
theorem ctlStatus_inOrder : ∃ s' y, exec (.ctlStatus 0) (inOrder statusSlip) = .next s' ∧ s'.slip? 0 = some y ∧
    inFlightByte y.out = 2 := by
  have hruns : SlipRuns (inOrder statusSlip) 0 statusSlip 0 0x01 := by unfold SlipRuns; decide
  obtain ⟨s', y, hrun, hy, -, -, hout, -⟩ :=
    ctlStatus_of_ascending (ascending_inOrder _) hruns rfl (withSlips_hopper _) (by decide)
  exact ⟨s', y, hrun, hy, by rw [hout, inFlightByte_sbBytes]; rfl⟩

end Sys2Proof.Machine

open Sys2Proof Sys2Proof.Machine

/-- Refutes O30: two slips are in flight, slip 0 behind slip 1 in the table of slips. STATUS, run on slip 0, reports a block that
counts three, not the block of the state it was given. On a table in order its clause holds (`ctlStatus_of_ascending`). -/
theorem not_controlAndCatalogueSlipsTakeTheirEffect : ¬ Obligations.ControlAndCatalogueSlipsTakeTheirEffect := by
  unfold Obligations.ControlAndCatalogueSlipsTakeTheirEffect
  intro h
  obtain ⟨-, -, hstatus, -⟩ := h (outOfOrder statusSlip) 0 statusSlip rfl statusSlip_admitted
  obtain ⟨s', y, hrun, hy, -, -, hout, -⟩ := hstatus _ statusSlip_runs (withSlips_hopper _) statusSlip_fits
  have hs' : runOp (outOfOrder statusSlip) 0 0 (isControl 0x01) ctlStatusBlock = s' := Host.Outcome.next.inj hrun
  have hthree : some (inFlightByte y.out) = some 3 := by rw [← ctlStatus_outOfOrder, hs', hy]; rfl
  have htwo : inFlightByte y.out = 2 := by
    rw [hout, inFlightByte_sbBytes, show statusSlip.hopper = 0 from rfl, inFlight_outOfOrder _ rfl]; rfl
  rw [htwo] at hthree
  exact absurd hthree (by decide)
end

section
/-!
SUPPORT. The end of a slip (R86): what posting changes, what the end of a slip leaves alone, and that a slip which has executed,
alone in its chain, leaves the machine where the table of slips is in order.
-/

namespace Sys2Proof.Machine

/-! ## Posting (R51, R57, R94) -/

/-- From `s` to `t` messages have been posted: besides them only ports and hoppers have changed, and no hopper's next
`COMPLETION_SEQ`. -/
structure Posts (s t : State) : Prop where
  frame : t = { s with ports := t.ports, out := t.out, hop := { s.hop with hoppers := t.hop.hoppers } }
  cseq : ∀ n, (t.hopper? n).map (·.nextCseq) = (s.hopper? n).map (·.nextCseq)

namespace Posts

theorem refl (s : State) : Posts s s := ⟨rfl, fun _ => rfl⟩

theorem trans {s t u : State} (h : Posts s t) (h' : Posts t u) : Posts s u :=
  ⟨by rw [h'.frame, h.frame], fun n => (h'.cseq n).trans (h.cseq n)⟩

theorem of_ports {s t : State} (h : t = { s with ports := t.ports, out := t.out }) : Posts s t := by
  rw [h]; exact ⟨rfl, fun _ => rfl⟩

theorem foldl {α : Type} {f : State → α → State} (hf : ∀ s a, Posts s (f s a)) (l : List α) (s : State) :
    Posts s (l.foldl f s) := by
  induction l generalizing s with
  | nil => exact refl s
  | cons a l ih => exact (hf s a).trans (ih _)

theorem setHopper {s : State} {n : Nat} {h x : Hopper} (hh : s.hopper? n = some h) (hx : x.nextCseq = h.nextCseq) :
    Posts s (s.setHopper n x) := by
  refine ⟨rfl, fun j => ?_⟩
  by_cases hj : j = n
  · subst hj; simp [hh, hx]
  · rw [State.setHopper_hopper_of_ne s x hj]

end Posts

theorem useHop_posts (s : State) (c port : Nat) (ip : IpAddr) : Posts s (useHop s c port ip) := by
  unfold useHop
  split <;> exact .of_ports rfl

theorem pumpQp_posts (s : State) (q : Nat) : Posts s (pumpQp s q) := by
  unfold pumpQp
  cases s.qp? q with
  | none => exact .refl s
  | some qp =>
    dsimp only
    split
    · exact .refl s
    · split
      · exact .refl s
      · split
        · exact (useHop_posts ..).trans (.of_ports rfl)
        · exact useHop_posts ..

theorem addReq_posts (s : State) (q : Nat) (r : Req) : Posts s (addReq s q r) := by
  unfold addReq
  split
  · exact .refl s
  · exact Posts.trans (.of_ports rfl) (pumpQp_posts ..)

theorem postWrite_posts (s : State) (h : Hopper) (kind : ReqKind) (addr : W64) (data : Bytes) (imm : Option W32) :
    Posts s (postWrite s h kind addr data imm) := by
  unfold postWrite
  cases h.attach with
  | host => exact .of_ports rfl
  | network =>
    cases h.qpn with
    | none => exact .refl s
    | some q => exact addReq_posts ..

theorem acknowledge_posts (s : State) (hn : Nat) (c : W32) : Posts s (s.modHopper hn fun h => { h with lastAckCseq := c }) := by
  refine ⟨rfl, fun j => ?_⟩
  by_cases hj : j = hn
  · subst hj; rw [State.modHopper_hopper_self, Option.map_map]; rfl
  · exact congrArg _ (Tab.get?_mod_of_ne _ _ hj)

theorem postHeld_posts (s : State) (hn : Nat) (e : HeldRs) : Posts s (postHeld s hn e) := by
  unfold postHeld
  split
  · exact .refl s
  · next h _ =>
    extract_lets s1 imm s2 s3
    have h2 : Posts s s2 := (Posts.foldl (fun _ _ => postWrite_posts ..) e.outs s).trans (postWrite_posts ..)
    split
    · split
      · exact (h2.trans (acknowledge_posts ..)).trans (.of_ports rfl)
      · exact h2.trans (acknowledge_posts ..)
    · exact h2

theorem flushHeld_posts (n : Nat) (s : State) (hn : Nat) : Posts s (flushHeld n s hn) := by
  induction n generalizing s with
  | zero => exact .refl s
  | succ n ih =>
    unfold flushHeld
    split
    · exact .refl s
    · next hh =>
      split
      · exact .refl s
      · split
        · refine (Posts.setHopper hh ?_).trans ((postHeld_posts ..).trans (ih _))
          rfl
        · exact .refl s

theorem flushStatus_posts (n : Nat) (s : State) (hn : Nat) : Posts s (flushStatus n s hn) := by
  induction n generalizing s with
  | zero => exact .refl s
  | succ n ih =>
    unfold flushStatus
    split
    · exact .refl s
    · next hh =>
      split
      · exact .refl s
      · refine (Posts.setHopper hh ?_).trans ((postWrite_posts ..).trans (ih _))
        rfl

theorem flushHopper_posts (s : State) (hn : Nat) : Posts s (flushHopper s hn) := by
  unfold flushHopper
  split
  · exact .refl s
  · exact (flushHeld_posts ..).trans (flushStatus_posts ..)

/-! ## What the end of a slip leaves alone -/

/-- The parts of the state that the end of a slip touches at most by counting it: the carrels, entropy, the result registers, the
kilns and the clock. -/
def bystanders (s : State) : Tab Carrel × Entropy × Dres × Tab KilnState × Nat := (s.carrels, s.ent, s.dres, s.kilns, s.now)

/-- From `s` to `t` neither the bystanders nor the hoppers and their slips have changed. -/
def Aside (s t : State) : Prop := bystanders t = bystanders s ∧ t.hop = s.hop

namespace Aside

theorem refl (s : State) : Aside s s := ⟨rfl, rfl⟩

theorem trans {s t u : State} (h : Aside s t) (h' : Aside t u) : Aside s u := ⟨h'.1.trans h.1, h'.2.trans h.2⟩

theorem foldl {α : Type} {f : State → α → State} (hf : ∀ s a, Aside s (f s a)) (l : List α) (s : State) :
    Aside s (l.foldl f s) :=
  ⟨foldl_keeps bystanders (fun s a => (hf s a).1) l s, foldl_keeps State.hop (fun s a => (hf s a).2) l s⟩

end Aside

theorem setUnits_aside (s : State) (e : EngineType) (u : UnitArr) : Aside s (s.setUnits e u) :=
  ⟨by simp [bystanders], State.setUnits_hop ..⟩

theorem idleClusters_notePeak_aside (s : State) (e : EngineType) (cs : List Nat) : Aside s (idleClusters (notePeak s e) e cs) :=
  (setUnits_aside ..).trans (setUnits_aside ..)

theorem correct_aside (s : State) (sl : Slip) (ns : Nat) : Aside s (correct s sl ns) := by
  unfold correct
  split
  · exact .refl s
  · exact (setUnits_aside ..).trans ⟨rfl, rfl⟩

theorem ledgerRelease_aside (s : State) (n : Nat) : Aside s (ledgerRelease s n) := by
  unfold ledgerRelease ledgerWrite
  dsimp only
  split
  · split <;> exact ⟨rfl, rfl⟩
  · exact .refl s

theorem releaseClaim_aside (s : State) (n : Nat) : Aside s (releaseClaim s n) := by
  unfold releaseClaim; dsimp only; split <;> exact ⟨rfl, rfl⟩

/-- What a slip had reserved are uses, a slot and a counter. -/
theorem releaseAll_aside (s : State) (sl : Slip) : Aside s (releaseAll s sl) := by
  unfold releaseAll
  extract_lets s1 s2
  have h1 : Aside s s1 := by
    simp only [s1]
    split
    · exact .refl s
    · exact .foldl (f := releaseUse) (fun _ _ => ⟨rfl, rfl⟩) _ _
  have h2 : Aside s s2 := by
    simp only [s2]
    split
    · exact h1.trans (releaseClaim_aside ..)
    · exact h1
  split
  · exact h2.trans (.trans ⟨rfl, rfl⟩ (ledgerRelease_aside ..))
  · exact h2

section
variable {s : State} {sid : Nat} {sl : Slip}

/-- A slip gives its unit back: of the bystanders, the hoppers and the slips only the slip itself changes (R103, R104). -/
theorem freeUnit_frame (h : s.slip? sid = some sl) : bystanders (freeUnit s sid) = bystanders s ∧
    (freeUnit s sid).hop = if (heldUnits sl).isEmpty then s.hop else (s.setSlip sid { sl with unit := none, gang := [] }).hop := by
  unfold freeUnit
  rw [h]
  dsimp only
  split
  · exact ⟨rfl, rfl⟩
  · generalize hx : (if sl.engine = EngineType.tun then _ else _ : State) = x
    have hs : Aside s x := by
      rw [← hx]
      split
      · exact (setUnits_aside ..).trans (.foldl (f := wipeTun) (fun _ _ => ⟨rfl, rfl⟩) _ _)
      · exact setUnits_aside ..
    refine ⟨(idleClusters_notePeak_aside ..).1.trans hs.1, (idleClusters_notePeak_aside ..).2.trans ?_⟩
    simp only [State.setSlip, hs.2]

theorem freeUnit_hoppers (h : s.slip? sid = some sl) : (freeUnit s sid).hop.hoppers = s.hop.hoppers := by
  rw [(freeUnit_frame h).2]; split <;> rfl

/-- What is written over a slip that has given its unit back is written over the slip. -/
theorem setSlip_freeUnit_hop (h : s.slip? sid = some sl) (x : Slip) :
    ((freeUnit s sid).setSlip sid x).hop = (s.setSlip sid x).hop := by
  simp only [State.setSlip, (freeUnit_frame h).2]
  split
  · rfl
  · simp

/-- Lateness is a matter of the chain's first slip, the carrel's cap and the clock (R111, R113, R394). -/
theorem isLate_congr {t : State} {y : Slip} (hb : bystanders t = bystanders s) (hcs : (headOf t y).cs = (headOf s sl).cs)
    (harr : (headOf t y).arrival = (headOf s sl).arrival) (hc : y.carrel = sl.carrel) : isLate t y = isLate s sl := by
  have hcar : t.carrels = s.carrels := congrArg (·.1) hb
  have hnow : t.now = s.now := congrArg (·.2.2.2.2) hb
  have hbud : budget t y = budget s sl := by
    have hk : t.carrel y.carrel = s.carrel sl.carrel := by rw [State.carrel, hcar, hc]; rfl
    rw [budget, budget, hk, hcs]
  rw [isLate, isLate, hbud, harr, hnow]

/-! ## Completing a slip (R86, R89, R90) -/

/-- From `s` to `t` the slip has completed: it has left the machine, its hopper has given it the next `COMPLETION_SEQ`, its carrel
has counted it, and entropy, the result registers and the kilns are as they were. -/
structure Completed (s t : State) (sid : Nat) (sl : Slip) (h : Hopper) : Prop where
  gone : t.slip? sid = none
  cseq : (t.hopper? sl.hopper).map (·.nextCseq) = some (h.nextCseq + 1)
  counted : (t.carrel sl.carrel).stats.slips = (s.carrel sl.carrel).stats.slips + 1
  ent : t.ent = s.ent
  dres : t.dres = s.dres
  kilns : t.kilns = s.kilns

theorem countRs_frame (s : State) (sl : Slip) (status : Nat) :
    (countRs s sl status).hop = s.hop ∧ (countRs s sl status).ent = s.ent ∧ (countRs s sl status).dres = s.dres ∧
    (countRs s sl status).kilns = s.kilns ∧
    ((countRs s sl status).carrel sl.carrel).stats.slips = (s.carrel sl.carrel).stats.slips + 1 := by
  unfold countRs
  dsimp only
  split <;> exact ⟨rfl, rfl, rfl, rfl, by simp [State.carrel, State.setCarrel]⟩

theorem completeSlip_completes {h : Hopper} {status n : Nat} {outs : List (W32 × W64 × Bytes)} (hsl : s.slip? sid = some sl)
    (hh : s.hopper? sl.hopper = some h) (hst : status ≠ St.deadlineShed) :
    Completed s (completeSlip s sid status n outs false) sid sl h := by
  have hh' : (freeUnit s sid).hopper? sl.hopper = some h := by rw [State.hopper?, freeUnit_hoppers hsl]; exact hh
  have hb := (freeUnit_frame hsl).1
  simp only [bystanders, Prod.mk.injEq] at hb
  obtain ⟨hcar, hent, hdres, hkilns, -⟩ := hb
  unfold completeSlip
  rw [hsl]
  dsimp only
  rw [hh']
  simp only [hst, if_false, Bool.false_eq_true]
  generalize hx : (freeUnit s sid).setHopper sl.hopper _ = x
  obtain ⟨chop, cent, cdres, ckilns, ccount⟩ := countRs_frame x sl status
  have hp := flushHopper_posts ((countRs x sl status).delSlip sid) sl.hopper
  have hseq : (x.hopper? sl.hopper).map (·.nextCseq) = some (h.nextCseq + 1) := by rw [← hx, State.setHopper_hopper_self]; rfl
  have hcar' : x.carrel sl.carrel = s.carrel sl.carrel := by rw [← hx]; simp only [State.carrel, State.setHopper, hcar]
  constructor
  · rw [hp.frame]; exact State.delSlip_slip_self ..
  · rw [hp.cseq, State.delSlip_hopper, State.hopper?, chop]; exact hseq
  · rw [hp.frame, ← hcar']; exact ccount
  · rw [hp.frame]; exact cent.trans (hx ▸ hent)
  · rw [hp.frame]; exact cdres.trans (hx ▸ hdres)
  · rw [hp.frame]; exact ckilns.trans (hx ▸ hkilns)

/-- What came before the completion and left the bystanders alone, or changed other fields of the slip, does not matter. -/
theorem Completed.of_bystanders {u t : State} {y : Slip} {h : Hopper} (hc : Completed u t sid y h)
    (hb : bystanders u = bystanders s) (hhop : y.hopper = sl.hopper) (hcar : y.carrel = sl.carrel) : Completed s t sid sl h := by
  obtain ⟨hgone, hseq, hcount, hent, hdres, hkilns⟩ := hc
  simp only [bystanders, Prod.mk.injEq] at hb
  obtain ⟨hb1, hb2, hb3, hb4, -⟩ := hb
  rw [hhop] at hseq
  rw [State.carrel, State.carrel, hcar, hb1] at hcount
  exact ⟨hgone, hseq, hcount, hent.trans hb2, hdres.trans hb3, hkilns.trans hb4⟩

/-- A chain of one slip that has failed breaks: the slip completes with its own status (R86). -/
theorem settleChain_failed {h : Hopper} (hsl : s.slip? sid = some sl) (hchain : chainOf s sid = [(sid, sl)])
    (hfin : sl.phase = .finished) (hall : sl.chainComplete = true) (hfail : sl.status ≠ St.ok)
    (hshed : sl.status ≠ St.deadlineShed) (hlate : isLate s sl = false)
    (hh : s.hopper? sl.hopper = some h) : Completed s (settleChain s sid) sid sl h := by
  have hbreak : settleChain s sid = breakOne (dropCarries s sid) sid false := by
    simp [settleChain, breakChain, hchain, hfin, hall, hfail, hlate]
  obtain ⟨hb, hhop⟩ := releaseAll_aside (dropCarries s sid) sl
  have hsl' : (releaseAll (dropCarries s sid) sl).slip? sid = some sl := by rw [State.slip?, hhop]; exact hsl
  have hh' : (releaseAll (dropCarries s sid) sl).hopper? sl.hopper = some h := by rw [State.hopper?, hhop]; exact hh
  rw [hbreak, breakOne, show (dropCarries s sid).slip? sid = some sl from hsl]
  simp only [hfail, if_false]
  rw [modSlip_eq hsl']
  refine (completeSlip_completes (State.setSlip_slip_self ..) ?_ hshed).of_bystanders hb ?_ ?_
  · exact hh'
  · rfl
  · rfl

/-- A chain of one slip that has finished with `OK` and changes no slot commits at once (R86). -/
theorem settleChain_passed {h : Hopper} (hsl : s.slip? sid = some sl) (hchain : chainOf s sid = [(sid, sl)])
    (hfin : sl.phase = .finished) (hall : sl.chainComplete = true) (hok : sl.status = St.ok) (hops : sl.slotOps = [])
    (hlate : isLate s sl = false) (hh : s.hopper? sl.hopper = some h) : Completed s (settleChain s sid) sid sl h := by
  have hcommit : settleChain s sid = commitNow s sid := by
    simp [settleChain, commitChain, hchain, hfin, hall, hok, hops]
  have hl : isLate (dropCarries s sid) sl = false := hlate
  have hnow : commitNow s sid = completeAll (dropCarries s sid) (chainOuts [(sid, sl)] h.nextCseq) [(sid, false)] := by
    have hh' : (dropCarries s sid).hopper? sl.hopper = some h := hh
    simp [commitNow, hchain, applySlotOps, hops, hl, hh']
  obtain ⟨hb, hhop⟩ := releaseAll_aside (dropCarries s sid) { sl with usesCounted := true, destClaim := none }
  have hone : completeAll (dropCarries s sid) (chainOuts [(sid, sl)] h.nextCseq) [(sid, false)] =
      completeSlip (releaseAll (dropCarries s sid) { sl with usesCounted := true, destClaim := none }) sid sl.status sl.outLen
        (chainOuts [(sid, sl)] h.nextCseq) false := by
    rw [completeAll, show (dropCarries s sid).slip? sid = some sl from hsl]; rfl
  rw [hcommit, hnow, hone]
  refine (completeSlip_completes (sl := sl) ?_ ?_ ?_).of_bystanders hb rfl rfl
  · rw [State.slip?, hhop]; exact hsl
  · rw [State.hopper?, hhop]; exact hh
  · rw [hok]; decide

/-- Of a table in order, the settling of a chain finds just the finished slip `y` that was written over its only one. -/
theorem settleChain_ended {h : Hopper} {y : Slip} {ns : Nat} (hs : Tab.Ascending s.hop.slips) (hsl : s.slip? sid = some sl)
    (hchain : chainOf s sid = [(sid, sl)]) (hlate : isLate s sl = false) (hh : s.hopper? sl.hopper = some h)
    (hsame : y.head = sl.head ∧ y.cs = sl.cs ∧ y.arrival = sl.arrival ∧ y.hopper = sl.hopper ∧ y.carrel = sl.carrel)
    (hfin : y.phase = .finished) (hall : y.chainComplete = true) (hshed : y.status ≠ St.deadlineShed)
    (hops : y.slotOps = []) :
    Completed s (settleChain ((freeUnit (correct s sl ns) sid).setSlip sid y) sl.head) sid sl h := by
  obtain ⟨yhead, ycs, yarr, yhop, ycar⟩ := hsame
  have hhead : sl.head = sid := by
    have hm : (sid, sl) ∈ chainOf s sid := hchain ▸ List.mem_singleton_self _
    simpa [chainOf] using (List.mem_filter.mp hm).2
  generalize hu : (freeUnit (correct s sl ns) sid).setSlip sid y = u
  obtain ⟨cb, chop⟩ := correct_aside s sl ns
  have hsl' : (correct s sl ns).slip? sid = some sl := by rw [State.slip?, chop]; exact hsl
  have hhop : u.hop = (s.setSlip sid y).hop := by
    rw [← hu, setSlip_freeUnit_hop hsl']; simp only [State.setSlip, chop]
  have hb : bystanders u = bystanders s := hu ▸ (freeUnit_frame hsl').1.trans cb
  have huslip : u.slip? sid = some y := hu ▸ State.setSlip_slip_self ..
  have huchain : chainOf u sid = [(sid, y)] := by
    rw [chainOf, hhop]
    exact hs.filter_set_singleton hsl hchain (by simp [yhead, hhead])
  have hulate : isLate u y = false := by
    have h1 : headOf u y = y := by rw [headOf, yhead, hhead, huslip]; rfl
    have h2 : headOf s sl = sl := by rw [headOf, hhead, hsl]; rfl
    rw [isLate_congr hb (by rw [h1, h2, ycs]) (by rw [h1, h2, yarr]) ycar, hlate]
  have huh : u.hopper? y.hopper = some h := by rw [State.hopper?, hhop, yhop]; exact hh
  rw [hhead]
  by_cases hok : y.status = St.ok
  · exact (settleChain_passed huslip huchain hfin hall hok hops hulate huh).of_bystanders hb yhop ycar
  · exact (settleChain_failed huslip huchain hfin hall hok hshed hulate huh).of_bystanders hb yhop ycar

/-- Where the slips' numbers ascend, a slip that has executed, alone in its chain and not late, completes (R86, R89). -/
theorem executionComplete_of_ascending {h : Hopper} (hs : Tab.Ascending s.hop.slips) (hsl : s.slip? sid = some sl)
    (hphase : sl.phase = .executed) (hchain : chainOf s sid = [(sid, sl)]) (hall : sl.chainComplete = true)
    (hops : sl.slotOps = []) (hsecret : sl.secret = none) (hwrites : sl.writesLeft = 0) (hlate : isLate s sl = false)
    (hshed : sl.status ≠ St.deadlineShed) (hh : s.hopper? sl.hopper = some h) (ns : Nat) :
    ∃ t, exec (.executionComplete sid ns) s = .next t ∧ Completed s t sid sl h := by
  have hsl' : (correct s sl ns).slip? sid = some sl := by rw [State.slip?, (correct_aside ..).2]; exact hsl
  have hrun : exec (.executionComplete sid ns) s = .next (if sl.status = St.ok then passSlip (correct s sl ns) sid
      else failSlip (correct s sl ns) sid sl.status sl.outLen sl.inline) := by
    change execExecutionComplete sid ns s = _
    simp [execExecutionComplete, hsl, hphase]
  refine ⟨_, hrun, ?_⟩
  split
  · rw [passSlip, hsl']
    simp only [hsecret]
    exact settleChain_ended hs hsl hchain hlate hh ⟨rfl, rfl, rfl, rfl, rfl⟩ rfl hall hshed hops
  · rw [failSlip, hsl']
    simp only [hwrites]
    exact settleChain_ended hs hsl hchain hlate hh ⟨rfl, rfl, rfl, rfl, rfl⟩ rfl hall hshed rfl

end

/-- A slip that has executed with status `OK`, alone in its chain. -/
def executedSlip : Slip := { hopper := 0, carrel := 0, cs := {}, head := 0, phase := .executed }

/-- Marked finished, it leaves its old entry, which still executes, in the chain: the chain is not settled. -/
theorem passSlip_outOfOrder : ((passSlip (outOfOrder executedSlip) 0).slip? 0).isSome = true := rfl

/-- The same two slips in order: the slip completes. -/
theorem executionComplete_inOrder (ns : Nat) : ∃ t, exec (.executionComplete 0 ns) (inOrder executedSlip) = .next t ∧
    Completed (inOrder executedSlip) t 0 executedSlip { carrel := 0, index := 0, attach := .host } :=
  executionComplete_of_ascending (s := inOrder executedSlip) (sl := executedSlip) (ascending_inOrder _) rfl rfl rfl rfl rfl rfl rfl
    (by decide) (by decide) (withSlips_hopper _) ns

end Sys2Proof.Machine

open Sys2Proof Sys2Proof.Machine

/-- Refutes O34: slip 0 has executed with status `OK`, alone in its chain, and stands behind slip 1 in the table of slips.
`EXECUTION_COMPLETE` marks it finished, finds its old entry still executing, and leaves it in the machine. On a table in order its
clause holds (`executionComplete_of_ascending`). -/
theorem not_runningSlipsEndOrAreSuspended : ¬ Obligations.RunningSlipsEndOrAreSuspended := by
  unfold Obligations.RunningSlipsEndOrAreSuspended
  intro h
  obtain ⟨hcomplete, -⟩ := h (outOfOrder executedSlip) 0 0 executedSlip rfl
  obtain ⟨t, -, hrun, hgone, -⟩ := hcomplete _ rfl rfl rfl rfl rfl rfl rfl (by decide) (by decide) (withSlips_hopper _)
  have ht : passSlip (outOfOrder executedSlip) 0 = t := Host.Outcome.next.inj hrun
  have hkept := passSlip_outOfOrder
  rw [ht, hgone] at hkept
  exact Bool.false_ne_true hkept
end

section
/-!
SUPPORT. The vector unit (R118, R119, R121, R138): what a register write leaves in elements, bits and tags, and what a vector
operation answers, said once for each shape of result.
-/

namespace Sys2Proof.Machine

/-! ## Widths -/

theorem contains_widthOf (c : BitVec 2) : [8, 16, 32, 64].contains (widthOf c) = true := by revert c; decide

theorem widthOf_pos (c : BitVec 2) : 0 < widthOf c := Nat.two_pow_pos _

theorem widthOf_mul_vlMax (c : BitVec 2) : widthOf c * vlMax (widthOf c) = 8192 := by revert c; decide

/-- The active elements fill the register exactly when all VLMAX are active. -/
theorem widthOf_mul_lt_iff (c : BitVec 2) (m : Nat) : widthOf c * m < 8192 ↔ m < vlMax (widthOf c) := by
  rw [← widthOf_mul_vlMax c, Nat.mul_lt_mul_left (widthOf_pos c)]

@[simp] theorem vopIn_w (w : Microword) (x : Tun) : (vopIn w x).w = widthOf w.vew := rfl
@[simp] theorem vopIn_n (w : Microword) (x : Tun) : (vopIn w x).n = effCount x (widthOf w.vew) := rfl
@[simp] theorem vopIn_a (w : Microword) (x : Tun) : (vopIn w x).a = vreg x w.vsrcA.toNat := rfl
@[simp] theorem vopIn_b (w : Microword) (x : Tun) : (vopIn w x).b = vreg x w.vsrcB.toNat := rfl
@[simp] theorem vopIn_word (w : Microword) (x : Tun) : (vopIn w x).word = w := rfl
@[simp] theorem vopIn_q (w : Microword) (x : Tun) : (vopIn w x).q = modulusOf x w := rfl

theorem velems_length (n m r : Nat) : (velems n m r).length = m := by simp [velems]

theorem velems_getElem {n m r j : Nat} (h : j < (velems n m r).length) : (velems n m r)[j] = velem n r j := by simp [velems]

theorem ofNat_mod_two_pow (n v : Nat) : BitVec.ofNat n (v % 2 ^ n) = BitVec.ofNat n v :=
  BitVec.eq_of_toNat_eq (by rw [BitVec.toNat_ofNat, BitVec.toNat_ofNat, Nat.mod_mod])

theorem ofNat_velem_vpack {n : Nat} {es : List Nat} {j : Nat} (hj : j < es.length) :
    BitVec.ofNat n (velem n (vpack n es) j) = BitVec.ofNat n es[j] := by
  rw [velem_vpack, List.getD_eq_getElem _ _ hj, ofNat_mod_two_pow]

/-! ## What a register write leaves -/

theorem setV_none (x : Tun) (d v : Nat) (tag : Bool) (kind : ShareKind) : setV x d 0 v tag kind = x := rfl

/-- Bits of the value above those written do not matter. -/
theorem setV_mod {k : Nat} (hk : k ≤ 8192) (x : Tun) (d v : Nat) (tag : Bool) (kind : ShareKind) :
    setV x d k (v % 2 ^ k) tag kind = setV x d k v tag kind := by
  unfold setV
  by_cases hp : k < 8192
  · simp [hp]
  · obtain rfl : k = 8192 := by omega
    simp only [hp, decide_false, Bool.false_eq_true, if_false, ofNat_mod_two_pow]

theorem element_setV_le (x : Tun) (d w m v : Nat) (tag : Bool) (kind : ShareKind) (hm : w * m ≤ 8192) (j : Nat) :
    element w (setV x d (w * m) v tag kind) d j =
      if j < m then BitVec.ofNat w (velem w (v % 2 ^ (w * m)) j) else element w x d j := by
  rw [← setV_mod hm, element_setV x d w m _ tag kind hm (Nat.mod_lt _ (Nat.two_pow_pos _))]

theorem getLsbD_setV {k : Nat} (hk : k ≤ 8192) (x : Tun) (d v : Nat) (tag : Bool) (kind : ShareKind) (i : Nat) :
    (Tab.getD (setV x d k v tag kind).v d 0).getLsbD i = if i < k then v.testBit i else (Tab.getD x.v d 0).getLsbD i := by
  have hs := velem_splice 1 k (v % 2 ^ k) (vreg x d) i
  rw [Nat.one_mul] at hs
  rw [← setV_mod hk, BitVec.getLsbD, BitVec.getLsbD]
  change (vreg _ d).testBit i = _
  rw [vreg_setV x d k _ tag kind hk (Nat.mod_lt _ (Nat.two_pow_pos _))]
  simp only [velem, Nat.one_mul, Nat.pow_one] at hs
  rw [Nat.testBit_eq_decide_div_mod_eq, hs]
  split
  · next h => rw [← Nat.testBit_eq_decide_div_mod_eq, Nat.testBit_mod_two_pow, decide_eq_true h, Bool.true_and]
  · rw [← Nat.testBit_eq_decide_div_mod_eq]; rfl

theorem vTag_setV {k : Nat} (hk : k ≠ 0) (x : Tun) (d v : Nat) (tag : Bool) (kind : ShareKind) :
    vTag (setV x d k v tag kind) d = (tag || (decide (k < 8192) && vTag x d)) := by
  simp only [setV, if_neg hk, vTag, vTag_setIn, if_true]

theorem vKind_setV {k : Nat} (hk : k ≠ 0) (x : Tun) (d v : Nat) (kind : ShareKind) :
    vKind (setV x d k v true kind) d = kind := by
  simp only [setV, if_neg hk, vKind, if_true, Tab.getD_set_self]

theorem sTag_setS_of_ne {r d : Nat} (h : r ≠ d) (x : Tun) (v : Nat) (tag : Bool) : sTag (setS x d v tag) r = sTag x r := by
  unfold setS
  split
  · rfl
  · simp only [sTag, vTag_setIn, if_neg h]

theorem scalar_setS_of_ne {r d : Nat} (h : r ≠ d) (x : Tun) (v : Nat) (tag : Bool) : scalar (setS x d v tag) r = scalar x r := by
  unfold setS
  split
  · rfl
  · simp only [scalar, Tab.getD_set_of_ne _ _ _ h]

theorem scalar_setS_self (x : Tun) (d v : Nat) (tag : Bool) :
    scalar (setS x d v tag) d = if d = 0 then 0 else BitVec.ofNat 64 v := by
  unfold setS
  split
  · next h => simp [scalar, h]
  · next h => simp [scalar, h]

theorem sTag_setS_self (x : Tun) (d v : Nat) (tag : Bool) : sTag (setS x d v tag) d = (decide (d ≠ 0) && tag) := by
  unfold setS
  split
  · next h => simp [sTag, h]
  · simp only [sTag, vTag_setIn, if_true]

/-- A write of a scalar register keeps everything but that register and its tag. -/
theorem setS_eq (x : Tun) (d v : Nat) (tag : Bool) :
    setS x d v tag = { x with s := (setS x d v tag).s, stag := (setS x d v tag).stag } := by
  unfold setS; split <;> rfl

theorem setS_v (x : Tun) (d v : Nat) (tag : Bool) : (setS x d v tag).v = x.v := by
  unfold setS; split <;> rfl

theorem setV_s (x : Tun) (d k v : Nat) (tag : Bool) (kind : ShareKind) : (setV x d k v tag kind).s = x.s := by
  unfold setV; split <;> rfl

theorem setS_only (w : Microword) (x : Tun) (d v : Nat) (tag : Bool) : OnlyScalar x (setS (atWord w x) d v tag) w.vew d :=
  ⟨setS_eq _ _ _ _, fun _ hr => ⟨scalar_setS_of_ne hr _ _ _, sTag_setS_of_ne hr _ _ _⟩⟩

/-! ## What a vector operation answers -/

/-- The operation of the code is `o`, and none of R121's, R122's and R139's stops stands against it. -/
structure VopRuns (x : Tun) (w : Microword) (code : Nat) (o : VOp) : Prop where
  op : vopOf code = some o
  width : o.widths.contains (widthOf w.vew) = true
  pub : (o.publicB && vTag x w.vsrcB.toNat) = false
  good : o.bad (vopIn w x) = false

theorem VopRuns.code_ne_zero {x : Tun} {w : Microword} {code : Nat} {o : VOp} (h : VopRuns x w code o) : code ≠ 0 := by
  rintro rfl
  exact Option.some_ne_none o (h.op.symm.trans rfl)

/-- Share kind of the result (R136). -/
def VOp.kindAt (o : VOp) (w : Microword) (x : Tun) : ShareKind := kindOf (o.outKind.getD o.kind) w (vKind x w.vsrcA.toNat)

/-- Elements of the sources and of the old destination, as the statements read them. -/
abbrev elemA (x : Tun) (w : Microword) (j : Nat) : BitVec (widthOf w.vew) := element (widthOf w.vew) x w.vsrcA.toNat j
abbrev elemB (x : Tun) (w : Microword) (j : Nat) : BitVec (widthOf w.vew) := element (widthOf w.vew) x w.vsrcB.toNat j
abbrev elemD (x : Tun) (w : Microword) (j : Nat) : BitVec (widthOf w.vew) := element (widthOf w.vew) x w.vdst.toNat j

/-- The tun after an operation has written its results. -/
def VOp.writes (o : VOp) (w : Microword) (x : Tun) (r : VOut) : Tun :=
  let x1 := match r.vec with
    | some (k, v) => setV (atWord w x) w.vdst.toNat k v (vopTag o w x) (o.kindAt w x)
    | none => atWord w x
  let x2 := match r.scal with
    | some v => setS x1 w.sd.toNat v (vopTag o w x)
    | none => x1
  if r.clamped && !vopTag o w x then { x2 with qsat := true } else x2

section
variable {s : State} {t code : Nat} {w : Microword} {o : VOp}

theorem vop_idle (hl : tunLive (s.tun t) = true) (h : VopRuns (s.tun t) w code o) (hn : o.whole = false)
    (hz : effCount (s.tun t) (widthOf w.vew) = 0) : actOn t w (vectorAct code) s = s.setTun t (atWord w (s.tun t)) := by
  have hi : ((vopIn w (atWord w (s.tun t))).n == 0) = true := by simpa using hz
  rw [vectorAct_ok hl h.code_ne_zero h.op h.width h.pub h.good]
  simp only [hn, hi, Bool.not_false, Bool.and_self, if_true]

theorem vop_active (hl : tunLive (s.tun t) = true) (h : VopRuns (s.tun t) w code o)
    (ha : o.whole = false → 0 < effCount (s.tun t) (widthOf w.vew)) :
    actOn t w (vectorAct code) s = s.setTun t (o.writes w (s.tun t) (o.run (vopIn w (s.tun t)))) := by
  have hi : (!o.whole && (vopIn w (atWord w (s.tun t))).n == 0) = false := by
    cases hw : o.whole with
    | true => rfl
    | false => exact beq_false_of_ne (ha hw).ne'
  rw [vectorAct_ok hl h.code_ne_zero h.op h.width h.pub h.good]
  simp only [hi, Bool.false_eq_true, if_false]
  rfl

/-- An operation with a vector result only. A VL-governed one with no active element must give no bits. -/
theorem vop_writesVector {k v : Nat} (hl : tunLive (s.tun t) = true) (h : VopRuns (s.tun t) w code o)
    (hr : o.run (vopIn w (s.tun t)) = { vec := some (k, v) })
    (hz : o.whole = false → effCount (s.tun t) (widthOf w.vew) = 0 → k = 0) :
    actOn t w (vectorAct code) s =
      s.setTun t (setV (atWord w (s.tun t)) w.vdst.toNat k v (vopTag o w (s.tun t)) (o.kindAt w (s.tun t))) := by
  by_cases hi : o.whole = false ∧ effCount (s.tun t) (widthOf w.vew) = 0
  · rw [vop_idle hl h hi.1 hi.2, hz hi.1 hi.2, setV_none]
  · rw [vop_active hl h fun hn => Nat.pos_of_ne_zero fun hm => hi ⟨hn, hm⟩, hr]
    rfl

theorem vop_writesScalar {v : Nat} (hl : tunLive (s.tun t) = true) (h : VopRuns (s.tun t) w code o)
    (hm : 0 < effCount (s.tun t) (widthOf w.vew)) (hr : o.run (vopIn w (s.tun t)) = { scal := some v }) :
    actOn t w (vectorAct code) s = s.setTun t (setS (atWord w (s.tun t)) w.sd.toNat v (vopTag o w (s.tun t))) := by
  rw [vop_active hl h fun _ => hm, hr]
  rfl

/-- An operation with a vector and a scalar result. -/
theorem vop_writesBoth {k v c : Nat} (hl : tunLive (s.tun t) = true) (h : VopRuns (s.tun t) w code o)
    (hm : 0 < effCount (s.tun t) (widthOf w.vew)) (hr : o.run (vopIn w (s.tun t)) = { vec := some (k, v), scal := some c }) :
    actOn t w (vectorAct code) s = s.setTun t (setS (setV (atWord w (s.tun t)) w.vdst.toNat k v (vopTag o w (s.tun t))
      (o.kindAt w (s.tun t))) w.sd.toNat c (vopTag o w (s.tun t))) := by
  rw [vop_active hl h fun _ => hm, hr]
  rfl

/-- A list of elements of width `n` as the result: the register's low elements are those of the list. -/
theorem vop_writesElements {n : Nat} {es : List Nat} {f : Nat → BitVec n} (hl : tunLive (s.tun t) = true)
    (h : VopRuns (s.tun t) w code o) (hr : o.run (vopIn w (s.tun t)) = vout n es)
    (hz : o.whole = false → effCount (s.tun t) (widthOf w.vew) = 0 → es.length = 0) (hfit : n * es.length ≤ 8192)
    (hf : ∀ j, (hj : j < es.length) → BitVec.ofNat n es[j] = f j) :
    AnswersTun s t (.next (actOn t w (vectorAct code) s)) fun y =>
      y = setV (atWord w (s.tun t)) w.vdst.toNat (n * es.length) (vpack n es) (vopTag o w (s.tun t)) (o.kindAt w (s.tun t)) ∧
      OnlyVector (s.tun t) y w.vew w.vdst.toNat ∧ Elements n (s.tun t) y w.vdst.toNat es.length f := by
  refine ⟨_, congrArg _ (vop_writesVector hl h hr fun hn hm => by rw [hz hn hm, Nat.mul_zero]), rfl,
    setV_only (atWord w (s.tun t)) _ _ _ _ _, fun j => ?_⟩
  rw [element_setV _ _ _ _ _ _ _ hfit (vpack_lt n es)]
  split
  · next hj => rw [ofNat_velem_vpack hj, hf j hj]
  · rfl

end

end Sys2Proof.Machine
end

section
/-!
SUPPORT. Vector operations that give one element for each active element (R119, R121), and the element arithmetic of the integer,
logic and shift groups.
-/

namespace Sys2Proof.Machine

/-! ## One result element for each active element -/

/-- The operation is governed by VL and gives element `f j` for each active element `j`. -/
def VOp.Gives (o : VOp) (w : Microword) (x : Tun) (f : Nat → BitVec (widthOf w.vew)) : Prop :=
  o.whole = false ∧ ∃ es : List Nat, o.run (vopIn w x) = vout (widthOf w.vew) es ∧ es.length = effCount x (widthOf w.vew) ∧
    ∀ j, (hj : j < es.length) → BitVec.ofNat (widthOf w.vew) es[j] = f j

section
variable {s : State} {t code : Nat} {w : Microword} {o : VOp} {f : Nat → BitVec (widthOf w.vew)}

/-- An operation that gives its elements answers them, with the tag and kind of R138 and R136. -/
theorem VOp.Gives.answers (hg : o.Gives w (s.tun t) f) (hl : tunLive (s.tun t) = true) (h : VopRuns (s.tun t) w code o) :
    AnswersTun s t (.next (actOn t w (vectorAct code) s)) fun y =>
      (∃ v, y = setV (atWord w (s.tun t)) w.vdst.toNat (widthOf w.vew * effCount (s.tun t) (widthOf w.vew)) v
        (vopTag o w (s.tun t)) (o.kindAt w (s.tun t))) ∧
      OnlyVector (s.tun t) y w.vew w.vdst.toNat ∧
      Elements (widthOf w.vew) (s.tun t) y w.vdst.toNat (effCount (s.tun t) (widthOf w.vew)) f := by
  obtain ⟨-, es, hr, hlen, hf⟩ := hg
  obtain ⟨y, hy, hset, honly, hel⟩ := vop_writesElements hl h hr (fun _ hz => hlen.trans hz)
    (hlen ▸ widthOf_mul_effCount _ _) hf
  exact ⟨y, hy, ⟨_, hlen ▸ hset⟩, honly, hlen ▸ hel⟩

theorem VOp.Gives.elementWise (hg : o.Gives w (s.tun t) f) (hl : tunLive (s.tun t) = true) (h : VopRuns (s.tun t) w code o) :
    ElementWise s t w f (.next (actOn t w (vectorAct code) s)) := by
  obtain ⟨y, hy, -, honly, hel⟩ := hg.answers hl h
  exact ⟨y, hy, honly, hel⟩

end

section
variable {w : Microword} {x : Tun} {o : VOp}

theorem gives_map1 {f : VIn → Nat → Nat} (g : BitVec (widthOf w.vew) → BitVec (widthOf w.vew)) (hr : o.run = map1 f)
    (hn : o.whole = false) (hf : ∀ a, BitVec.ofNat _ (f (vopIn w x) a.toNat) = g a) :
    o.Gives w x fun j => g (elemA x w j) := by
  refine ⟨hn, _, by rw [hr]; rfl, by simp [velems], fun j hj => ?_⟩
  simp only [List.getElem_map, velems, List.getElem_range, ← hf, element_toNat]
  rfl

theorem gives_map2 {f : VIn → Nat → Nat → Nat} (g : BitVec (widthOf w.vew) → BitVec (widthOf w.vew) → BitVec (widthOf w.vew))
    (hr : o.run = map2 f) (hn : o.whole = false) (hf : ∀ a b, BitVec.ofNat _ (f (vopIn w x) a.toNat b.toNat) = g a b) :
    o.Gives w x fun j => g (elemA x w j) (elemB x w j) := by
  refine ⟨hn, _, by rw [hr]; rfl, by simp [velems], fun j hj => ?_⟩
  simp only [List.getElem_zipWith, velems, List.getElem_map, List.getElem_range, ← hf, element_toNat]
  rfl

/-- One value in every element. -/
theorem gives_replicate {v : Nat} {e : BitVec (widthOf w.vew)} (hn : o.whole = false)
    (hr : o.run (vopIn w x) = vout (widthOf w.vew) (List.replicate (effCount x (widthOf w.vew)) v))
    (hv : BitVec.ofNat _ v = e) : o.Gives w x fun _ => e :=
  ⟨hn, _, hr, List.length_replicate, fun j hj => by rw [List.getElem_replicate, hv]⟩

/-- Each element computed from its index. -/
theorem gives_range {e : Nat → Nat} {f : Nat → BitVec (widthOf w.vew)} (hn : o.whole = false)
    (hr : o.run (vopIn w x) = vout (widthOf w.vew) ((List.range (effCount x (widthOf w.vew))).map e))
    (hf : ∀ j, BitVec.ofNat _ (e j) = f j) : o.Gives w x f :=
  ⟨hn, _, hr, by simp, fun j hj => by rw [List.getElem_map, List.getElem_range, hf]⟩

end

/-! ## The groups' table rows -/

section
variable {s : State} {t code : Nat} {w : Microword} {f : VIn → Nat → Nat → Nat} {f1 : VIn → Nat → Nat} {cls : CostCls}
  (g : BitVec (widthOf w.vew) → BitVec (widthOf w.vew) → BitVec (widthOf w.vew))
  (g1 : BitVec (widthOf w.vew) → BitVec (widthOf w.vew))

theorem arith2_elementWise (hl : tunLive (s.tun t) = true) (ho : vopOf code = some (arith2 f cls))
    (hf : ∀ a b, BitVec.ofNat _ (f (vopIn w (s.tun t)) a.toNat b.toNat) = g a b) :
    ElementWise s t w (fun j => g (elemA (s.tun t) w j) (elemB (s.tun t) w j)) (.next (actOn t w (vectorAct code) s)) :=
  (gives_map2 g rfl rfl hf).elementWise hl ⟨ho, contains_widthOf _, rfl, rfl⟩

theorem bool2_elementWise (hl : tunLive (s.tun t) = true) (ho : vopOf code = some (bool2 f cls))
    (hf : ∀ a b, BitVec.ofNat _ (f (vopIn w (s.tun t)) a.toNat b.toNat) = g a b) :
    ElementWise s t w (fun j => g (elemA (s.tun t) w j) (elemB (s.tun t) w j)) (.next (actOn t w (vectorAct code) s)) :=
  (gives_map2 g rfl rfl hf).elementWise hl ⟨ho, contains_widthOf _, rfl, rfl⟩

theorem bool1_elementWise (hl : tunLive (s.tun t) = true) (ho : vopOf code = some (bool1 f1 cls))
    (hf : ∀ a, BitVec.ofNat _ (f1 (vopIn w (s.tun t)) a.toNat) = g1 a) :
    ElementWise s t w (fun j => g1 (elemA (s.tun t) w j)) (.next (actOn t w (vectorAct code) s)) :=
  (gives_map1 g1 rfl rfl hf).elementWise hl ⟨ho, contains_widthOf _, rfl, rfl⟩

end

/-! ## Elements as integers -/

section
variable {n : Nat}

theorem ofNat_of_toNat {e : BitVec n} {v : Nat} (h : e.toNat = v) : BitVec.ofNat n v = e := by
  rw [← h, BitVec.ofNat_toNat, BitVec.setWidth_eq]

theorem wrap_eq (z : Int) : wrap n z = (BitVec.ofInt n z).toNat := by
  rw [BitVec.toNat_ofInt, wrap]
  push_cast
  rfl

theorem ofNat_wrap (z : Int) : BitVec.ofNat n (wrap n z) = BitVec.ofInt n z := ofNat_of_toNat (wrap_eq z).symm

theorem sgn_toNat (a : BitVec n) : sgn n a.toNat = a.toInt := by
  rw [sgn, BitVec.toInt_eq_toNat_cond]
  have hiff : a.toNat < 2 ^ (n - 1) ↔ 2 * a.toNat < 2 ^ n := by
    cases n with
    | zero => simp [BitVec.of_length_zero]
    | succ n => rw [Nat.add_sub_cancel, Nat.pow_succ]; omega
  simp only [hiff, Nat.cast_pow, Nat.cast_ofNat]

theorem min_toNat (a b : BitVec n) : min a.toNat b.toNat = (if a.ult b then a else b).toNat := by
  simp only [BitVec.ult_eq_decide, decide_eq_true_eq]
  split <;> omega

theorem max_toNat (a b : BitVec n) : max a.toNat b.toNat = (if a.ult b then b else a).toNat := by
  simp only [BitVec.ult_eq_decide, decide_eq_true_eq]
  split <;> omega

/-- A choice between two elements by their signed order. -/
theorem ofNat_ite_sgn (a b c d : BitVec n) :
    BitVec.ofNat n (if sgn n a.toNat < sgn n b.toNat then c.toNat else d.toNat) = if a.slt b then c else d := by
  simp only [sgn_toNat, BitVec.slt_eq_decide, decide_eq_true_eq]
  split_ifs <;> simp

theorem ofInt_toNat (a : BitVec n) : BitVec.ofInt n a.toNat = a := by rw [BitVec.ofInt_natCast, BitVec.ofNat_toNat, BitVec.setWidth_eq]

theorem ofInt_toNat_sub (a b : BitVec n) : BitVec.ofInt n ((a.toNat : Int) - b.toNat) = a - b := by
  rw [sub_eq_add_neg, BitVec.ofInt_add, BitVec.ofInt_neg, ofInt_toNat, ofInt_toNat, BitVec.sub_eq_add_neg]

theorem ofInt_neg_toNat (a : BitVec n) : BitVec.ofInt n (-(a.toNat : Int)) = -a := by rw [BitVec.ofInt_neg, ofInt_toNat]

end

end Sys2Proof.Machine

open Sys2Proof Sys2Proof.Machine

/-- Settles O1, one row of the group's table at a time: the element arithmetic of the row, and the shape of its result. -/
theorem integerVectorOpsWriteTheirResults : Obligations.IntegerVectorOpsWriteTheirResults := by
  intro s t w hl
  refine ⟨arith2_elementWise (· + ·) hl rfl fun a b => ?add, arith2_elementWise (· - ·) hl rfl fun a b => ?sub,
    arith2_elementWise (· * ·) hl rfl fun a b => ?mull,
    bool2_elementWise (fun a b => BitVec.ofNat _ (a.toNat * b.toNat / 2 ^ widthOf w.vew)) hl rfl fun a b => rfl,
    bool2_elementWise (fun a b => BitVec.ofInt _ (a.toInt * b.toInt / 2 ^ widthOf w.vew)) hl rfl fun a b => ?mulhs,
    bool2_elementWise (fun a b => if a.ult b then a else b) hl rfl fun a b => ofNat_of_toNat (min_toNat a b).symm,
    bool2_elementWise (fun a b => if a.ult b then b else a) hl rfl fun a b => ofNat_of_toNat (max_toNat a b).symm,
    bool2_elementWise (fun a b => if b.slt a then b else a) hl rfl fun a b => ofNat_ite_sgn b a b a,
    bool2_elementWise (fun a b => if a.slt b then b else a) hl rfl fun a b => ofNat_ite_sgn a b b a,
    (gives_map1 (- ·) rfl rfl fun a => ?neg).elementWise hl ⟨rfl, contains_widthOf _, rfl, rfl⟩,
    (gives_map1 id rfl rfl fun a => ?mov).elementWise hl ⟨rfl, contains_widthOf _, rfl, rfl⟩,
    (gives_replicate rfl rfl (BitVec.ofNat_toNat _ _)).elementWise hl ⟨rfl, contains_widthOf _, rfl, rfl⟩,
    (gives_replicate rfl rfl ?bcasts).elementWise hl ⟨rfl, contains_widthOf _, rfl, rfl⟩,
    _, congrArg _ (actOn_ok hl rfl), rfl⟩
  case add => simp [BitVec.ofNat_add]
  case sub => simp only [vopIn_w, ofNat_wrap, ofInt_toNat_sub]
  case mull => simp [BitVec.ofNat_mul]
  case mulhs => simp only [vopIn_w, ofNat_wrap, sgn_toNat]
  case neg => simp only [vopIn_w, ofNat_wrap, ofInt_neg_toNat]
  case mov => simp
  case bcasts => rw [← BitVec.ofNat_toNat, scalar_toNat]; rfl
end

section
/-!
SUPPORT. Byte strings and elements bit by bit (R3, R118), and the element arithmetic of the logic and shift group.
-/

namespace Sys2Proof.Machine

/-! ## Byte strings -/

theorem length_le (n v : Nat) : (le n v).length = n := by
  induction n generalizing v with
  | zero => rfl
  | succ n ih => rw [le, List.length_cons, ih]

theorem getElem_le {n v i : Nat} (h : i < (le n v).length) : (le n v)[i] = BitVec.ofNat 8 (v / 2 ^ (8 * i)) := by
  induction n generalizing v i with
  | zero => exact absurd h (Nat.not_lt_zero i)
  | succ n ih =>
    cases i with
    | zero => simp [le]
    | succ i =>
      simp only [le, List.getElem_cons_succ, ih]
      rw [Nat.div_div_eq_div_mul, Nat.mul_succ, Nat.pow_add, Nat.mul_comm (2 ^ (8 * i))]

theorem testBit_unle (l : Bytes) (i : Nat) : (unle l).testBit i = (l.getD (i / 8) 0).getLsbD (i % 8) := by
  induction l generalizing i with
  | nil => simp [unle]
  | cons b l ih =>
    rw [unle, Nat.add_comm, show 256 = 2 ^ 8 from rfl, Nat.testBit_two_pow_mul_add _ b.isLt]
    by_cases h : i < 8
    · simp [h, Nat.div_eq_of_lt h, Nat.mod_eq_of_lt h, BitVec.getLsbD]
    · obtain ⟨k, rfl⟩ : ∃ k, i = k + 8 := ⟨i - 8, by omega⟩
      simp [ih]

theorem unle_le (n v : Nat) : unle (le n v) = v % 2 ^ (8 * n) := by
  refine Nat.eq_of_testBit_eq fun i => ?_
  rw [testBit_unle, Nat.testBit_mod_two_pow]
  by_cases h : i < 8 * n
  · rw [List.getD_eq_getElem _ _ (by rw [length_le]; omega), getElem_le, BitVec.getLsbD_ofNat, Nat.testBit_div_two_pow,
      Nat.mod_add_div, decide_eq_true h, decide_eq_true (Nat.mod_lt i (by decide))]
  · rw [List.getD_eq_default _ _ (by rw [length_le]; omega), decide_eq_false h]
    simp

/-! ## Elements bit by bit -/

section
variable {n : Nat}

/-- A sum of bits weighted in falling order, bit by bit. -/
theorem testBit_sum_falling (n : Nat) (b : Nat → Nat) (hb : ∀ i, b i < 2) (j : Nat) :
    (((List.range n).map fun i => b i * 2 ^ (n - 1 - i)).sum).testBit j = (decide (j < n) && decide (b (n - 1 - j) = 1)) := by
  induction n generalizing j with
  | zero => simp
  | succ n ih =>
    have hdouble : ((List.range n).map fun i => b i * 2 ^ (n + 1 - 1 - i)) =
        ((List.range n).map fun i => 2 * (b i * 2 ^ (n - 1 - i))) := by
      refine List.map_congr_left fun i hi => ?_
      rw [show n + 1 - 1 - i = (n - 1 - i) + 1 by have := List.mem_range.mp hi; omega, Nat.pow_succ]
      ring
    rw [List.range_succ, List.map_append, List.sum_append, hdouble, List.sum_map_mul_left]
    simp only [List.map_cons, List.map_nil, List.sum_cons, List.sum_nil, Nat.add_sub_cancel, Nat.sub_self, pow_zero, mul_one,
      add_zero]
    have h2 := Nat.testBit_two_pow_mul_add (i := 1) ((List.range n).map fun i => b i * 2 ^ (n - 1 - i)).sum (hb n) j
    rw [pow_one] at h2
    rw [h2]
    have := hb n
    cases j with
    | zero => simp only [Nat.zero_lt_one, if_true, Nat.testBit_zero, Nat.sub_zero, Nat.mod_eq_of_lt this]; simp
    | succ j =>
      simp only [Nat.not_lt.mpr (Nat.le_add_left 1 j), if_false, Nat.add_sub_cancel, ih]
      rw [show n - 1 - j = n - (j + 1) by omega]; simp

theorem bitRev_toNat (a : BitVec n) : bitRev n a.toNat = a.reverse.toNat := by
  refine Nat.eq_of_testBit_eq fun j => ?_
  rw [bitRev, testBit_sum_falling _ _ (fun _ => Nat.mod_lt _ (by decide)), BitVec.testBit_toNat, BitVec.getLsbD_reverse,
    BitVec.getMsbD, BitVec.getLsbD, Nat.testBit_eq_decide_div_mod_eq]

theorem popCount_toNat (a : BitVec n) : popCount n a.toNat = countOnes n a := by
  have hsum (l : List Nat) : (l.map fun i => a.toNat / 2 ^ i % 2).sum = (l.filter fun i => a.getLsbD i).length := by
    induction l with
    | nil => rfl
    | cons i l ih =>
      rw [List.map_cons, List.sum_cons, ih, List.filter_cons, BitVec.getLsbD, Nat.testBit_eq_decide_div_mod_eq]
      rcases Nat.mod_two_eq_zero_or_one (a.toNat / 2 ^ i) with h | h <;> simp [h, Nat.add_comm]
  exact hsum _

theorem toNat_not (a : BitVec n) : (~~~a).toNat = ones n - a.toNat := BitVec.toNat_not

theorem ofNat_rotl (a : BitVec n) (k : Nat) : BitVec.ofNat n (rotl n a.toNat k) = a.rotateLeft k := by
  refine ofNat_of_toNat ?_
  rw [BitVec.toNat_rotateLeft, Nat.shiftLeft_eq, Nat.shiftRight_eq_div_pow, rotl]
  rcases n.eq_zero_or_pos with rfl | hn
  · simp [BitVec.of_length_zero]
  · have hr : k % n + (n - k % n) = n := Nat.add_sub_cancel' (Nat.mod_lt k hn).le
    have hlow : a.toNat / 2 ^ (n - k % n) < 2 ^ (k % n) := by
      rw [Nat.div_lt_iff_lt_mul (Nat.two_pow_pos _), ← Nat.pow_add, hr]; exact a.isLt
    have hhigh : a.toNat * 2 ^ (k % n) % 2 ^ n = 2 ^ (k % n) * (a.toNat % 2 ^ (n - k % n)) := by
      rw [Nat.mul_comm, ← Nat.mul_mod_mul_left, ← Nat.pow_add, hr]
    rw [hhigh, Nat.two_pow_add_eq_or_of_lt hlow]

theorem ofInt_toInt_div (a : BitVec n) (k : Nat) : BitVec.ofInt n (a.toInt / 2 ^ k) = a.sshiftRight k := by
  rw [BitVec.sshiftRight, Int.shiftRight_eq_div_pow]
  norm_cast

theorem ofNat_mul_two_pow (a : BitVec n) (k : Nat) : BitVec.ofNat n (a.toNat * 2 ^ k) = a <<< k :=
  BitVec.eq_of_toNat_eq (by rw [BitVec.toNat_ofNat, BitVec.toNat_shiftLeft, Nat.shiftLeft_eq])

theorem ofNat_div_two_pow (a : BitVec n) (k : Nat) : BitVec.ofNat n (a.toNat / 2 ^ k) = a >>> k :=
  ofNat_of_toNat (by rw [BitVec.toNat_ushiftRight, Nat.shiftRight_eq_div_pow])

theorem ofNat_byteRev (h8 : 8 ∣ n) (a : BitVec n) : BitVec.ofNat n (byteRev n a.toNat) = swapBytes n a := by
  obtain ⟨m, rfl⟩ := h8
  refine BitVec.eq_of_getLsbD_eq fun i hi => ?_
  have hm : 8 * m / 8 = m := Nat.mul_div_cancel_left m (by decide)
  rw [BitVec.getLsbD_ofNat, byteRev, testBit_unle, swapBytes, BitVec.getLsbD_setWidth, BitVec.getLsbD_ofBoolListLE, be, hm,
    List.getD_eq_getElem _ _ (by rw [List.length_reverse, length_le]; omega), List.getElem_reverse, getElem_le, BitVec.getLsbD_ofNat,
    Nat.testBit_div_two_pow, length_le, List.getD_eq_getElem _ _ (by simpa using hi), List.getElem_map, List.getElem_range,
    decide_eq_true hi, decide_eq_true (Nat.mod_lt i (by decide : 0 < 8)), BitVec.getLsbD, Nat.add_comm, Bool.true_and]

end

theorem eight_dvd_widthOf (c : BitVec 2) : 8 ∣ widthOf c := Nat.pow_dvd_pow 2 (Nat.le_add_right 3 c.toNat)

/-- A tagged `b` of an operation that must not have one ends the routine (R139). -/
theorem vop_taint {s : State} {t code : Nat} {w : Microword} {o : VOp} (hl : tunLive (s.tun t) = true) (ho : vopOf code = some o)
    (hw : o.widths.contains (widthOf w.vew) = true) (hp : o.publicB = true) (hb : vTag (s.tun t) w.vsrcB.toNat = true) :
    EndsRoutine s t 0x0702 (.next (actOn t w (vectorAct code) s)) := by
  have hc : code ≠ 0 := by rintro rfl; cases ho
  refine ⟨_, congrArg _ (actOn_error (f := .taint) hl ?_), rfl⟩
  simp only [vectorAct, if_neg hc, ho, runVop, vopIn_atWord, vopIn_w, hw, hp, vTag_atWord, hb, Bool.not_true, Bool.and_self,
    Bool.false_eq_true, if_false, if_true]

end Sys2Proof.Machine

open Sys2Proof Sys2Proof.Machine

/-- Settles O2, one row of the group's table at a time. -/
theorem logicAndShiftVectorOpsWriteTheirResults : Obligations.LogicAndShiftVectorOpsWriteTheirResults := by
  intro s t w hl
  refine ⟨bool2_elementWise (· &&& ·) hl rfl fun a b => ofNat_of_toNat (BitVec.toNat_and a b),
    bool2_elementWise (· ||| ·) hl rfl fun a b => ofNat_of_toNat (BitVec.toNat_or a b),
    bool2_elementWise (· ^^^ ·) hl rfl fun a b => ofNat_of_toNat (BitVec.toNat_xor a b),
    bool1_elementWise (~~~ ·) hl rfl fun a => ofNat_of_toNat (toNat_not a),
    bool2_elementWise (fun a b => a &&& ~~~b) hl rfl fun a b => ofNat_of_toNat (by rw [BitVec.toNat_and, toNat_not]; rfl),
    (gives_range rfl rfl fun j => ofNat_of_toNat ?selb).elementWise hl ⟨rfl, contains_widthOf _, rfl, rfl⟩,
    bool1_elementWise (· <<< (w.imm.toNat % 64)) hl rfl fun a => ofNat_mul_two_pow a _,
    bool1_elementWise (· >>> (w.imm.toNat % 64)) hl rfl fun a => ofNat_div_two_pow a _,
    bool1_elementWise (·.sshiftRight (w.imm.toNat % 64)) hl rfl fun a => ?sra,
    bool1_elementWise (·.rotateLeft (w.imm.toNat % 64)) hl rfl fun a => ofNat_rotl a _,
    bool1_elementWise (fun a => BitVec.ofNat _ (countOnes _ a)) hl rfl fun a => congrArg _ (popCount_toNat a),
    bool1_elementWise BitVec.reverse hl rfl fun a => ofNat_of_toNat (bitRev_toNat a).symm,
    bool1_elementWise (swapBytes _) hl rfl fun a => ofNat_byteRev (eight_dvd_widthOf _) a,
    fun hb => ⟨(gives_map2 (fun a b => a <<< (b.toNat % widthOf w.vew)) rfl rfl fun a b => ofNat_mul_two_pow a _).elementWise hl
        ⟨rfl, contains_widthOf _, hb, rfl⟩,
      (gives_map2 (fun a b => a >>> (b.toNat % widthOf w.vew)) rfl rfl fun a b => ofNat_div_two_pow a _).elementWise hl
        ⟨rfl, contains_widthOf _, hb, rfl⟩⟩,
    fun hb => ⟨vop_taint hl rfl (contains_widthOf _) rfl hb, vop_taint hl rfl (contains_widthOf _) rfl hb⟩⟩
  case sra => rw [vopIn_w, ofNat_wrap, sgn_toNat]; exact ofInt_toInt_div a _
  case selb =>
    simp only [BitVec.toNat_or, BitVec.toNat_and, toNat_not, element_toNat]
    rfl
end

section
/-!
SUPPORT. Modular arithmetic on elements (R122, R124): residues, centred or not, the Montgomery product, and the rows of the modular
group.
-/

namespace Sys2Proof.Machine

/-! ## Residues -/

/-- A residue belongs to a class modulo `q`. -/
theorem Residue.congr {c : Bool} {n q : Nat} {z z' : Int} {e : BitVec n} (h : Residue c n q z e) (hz : z ≡ z' [ZMOD q]) :
    Residue c n q z' e := by
  unfold Residue at h ⊢
  rw [← hz.eq]
  split
  · next hc =>
    rw [if_pos hc] at h
    intro hq
    obtain ⟨c, hd, hb⟩ := h hq
    exact ⟨c, (hz.symm.trans (Int.modEq_iff_dvd.mpr hd)).dvd, hb⟩
  · next hc => rw [if_neg hc] at h; exact h

theorem residue_centred {n q : Nat} (hq : q ≠ 0) (z : Int) :
    Residue true n q z (BitVec.ofInt n (centred q (z % q).toNat)) := by
  have h0 : (0 : Int) ≤ z % q := Int.emod_nonneg z (by exact_mod_cast hq)
  have h1 : z % q < q := Int.emod_lt_of_pos z (by omega)
  have hd : (q : Int) ∣ z % q - z := (Int.mod_modEq z q).symm.dvd
  have hr : (((z % q).toNat : Nat) : Int) = z % q := Int.toNat_of_nonneg h0
  intro hne
  unfold centred
  split_ifs with h2 h3
  · exact ⟨_, hr ▸ hd, by omega, by omega, rfl⟩
  · omega
  · refine ⟨_, ?_, by omega, by omega, rfl⟩
    rw [hr, sub_right_comm]
    exact dvd_sub_self_right.mpr hd

/-! ## The Montgomery product -/

theorem halve_modEq {q : Nat} (hq : q % 2 = 1) (x : Nat) : (2 * halve q x : Int) ≡ x [ZMOD q] := by
  unfold halve
  split_ifs with h
  · rw [show (2 * (x / 2 : Nat) : Int) = x by omega]
  · rw [show (2 * ((x + q) / 2 : Nat) : Int) = x + q by omega]
    exact Int.add_modEq_right

theorem halveN_modEq {q : Nat} (hq : q % 2 = 1) (k x : Nat) : (halveN q k x * 2 ^ k : Int) ≡ x [ZMOD q] := by
  induction k generalizing x with
  | zero => simp [halveN]
  | succ k ih =>
    calc (halveN q (k + 1) x * 2 ^ (k + 1) : Int) = 2 * (halveN q k (halve q x) * 2 ^ k) := by rw [halveN]; ring
      _ ≡ 2 * halve q x [ZMOD q] := (ih _).mul_left 2
      _ ≡ x [ZMOD q] := halve_modEq hq x

/-- The Montgomery product is, modulo an odd `q`, whatever times R gives the product. -/
theorem mont_modEq {i : VIn} (hq : i.q % 2 = 1) {a b p : Int} (hp : (i.q : Int) ∣ p * 2 ^ i.w - a * b) :
    mont i a b ≡ p [ZMOD i.q] := by
  have h0 : (0 : Int) ≤ a * b % i.q := Int.emod_nonneg _ (by omega)
  have hm : mont i a b * 2 ^ i.w ≡ p * 2 ^ i.w [ZMOD i.q] := calc
    mont i a b * 2 ^ i.w ≡ ((a * b % i.q).toNat : Nat) [ZMOD i.q] := halveN_modEq hq i.w _
    _ = a * b % i.q := Int.toNat_of_nonneg h0
    _ ≡ a * b [ZMOD i.q] := Int.mod_modEq _ _
    _ ≡ p * 2 ^ i.w [ZMOD i.q] := Int.modEq_iff_dvd.mpr hp
  have hc : IsCoprime (i.q : Int) (2 ^ i.w) :=
    IsCoprime.pow_right (Nat.isCoprime_iff_coprime.mpr (Nat.coprime_two_right.mpr (Nat.odd_iff.mpr hq)))
  have hd := hm.dvd
  rw [← sub_mul] at hd
  exact Int.modEq_iff_dvd.mpr (hc.dvd_of_dvd_mul_right hd)

/-! ## Inputs and results of the modular group -/

section
variable {x : Tun} {w : Microword}

theorem modIn_toNat (a : BitVec (widthOf w.vew)) : modIn (vopIn w x) a.toNat = inputOf w a := by
  rw [modIn, vopIn_w, sgn_toNat]; rfl

theorem modIn_velem (r j : Nat) : modIn (vopIn w x) (velem (widthOf w.vew) (vreg x r) j) = inputOf w (element (widthOf w.vew) x r j) := by
  rw [← element_toNat, modIn_toNat]

theorem mreg_lt (x : Tun) (i : Nat) : mreg x i < 2 ^ 31 := by
  unfold mreg; split <;> exact BitVec.isLt _

theorem ModularReady.modulus_lt (h : ModularReady x w) : modulusOf x w < 2 ^ widthOf w.vew := by
  obtain ⟨hv | hv, -, h15, -⟩ := h
  · exact (h15 hv).trans_le (by rw [hv]; decide)
  · exact (mreg_lt x _).trans_le (by rw [hv]; decide)

theorem ModularReady.residue_modOut (h : ModularReady x w) (z : Int) :
    Residue (w.vmod.getLsbD 3) (widthOf w.vew) (modulusOf x w) z (BitVec.ofNat _ (modOut (vopIn w x) z)) := by
  have hq : modulusOf x w ≠ 0 := h.2.1
  unfold modOut
  rw [vopIn_word, vopIn_w, vopIn_q]
  split
  · next hc => rw [hc, ofNat_wrap]; exact residue_centred hq z
  · next hc =>
    have h0 : (0 : Int) ≤ z % modulusOf x w := Int.emod_nonneg z (by exact_mod_cast hq)
    have h1 : z % modulusOf x w < modulusOf x w := Int.emod_lt_of_pos z (by omega)
    have hlt := h.modulus_lt
    have hn : (z % modulusOf x w).toNat < 2 ^ widthOf w.vew := by omega
    rw [Residue, if_neg hc, BitVec.toNat_ofNat, Nat.mod_eq_of_lt hn, Int.toNat_of_nonneg h0]

theorem ModularReady.not_modBad (h : ModularReady x w) {odd : Bool} (hodd : odd = true → modulusOf x w % 2 = 1) :
    modBad odd (vopIn w x) = false := by
  obtain ⟨hv, hq, h15, h4⟩ := h
  have h16 : (widthOf w.vew == 16 && decide (2 ^ 15 ≤ modulusOf x w)) = false := by
    rcases hv with hv | hv
    · rw [decide_eq_false (Nat.not_le.mpr (h15 hv)), Bool.and_false]
    · rw [hv]; rfl
  have h2 : (odd && modulusOf x w % 2 == 0) = false := by
    cases odd with
    | false => rfl
    | true => rw [hodd rfl]; rfl
  exact Bool.or_eq_false_iff.mpr ⟨Bool.or_eq_false_iff.mpr ⟨Bool.or_eq_false_iff.mpr ⟨beq_false_of_ne hq, h16⟩, h2⟩, h4⟩

theorem ModularReady.width (h : ModularReady x w) : [16, 32].contains (widthOf w.vew) = true := by
  rcases h.1 with hv | hv <;> rw [hv] <;> decide

end

/-! ## The rows of the group -/

section
variable {s : State} {t code : Nat} {w : Microword}

theorem ElementWise.satisfy {f : Nat → BitVec (widthOf w.vew)} {P : Nat → BitVec (widthOf w.vew) → Prop} {r : Res}
    (h : ElementWise s t w f r) (hp : ∀ j, P j (f j)) : ElementsSatisfy s t w P r := by
  obtain ⟨y, hy, honly, hel⟩ := h
  refine ⟨y, hy, honly, fun j => ?_⟩
  rw [hel j]
  split
  · exact hp j
  · rfl

variable {two odd : Bool} {cls : CostCls}

theorem ModularReady.runs {run : VIn → VOut} (h : ModularReady (s.tun t) w) (ho : vopOf code = some (modular two cls odd run))
    (hodd : odd = true → modulusOf (s.tun t) w % 2 = 1) : VopRuns (s.tun t) w code (modular two cls odd run) :=
  ⟨ho, h.width, rfl, h.not_modBad hodd⟩

/-- A row with one source gives the residue of what it computes of its input. -/
theorem modular1_satisfy (F : VIn → Int → Int) (hl : tunLive (s.tun t) = true) (h : ModularReady (s.tun t) w)
    (ho : vopOf code = some (modular two cls false (map1 fun i a => modOut i (F i (modIn i a))))) :
    ElementsSatisfy s t w (fun j e => Residue (w.vmod.getLsbD 3) (widthOf w.vew) (modulusOf (s.tun t) w)
      (F (vopIn w (s.tun t)) (inputOf w (elemA (s.tun t) w j))) e) (.next (actOn t w (vectorAct code) s)) :=
  ((gives_map1 (fun a => BitVec.ofNat _ (modOut (vopIn w (s.tun t)) (F (vopIn w (s.tun t)) (inputOf w a)))) rfl rfl fun a => by
    rw [modIn_toNat]).elementWise hl (h.runs ho nofun)).satisfy fun j => h.residue_modOut _

/-- A row with two sources likewise. -/
theorem modular2_satisfy (F : VIn → Int → Int → Int) (hl : tunLive (s.tun t) = true) (h : ModularReady (s.tun t) w)
    (ho : vopOf code = some (modular two cls odd (map2 fun i a b => modOut i (F i (modIn i a) (modIn i b)))))
    (hodd : odd = true → modulusOf (s.tun t) w % 2 = 1) :
    ElementsSatisfy s t w (fun j e => Residue (w.vmod.getLsbD 3) (widthOf w.vew) (modulusOf (s.tun t) w)
      (F (vopIn w (s.tun t)) (inputOf w (elemA (s.tun t) w j)) (inputOf w (elemB (s.tun t) w j))) e)
      (.next (actOn t w (vectorAct code) s)) :=
  ((gives_map2 (fun a b => BitVec.ofNat _ (modOut (vopIn w (s.tun t)) (F (vopIn w (s.tun t)) (inputOf w a) (inputOf w b)))) rfl rfl
    fun a b => by rw [modIn_toNat, modIn_toNat]).elementWise hl (h.runs ho hodd)).satisfy fun j => h.residue_modOut _

end

end Sys2Proof.Machine

open Sys2Proof Sys2Proof.Machine

/-- Settles O3: each row gives the residue of what it computes of its inputs; the Montgomery product is one class modulo an odd
modulus. -/
theorem modularVectorOpsAreExact : Obligations.ModularVectorOpsAreExact := by
  intro s t w hl hr
  refine ⟨modular2_satisfy (fun _ a b => a + b) hl hr rfl nofun, modular2_satisfy (fun _ a b => a - b) hl hr rfl nofun,
    modular1_satisfy (fun _ a => -a) hl hr rfl, modular2_satisfy (fun _ a b => a * b) hl hr rfl nofun,
    modular1_satisfy (fun _ a => a) hl hr rfl,
    modular1_satisfy (fun i a => if a ≥ i.q then a - i.q else a) hl hr rfl, ?cent, fun hq => ?mont⟩
  case cent =>
    exact ((gives_map1 (fun a => BitVec.ofInt _ (centred _ (inputOf w a % modulusOf (s.tun t) w).toNat)) rfl rfl fun a => by
      rw [vopIn_w, ofNat_wrap, modIn_toNat]; rfl).elementWise hl (hr.runs (odd := false) rfl nofun)).satisfy
      fun j => residue_centred hr.2.1 _
  case mont =>
    obtain ⟨y, hy, honly, hel⟩ := modular2_satisfy (s := s) (t := t) (code := 0x23) mont hl hr rfl fun _ => hq
    refine ⟨y, hy, honly, fun j => ?_⟩
    have hj := hel j
    split at hj
    · next hlt => rw [if_pos hlt]; exact fun z hz => hj.congr (mont_modEq hq hz)
    · next hlt => rw [if_neg hlt]; exact hj
end

section
/-!
SUPPORT. Operations on whole registers (R119, R124, R125): butterflies and permutations act on all VLMAX elements.
-/

namespace Sys2Proof.Machine

section
variable {s : State} {t code : Nat} {w : Microword} {o : VOp} {f : Nat → BitVec (widthOf w.vew)}

/-- An operation that ignores VL and computes each element from its index. -/
theorem wholeRegister_of_range {e : Nat → Nat} (hl : tunLive (s.tun t) = true) (h : VopRuns (s.tun t) w code o)
    (hw : o.whole = true)
    (hr : o.run (vopIn w (s.tun t)) = vout (widthOf w.vew) ((List.range (vlMax (widthOf w.vew))).map e))
    (hf : ∀ j, BitVec.ofNat _ (e j) = f j) : WholeRegister s t w f (.next (actOn t w (vectorAct code) s)) := by
  have hlen : ((List.range (vlMax (widthOf w.vew))).map e).length = vlMax (widthOf w.vew) := by simp
  obtain ⟨y, hy, -, honly, hel⟩ := vop_writesElements (f := f) hl h hr (fun hn _ => absurd (hw.symm.trans hn) (by decide))
    (by rw [hlen, widthOf_mul_vlMax]) fun j hj => by rw [List.getElem_map, List.getElem_range, hf]
  exact ⟨y, hy, honly, hlen ▸ hel⟩

theorem WholeRegister.satisfy {P : Nat → BitVec (widthOf w.vew) → Prop} {r : Res} (h : WholeRegister s t w f r)
    (hp : ∀ j, P j (f j)) : AllElementsSatisfy s t w P r := by
  obtain ⟨y, hy, honly, hel⟩ := h
  exact ⟨y, hy, honly, fun j hj => by rw [hel j, if_pos hj]; exact hp j⟩

/-! ## Butterflies -/

/-- Inputs of the group as integers. -/
abbrev inA (x : Tun) (w : Microword) (j : Nat) : Int := inputOf w (elemA x w j)
abbrev inB (x : Tun) (w : Microword) (j : Nat) : Int := inputOf w (elemB x w j)

/-- One layer with stride `h`: the lower and the upper element of each pair are residues of what `F` makes of the pair and its
twiddle, and satisfy what follows from that. -/
theorem butterfly_satisfies {F : VIn → Int → Int → Int → Int × Int} {P : Nat → BitVec (widthOf w.vew) → Prop} {h : Nat}
    (hl : tunLive (s.tun t) = true) (hr : ModularReady (s.tun t) w) (hq : modulusOf (s.tun t) w % 2 = 1)
    (hv : w.vperm.toNat / 16 = 0) (hh : h = 2 ^ (w.vperm.toNat % 16)) (hs : 2 * h ≤ vlMax (widthOf w.vew))
    (ho : vopOf code = some (bfly (butterfly F)))
    (hlow : ∀ j e, j / h % 2 = 0 → Residue (w.vmod.getLsbD 3) (widthOf w.vew) (modulusOf (s.tun t) w)
      (F (vopIn w (s.tun t)) (inA (s.tun t) w j) (inA (s.tun t) w (j + h)) (inB (s.tun t) w j)).1 e → P j e)
    (hup : ∀ j e, ¬j / h % 2 = 0 → Residue (w.vmod.getLsbD 3) (widthOf w.vew) (modulusOf (s.tun t) w)
      (F (vopIn w (s.tun t)) (inA (s.tun t) w (j - h)) (inA (s.tun t) w j) (inB (s.tun t) w (j - h))).2 e → P j e) :
    AllElementsSatisfy s t w P (.next (actOn t w (vectorAct code) s)) := by
  subst hh
  have hne : ¬((vopIn w (s.tun t)).w = 8 ∨ (vopIn w (s.tun t)).word.vperm.toNat / 16 ≠ 0) := by
    rintro (h8 | h0)
    · rcases hr.1 with hw | hw <;> rw [vopIn_w, hw] at h8 <;> exact absurd h8 (by decide)
    · exact h0 hv
  have hruns : VopRuns (s.tun t) w code (bfly (butterfly F)) := by
    refine ⟨ho, ?_, rfl, Bool.or_eq_false_iff.mpr ⟨decide_eq_false (Nat.not_lt.mpr hs), hr.not_modBad fun _ => hq⟩⟩
    rcases hr.1 with hw | hw <;> rw [hw] <;> rfl
  refine (wholeRegister_of_range hl hruns rfl (if_neg hne) fun j => rfl).satisfy fun j => ?_
  have hin (r k : Nat) := modIn_velem (x := s.tun t) (w := w) r k
  split
  · next hc => refine hlow j _ hc ?_; rw [inA, inA, inB, ← hin, ← hin, ← hin]; exact hr.residue_modOut _
  · next hc => refine hup j _ hc ?_; rw [inA, inA, inB, ← hin, ← hin, ← hin]; exact hr.residue_modOut _

end

end Sys2Proof.Machine

open Sys2Proof Sys2Proof.Machine

/-- Settles O6: the twiddle product of each pair is its Montgomery product. -/
theorem butterfliesComputeOneLayer : Obligations.ButterfliesComputeOneLayer := by
  intro s t w hl hr hq hv hs
  refine ⟨butterfly_satisfies hl hr hq hv rfl hs rfl (fun j e hc h p => ?_) (fun j e hc h p => ?_),
    butterfly_satisfies hl hr hq hv rfl hs rfl (fun j e hc h => ?_) (fun j e hc h => ?_)⟩
  · rw [if_pos hc]; exact fun hp => h.congr ((mont_modEq hq hp).add_left _)
  · rw [if_neg hc]; exact fun hp => h.congr ((mont_modEq hq hp).sub_left _)
  · dsimp only; rw [if_pos hc]; exact h
  · dsimp only; rw [if_neg hc]; exact fun p hp => h.congr (mont_modEq hq hp)
end

section
/-!
SUPPORT. Permutations of a whole register (R121, R125): each element of the result is an element of the source, or zero.
-/

namespace Sys2Proof.Machine

theorem ofNat_velem (n : Nat) (x : Tun) (r j : Nat) : BitVec.ofNat n (velem n (vreg x r) j) = element n x r j :=
  (element_eq n x r j).symm

section
variable {s : State} {t code : Nat} {w : Microword} {two : Bool} {run : VIn → VOut}

theorem contains_widthOf_of_ne (hv : w.vew ≠ 3) : [8, 16, 32].contains (widthOf w.vew) = true := by
  have hall : ∀ c : BitVec 2, c ≠ 3 → [8, 16, 32].contains (widthOf c) = true := by decide
  exact hall _ hv

theorem perm_runs (hv : w.vew ≠ 3) (ho : vopOf code = some (perm two run)) : VopRuns (s.tun t) w code (perm two run) :=
  ⟨ho, contains_widthOf_of_ne hv, rfl, rfl⟩

/-- Element `j` of the result is element `src j` of `VSRC_A`, or zero. -/
theorem wholeRegister_of_permute {o : VOp} {src : Nat → Option Nat} {f : Nat → BitVec (widthOf w.vew)}
    (hl : tunLive (s.tun t) = true) (h : VopRuns (s.tun t) w code o) (hw : o.whole = true)
    (hr : o.run (vopIn w (s.tun t)) = permute src (vopIn w (s.tun t)))
    (hf : ∀ j, f j = (src j).elim 0 (elemA (s.tun t) w)) : WholeRegister s t w f (.next (actOn t w (vectorAct code) s)) := by
  refine wholeRegister_of_range hl h hw hr fun j => ?_
  rw [hf]
  cases src j with
  | none => rfl
  | some k => exact ofNat_velem _ _ _ _

/-- The fixed patterns of R125. -/
theorem patternSrc_reversed (k j : Nat) :
    patternSrc 0 k j = j / 2 ^ k * 2 ^ k + (BitVec.ofNat k (j % 2 ^ k)).reverse.toNat := by
  rw [← bitRev_toNat, BitVec.toNat_ofNat, Nat.mod_mod]; rfl

theorem patternSrc_swapped (k j : Nat) :
    patternSrc 1 k j = j / 2 ^ k * 2 ^ k + (j % 2 ^ k + 2 ^ k / 2) % 2 ^ k := by
  cases k with
  | zero => simp [patternSrc, Nat.mod_one]
  | succ k => simp [patternSrc, Nat.pow_succ]

/-- A fixed pattern moves each element of `VSRC_A` within its block. -/
theorem vpermf_wholeRegister {f : Nat → BitVec (widthOf w.vew)} (hl : tunLive (s.tun t) = true) (hv : w.vew ≠ 3)
    (hk : 2 ^ (w.vperm.toNat % 16) ≤ vlMax (widthOf w.vew))
    (hf : ∀ j, f j = elemA (s.tun t) w (patternSrc (w.vperm.toNat / 16) (w.vperm.toNat % 16) j)) :
    WholeRegister s t w f (exec (.vpermf t w) s) :=
  wholeRegister_of_permute (code := 0x52) hl (perm_runs hv rfl) rfl (if_neg (Nat.not_lt.mpr hk)) hf

end

end Sys2Proof.Machine

open Sys2Proof Sys2Proof.Machine

/-- Settles O7: each row is a permutation with its own source index. -/
theorem permutationsMoveWholeRegisters : Obligations.PermutationsMoveWholeRegisters := by
  intro s t w hl hv
  refine ⟨fun hk => ⟨fun hp => vpermf_wholeRegister hl hv hk fun j => ?rev, fun hp => vpermf_wholeRegister hl hv hk fun j => ?swap,
      fun hp => vpermf_wholeRegister hl hv hk fun j => ?rot, fun hp => vpermf_wholeRegister hl hv hk fun j => ?flip⟩,
    fun hb => wholeRegister_of_permute hl ⟨rfl, contains_widthOf_of_ne hv, hb, rfl⟩ rfl rfl fun j => ?permv,
    fun hb => vop_taint hl rfl (contains_widthOf_of_ne hv) rfl hb,
    wholeRegister_of_permute hl (perm_runs hv rfl) rfl rfl fun j => ?up,
    wholeRegister_of_permute hl (perm_runs hv rfl) rfl rfl fun j => ?dn,
    wholeRegister_of_range hl (perm_runs hv rfl) rfl rfl fun j => ?zip,
    wholeRegister_of_permute (src := fun j => some (if j < vlMax (widthOf w.vew) / 2 then 2 * j
      else 2 * (j - vlMax (widthOf w.vew) / 2) + 1)) hl (perm_runs hv rfl) rfl rfl fun j => ?unzip⟩
  case rev => rw [hp, patternSrc_reversed]
  case swap => rw [hp, patternSrc_swapped]
  case rot => rw [hp]; rfl
  case flip => rw [hp]; rfl
  case permv => rw [element_toNat]; exact (apply_ite (·.elim 0 (elemA (s.tun t) w)) (_ < vlMax _) (some _) none).symm
  case up => exact (apply_ite (·.elim 0 (elemA (s.tun t) w)) (_ ≤ j) (some _) none).symm
  case dn => exact (apply_ite (·.elim 0 (elemA (s.tun t) w)) (_ < vlMax _) (some _) none).symm
  case zip => split <;> exact ofNat_velem _ _ _ _
  case unzip => exact (apply_ite (elemA (s.tun t) w) _ _ _).symm
end

section
/-!
SUPPORT. The fixed-point group (R123): clamping with the sticky QSAT, and rounding.
-/

namespace Sys2Proof.Machine

theorem clamp_fst {lo hi : Int} (h : lo ≤ hi) (z : Int) : (clamp lo hi z).1 = max lo (min hi z) := by
  unfold clamp
  split_ifs <;> dsimp only <;> omega

theorem clamp_snd (lo hi z : Int) : (clamp lo hi z).2 = true ↔ z < lo ∨ hi < z := by
  unfold clamp
  split_ifs with h1 h2
  · exact iff_of_true rfl (.inl h1)
  · exact iff_of_true rfl (.inr h2)
  · exact iff_of_false not_false (by omega)

theorem OnlyVector.setQsat {x y : Tun} {c : BitVec 2} {d : Nat} (h : OnlyVector x y c d) (q : Bool) :
    OnlyVectorAndQsat x { y with qsat := q } c d :=
  ⟨congrArg (fun y : Tun => { y with qsat := q }) h.1, h.2⟩

/-- The integer that an input of a saturating operation stands for. -/
def fixedIn (signed : Bool) {n : Nat} (a : BitVec n) : Int := if signed then a.toInt else a.toNat

/-- The bounds of the clamp. -/
def satLow (signed : Bool) (n : Nat) : Int := if signed then -2 ^ (n - 1) else 0
def satHigh (signed : Bool) (n : Nat) : Int := if signed then 2 ^ (n - 1) - 1 else 2 ^ n - 1

theorem satLow_le_satHigh (signed : Bool) (n : Nat) : satLow signed n ≤ satHigh signed n := by
  have h1 : (0 : Int) < 2 ^ (n - 1) := by positivity
  have h2 : (0 : Int) < 2 ^ n := by positivity
  unfold satLow satHigh
  split <;> omega

section
variable {s : State} {t code : Nat} {w : Microword} {two : Bool}

theorem fixedPt_runs {run : VIn → VOut} (hv : w.vew = 1 ∨ w.vew = 2) (ho : vopOf code = some (fixedPt two run)) :
    VopRuns (s.tun t) w code (fixedPt two run) :=
  ⟨ho, by rcases hv with hv | hv <;> rw [hv] <;> rfl, rfl, rfl⟩

theorem setV_qsat (x : Tun) (d k v : Nat) (tag : Bool) (kind : ShareKind) : (setV x d k v tag kind).qsat = x.qsat :=
  (congrArg Tun.qsat (setV_only x d k v tag kind).1 :)

/-- QSAT is sticky. -/
theorem qsat_sticky (y : Tun) (b : Bool) : (if b then { y with qsat := true } else y) = { y with qsat := y.qsat || b } := by
  cases b with
  | false => rw [if_neg Bool.false_ne_true, Bool.or_false]
  | true => rw [if_pos rfl, Bool.or_true]

/-- Elements as a vector result, with QSAT set where one clamped and no source is tagged. -/
theorem vop_writesSaturated {o : VOp} {n : Nat} {es : List Nat} {c : Bool} (hl : tunLive (s.tun t) = true)
    (h : VopRuns (s.tun t) w code o) (hm : 0 < effCount (s.tun t) (widthOf w.vew))
    (hr : o.run (vopIn w (s.tun t)) = { vout n es with clamped := c }) :
    actOn t w (vectorAct code) s = s.setTun t { setV (atWord w (s.tun t)) w.vdst.toNat (n * es.length) (vpack n es)
      (vopTag o w (s.tun t)) (o.kindAt w (s.tun t)) with qsat := (s.tun t).qsat || (c && !vopTag o w (s.tun t)) } := by
  rw [vop_active hl h fun _ => hm, hr, VOp.writes]
  dsimp only [vout]
  rw [qsat_sticky, setV_qsat]
  rfl

/-- The clamped results of a saturating row. -/
theorem sat_run {signed : Bool} {f : Int → Int → Int} {g : Nat → Int} {x : Tun}
    (hg : ∀ j, g j = f (fixedIn signed (elemA x w j)) (fixedIn signed (elemB x w j))) :
    let rs := (List.range (effCount x (widthOf w.vew))).map fun j =>
      clamp (satLow signed (widthOf w.vew)) (satHigh signed (widthOf w.vew)) (g j)
    sat signed f (vopIn w x) =
      { vout (widthOf w.vew) (rs.map fun r => wrap (widthOf w.vew) r.1) with clamped := rs.any (·.2) } := by
  intro rs
  have hin (r j : Nat) : (if signed then sgn (widthOf w.vew) (velem (widthOf w.vew) (vreg x r) j)
      else (velem (widthOf w.vew) (vreg x r) j : Int)) = fixedIn signed (element (widthOf w.vew) x r j) := by
    rw [← element_toNat, sgn_toNat]; rfl
  have hrs : List.zipWith (fun a b => clamp (satLow signed (widthOf w.vew)) (satHigh signed (widthOf w.vew))
      (f (if signed then sgn (widthOf w.vew) a else a) (if signed then sgn (widthOf w.vew) b else b)))
      (velems (widthOf w.vew) (effCount x (widthOf w.vew)) (vreg x w.vsrcA.toNat))
      (velems (widthOf w.vew) (effCount x (widthOf w.vew)) (vreg x w.vsrcB.toNat)) = rs := by
    refine List.ext_getElem (by simp [rs, velems]) fun j _ _ => ?_
    simp only [rs, velems, List.getElem_zipWith, List.getElem_map, List.getElem_range, hin, hg]
  rw [← hrs]
  rfl

/-- A saturating row clamps what `f` makes of its inputs. -/
theorem saturates_of_sat {signed : Bool} {f : Int → Int → Int} {g : Nat → Int} (hl : tunLive (s.tun t) = true)
    (hv : w.vew = 1 ∨ w.vew = 2) (ho : vopOf code = some (fixedPt true (sat signed f)))
    (hg : ∀ j, g j = f (fixedIn signed (elemA (s.tun t) w j)) (fixedIn signed (elemB (s.tun t) w j))) :
    Saturates s t w (satLow signed (widthOf w.vew)) (satHigh signed (widthOf w.vew)) g (.next (actOn t w (vectorAct code) s)) := by
  have h := fixedPt_runs (s := s) (t := t) hv ho
  have hle := satLow_le_satHigh signed (widthOf w.vew)
  rcases (effCount (s.tun t) (widthOf w.vew)).eq_zero_or_pos with hz | hm
  · refine ⟨_, congrArg _ (vop_idle hl h rfl hz), (onlyVector_atWord w _ _).setQsat _, fun j => by simp [hz], ?_⟩
    simp [hz, atWord]
  · refine ⟨_, congrArg _ (vop_writesSaturated hl h hm (sat_run hg)), (setV_only (atWord w (s.tun t)) _ _ _ _ _).setQsat _,
      fun j => ?_, ?_⟩
    · refine (element_setV (atWord w (s.tun t)) _ _ _ _ _ _ ?_ (vpack_lt _ _) j).trans ?_
      · simpa using widthOf_mul_effCount _ _
      · simp only [List.length_map, List.length_range, element_atWord]
        split
        · next hj =>
          rw [ofNat_velem_vpack (by simpa using hj), List.getElem_map, List.getElem_map, List.getElem_range, ofNat_wrap,
            clamp_fst hle]
        · rfl
    · have htag : (!vopTag (fixedPt true (sat signed f)) w (s.tun t)) = true ↔
          vTag (s.tun t) w.vsrcA.toNat = false ∧ vTag (s.tun t) w.vsrcB.toNat = false := by
        simp [vopTag, vopSources, fixedPt]
      simp only [Bool.or_eq_true, Bool.and_eq_true, htag, List.any_map, List.any_eq_true, List.mem_range, Function.comp, clamp_snd]
      exact or_congr_right (and_comm.trans and_assoc)

end

end Sys2Proof.Machine

open Sys2Proof Sys2Proof.Machine

/-- Settles O4: saturation clamps the exact result, and rounding divides it with its constant added. -/
theorem fixedPointVectorOpsClampAndRound : Obligations.FixedPointVectorOpsClampAndRound := by
  intro s t w hl hv
  refine ⟨saturates_of_sat (signed := true) hl hv rfl fun j => rfl, saturates_of_sat (signed := true) hl hv rfl fun j => rfl,
    saturates_of_sat (signed := false) hl hv rfl fun j => rfl, saturates_of_sat (signed := false) hl hv rfl fun j => rfl,
    (gives_map1 (fun a => BitVec.ofInt _ ((a.toInt + 2 ^ (w.shr.toNat + 1 - 1)) / 2 ^ (w.shr.toNat + 1))) rfl rfl
      fun a => ?rshrs).elementWise hl (fixedPt_runs hv rfl),
    (gives_map1 (fun a => BitVec.ofNat _ ((a.toNat + 2 ^ (w.shr.toNat + 1 - 1)) / 2 ^ (w.shr.toNat + 1))) rfl rfl
      fun a => rfl).elementWise hl (fixedPt_runs hv rfl),
    (gives_map2 (fun a b => BitVec.ofInt _ ((a.toInt * b.toInt + 2 ^ (widthOf w.vew - 1)) / 2 ^ widthOf w.vew)) rfl rfl
      fun a b => ?rmulhs).elementWise hl (fixedPt_runs hv rfl),
    (gives_map2 (fun a b => BitVec.ofNat _ ((a.toNat * b.toNat + 2 ^ (widthOf w.vew - 1)) / 2 ^ widthOf w.vew)) rfl rfl
      fun a b => rfl).elementWise hl (fixedPt_runs hv rfl)⟩
  case rshrs => rw [vopIn_w, ofNat_wrap, sgn_toNat]; rfl
  case rmulhs => rw [vopIn_w, ofNat_wrap, sgn_toNat, sgn_toNat]
end

section
/-!
SUPPORT. Compares, reductions, extraction and compression (R121): all ones or zero, and results in the scalar destination.
-/

namespace Sys2Proof.Machine

/-! ## Compares -/

theorem ofNat_mask (n : Nat) (b : Bool) : BitVec.ofNat n (mask n b) = if b then BitVec.allOnes n else 0#n := by
  cases b with
  | false => rfl
  | true => exact ofNat_of_toNat BitVec.toNat_allOnes

section
variable {n : Nat} (a b : BitVec n)

theorem toNat_beq : (a.toNat == b.toNat) = (a == b) := by
  rw [Bool.eq_iff_iff, beq_iff_eq, beq_iff_eq, BitVec.toNat_inj]

theorem toNat_bne : (a.toNat != b.toNat) = (a != b) := congrArg not (toNat_beq a b)

end

section
variable {s : State} {t code : Nat} {w : Microword}

theorem cmp_elementWise {p : Nat → Nat → Nat → Bool} (q : BitVec (widthOf w.vew) → BitVec (widthOf w.vew) → Bool)
    (hl : tunLive (s.tun t) = true) (ho : vopOf code = some (cmp p)) (hp : ∀ a b, p (widthOf w.vew) a.toNat b.toNat = q a b) :
    ElementWise s t w (fun j => if q (elemA (s.tun t) w j) (elemB (s.tun t) w j) then BitVec.allOnes _ else 0#_)
      (.next (actOn t w (vectorAct code) s)) :=
  bool2_elementWise (fun a b => if q a b then BitVec.allOnes _ else 0#_) hl ho fun a b => by
    rw [← hp]; exact ofNat_mask _ _

/-! ## Scalar results -/

theorem scalar_sd (w : Microword) (x : Tun) (v : Nat) (tag : Bool) :
    scalar (setS x w.sd.toNat v tag) w.sd.toNat = if w.sd = 0 then 0 else BitVec.ofNat 64 v := by
  rw [scalar_setS_self]
  exact if_congr ⟨fun h => BitVec.eq_of_toNat_eq h, fun h => congrArg BitVec.toNat h⟩ rfl rfl

/-- An operation with a scalar result only. -/
theorem vop_answersScalar {o : VOp} {v : Nat} (hl : tunLive (s.tun t) = true) (h : VopRuns (s.tun t) w code o)
    (hm : 0 < effCount (s.tun t) (widthOf w.vew)) (hr : o.run (vopIn w (s.tun t)) = { scal := some v }) :
    AnswersTun s t (.next (actOn t w (vectorAct code) s)) fun y => ScalarIs (s.tun t) y w (BitVec.ofNat 64 v) :=
  ⟨_, congrArg _ (vop_writesScalar hl h hm hr), setS_only w _ _ _ _, scalar_sd w _ _ _⟩

theorem velems_eq (n m : Nat) (x : Tun) (r : Nat) :
    velems n m (vreg x r) = (List.range m).map fun j => (element n x r j).toNat :=
  List.map_congr_left fun j _ => (element_toNat n x r j).symm

theorem ofNat_foldl_or {n : Nat} (l : List (BitVec n)) (p : Nat) :
    BitVec.ofNat 64 ((l.map BitVec.toNat).foldl (· ||| ·) p) = l.foldl (fun p e => p ||| e.setWidth 64) (BitVec.ofNat 64 p) := by
  induction l generalizing p with
  | nil => rfl
  | cons e l ih =>
    have he : BitVec.ofNat 64 (p ||| e.toNat) = BitVec.ofNat 64 p ||| e.setWidth 64 := by
      rw [← BitVec.ofNat_toNat, ← BitVec.ofNat_or]
    rw [List.map_cons, List.foldl_cons, ih, he, List.foldl_cons]

/-! ## Compression -/

/-- Elements `j` of a register whose `VSRC_B` element is not zero, among the active ones. -/
def chosenAt (x : Tun) (w : Microword) : List Nat :=
  (List.range (effCount x (widthOf w.vew))).filter fun j => elemB x w j != 0

theorem length_chosenAt_le (x : Tun) (w : Microword) : (chosenAt x w).length ≤ effCount x (widthOf w.vew) :=
  (List.length_filter_le _ _).trans (List.length_range).le

theorem compressV_run (x : Tun) (w : Microword) :
    compressV (vopIn w x) =
      let es := (chosenAt x w).map fun j => (elemA x w j).toNat
      { vec := some (widthOf w.vew * effCount x (widthOf w.vew),
          vpack (widthOf w.vew) es + 2 ^ (widthOf w.vew * es.length) *
            Config.freeNat 112 [widthOf w.vew, effCount x (widthOf w.vew), vreg x w.vsrcA.toNat, vreg x w.vsrcB.toNat])
        scal := some es.length } := by
  have hzip : (velems (widthOf w.vew) (effCount x (widthOf w.vew)) (vreg x w.vsrcA.toNat)).zip
      (velems (widthOf w.vew) (effCount x (widthOf w.vew)) (vreg x w.vsrcB.toNat)) =
      (List.range (effCount x (widthOf w.vew))).map fun j => ((elemA x w j).toNat, (elemB x w j).toNat) := by
    rw [velems_eq, velems_eq, List.zip_map']
  have hsel : ((fun p : Nat × Nat => p.2 != 0) ∘ fun j => ((elemA x w j).toNat, (elemB x w j).toNat)) =
      fun j => elemB x w j != 0 := funext fun j => toNat_bne (elemB x w j) 0
  have hfilter := congrArg (List.filter fun p : Nat × Nat => p.2 != 0) hzip
  rw [List.filter_map, hsel] at hfilter
  simp only [compressV, vopIn_w, vopIn_n, vopIn_a, vopIn_b, hfilter, List.map_map, List.length_map]
  rfl

theorem velem_mod {n m j : Nat} (hj : j < m) (v : Nat) : velem n (v % 2 ^ (n * m)) j = velem n v j := by
  have h := velem_splice n m v 0 j
  rwa [if_pos hj, Nat.zero_div, Nat.zero_mul, Nat.add_zero] at h

/-- What lies above a packed list does not reach its elements. -/
theorem velem_vpack_add {n j : Nat} {es : List Nat} (hj : j < es.length) (u : Nat) :
    velem n (vpack n es + 2 ^ (n * es.length) * u) j = velem n (vpack n es) j := by
  rw [← velem_mod hj, Nat.add_mul_mod_self_left, velem_mod hj]

/-- `VCOMPRESS` packs the chosen elements at the low end and counts them. -/
theorem vcompress_answers (hl : tunLive (s.tun t) = true) (hm : 0 < effCount (s.tun t) (widthOf w.vew)) :
    AnswersTun s t (exec (.vcompress t w) s) fun y =>
      let x := s.tun t
      y = { x with v := y.v, vtag := y.vtag, vkind := y.vkind, s := y.s, stag := y.stag, vew := w.vew } ∧
      (∀ r, r ≠ w.vdst.toNat → Tab.getD y.v r 0 = Tab.getD x.v r 0) ∧
      (∀ r, r ≠ w.sd.toNat → scalar y r = scalar x r) ∧
      scalar y w.sd.toNat = (if w.sd = 0 then 0 else BitVec.ofNat 64 (chosenAt x w).length) ∧
      (∀ i (h : i < (chosenAt x w).length), element (widthOf w.vew) y w.vdst.toNat i = elemA x w (chosenAt x w)[i]) ∧
      ∀ j, effCount x (widthOf w.vew) ≤ j → element (widthOf w.vew) y w.vdst.toNat j = elemD x w j := by
  have hfit := widthOf_mul_effCount (s.tun t) w.vew
  refine ⟨_, congrArg _ (vop_writesBoth (code := 0x46) hl ⟨rfl, contains_widthOf _, rfl, rfl⟩ hm (compressV_run (s.tun t) w)),
    ?frame, fun r hr => ?regs, fun r hr => ?scalars, ?count, fun i hi => ?chosen, fun j hj => ?rest⟩
  case frame => unfold setS setV; split_ifs <;> rfl
  case regs => rw [setS_v]; exact ((setV_only (atWord w (s.tun t)) _ _ _ _ _).2 r hr).1
  case scalars => rw [scalar_setS_of_ne hr, scalar, setV_s]; rfl
  case count => rw [scalar_sd, List.length_map]
  case chosen =>
    have hin := hi.trans_le (length_chosenAt_le _ _)
    rw [element, setS_v]
    refine (element_setV_le (atWord w (s.tun t)) _ _ _ _ _ _ hfit i).trans ?_
    rw [if_pos hin, velem_mod hin, velem_vpack_add (by simpa using hi), ofNat_velem_vpack (by simpa using hi), List.getElem_map,
      BitVec.ofNat_toNat, BitVec.setWidth_eq]
  case rest =>
    rw [element, setS_v]
    exact (element_setV_le (atWord w (s.tun t)) _ _ _ _ _ _ hfit j).trans (if_neg (Nat.not_lt.mpr hj))

end

end Sys2Proof.Machine

open Sys2Proof Sys2Proof.Machine

/-- Settles O5: compares are element-wise; the others write the scalar destination. -/
theorem compareAndReduceVectorOpsWriteTheirResults : Obligations.CompareAndReduceVectorOpsWriteTheirResults := by
  intro s t w hl
  have hle : ∀ (n : Nat) (a b : BitVec n), decide (sgn n a.toNat ≤ sgn n b.toNat) = a.sle b := fun n a b => by
    rw [sgn_toNat, sgn_toNat]; rfl
  have hlt : ∀ (n : Nat) (a b : BitVec n), decide (sgn n a.toNat < sgn n b.toNat) = a.slt b := fun n a b => by
    rw [sgn_toNat, sgn_toNat]; rfl
  refine ⟨cmp_elementWise (· == ·) hl rfl toNat_beq, cmp_elementWise (· != ·) hl rfl toNat_bne,
    cmp_elementWise BitVec.ult hl rfl fun a b => rfl, cmp_elementWise BitVec.slt hl rfl (hlt _),
    cmp_elementWise BitVec.ule hl rfl fun a b => rfl, cmp_elementWise BitVec.sle hl rfl (hle _),
    fun hm => ⟨?redadd, ?redor, ?ext, ?compress⟩, ?idle⟩
  case redadd =>
    have h := vop_answersScalar (code := 0x47) hl ⟨rfl, contains_widthOf _, rfl, rfl⟩ hm rfl
    simp only [ofNat_mod_two_pow 64] at h
    rw [← velems_eq]
    exact h
  case redor =>
    have h := vop_answersScalar (code := 0x48) hl ⟨rfl, contains_widthOf _, rfl, rfl⟩ hm rfl
    have hor := ofNat_foldl_or ((List.range (effCount (s.tun t) (widthOf w.vew))).map (elemA (s.tun t) w)) 0
    rw [List.map_map, Function.comp_def, ← velems_eq] at hor
    rwa [vopIn_w, vopIn_n, vopIn_a, hor] at h
  case ext =>
    obtain ⟨y, hy, honly, hsd⟩ := vop_answersScalar (code := 0x0E) hl ⟨rfl, contains_widthOf _, rfl, rfl⟩ hm rfl
    refine ⟨y, hy, honly, fun hk => ?_⟩
    rw [hsd, vopIn_w, vopIn_word, if_pos hk, ← BitVec.ofNat_toNat, element_toNat]
    rfl
  case compress => exact vcompress_answers hl hm
  case idle =>
    rintro hz c (rfl | rfl | rfl | rfl) <;>
      exact ⟨_, congrArg _ (vop_idle hl ⟨rfl, contains_widthOf _, rfl, rfl⟩ rfl hz), rfl⟩
end

section
/-!
SUPPORT. Width changes, bit packing, carry-less products, share conversions (R121, R136) and the tags of results (R138).
-/

namespace Sys2Proof.Machine

/-! ## Bits of a packed register -/

theorem testBit_velem (n r j i : Nat) : (velem n r j).testBit i = (decide (i < n) && r.testBit (n * j + i)) := by
  rw [velem, Nat.testBit_mod_two_pow, Nat.testBit_div_two_pow, Nat.add_comm]

theorem testBit_vpack (k : Nat) (es : List Nat) (i : Nat) (hk : 0 < k) :
    (vpack k es).testBit i = (es.getD (i / k) 0).testBit (i % k) := by
  have h := testBit_velem k (vpack k es) (i / k) (i % k)
  have hi := Nat.mod_lt i hk
  rw [velem_vpack, Nat.testBit_mod_two_pow, Nat.div_add_mod, decide_eq_true hi, Bool.true_and, Bool.true_and] at h
  exact h.symm

theorem velems_getD {n m j : Nat} (hj : j < m) (x : Tun) (r : Nat) : (velems n m (vreg x r)).getD j 0 = (element n x r j).toNat := by
  rw [velems_eq, List.getD_eq_getElem _ _ (by simpa using hj), List.getElem_map, List.getElem_range]

section
variable {s : State} {t code : Nat} {w : Microword}

/-- A result of `m` elements of width `n`, taken from the first elements of `VSRC_A`. -/
theorem vop_answersResized {o : VOp} {n m : Nat} {e : Nat → Nat} {f : Nat → BitVec n} (hl : tunLive (s.tun t) = true)
    (h : VopRuns (s.tun t) w code o) (hr : o.run (vopIn w (s.tun t)) = vout n ((List.range m).map e))
    (hz : effCount (s.tun t) (widthOf w.vew) = 0 → m = 0) (hfit : n * m ≤ 8192) (hf : ∀ j, BitVec.ofNat n (e j) = f j) :
    AnswersTun s t (.next (actOn t w (vectorAct code) s)) fun y =>
      OnlyVector (s.tun t) y w.vew w.vdst.toNat ∧ Elements n (s.tun t) y w.vdst.toNat m f := by
  have hlen : ((List.range m).map e).length = m := by simp
  obtain ⟨y, hy, -, honly, hel⟩ := vop_writesElements (f := f) hl h hr (fun _ hm => hlen.trans (hz hm)) (hlen.symm ▸ hfit)
    fun j hj => by rw [List.getElem_map, List.getElem_range, hf]
  exact ⟨y, hy, honly, hlen ▸ hel⟩

theorem two_mul_widthOf_mul_half (x : Tun) (c : BitVec 2) :
    2 * widthOf c * min (effCount x (widthOf c)) (vlMax (widthOf c) / 2) ≤ 8192 := by
  have hhalf : 2 * min (effCount x (widthOf c)) (vlMax (widthOf c) / 2) ≤ vlMax (widthOf c) := by omega
  have h := Nat.mul_le_mul_left (widthOf c) hhalf
  rw [widthOf_mul_vlMax] at h
  linarith

/-- `VPACKB` strings the low bits of the elements together. -/
theorem vpackb_answers (hl : tunLive (s.tun t) = true) {k : Nat} (hk : k = shiftOf (vopIn w (s.tun t))) (hkn : k ≤ widthOf w.vew) :
    AnswersTun s t (exec (.vpackb t w) s) fun y =>
      OnlyVector (s.tun t) y w.vew w.vdst.toNat ∧
      (∀ i, i < k * effCount (s.tun t) (widthOf w.vew) →
        (Tab.getD y.v w.vdst.toNat 0).getLsbD i = (elemA (s.tun t) w (i / k)).getLsbD (i % k)) ∧
      ∀ j, effCount (s.tun t) (widthOf w.vew) ≤ j → element (widthOf w.vew) y w.vdst.toNat j = elemD (s.tun t) w j := by
  have hfit := widthOf_mul_effCount (s.tun t) w.vew
  have hrun : packBits (vopIn w (s.tun t)) = { vec := some (widthOf w.vew * effCount (s.tun t) (widthOf w.vew), _) } :=
    if_neg (hk ▸ Nat.not_lt.mpr hkn)
  refine ⟨_, congrArg _ (vop_writesVector (code := 0x63) hl ⟨rfl, contains_widthOf _, rfl, rfl⟩ hrun fun _ hm => by
    rw [hm, Nat.mul_zero]), setV_only (atWord w (s.tun t)) _ _ _ _ _, fun i hi => ?bits, fun j hj => ?rest⟩
  case rest => exact (element_setV_le (atWord w (s.tun t)) _ _ _ _ _ _ hfit j).trans (if_neg (Nat.not_lt.mpr hj))
  case bits =>
    have hk0 : 0 < k := Nat.pos_of_ne_zero fun h0 => by simp [h0] at hi
    have hj : i / k < effCount (s.tun t) (widthOf w.vew) := Nat.div_lt_of_lt_mul hi
    have hlt := vpack_lt k (velems (widthOf w.vew) (effCount (s.tun t) (widthOf w.vew)) (vreg (s.tun t) w.vsrcA.toNat))
    rw [velems_length] at hlt
    rw [getLsbD_setV hfit, if_pos (hi.trans_le (Nat.mul_le_mul_right _ hkn))]
    simp only [← hk, vopIn_w, vopIn_n, vopIn_a]
    rw [Nat.add_comm, Nat.testBit_two_pow_mul_add _ hlt, if_pos hi, testBit_vpack _ _ _ hk0, velems_getD hj]
    rfl

end

end Sys2Proof.Machine

open Sys2Proof Sys2Proof.Machine

/-- Settles O8: each row is a list of elements of its own count and width. -/
theorem widthAndPackingOpsWriteTheirResults : Obligations.WidthAndPackingOpsWriteTheirResults := by
  intro s t w hl
  refine ⟨vop_answersResized hl ⟨rfl, contains_widthOf _, rfl, rfl⟩ rfl (fun hm => by rw [hm, Nat.zero_min])
      (two_mul_widthOf_mul_half _ _) fun j => ?u,
    vop_answersResized hl ⟨rfl, contains_widthOf _, rfl, rfl⟩ (congrArg (vout _) (List.map_map)) (fun hm => by rw [hm, Nat.zero_min])
      (two_mul_widthOf_mul_half _ _) fun j => ?s,
    vop_answersResized hl ⟨rfl, contains_widthOf _, rfl, rfl⟩ rfl id
      ((Nat.mul_le_mul_right _ (Nat.div_le_self _ _)).trans (widthOf_mul_effCount _ _)) fun j => ?n,
    fun hk => ⟨vpackb_answers hl rfl hk,
      (gives_range rfl (if_neg (Nat.not_lt.mpr hk)) fun j => ?unpack).elementWise hl ⟨rfl, contains_widthOf _, rfl, rfl⟩⟩⟩
  case u => rw [vopIn_w, vopIn_a, ← element_toNat, BitVec.ofNat_toNat]
  case s => rw [Function.comp, vopIn_w, vopIn_a, ofNat_wrap, ← element_toNat, sgn_toNat]; rfl
  case n => rw [vopIn_w, vopIn_a, ← element_toNat, BitVec.ofNat_toNat]
  case unpack => rw [← BitVec.ofNat_toNat, BitVec.extractLsb'_toNat, Nat.shiftRight_eq_div_pow]; rfl
end

section
/-!
SUPPORT. Carry-less products, share conversions (R121, R136) and the tags of results (R138).
-/

namespace Sys2Proof.Machine

/-! ## Carry-less products -/

/-- Coefficient `i` of the carry-less product: the parity of the pairs of one bits whose places add up to `i`. -/
theorem testBit_clmul (a b i : Nat) : (clmul a b).testBit i =
    (((List.range 64).filter fun k => b.testBit k && decide (k ≤ i) && a.testBit (i - k)).length % 2 == 1) := by
  have hstep (l : List Nat) : (l.foldl (fun p k => if bit b k then p ^^^ (a * 2 ^ k) else p) 0).testBit i =
      ((l.filter fun k => b.testBit k && decide (k ≤ i) && a.testBit (i - k)).length % 2 == 1) := by
    induction l using List.reverseRecOn with
    | nil => simp
    | append_singleton l k ih =>
      have hbit : bit b k = b.testBit k := by rw [Nat.testBit_eq_decide_div_mod_eq]; rfl
      rw [List.foldl_append, List.filter_append, List.length_append, List.foldl_cons, List.foldl_nil, hbit]
      cases hb : b.testBit k with
      | false => rw [if_neg Bool.false_ne_true, ih, List.filter_singleton, hb]; rfl
      | true =>
        rw [if_pos rfl, Nat.testBit_xor, ih, ← Nat.shiftLeft_eq, Nat.testBit_shiftLeft, List.filter_singleton, hb, Bool.true_and]
        cases decide (k ≤ i) && a.testBit (i - k) with
        | false => rw [Bool.xor_false]; rfl
        | true =>
          rw [cond_true, List.length_singleton, Nat.add_mod]
          rcases Nat.mod_two_eq_zero_or_one (List.filter _ l).length with h | h <;> rw [h] <;> rfl
  exact hstep _

/-- The two halves of the product of elements of width 64. -/
theorem getLsbD_clmul_low {n : Nat} (hn : n = 64) (a b : BitVec n) {i : Nat} (hi : i < 64) :
    (BitVec.ofNat n (clmul a.toNat b.toNat % 2 ^ 64)).getLsbD i =
      (((List.range 64).filter fun k => b.getLsbD k && decide (k ≤ i) && a.getLsbD (i - k)).length % 2 == 1) := by
  subst hn
  rw [BitVec.getLsbD_ofNat, Nat.testBit_mod_two_pow, testBit_clmul, decide_eq_true hi, Bool.true_and, Bool.true_and]
  rfl

theorem getLsbD_clmul_high {n : Nat} (hn : n = 64) (a b : BitVec n) {i : Nat} (hi : i < 64) :
    (BitVec.ofNat n (clmul a.toNat b.toNat / 2 ^ 64)).getLsbD i =
      (((List.range 64).filter fun k => b.getLsbD k && decide (k ≤ 64 + i) && a.getLsbD (64 + i - k)).length % 2 == 1) := by
  subst hn
  rw [BitVec.getLsbD_ofNat, Nat.testBit_div_two_pow, Nat.add_comm, testBit_clmul, decide_eq_true hi, Bool.true_and]
  rfl

section
variable {s : State} {t code : Nat} {w : Microword} {o : VOp} {f : Nat → BitVec (widthOf w.vew)}

/-! ## Share conversions -/

/-- A source with a tag gives the result its tag (R138). -/
theorem vopTag_of_tagged {x : Tun} (hu : o.useA = true) (ha : vTag x w.vsrcA.toNat = true) : vopTag o w x = true := by
  rw [vopTag, vopSources, if_pos hu]
  simp [ha]

/-- Where the source is tagged, the result is tagged and has the kind of R136. -/
theorem VOp.Gives.answersKind (hg : o.Gives w (s.tun t) f) (hl : tunLive (s.tun t) = true) (h : VopRuns (s.tun t) w code o)
    (hu : o.useA = true) :
    AnswersTun s t (.next (actOn t w (vectorAct code) s)) fun y =>
      OnlyVector (s.tun t) y w.vew w.vdst.toNat ∧
      Elements (widthOf w.vew) (s.tun t) y w.vdst.toNat (effCount (s.tun t) (widthOf w.vew)) f ∧
      (0 < effCount (s.tun t) (widthOf w.vew) → vTag (s.tun t) w.vsrcA.toNat = true →
        vTag y w.vdst.toNat = true ∧ vKind y w.vdst.toNat = o.kindAt w (s.tun t)) := by
  obtain ⟨y, hy, ⟨v, hset⟩, honly, hel⟩ := hg.answers hl h
  refine ⟨y, hy, honly, hel, fun hm ha => ?_⟩
  have hk := (Nat.mul_pos (widthOf_pos w.vew) hm).ne'
  rw [vopTag_of_tagged hu ha] at hset
  exact ⟨by rw [hset, vTag_setV hk, Bool.true_or], by rw [hset, vKind_setV hk]⟩

/-! ## Tags of results -/

/-- The tag of the result is the OR of the sources' tags, with the old tag where part of the register is kept. -/
theorem VOp.Gives.tag {src : Bool} (hg : o.Gives w (s.tun t) f) (hl : tunLive (s.tun t) = true) (h : VopRuns (s.tun t) w code o)
    (hsrc : vopTag o w (s.tun t) = src) :
    AnswersTun s t (.next (actOn t w (vectorAct code) s)) fun y =>
      vTag y w.vdst.toNat = if effCount (s.tun t) (widthOf w.vew) = 0 then vTag (s.tun t) w.vdst.toNat
        else src || (decide (effCount (s.tun t) (widthOf w.vew) < vlMax (widthOf w.vew)) && vTag (s.tun t) w.vdst.toNat) := by
  obtain ⟨y, hy, ⟨v, hset⟩, -, -⟩ := hg.answers hl h
  refine ⟨y, hy, ?_⟩
  rw [hset]
  split
  · next hz => rw [hz, Nat.mul_zero, setV_none]; rfl
  · next hz =>
    rw [vTag_setV (Nat.mul_pos (widthOf_pos w.vew) (Nat.pos_of_ne_zero hz)).ne', hsrc, vTag_atWord]
    simp only [widthOf_mul_lt_iff]

/-- A row with two sources. -/
theorem map2_tag {g : VIn → Nat → Nat → Nat} {src : Bool} (hl : tunLive (s.tun t) = true) (h : VopRuns (s.tun t) w code o)
    (hr : o.run = map2 g) (hn : o.whole = false) (hsrc : vopTag o w (s.tun t) = src) :
    AnswersTun s t (.next (actOn t w (vectorAct code) s)) fun y =>
      vTag y w.vdst.toNat = if effCount (s.tun t) (widthOf w.vew) = 0 then vTag (s.tun t) w.vdst.toNat
        else src || (decide (effCount (s.tun t) (widthOf w.vew) < vlMax (widthOf w.vew)) && vTag (s.tun t) w.vdst.toNat) :=
  (gives_map2 (fun a b => BitVec.ofNat _ (g (vopIn w (s.tun t)) a.toNat b.toNat)) hr hn fun _ _ => rfl).tag hl h hsrc

/-- A row with one source. -/
theorem map1_tag {g : VIn → Nat → Nat} {src : Bool} (hl : tunLive (s.tun t) = true) (h : VopRuns (s.tun t) w code o)
    (hr : o.run = map1 g) (hn : o.whole = false) (hsrc : vopTag o w (s.tun t) = src) :
    AnswersTun s t (.next (actOn t w (vectorAct code) s)) fun y =>
      vTag y w.vdst.toNat = if effCount (s.tun t) (widthOf w.vew) = 0 then vTag (s.tun t) w.vdst.toNat
        else src || (decide (effCount (s.tun t) (widthOf w.vew) < vlMax (widthOf w.vew)) && vTag (s.tun t) w.vdst.toNat) :=
  (gives_map1 (fun a => BitVec.ofNat _ (g (vopIn w (s.tun t)) a.toNat)) hr hn fun _ => rfl).tag hl h hsrc

theorem vopTag_one {x : Tun} (hA : o.useA = true) (hB : o.useB = false) (hD : o.useD = false) (hS : o.useS = false) :
    vopTag o w x = vTag x w.vsrcA.toNat := by
  simp [vopTag, vopSources, hA, hB, hD, hS]

theorem vopTag_two {x : Tun} (hA : o.useA = true) (hB : o.useB = true) (hD : o.useD = false) (hS : o.useS = false) :
    vopTag o w x = (vTag x w.vsrcA.toNat || vTag x w.vsrcB.toNat) := by
  simp [vopTag, vopSources, hA, hB, hD, hS]

/-- The tag of a scalar result. -/
theorem vop_scalarTag {v : Nat} {src : Bool} (hl : tunLive (s.tun t) = true) (h : VopRuns (s.tun t) w code o)
    (hm : 0 < effCount (s.tun t) (widthOf w.vew)) (hr : o.run (vopIn w (s.tun t)) = { scal := some v }) (hd : w.sd ≠ 0)
    (hsrc : vopTag o w (s.tun t) = src) :
    AnswersTun s t (.next (actOn t w (vectorAct code) s)) fun y => sTag y w.sd.toNat = src := by
  refine ⟨_, congrArg _ (vop_writesScalar hl h hm hr), ?_⟩
  have hd' : w.sd.toNat ≠ 0 := fun h0 => hd (BitVec.eq_of_toNat_eq h0)
  exact (sTag_setS_self _ _ _ _).trans (by rw [decide_eq_true hd', Bool.true_and, hsrc])

end

end Sys2Proof.Machine

open Sys2Proof Sys2Proof.Machine

/-- Settles O9: the product's coefficients, and conversions that keep the elements. -/
theorem carrylessAndShareOpsWriteTheirResults : Obligations.CarrylessAndShareOpsWriteTheirResults := by
  intro s t w hl
  refine ⟨fun hv => ⟨?low, ?high⟩, ?a2b, fun hq h4 => ?b2a, ?refresh⟩
  case low =>
    exact ((gives_map2 (fun a b => BitVec.ofNat _ (clmul a.toNat b.toNat % 2 ^ 64)) rfl rfl fun _ _ => rfl).elementWise hl
      ⟨rfl, by rw [hv]; rfl, rfl, rfl⟩).satisfy fun j i hi => getLsbD_clmul_low (by rw [hv]; rfl) _ _ hi
  case high =>
    exact ((gives_map2 (fun a b => BitVec.ofNat _ (clmul a.toNat b.toNat / 2 ^ 64)) rfl rfl fun _ _ => rfl).elementWise hl
      ⟨rfl, by rw [hv]; rfl, rfl, rfl⟩).satisfy fun j i hi => getLsbD_clmul_high (by rw [hv]; rfl) _ _ hi
  case a2b =>
    exact (gives_map1 id rfl rfl fun a => ofNat_of_toNat rfl).answersKind (code := 0x70) hl ⟨rfl, contains_widthOf _, rfl, rfl⟩ rfl
  case b2a =>
    obtain ⟨y, hy, honly, hel, hkind⟩ := (gives_map1 id rfl rfl fun a => ofNat_of_toNat rfl).answersKind (code := 0x71) hl
      ⟨rfl, contains_widthOf _, rfl, Bool.or_eq_false_iff.mpr ⟨beq_false_of_ne hq, h4⟩⟩ rfl
    exact ⟨y, hy, honly, hel, fun hm ha => ⟨(hkind hm ha).1, _, (hkind hm ha).2, rfl⟩⟩
  case refresh =>
    exact (gives_map1 id rfl rfl fun a => ofNat_of_toNat rfl).answersKind (code := 0x72) hl ⟨rfl, contains_widthOf _, rfl, rfl⟩ rfl
end

section
/-!
SUPPORT. The scalar unit (R130, R131): a result with its flags, the arithmetic of 64-bit words, and packed lanes.
-/

namespace Sys2Proof.Machine

section
variable {s : State} {t code : Nat} {w : Microword}

/-! ## A result and its flags -/

theorem bit_63 (res : BitVec 64) : bit res.toNat 63 = res.msb := by
  rw [BitVec.msb_eq_getLsbD_last, BitVec.getLsbD, Nat.testBit_eq_decide_div_mod_eq]; rfl

theorem toNat_beq_zero (res : BitVec 64) : (res.toNat == 0) = (res == 0) := toNat_beq res 0

/-- What the scalar unit leaves: the result in the destination, the flags of R130, and the result's tag. -/
def scalarDone (w : Microword) (x : Tun) (res : BitVec 64) (carry tag : Bool) : Tun :=
  setFlags (setS (atWord w x) w.sd.toNat res.toNat tag) res.toNat carry tag

theorem scalarDone_eq (x : Tun) (res : BitVec 64) (carry tag : Bool) :
    let y := scalarDone w x res carry tag
    y = { x with s := y.s, stag := y.stag, vew := w.vew, fz := res == 0, fn := res.msb, fc := carry, ftag := tag } := by
  rw [← toNat_beq_zero, ← bit_63]
  unfold scalarDone setS
  split <;> rfl

theorem scalar_scalarDone (x : Tun) (res : BitVec 64) (carry tag : Bool) :
    scalar (scalarDone w x res carry tag) w.sd.toNat = if w.sd = 0 then 0 else res :=
  (scalar_sd w (atWord w x) res.toNat tag).trans (by rw [BitVec.ofNat_toNat, BitVec.setWidth_eq])

theorem sTag_scalarDone (x : Tun) (res : BitVec 64) (carry tag : Bool) :
    sTag (scalarDone w x res carry tag) w.sd.toNat = (decide (w.sd.toNat ≠ 0) && tag) := sTag_setS_self _ _ _ _

theorem scalarResult_of_writes {res : BitVec 64} {carry tag : Bool} {s' : State}
    (h : s' = s.setTun t (scalarDone w (s.tun t) res carry tag)) : ScalarResult s t w res carry (.next s') :=
  ⟨_, congrArg _ h, scalarDone_eq _ _ _ _,
    fun _ hn => ⟨scalar_setS_of_ne hn (atWord w (s.tun t)) _ _, sTag_setS_of_ne hn (atWord w (s.tun t)) _ _⟩,
    scalar_scalarDone _ _ _ _⟩

/-- An operation of R130's table writes its result. -/
theorem scalarAct_writes {o : SOut} {res : BitVec 64} (hl : tunLive (s.tun t) = true)
    (ho : scalarOp code (scalar (s.tun t) w.sa.toNat).toNat (scalar (s.tun t) w.sb.toNat).toNat w.imm.toNat (s.tun t).vl = some o)
    (hres : o.res = res.toNat) :
    actOn t w (scalarAct code) s = s.setTun t (scalarDone w (s.tun t) res o.carry
      ((o.useA && sTag (s.tun t) w.sa.toNat) || (o.useB && sTag (s.tun t) w.sb.toNat))) := by
  have h0 : code ≠ 0 := by rintro rfl; cases ho
  have h0B : code ≠ 0x0B := by rintro rfl; cases ho
  have h18 : code ≠ 0x18 := by rintro rfl; cases ho
  rw [scalar_toNat, scalar_toNat] at ho
  refine actOn_ok hl ?_
  simp only [scalarAct, if_neg h0, if_neg h0B, if_neg h18, sreg_atWord, sTag_atWord]
  rw [show (atWord w (s.tun t)).vl = (s.tun t).vl from rfl, ho, scalarDone, ← hres]

theorem scalarOp_result {o : SOut} {res : BitVec 64} {carry : Bool} (hl : tunLive (s.tun t) = true)
    (ho : scalarOp code (scalar (s.tun t) w.sa.toNat).toNat (scalar (s.tun t) w.sb.toNat).toNat w.imm.toNat (s.tun t).vl = some o)
    (hres : o.res = res.toNat) (hc : o.carry = carry) : ScalarResult s t w res carry (.next (actOn t w (scalarAct code) s)) :=
  hc ▸ scalarResult_of_writes (scalarAct_writes hl ho hres)

/-! ## Words of 64 bits -/

theorem b2n_toNat (p : Bool) : b2n p = (if p then 1 else 0 : BitVec 64).toNat := by cases p <;> rfl

theorem velem_byte (a : BitVec 64) (i : Nat) : velem 8 a.toNat i = ((a >>> (8 * i)) &&& 0xFF).toNat := by
  rw [BitVec.toNat_and, BitVec.toNat_ushiftRight, Nat.shiftRight_eq_div_pow]
  exact (Nat.and_two_pow_sub_one_eq_mod _ 8).symm

theorem slih_toNat (imm : BitVec 32) (low : Nat) :
    imm.toNat * 2 ^ 32 + low % 2 ^ 32 = (imm ++ BitVec.ofNat 32 low).toNat := by
  rw [BitVec.toNat_append, BitVec.toNat_ofNat, Nat.shiftLeft_eq, Nat.mul_comm,
    Nat.two_pow_add_eq_or_of_lt (Nat.mod_lt _ (Nat.two_pow_pos _))]

/-! ## Packed lanes -/

theorem packed_lt {n : Nat} (hn : n * (64 / n) = 64) (F : Nat → Nat → Int) (a b : Nat) : packed n F a b < 2 ^ 64 := by
  refine (vpack_lt _ _).trans_le (Nat.pow_le_pow_right (by decide) ?_)
  rw [List.length_zipWith, velems_length, velems_length, Nat.min_self, hn]

theorem extractLsb'_lane_toNat (n i : Nat) (r : BitVec 64) : (r.extractLsb' (n * i) n).toNat = velem n r.toNat i := by
  rw [BitVec.extractLsb'_toNat, Nat.shiftRight_eq_div_pow]; rfl

/-- Lane by lane, the packed operation computes `f`, where its integer function stands for `f`. -/
theorem lanes_packed {n : Nat} {F : Nat → Nat → Int} {f : BitVec n → BitVec n → BitVec n} (hn : n * (64 / n) = 64)
    (hF : ∀ a b : BitVec n, BitVec.ofInt n (F a.toNat b.toNat) = f a b) (a b : BitVec 64) :
    lanes n f a b (BitVec.ofNat 64 (packed n F a.toNat b.toNat)) := by
  intro i hi
  have hlen : i < (List.zipWith (fun x y => wrap n (F x y)) (velems n (64 / n) a.toNat) (velems n (64 / n) b.toNat)).length := by
    rwa [List.length_zipWith, velems_length, velems_length, Nat.min_self]
  rw [← hF, ← ofNat_wrap, extractLsb'_lane_toNat, extractLsb'_lane_toNat]
  refine BitVec.eq_of_toNat_eq ?_
  rw [extractLsb'_lane_toNat, BitVec.toNat_ofNat, Nat.mod_eq_of_lt (packed_lt hn _ _ _), packed, velem_vpack,
    List.getD_eq_getElem _ _ hlen, List.getElem_zipWith, velems_getElem, velems_getElem, BitVec.toNat_ofNat]

theorem packed_result {n : Nat} {F : Nat → Nat → Int} (f : BitVec n → BitVec n → BitVec n) (hl : tunLive (s.tun t) = true)
    (hn : n * (64 / n) = 64) (hF : ∀ a b : BitVec n, BitVec.ofInt n (F a.toNat b.toNat) = f a b)
    (ho : ∀ a b imm vl, scalarOp code a b imm vl = some { res := packed n F a b }) :
    ∃ r, ScalarResult s t w r false (.next (actOn t w (scalarAct code) s)) ∧
      lanes n f (scalar (s.tun t) w.sa.toNat) (scalar (s.tun t) w.sb.toNat) r :=
  ⟨_, scalarOp_result hl (ho _ _ _ _) (by rw [BitVec.toNat_ofNat, Nat.mod_eq_of_lt (packed_lt hn _ _ _)]) rfl,
    lanes_packed hn hF _ _⟩

theorem ofInt_toNat_add {n : Nat} (a b : BitVec n) : BitVec.ofInt n ((a.toNat : Int) + b.toNat) = a + b := by
  rw [BitVec.ofInt_add, ofInt_toNat, ofInt_toNat]

/-! ## Modulus registers -/

theorem setM_eq (x : Tun) (k : Nat) (v : BitVec 31) :
    let y := setM x k v
    y = { x with m0 := y.m0, m1 := y.m1, m2 := y.m2, m3 := y.m3 } := by
  dsimp only; unfold setM; split <;> rfl

theorem mreg_setM (x : Tun) {k i : Nat} (hk : k < 4) (hi : i < 4) (v : BitVec 31) :
    mreg (setM x k v) i = if i = k then v.toNat else mreg x i := by
  interval_cases k <;> interval_cases i <;> rfl

theorem toNat_modulusBits (x : Tun) (r : Nat) : ((scalar x r).extractLsb' 0 31).toNat = sreg x r % 2 ^ 31 := by
  rw [BitVec.extractLsb'_toNat, Nat.shiftRight_zero, scalar_toNat]

/-- `SMSET` with an untagged value above 1. -/
theorem smset_sets (hl : tunLive (s.tun t) = true) (ht : sTag (s.tun t) w.sa.toNat = false)
    (h2 : 2 ≤ sreg (s.tun t) w.sa.toNat % 2 ^ 31) :
    actOn t w (scalarAct 0x18) s = s.setTun t (setFlags (setM (atWord w (s.tun t)) (w.imm.toNat % 4)
      (BitVec.ofNat 31 (sreg (s.tun t) w.sa.toNat))) (sreg (s.tun t) w.sa.toNat % 2 ^ 31) false false) := by
  refine actOn_ok hl ?_
  simp only [scalarAct, sTag_atWord, sreg_atWord, ht, Nat.not_lt.mpr h2, Bool.false_eq_true, if_false]
  rfl

/-- `SLIH` puts the immediate above the low half. -/
theorem slih_writes (hl : tunLive (s.tun t) = true) :
    actOn t w (scalarAct 0x0B) s = s.setTun t (scalarDone w (s.tun t)
      (w.imm ++ BitVec.ofNat 32 (if w.sa = w.sd then sreg (s.tun t) w.sa.toNat
        else Config.freeNat 113 [sreg (s.tun t) w.sa.toNat, sreg (s.tun t) w.sd.toNat])) false
      (sTag (s.tun t) w.sa.toNat || sTag (s.tun t) w.sd.toNat)) := by
  refine actOn_ok hl ?_
  rw [scalarDone, ← slih_toNat]
  rfl

end

end Sys2Proof.Machine

open Sys2Proof Sys2Proof.Machine

/-- Settles O11: each row's result and carry are the word arithmetic of the operation. -/
theorem scalarOpsWriteResultAndFlags : Obligations.ScalarOpsWriteResultAndFlags := by
  refine ⟨fun s t w hl => ⟨⟨_, congrArg _ (actOn_ok hl rfl), rfl⟩, scalarOp_result hl rfl (BitVec.toNat_add _ _).symm rfl,
    scalarOp_result hl rfl ?sub rfl, scalarOp_result hl rfl (BitVec.toNat_and _ _).symm rfl,
    scalarOp_result hl rfl (BitVec.toNat_or _ _).symm rfl, scalarOp_result hl rfl (BitVec.toNat_xor _ _).symm rfl,
    scalarOp_result hl rfl ?shl rfl, scalarOp_result hl rfl ?shr rfl, scalarOp_result hl rfl ?sra rfl,
    scalarOp_result hl rfl (BitVec.toNat_mul _ _).symm rfl, scalarOp_result hl rfl ?sli rfl, ?slih,
    scalarOp_result hl rfl ?ltu rfl, scalarOp_result hl rfl ?eq rfl, scalarOp_result hl rfl (velem_byte _ _) rfl,
    scalarOp_result hl rfl (BitVec.toNat_ofNat _ _).symm rfl, scalarOp_result hl rfl (min_toNat _ _) rfl,
    scalarOp_result hl rfl (max_toNat _ _) rfl, ?a8, ?a16, ?a32, ?s8, ?s16, ?s32⟩, fun s t w hl => ⟨?set, ?low, ?tagged⟩⟩
  case sub => rw [wrap_eq, ofInt_toNat_sub]
  case shl => rw [BitVec.toNat_shiftLeft, Nat.shiftLeft_eq]
  case shr => rw [BitVec.toNat_ushiftRight, Nat.shiftRight_eq_div_pow]
  case sra => rw [wrap_eq, sgn_toNat, ofInt_toInt_div]
  case sli => rw [BitVec.toNat_setWidth, Nat.mod_eq_of_lt (w.imm.isLt.trans_le (by decide))]
  case slih =>
    refine ⟨_, scalarResult_of_writes (slih_writes hl), BitVec.extractLsb'_append_eq_left, fun hd => ?_⟩
    rw [if_pos hd, ← scalar_toNat, BitVec.extractLsb'_append_eq_right]
    exact BitVec.eq_of_toNat_eq (by simp)
  case ltu => exact b2n_toNat _
  case eq => simp only [toNat_beq, b2n_toNat, beq_iff_eq]
  case a8 => exact packed_result (· + ·) hl rfl ofInt_toNat_add fun _ _ _ _ => rfl
  case a16 => exact packed_result (· + ·) hl rfl ofInt_toNat_add fun _ _ _ _ => rfl
  case a32 => exact packed_result (· + ·) hl rfl ofInt_toNat_add fun _ _ _ _ => rfl
  case s8 => exact packed_result (· - ·) hl rfl ofInt_toNat_sub fun _ _ _ _ => rfl
  case s16 => exact packed_result (· - ·) hl rfl ofInt_toNat_sub fun _ _ _ _ => rfl
  case s32 => exact packed_result (· - ·) hl rfl ofInt_toNat_sub fun _ _ _ _ => rfl
  case set =>
    intro ht h2
    rw [toNat_modulusBits] at h2 ⊢
    have hk : w.imm.toNat % 4 < 4 := Nat.mod_lt _ (by decide)
    refine ⟨_, congrArg _ (smset_sets hl ht h2), ?_, ?_, fun i hi hne => ?_⟩
    · exact congrArg (fun y => setFlags y _ _ _) (setM_eq _ _ _)
    · exact (mreg_setM _ hk hk _).trans ((if_pos rfl).trans (BitVec.toNat_ofNat _ _))
    · exact (mreg_setM _ hk hi _).trans (if_neg hne)
  case low =>
    intro ht h2
    rw [toNat_modulusBits] at h2
    refine ⟨_, congrArg _ (actOn_error (f := .fault) hl ?_), rfl⟩
    simp only [scalarAct, sTag_atWord, sreg_atWord, ht, h2, Bool.false_eq_true, if_false, if_true]
    rfl
  case tagged =>
    intro ht
    refine ⟨_, congrArg _ (actOn_error (f := .taint) hl ?_), rfl⟩
    simp only [scalarAct, sTag_atWord, ht, if_true]
    rfl
end

section
/-!
SUPPORT. The tags of scalar results (R138): those of the sources that an operation reads.
-/

namespace Sys2Proof.Machine

theorem scalarOp_tag {s : State} {t code : Nat} {w : Microword} {o : SOut} {res : BitVec 64} {src : Bool}
    (hl : tunLive (s.tun t) = true)
    (ho : scalarOp code (scalar (s.tun t) w.sa.toNat).toNat (scalar (s.tun t) w.sb.toNat).toNat w.imm.toNat (s.tun t).vl = some o)
    (hres : o.res = res.toNat)
    (hsrc : ((o.useA && sTag (s.tun t) w.sa.toNat) || (o.useB && sTag (s.tun t) w.sb.toNat)) = src) :
    AnswersTun s t (.next (actOn t w (scalarAct code) s)) fun y =>
      y.ftag = src ∧ sTag y w.sd.toNat = (decide (w.sd.toNat ≠ 0) && src) :=
  ⟨_, congrArg _ (hsrc ▸ scalarAct_writes hl ho hres), rfl, sTag_scalarDone _ _ _ _⟩

theorem sd_toNat_ne_zero {w : Microword} (h : w.sd ≠ 0) : w.sd.toNat ≠ 0 := fun h0 => h (BitVec.eq_of_toNat_eq h0)

end Sys2Proof.Machine

open Sys2Proof Sys2Proof.Machine

/-- Settles O10: the sources of each row, and the part of the register that it writes. -/
theorem resultTagsAreTheOrOfSourceTags : Obligations.ResultTagsAreTheOrOfSourceTags := by
  intro s t w hl
  have hw := contains_widthOf w.vew
  refine ⟨map2_tag hl ⟨rfl, hw, rfl, rfl⟩ rfl rfl (vopTag_two rfl rfl rfl rfl),
    map2_tag hl ⟨rfl, hw, rfl, rfl⟩ rfl rfl (vopTag_two rfl rfl rfl rfl),
    map2_tag hl ⟨rfl, hw, rfl, rfl⟩ rfl rfl (vopTag_two rfl rfl rfl rfl),
    map2_tag hl ⟨rfl, hw, rfl, rfl⟩ rfl rfl (vopTag_two rfl rfl rfl rfl),
    map1_tag hl ⟨rfl, hw, rfl, rfl⟩ rfl rfl (vopTag_one rfl rfl rfl rfl),
    map1_tag hl ⟨rfl, hw, rfl, rfl⟩ rfl rfl (vopTag_one rfl rfl rfl rfl),
    (gives_range rfl rfl fun _ => rfl).tag hl ⟨rfl, hw, rfl, rfl⟩ ?selb,
    map2_tag hl ⟨rfl, hw, rfl, rfl⟩ rfl rfl (vopTag_two rfl rfl rfl rfl),
    (gives_replicate rfl rfl rfl).tag hl ⟨rfl, hw, rfl, rfl⟩ rfl,
    (gives_replicate rfl rfl rfl).tag hl ⟨rfl, hw, rfl, rfl⟩ rfl,
    fun hm hd => vop_scalarTag hl ⟨rfl, hw, rfl, rfl⟩ hm rfl hd (vopTag_one rfl rfl rfl rfl),
    fun hm hd => vop_scalarTag hl ⟨rfl, hw, rfl, rfl⟩ hm rfl hd (vopTag_one rfl rfl rfl rfl), ?sadd, ?sli⟩
  case selb => simp [vopTag, vopSources, Bool.or_assoc]
  case sadd =>
    obtain ⟨y, hy, hf, hd⟩ := scalarOp_tag (code := 0x01) hl rfl (BitVec.toNat_add _ _).symm rfl
    exact ⟨y, hy, hf, fun h0 => by rw [hd, decide_eq_true (sd_toNat_ne_zero h0), hf]; rfl⟩
  case sli =>
    obtain ⟨y, hy, hf, hd⟩ := scalarOp_tag (code := 0x0A) (res := w.imm.setWidth 64) hl rfl
      (by rw [BitVec.toNat_setWidth, Nat.mod_eq_of_lt (w.imm.isLt.trans_le (by decide))]) rfl
    exact ⟨y, hy, hf, hd.trans (Bool.and_false _)⟩
end

section
/-!
SUPPORT. The hash cores (R132, R133, R152): the core that a word names, and what an action leaves in a core or in a register.
-/

namespace Sys2Proof.Machine

section
variable {s : State} {t code : Nat} {w : Microword} {x : Tun} {e : TunEnv}

/-! ## The core that the word names -/

theorem coreAct_keccak (h1 : 1 ≤ w.hcore.toNat % 8) (h4 : w.hcore.toNat % 8 ≤ 4) :
    coreAct code e w x x = keccakAct code (w.hcore.toNat % 8 - 1) e w x x := by
  unfold coreAct
  generalize w.hcore.toNat % 8 = c at h1 h4 ⊢
  interval_cases c <;> rfl

theorem coreAct_sha (h5 : 5 ≤ w.hcore.toNat % 8) (h6 : w.hcore.toNat % 8 ≤ 6) :
    coreAct code e w x x = shaAct code (w.hcore.toNat % 8 - 5) e w x x := by
  unfold coreAct
  generalize w.hcore.toNat % 8 = c at h5 h6 ⊢
  interval_cases c <;> rfl

/-! ## What an action leaves -/

theorem keccakBecomes_of_act {a : Act} {c : Nat} {k : KecCore} (hl : tunLive (s.tun t) = true)
    (h : a (envOf s t (s.tun t)) w (atWord w (s.tun t)) (atWord w (s.tun t)) = .ok (setKec (atWord w (s.tun t)) c k)) :
    KeccakBecomes s t w c k (.next (actOn t w a s)) :=
  ⟨_, congrArg _ (actOn_ok hl h), rfl, Tab.getD_set_self _ _ _ _, fun _ hi => Tab.getD_set_of_ne _ _ _ hi⟩

theorem shaBecomes_of_act {a : Act} {c : Nat} {k : ShaCore} (hl : tunLive (s.tun t) = true)
    (h : a (envOf s t (s.tun t)) w (atWord w (s.tun t)) (atWord w (s.tun t)) = .ok (setSha (atWord w (s.tun t)) c k)) :
    ShaBecomes s t w c k (.next (actOn t w a s)) :=
  ⟨_, congrArg _ (actOn_ok hl h), rfl, Tab.getD_set_self _ _ _ _, fun _ hi => Tab.getD_set_of_ne _ _ _ hi⟩

theorem lowBits_of_act {a : Act} {k v : Nat} {f : Nat → Bool} {tag : Bool} (hl : tunLive (s.tun t) = true)
    (h : a (envOf s t (s.tun t)) w (atWord w (s.tun t)) (atWord w (s.tun t)) =
      .ok (setV (atWord w (s.tun t)) w.vdst.toNat k v tag .boolean))
    (hk : k ≤ 8192) (hf : ∀ i, i < k → v.testBit i = f i) : LowBits s t w k f tag (.next (actOn t w a s)) := by
  refine ⟨_, congrArg _ (actOn_ok hl h), setV_only (atWord w (s.tun t)) _ _ _ _ _, fun i _ => ?_,
    fun h0 => vTag_setV h0.ne' (atWord w (s.tun t)) _ _ _ _⟩
  refine (getLsbD_setV hk (atWord w (s.tun t)) _ _ _ _ i).trans ?_
  split
  · next hi => exact hf i hi
  · rfl

/-! ## States of a Keccak core -/

theorem ofNat_shiftLeft (n u k : Nat) : BitVec.ofNat n (u * 2 ^ k) = BitVec.ofNat n u <<< k :=
  BitVec.eq_of_toNat_eq (by
    rw [BitVec.toNat_ofNat, BitVec.toNat_shiftLeft, BitVec.toNat_ofNat, Nat.shiftLeft_eq, Nat.mod_mul_mod])

/-- Absorbed bytes, as the low bytes of a register. -/
theorem xorState_le (st : BitVec 1600) (o n : Nat) (src : BitVec 8192) :
    xorState st o (le n src.toNat) = st ^^^ ((src.extractLsb' 0 (8 * n)).setWidth 1600 <<< (8 * o)) := by
  rw [xorState, unle_le, ofNat_shiftLeft, ← BitVec.ofNat_toNat, BitVec.extractLsb'_toNat, Nat.shiftRight_zero]

theorem xorState_byte (st : BitVec 1600) (o : Nat) (b : BitVec 8) :
    xorState st o [b] = st ^^^ (BitVec.ofNat 1600 b.toNat <<< (8 * o)) := by
  rw [xorState, ofNat_shiftLeft]
  simp [unle]

end

end Sys2Proof.Machine

open Sys2Proof Sys2Proof.Machine

/-- Settles O12: the Keccak cores and the SHA cores each, one action at a time. -/
theorem hashCoreActionsActOnTheNamedCore : Obligations.HashCoreActionsActOnTheNamedCore := by
  intro s t w hl
  refine ⟨fun h1 h4 => ?keccak, fun h5 h6 => ?sha⟩
  case keccak =>
    have hc {code : Nat} := coreAct_keccak (code := code) (e := envOf s t (s.tun t)) (x := atWord w (s.tun t)) h1 h4
    refine ⟨fun hlo hhi => keccakBecomes_of_act hl (hc.trans (if_pos ⟨hlo, hhi⟩)),
      fun hfit => keccakBecomes_of_act hl (hc.trans ((if_neg (Nat.not_lt.mpr hfit)).trans ?absorb)),
      fun hlo hhi hmid => keccakBecomes_of_act hl (hc.trans ((if_neg (by omega)).trans ?pad)),
      keccakBecomes_of_act hl (hc.trans rfl),
      fun hfit => lowBits_of_act hl (hc.trans (if_neg (Nat.not_lt.mpr hfit))) (by omega) fun i hi => ?squeeze,
      lowBits_of_act hl (hc.trans rfl) (by decide) fun i _ => rfl,
      keccakBecomes_of_act hl (hc.trans ?restore)⟩
    case absorb => rw [← xorState_le]; rfl
    case pad =>
      rw [xorState_byte, xorState_byte, BitVec.toNat_ofNat, Nat.mod_mod_of_dvd _ (by decide)]; rfl
    case squeeze =>
      rw [Nat.testBit_mod_two_pow, Nat.testBit_div_two_pow, decide_eq_true hi, Bool.true_and, Nat.add_comm]; rfl
    case restore => rw [← BitVec.ofNat_toNat]; rfl
  case sha =>
    have hc {code : Nat} := coreAct_sha (code := code) (e := envOf s t (s.tun t)) (x := atWord w (s.tun t)) h5 h6
    refine ⟨fun hm => shaBecomes_of_act hl (hc.trans (if_pos hm)), shaBecomes_of_act hl (hc.trans rfl),
      lowBits_of_act hl (hc.trans rfl) ?fits fun i hi => ?save, shaBecomes_of_act hl (hc.trans rfl)⟩
    case fits => split <;> decide
    case save =>
      rw [BitVec.getLsbD_ofNat, decide_eq_true (hi.trans_le (by split <;> decide)), Bool.true_and]
      rfl
end

section
/-!
SUPPORT. What ends a routine (R121, R122, R124, R126, R139, R151): excluded widths, moduli that a group cannot work with, and
addresses that a load or a store cannot use.
-/

namespace Sys2Proof.Machine

section
variable {s : State} {t code : Nat} {w : Microword}

/-! ## Vector operations -/

theorem endsRoutine_of_fault {a : Act} (hl : tunLive (s.tun t) = true)
    (h : a (envOf s t (s.tun t)) w (atWord w (s.tun t)) (atWord w (s.tun t)) = .error .fault) :
    EndsRoutine s t 0x0701 (.next (actOn t w a s)) :=
  ⟨_, congrArg _ (actOn_error hl h), rfl⟩

theorem vop_faults {o : VOp} (hl : tunLive (s.tun t) = true) (ho : vopOf code = some o)
    (h : runVop o (envOf s t (s.tun t)) w (atWord w (s.tun t)) (atWord w (s.tun t)) = .error .fault) :
    EndsRoutine s t 0x0701 (.next (actOn t w (vectorAct code) s)) := by
  have hc : code ≠ 0 := by rintro rfl; cases ho
  refine endsRoutine_of_fault hl ?_
  rw [vectorAct, if_neg hc, ho]
  exact h

/-- A width that the group excludes. -/
theorem width_faults {o : VOp} (hl : tunLive (s.tun t) = true) (ho : vopOf code = some o)
    (hw : o.widths.contains (widthOf w.vew) = false) : EndsRoutine s t 0x0701 (.next (actOn t w (vectorAct code) s)) := by
  refine vop_faults hl ho ?_
  simp only [runVop, vopIn_atWord, vopIn_w, hw, Bool.not_false, if_true]

/-- Fields or a modulus that the operation cannot work with, at any width. -/
theorem bad_faults {o : VOp} (hl : tunLive (s.tun t) = true) (ho : vopOf code = some o) (hp : o.publicB = false)
    (hb : o.bad (vopIn w (s.tun t)) = true) : EndsRoutine s t 0x0701 (.next (actOn t w (vectorAct code) s)) := by
  refine vop_faults hl ho ?_
  simp only [runVop, vopIn_atWord, hp, hb, Bool.false_and, Bool.false_eq_true, if_false, if_true, ite_self]

theorem contains_16_32 {c : BitVec 2} (h : c = 0 ∨ c = 3) : [16, 32].contains (widthOf c) = false := by
  rcases h with rfl | rfl <;> rfl

theorem contains_8_16_32 {c : BitVec 2} (h : c = 3) : [8, 16, 32].contains (widthOf c) = false := by subst h; rfl

theorem contains_64 {c : BitVec 2} (h : c ≠ 3) : [64].contains (widthOf c) = false := by
  have hall : ∀ c : BitVec 2, c ≠ 3 → [64].contains (widthOf c) = false := by decide
  exact hall c h

/-- The moduli of R122 that no row of the group works with. -/
theorem modBad_of_unfit {x : Tun} (odd : Bool)
    (h : modulusOf x w = 0 ∨ (w.vew = 1 ∧ 2 ^ 15 ≤ modulusOf x w) ∨ w.vmod.getLsbD 4 = true) : modBad odd (vopIn w x) = true := by
  unfold modBad
  rw [vopIn_q, vopIn_w, vopIn_word]
  rcases h with h | ⟨hv, h⟩ | h
  · simp [h]
  · rw [hv, decide_eq_true h]
    simp [widthOf]
  · simp [h]

theorem modBad_of_even {x : Tun} (h : modulusOf x w % 2 = 0) : modBad true (vopIn w x) = true := by
  unfold modBad
  rw [vopIn_q]
  simp [h]

/-! ## Addresses -/

theorem scratchAddr_taint {e : TunEnv} {x : Tun} {f : BitVec 6} {n bytes first k : Nat} (h : sTag x (f.toNat % 16) = true) :
    scratchAddr e x f n bytes first k = .error .taint := if_pos h

theorem scratchAddr_fault {e : TunEnv} {x : Tun} {f : BitVec 6} {n bytes first k : Nat} (h : sTag x (f.toNat % 16) = false)
    (hbad : sreg x (f.toNat % 16) % (n / 8) ≠ 0 ∨ e.limit < sreg x (f.toNat % 16) + bytes ∨ 32 < first + k) :
    scratchAddr e x f n bytes first k = .error .fault := by
  rw [scratchAddr, h, if_neg Bool.false_ne_true]
  exact if_pos hbad

theorem scratchAddr_ok {e : TunEnv} {x : Tun} {f : BitVec 6} {n bytes first k : Nat} (h : sTag x (f.toNat % 16) = false)
    (ha : sreg x (f.toNat % 16) % (n / 8) = 0) (hb : sreg x (f.toNat % 16) + bytes ≤ e.limit) (hk : first + k ≤ 32) :
    scratchAddr e x f n bytes first k = .ok (sreg x (f.toNat % 16)) := by
  rw [scratchAddr, h, if_neg Bool.false_ne_true]
  exact if_neg (by omega)

theorem envOf_limit (s : State) (t : Nat) : (envOf s t (s.tun t)).limit = scratchSize s t := by
  unfold envOf
  split <;> rfl

/-- Gathering the gang's scratch changes nothing of the tun but its scratch. -/
theorem gather_eq (s : State) (ms : List Nat) (x : Tun) :
    let y := gather s ms x
    y = { x with scratch := y.scratch, lkind := y.lkind, ltag := y.ltag, written := y.written } := by
  dsimp only
  unfold gather
  split <;> rfl

/-- The tun as a load or a store sees it: the gang's scratch, at the word's element width. -/
theorem seen_eq (s : State) (t : Nat) (w : Microword) : seen s t w = { s.tun t with
    scratch := (seen s t w).scratch, lkind := (seen s t w).lkind, ltag := (seen s t w).ltag, written := (seen s t w).written
    vew := w.vew } := congrArg (atWord w) (gather_eq s (gangOf s t (s.tun t)) (s.tun t))

@[simp] theorem sreg_seen (r : Nat) : sreg (seen s t w) r = sreg (s.tun t) r := by rw [seen_eq]; rfl
@[simp] theorem sTag_seen (r : Nat) : sTag (seen s t w) r = sTag (s.tun t) r := by rw [seen_eq]; rfl
@[simp] theorem vreg_seen (r : Nat) : vreg (seen s t w) r = vreg (s.tun t) r := by rw [seen_eq]; rfl
@[simp] theorem vTag_seen (r : Nat) : vTag (seen s t w) r = vTag (s.tun t) r := by rw [seen_eq]; rfl
@[simp] theorem vKind_seen (r : Nat) : vKind (seen s t w) r = vKind (s.tun t) r := by rw [seen_eq]; rfl
@[simp] theorem effCount_seen (n : Nat) : effCount (seen s t w) n = effCount (s.tun t) n := by rw [seen_eq]; rfl

theorem loadOn_error {a : Act} {f : TunStop} (hl : tunLive (s.tun t) = true)
    (h : a (envOf s t (s.tun t)) w (seen s t w) (seen s t w) = .error f) : EndsRoutine s t f.status (.next (loadOn t w a s)) := by
  refine ⟨_, congrArg _ ?_, rfl⟩
  rw [seen] at h
  simp only [loadOn, hl, Bool.not_true, Bool.false_eq_true, if_false, h]

theorem storeOn_error {a : Act} {f : TunStop} (hl : tunLive (s.tun t) = true)
    (h : a (envOf s t (s.tun t)) w (seen s t w) (seen s t w) = .error f) : EndsRoutine s t f.status (.next (storeOn t w a s)) := by
  refine ⟨_, congrArg _ ?_, rfl⟩
  rw [seen] at h
  simp only [storeOn, hl, Bool.not_true, Bool.false_eq_true, if_false, h]

/-- A load or a store whose address stops does what the address does. -/
theorem loadAct_error {k : Nat} {f : TunStop} {e : TunEnv} {x0 x : Tun}
    (h : scratchAddr e x0 w.mldAddr (widthOf w.vew) (effCount x0 (widthOf w.vew) * k * (widthOf w.vew / 8)) w.vdst.toNat k = .error f) :
    loadAct k e w x0 x = .error f := by
  simp only [loadAct, h]

theorem storeAct_error {k : Nat} {f : TunStop} {e : TunEnv} {x0 x : Tun}
    (h : scratchAddr e x0 w.mstAddr (widthOf w.vew) (effCount x0 (widthOf w.vew) * k * (widthOf w.vew / 8)) w.vsrcB.toNat k = .error f) :
    storeAct k e w x0 x = .error f := by
  simp only [storeAct, h]

theorem mldLoad_eq (h1 : 1 ≤ w.mld.toNat) (h4 : w.mld.toNat ≤ 4) :
    exec (.mldLoad t w) s = .next (loadOn t w (loadAct w.mld.toNat) s) := congrArg _ (if_pos ⟨h1, h4⟩)

theorem mstStore_eq (h1 : 1 ≤ w.mst.toNat) (h4 : w.mst.toNat ≤ 4) :
    exec (.mstStore t w) s = .next (storeOn t w (storeAct w.mst.toNat) s) := congrArg _ (if_pos ⟨h1, h4⟩)

end

end Sys2Proof.Machine

open Sys2Proof Sys2Proof.Machine

/-- Settles O17: a vector operation stops at its width or its fields, a load or a store at its address. -/
theorem excludedFormsEndTheRoutine : Obligations.ExcludedFormsEndTheRoutine := by
  refine ⟨fun s t w hl => ⟨fun hv => ⟨?modularWidth, ?fixedWidth⟩, fun hv => ?permWidth, fun hv => ?gf2Width, fun hq => ?modulus,
    fun hq => ?even, fun hs => ?stride⟩, fun s t w hl => ⟨fun h1 h4 => ⟨fun ht => ?loadTaint, fun ht hbad => ?loadFault⟩,
      fun h1 h4 => ⟨fun ht => ?storeTaint, fun ht hbad => ?storeFault⟩⟩⟩
  case loadTaint =>
    rw [mldLoad_eq h1 h4]
    exact loadOn_error (f := .taint) hl (loadAct_error (scratchAddr_taint (by rwa [sTag_seen])))
  case loadFault =>
    rw [mldLoad_eq h1 h4]
    refine loadOn_error (f := .fault) hl (loadAct_error (scratchAddr_fault (by rwa [sTag_seen]) ?_))
    rwa [sreg_seen, effCount_seen, envOf_limit, ← scalar_toNat]
  case storeTaint =>
    rw [mstStore_eq h1 h4]
    exact storeOn_error (f := .taint) hl (storeAct_error (scratchAddr_taint (by rwa [sTag_seen])))
  case storeFault =>
    rw [mstStore_eq h1 h4]
    refine storeOn_error (f := .fault) hl (storeAct_error (scratchAddr_fault (by rwa [sTag_seen]) ?_))
    rwa [sreg_seen, effCount_seen, envOf_limit, ← scalar_toNat]
  case modularWidth =>
    simp only [List.forall_mem_cons, List.not_mem_nil, false_implies, implies_true, and_true]
    and_intros <;> exact width_faults hl rfl (contains_16_32 hv)
  case fixedWidth =>
    simp only [List.forall_mem_cons, List.not_mem_nil, false_implies, implies_true, and_true]
    and_intros <;> exact width_faults hl rfl (contains_16_32 hv)
  case permWidth =>
    simp only [List.forall_mem_cons, List.not_mem_nil, false_implies, implies_true, and_true]
    and_intros <;> exact width_faults hl rfl (contains_8_16_32 hv)
  case gf2Width =>
    simp only [List.forall_mem_cons, List.not_mem_nil, false_implies, implies_true, and_true]
    exact ⟨width_faults hl rfl (contains_64 hv), width_faults hl rfl (contains_64 hv)⟩
  case modulus =>
    simp only [List.forall_mem_cons, List.not_mem_nil, false_implies, implies_true, and_true]
    and_intros <;> exact bad_faults hl rfl rfl (modBad_of_unfit _ hq)
  case even =>
    simp only [List.forall_mem_cons, List.not_mem_nil, false_implies, implies_true, and_true]
    have hbfly : (strideBad (vopIn w (s.tun t)) || modBad true (vopIn w (s.tun t))) = true := by
      rw [modBad_of_even hq, Bool.or_true]
    exact ⟨bad_faults hl rfl rfl (modBad_of_even hq), bad_faults hl rfl rfl hbfly, bad_faults hl rfl rfl hbfly⟩
  case stride =>
    simp only [List.forall_mem_cons, List.not_mem_nil, false_implies, implies_true, and_true]
    have hbfly : (strideBad (vopIn w (s.tun t)) || modBad true (vopIn w (s.tun t))) = true := by
      rw [strideBad, vopIn_w, strideOf, vopIn_word, decide_eq_true hs, Bool.true_or]
    exact ⟨bad_faults hl rfl rfl hbfly, bad_faults hl rfl rfl hbfly⟩
end

section
/-!
SUPPORT. The scratch of a gang as one address space (R134): what gathering and putting back make of its bytes and of its lines.
-/

namespace Sys2Proof.Machine

/-! ## Tables with changed keys -/

section
variable {α : Type}

theorem Tab.get?_append (t u : Tab α) (k : Nat) : Tab.get? (t ++ u) k = (Tab.get? t k).or (Tab.get? u k) := by
  induction t with
  | nil => rfl
  | cons p t ih =>
    obtain ⟨k', v⟩ := p
    rw [List.cons_append, Tab.get?, Tab.get?, ih]
    split <;> rfl

/-- Entries chosen by their keys, under new keys: where one chosen key alone becomes `k`, its entry is found. -/
theorem Tab.get?_rekey (t : Tab α) {P : Nat → Bool} {g : Nat → Nat} {k k0 : Nat} (h0 : P k0 = true)
    (hg : ∀ j, P j = true → (g j = k ↔ j = k0)) :
    Tab.get? ((t.filter fun p => P p.1).map fun p => (g p.1, p.2)) k = Tab.get? t k0 := by
  induction t with
  | nil => rfl
  | cons p t ih =>
    obtain ⟨j, v⟩ := p
    rw [List.filter_cons]
    cases hP : P j with
    | true =>
      rw [if_pos rfl, List.map_cons, Tab.get?, Tab.get?, ih]
      exact if_congr (eq_comm.trans ((hg j hP).trans eq_comm)) rfl rfl
    | false =>
      have hne : k0 ≠ j := by rintro rfl; exact Bool.false_ne_true (hP.symm.trans h0)
      rw [if_neg Bool.false_ne_true, ih, Tab.get?, if_neg hne]

theorem Tab.get?_rekey_none (t : Tab α) {P : Nat → Bool} {g : Nat → Nat} {k : Nat} (hg : ∀ j, P j = true → g j ≠ k) :
    Tab.get? ((t.filter fun p => P p.1).map fun p => (g p.1, p.2)) k = none := by
  induction t with
  | nil => rfl
  | cons p t ih =>
    obtain ⟨j, v⟩ := p
    rw [List.filter_cons]
    split
    · next hP => rw [List.map_cons, Tab.get?, ih, if_neg (hg j hP).symm]
    · exact ih

theorem Tab.contains_keys (t : Tab α) (k : Nat) : (t.map (·.1)).contains k = (Tab.get? t k).isSome := by
  induction t with
  | nil => rfl
  | cons p t ih =>
    obtain ⟨j, v⟩ := p
    rw [List.map_cons, List.contains_cons, ih, Tab.get?]
    by_cases h : k = j
    · simp [h]
    · simp [h]

theorem get?_lineTab (l : List Nat) (k : Nat) : (Tab.get? (lineTab l) k).isSome = l.contains k := by
  rw [← Tab.contains_keys, lineTab, List.map_map]
  exact congrArg (·.contains k) (List.map_id l)

/-! ## One address space for a gang -/

theorem get?_gangJoin_below {n : Nat} (ts : List (Tab α)) {i k : Nat} (hk : k < n * i) : Tab.get? (gangJoin n i ts) k = none := by
  induction ts generalizing i with
  | nil => rfl
  | cons t ts ih =>
    rw [gangJoin, Tab.get?_append, ih (by rw [Nat.mul_succ]; omega), Option.or_none]
    exact Tab.get?_rekey_none (P := fun j => decide (j < n)) (g := (· + n * i)) t fun j _ => by omega

/-- An entry of a gang's table is the entry of its member. -/
theorem get?_gangJoin {n : Nat} (hn : 0 < n) (ts : List (Tab α)) {i k : Nat} (hk : n * i ≤ k) :
    Tab.get? (gangJoin n i ts) k = Tab.get? (ts.getD (k / n - i) []) (k % n) := by
  induction ts generalizing i with
  | nil => rfl
  | cons t ts ih =>
    rw [gangJoin, Tab.get?_append]
    have hdm := Nat.div_add_mod k n
    by_cases h : k / n = i
    · rw [h] at hdm
      rw [Tab.get?_rekey (P := fun j => decide (j < n)) (g := (· + n * i)) (k0 := k % n) t (decide_eq_true (Nat.mod_lt k hn))
          fun j _ => by omega,
        get?_gangJoin_below ts (by rw [Nat.mul_succ]; have := Nat.mod_lt k hn; omega), Option.or_none, h, Nat.sub_self]
      rfl
    · have hlt : i + 1 ≤ k / n := Nat.lt_of_le_of_ne ((Nat.le_div_iff_mul_le hn).mpr (by rwa [Nat.mul_comm])) (Ne.symm h)
      have hnext : n * (i + 1) ≤ k := (Nat.mul_le_mul_left n hlt).trans (Nat.mul_div_le k n)
      rw [Tab.get?_rekey_none (P := fun j => decide (j < n)) (g := (· + n * i)) t fun j hj => by
          have := of_decide_eq_true hj; rw [Nat.mul_succ] at hnext; omega,
        Option.none_or, ih hnext, show k / n - i = k / n - (i + 1) + 1 by omega]
      rfl

/-- A member's part of a gang's table. -/
theorem get?_gangPart {n : Nat} (t : Tab α) {i k : Nat} (hk : k < n) : Tab.get? (gangPart n i t) k = Tab.get? t (k + n * i) := by
  have hn : 0 < n := by omega
  refine Tab.get?_rekey (P := fun j => j / n == i) (g := (· % n)) t ?_ fun j hj => ?_
  · rw [Nat.add_mul_div_left _ _ hn, Nat.div_eq_of_lt hk, Nat.zero_add, beq_self_eq_true]
  · have hdm := Nat.div_add_mod j n
    rw [eq_of_beq hj] at hdm
    constructor
    · rintro rfl; omega
    · rintro rfl; rw [Nat.add_mul_mod_self_left, Nat.mod_eq_of_lt hk]

end

/-! ## Gathering -/

section
variable {s : State} {t : Nat} {w : Microword}

/-- A gang with at most one member is the tun alone. -/
theorem GangOk.eq_singleton (h : GangOk s t) (hlen : (gangOf s t (s.tun t)).length ≤ 1) : gangOf s t (s.tun t) = [t] := by
  obtain ⟨-, hm⟩ := h
  obtain ⟨u, hu⟩ := List.length_eq_one_iff.mp (Nat.le_antisymm hlen (List.length_pos_of_mem hm))
  rw [hu] at hm ⊢
  rw [List.mem_singleton.mp hm]

/-- The member whose scratch holds address `p`. -/
theorem getD_gang_single {l : List Nat} (h : l = [t]) {p : Nat} (hp : p < 524288 * l.length) : l.getD (p / 524288) t = t := by
  rw [h] at hp ⊢
  rw [Nat.div_eq_of_lt (by simpa using hp)]
  rfl

theorem seen_single (h : (gangOf s t (s.tun t)).length ≤ 1) : seen s t w = atWord w (s.tun t) := congrArg (atWord w) (if_pos h)

theorem seen_gang (h : ¬(gangOf s t (s.tun t)).length ≤ 1) : seen s t w =
    let xs := (gangOf s t (s.tun t)).map s.tun
    atWord w { s.tun t with
      scratch := gangJoin 524288 0 (xs.map (·.scratch))
      lkind := gangJoin 8192 0 (xs.map (·.lkind))
      ltag := (gangJoin 8192 0 (xs.map fun y => lineTab y.ltag)).map (·.1)
      written := (gangJoin 8192 0 (xs.map fun y => lineTab y.written)).map (·.1) } := congrArg (atWord w) (if_neg h)

/-- A table of the members' tables, at the member of an address. -/
theorem getD_map_gang {α : Type} {ms : List Nat} {i : Nat} (hi : i < ms.length) (f : Tun → Tab α) :
    ((ms.map s.tun).map f).getD i [] = f (s.tun (ms.getD i t)) := by
  rw [List.map_map, List.getD_eq_getElem _ _ (by simpa using hi), List.getElem_map, List.getD_eq_getElem _ _ hi]
  rfl

/-- The gathered scratch is the gang's scratch. -/
theorem read_seen (hg : GangOk s t) {p : Nat} (hp : p < scratchSize s t) : Mem.read (seen s t w).scratch p = scratchByte s t p := by
  unfold scratchByte
  by_cases hlen : (gangOf s t (s.tun t)).length ≤ 1
  · have hone := hg.eq_singleton hlen
    rw [seen_single hlen, getD_gang_single hone hp, Nat.mod_eq_of_lt (by simpa [scratchSize, hone] using hp)]
    rfl
  · have hi : p / 524288 < (gangOf s t (s.tun t)).length := Nat.div_lt_of_lt_mul hp
    rw [seen_gang hlen]
    exact congrArg (Option.getD · 0) ((get?_gangJoin (by decide) _ (Nat.zero_le p)).trans
      (congrArg (Tab.get? · _) (getD_map_gang hi (·.scratch))))

/-- The gathered lines have the tags of the members' lines. -/
theorem ltag_seen (hg : GangOk s t) {p : Nat} (hp : p < scratchSize s t) :
    (seen s t w).ltag.contains (p / 64) = scratchTag s t p := by
  unfold scratchTag
  by_cases hlen : (gangOf s t (s.tun t)).length ≤ 1
  · have hone := hg.eq_singleton hlen
    rw [seen_single hlen, getD_gang_single hone hp, Nat.mod_eq_of_lt (by simpa [scratchSize, hone] using hp)]
    rfl
  · have hi : p / 524288 < (gangOf s t (s.tun t)).length := Nat.div_lt_of_lt_mul hp
    have hdiv : p / 64 / 8192 = p / 524288 := Nat.div_div_eq_div_mul p 64 8192
    have hmod : p / 64 % 8192 = p % 524288 / 64 := by omega
    rw [seen_gang hlen, ← get?_lineTab (s.tun _).ltag, ← hmod]
    refine (Tab.contains_keys _ _).trans (congrArg Option.isSome ?_)
    rw [get?_gangJoin (by decide) _ (Nat.zero_le _), Nat.sub_zero, hdiv]
    exact congrArg (Tab.get? · _) (getD_map_gang hi fun y => lineTab y.ltag)

/-- The lines of an access are those of its bytes. -/
theorem mem_linesOf {a n l : Nat} : l ∈ linesOf a n ↔ ∃ p, a ≤ p ∧ p < a + n ∧ p / 64 = l := by
  unfold linesOf
  split
  · next h => subst h; exact iff_of_false (List.not_mem_nil) (by rintro ⟨p, h1, h2, -⟩; omega)
  · next h =>
    rw [List.mem_map]
    constructor
    · rintro ⟨i, hi, rfl⟩
      rw [List.mem_range] at hi
      refine ⟨max a (64 * (a / 64 + i)), by omega, by omega, by omega⟩
    · rintro ⟨p, h1, h2, rfl⟩
      exact ⟨p / 64 - a / 64, List.mem_range.mpr (by omega), by omega⟩

/-- The tag of a load is the OR of the tags of the lines it reads. -/
theorem any_linesOf_seen (hg : GangOk s t) {a n : Nat} (hn : a + n ≤ scratchSize s t) :
    (linesOf a n).any (seen s t w).ltag.contains = true ↔ ∃ p, a ≤ p ∧ p < a + n ∧ scratchTag s t p = true := by
  rw [List.any_eq_true]
  constructor
  · rintro ⟨l, hl, ht⟩
    obtain ⟨p, h1, h2, rfl⟩ := mem_linesOf.mp hl
    exact ⟨p, h1, h2, (ltag_seen hg (by omega)).symm.trans ht⟩
  · rintro ⟨p, h1, h2, ht⟩
    exact ⟨p / 64, mem_linesOf.mpr ⟨p, h1, h2, rfl⟩, (ltag_seen hg (by omega)).trans ht⟩

/-! ## Putting back -/

theorem tun_setTun (s : State) (t u : Nat) (x : Tun) : (s.setTun t x).tun u = if u = t then x else s.tun u :=
  Tab.getD_set s.tuns.tuns t u x {}

/-- Putting back gives each member its part, by its place in the gang. -/
theorem tun_scatterFrom (x : Tun) {ms : List Nat} (hn : ms.Nodup) (i : Nat) (s : State) (u : Nat) :
    (scatterFrom x i ms s).tun u = if u ∈ ms then gangMember x (s.tun u) (i + ms.idxOf u) else s.tun u := by
  induction ms generalizing i s with
  | nil => rfl
  | cons m ms ih =>
    obtain ⟨hm, hn⟩ := List.nodup_cons.mp hn
    rw [scatterFrom, ih hn, tun_setTun]
    by_cases hu : u = m
    · subst hu; simp [hm]
    · rw [if_neg hu, List.idxOf_cons_ne _ (Ne.symm hu), Nat.succ_eq_add_one, Nat.add_right_comm, Nat.add_assoc]
      exact if_congr (by rw [List.mem_cons, or_iff_right hu]) rfl rfl

theorem scatterFrom_tuns (x : Tun) (i : Nat) (ms : List Nat) (s : State) :
    scatterFrom x i ms s = { s with tuns := { s.tuns with tuns := (scatterFrom x i ms s).tuns.tuns } } := by
  induction ms generalizing i s with
  | nil => rfl
  | cons m ms ih => rw [scatterFrom, ih]; rfl

/-- What a store leaves in the machine: only tuns change. -/
theorem scatter_tuns (s : State) (t : Nat) (ms : List Nat) (x : Tun) :
    scatter s t ms x = { s with tuns := { s.tuns with tuns := (scatter s t ms x).tuns.tuns } } := by
  unfold scatter
  split
  · rfl
  · rw [scatterFrom_tuns]; rfl

/-- Of a tun, `y` differs from `x` at most in its scratch and what stands beside the lines. -/
def OnlyScratch (x y : Tun) : Prop :=
  y = { x with scratch := y.scratch, ltag := y.ltag, lkind := y.lkind, written := y.written }

/-- Each tun after a gang's scratch is put back: the tun that stored takes the rest of its new state, a member takes its part, and
no other tun changes. -/
theorem tun_scatter (hg : GangOk s t) (x : Tun) (u : Nat) :
    let ms := gangOf s t (s.tun t)
    let old := if u = t then x else s.tun u
    (scatter s t ms x).tun u = if 1 < ms.length ∧ u ∈ ms then gangMember x old (ms.idxOf u) else old := by
  dsimp only
  unfold scatter
  by_cases hlen : (gangOf s t (s.tun t)).length ≤ 1
  · rw [if_pos hlen, tun_setTun]
    exact (if_neg fun h => absurd h.1 (Nat.not_lt.mpr hlen)).symm
  · rw [if_neg hlen, tun_scatterFrom x hg.1, tun_setTun, Nat.zero_add]
    exact if_congr (and_iff_right (Nat.lt_of_not_le hlen)).symm rfl rfl

theorem onlyScratch_scatter (hg : GangOk s t) (x : Tun) (u : Nat) :
    OnlyScratch (if u = t then x else s.tun u) ((scatter s t (gangOf s t (s.tun t)) x).tun u) := by
  rw [tun_scatter hg]
  generalize (if u = t then x else s.tun u) = old
  split <;> rfl

theorem tun_scatter_of_not_mem (hg : GangOk s t) (x : Tun) {u : Nat} (hu : u ∉ gangOf s t (s.tun t)) :
    (scatter s t (gangOf s t (s.tun t)) x).tun u = s.tun u := by
  rw [tun_scatter hg, if_neg fun h => hu h.2, if_neg fun (h : u = t) => hu (h ▸ hg.2)]

/-- The gang stays as it is. -/
theorem gangOf_scatter (hg : GangOk s t) {x : Tun} (hsid : x.sid = (s.tun t).sid) (hopen : x.openRoutine = (s.tun t).openRoutine) :
    let s' := scatter s t (gangOf s t (s.tun t)) x
    gangOf s' t (s'.tun t) = gangOf s t (s.tun t) := by
  intro s'
  have honly := onlyScratch_scatter hg x t
  rw [if_pos rfl] at honly
  have h1 : (s'.tun t).sid = (s.tun t).sid := (congrArg Tun.sid honly).trans hsid
  have h2 : (s'.tun t).openRoutine = (s.tun t).openRoutine := (congrArg Tun.openRoutine honly).trans hopen
  have hs : s' = { s with tuns := { s.tuns with tuns := s'.tuns.tuns } } := scatter_tuns s t _ x
  unfold gangOf
  rw [h1, h2, hs]
  rfl

/-- The bytes of the gang's scratch after it is put back. -/
theorem scratchByte_scatter (hg : GangOk s t) {x : Tun} (hsid : x.sid = (s.tun t).sid)
    (hopen : x.openRoutine = (s.tun t).openRoutine) {p : Nat} (hp : p < scratchSize s t) :
    scratchByte (scatter s t (gangOf s t (s.tun t)) x) t p = Mem.read x.scratch p := by
  unfold scratchByte
  rw [gangOf_scatter hg hsid hopen]
  by_cases hlen : (gangOf s t (s.tun t)).length ≤ 1
  · have hone := hg.eq_singleton hlen
    rw [getD_gang_single hone hp, Nat.mod_eq_of_lt (by simpa [scratchSize, hone] using hp), tun_scatter hg,
      if_neg fun h => absurd h.1 (Nat.not_lt.mpr hlen), if_pos rfl]
  · have hi : p / 524288 < (gangOf s t (s.tun t)).length := Nat.div_lt_of_lt_mul hp
    rw [List.getD_eq_getElem _ _ hi, tun_scatter hg, if_pos ⟨Nat.lt_of_not_le hlen, List.getElem_mem hi⟩,
      hg.1.idxOf_getElem _ hi]
    refine congrArg (Option.getD · 0) ((get?_gangPart x.scratch (Nat.mod_lt p (by decide))).trans ?_)
    rw [Nat.mod_add_div]

end

end Sys2Proof.Machine
end

section
/-!
SUPPORT. Loads (R126, R134, R151): the bytes of a field, the registers that a load fills one after the other, and the increment of
an address register.
-/

namespace Sys2Proof.Machine

/-! ## Bytes of memory and of fields -/

theorem getD_readN (m : Mem) {a n i : Nat} (h : i < n) : (Mem.readN m a n).getD i 0 = Mem.read m (a + i) := by
  induction n generalizing a i with
  | zero => exact absurd h (Nat.not_lt_zero i)
  | succ n ih =>
    cases i with
    | zero => rfl
    | succ i => rw [Mem.readN, List.getD_cons_succ, ih (Nat.lt_of_succ_lt_succ h), Nat.add_right_comm, Nat.add_assoc]

/-- A byte of a value that is read from bytes. -/
theorem extractLsb'_ofNat_unle {n b : Nat} (l : Bytes) (h : 8 * b + 8 ≤ n) :
    (BitVec.ofNat n (unle l)).extractLsb' (8 * b) 8 = l.getD b 0 := by
  refine BitVec.eq_of_getLsbD_eq fun i hi => ?_
  rw [BitVec.getLsbD_extractLsb', BitVec.getLsbD_ofNat, testBit_unle, decide_eq_true hi, decide_eq_true (by omega : 8 * b + i < n),
    Bool.true_and, Bool.true_and, show (8 * b + i) / 8 = b by omega, show (8 * b + i) % 8 = i by omega]

theorem eight_mul_lt_widthOf {c : BitVec 2} {b : Nat} (h : b < widthOf c / 8) : 8 * b + 8 ≤ widthOf c := by omega

/-- A byte of a field that a load reads. -/
theorem extractLsb'_loadElem {c : BitVec 2} {b : Nat} (hb : b < widthOf c / 8) (m : Mem) (a k j f : Nat) :
    (BitVec.ofNat (widthOf c) (loadElem m a (widthOf c) k j f)).extractLsb' (8 * b) 8 =
      Mem.read m (a + (j * k + f) * (widthOf c / 8) + b) :=
  (extractLsb'_ofNat_unle _ (eight_mul_lt_widthOf hb)).trans (getD_readN m hb)

/-- Byte `b` of field `f` of element `j` lies among the bytes of the access. -/
theorem field_lt {m k j f b c : Nat} (hj : j < m) (hf : f < k) (hb : b < c) : (j * k + f) * c + b < m * k * c := by
  have h1 : j * k + f + 1 ≤ m * k := by
    calc j * k + f + 1 ≤ j * k + k := by omega
      _ = (j + 1) * k := (Nat.succ_mul j k).symm
      _ ≤ m * k := Nat.mul_le_mul_right k hj
  calc (j * k + f) * c + b < (j * k + f) * c + c := by omega
    _ = (j * k + f + 1) * c := (Nat.succ_mul _ c).symm
    _ ≤ m * k * c := Nat.mul_le_mul_right c h1

/-! ## Increments -/

theorem sTag_setS_false {r d : Nat} {x : Tun} (h : sTag x d = false) (v : Nat) : sTag (setS x d v false) r = sTag x r := by
  by_cases hr : r = d
  · subst hr; rw [sTag_setS_self, Bool.and_false, h]
  · exact sTag_setS_of_ne hr _ _ _

/-- The increment changes the scalar registers alone. -/
theorem postInc_eq (x0 x : Tun) (f : BitVec 6) (bytes : Nat) :
    postInc x0 x f bytes = { x with s := (postInc x0 x f bytes).s, stag := (postInc x0 x f bytes).stag } := by
  unfold postInc
  split
  · exact setS_eq _ _ _ _
  · rfl

/-- The registers after the increment, where the access has left the scalar registers as they were. -/
theorem postIncremented_postInc {x x0 z y : Tun} {f : BitVec 6} {bytes : Nat} (h0 : ∀ r, sreg x0 r = sreg x r) (hs : z.s = x.s)
    (ht : z.stag = x.stag) (hf : sTag x (f.toNat % 16) = false) (hys : y.s = (postInc x0 z f bytes).s)
    (hyt : y.stag = (postInc x0 z f bytes).stag) : PostIncremented x y f bytes := by
  intro r
  have hzs (r : Nat) : scalar z r = scalar x r := by rw [scalar, scalar, hs]
  have hzt (r : Nat) : sTag z r = sTag x r := by rw [sTag, sTag, ht]
  have hy : scalar y r = scalar (postInc x0 z f bytes) r := by rw [scalar, scalar, hys]
  have hyt : sTag y r = sTag (postInc x0 z f bytes) r := by rw [sTag, sTag, hyt]
  rw [hy, hyt, ← hzs, ← hzt]
  unfold postInc
  split
  · next hinc =>
    refine ⟨sTag_setS_false (by rw [hzt, hf]) _, ?_⟩
    by_cases hr : r = f.toNat % 16
    · subst hr
      rw [scalar_setS_self, h0, ← scalar_toNat, ← hzs]
      split
      · next h => rw [if_neg fun hc => hc.1 h, h]; rfl
      · next h => rw [if_pos ⟨h, rfl, hinc⟩, BitVec.ofNat_add, BitVec.ofNat_toNat, BitVec.setWidth_eq]
    · rw [scalar_setS_of_ne hr, if_neg fun hc => hr hc.2.1]
  · next hinc => exact ⟨rfl, (if_neg fun hc => hinc hc.2.2).symm⟩

/-! ## Registers filled one after the other -/

/-- Fields `0` to `k − 1`, each of `m` elements, in the registers from `d` on. -/
def fillRegs (n m d : Nat) (val : Nat → List Nat) (tag : Bool) (kind : ShareKind) (k : Nat) (x : Tun) : Tun :=
  (List.range k).foldl (fun x f => setV x (d + f) (n * m) (vpack n (val f)) tag kind) x

section
variable {n m d : Nat} {val : Nat → List Nat} {tag : Bool} {kind : ShareKind} {k : Nat} {x : Tun}

theorem fillRegs_succ : fillRegs n m d val tag kind (k + 1) x =
    setV (fillRegs n m d val tag kind k x) (d + k) (n * m) (vpack n (val k)) tag kind := by
  rw [fillRegs, List.range_succ, List.foldl_append]
  rfl

theorem fillRegs_eq (n m d : Nat) (val : Nat → List Nat) (tag : Bool) (kind : ShareKind) (k : Nat) (x : Tun) :
    let y := fillRegs n m d val tag kind k x
    y = { x with v := y.v, vtag := y.vtag, vkind := y.vkind } := by
  induction k with
  | zero => rfl
  | succ k ih =>
    rw [fillRegs_succ]
    have hstep := (setV_only (fillRegs n m d val tag kind k x) (d + k) (n * m) (vpack n (val k)) tag kind).1
    generalize setV _ (d + k) _ _ _ _ = z at hstep ⊢
    exact hstep.trans (congrArg (fun y : Tun => { y with v := z.v, vtag := z.vtag, vkind := z.vkind }) ih)

/-- Registers outside those filled keep values, tags and kinds. -/
theorem fillRegs_other {r : Nat} (hr : r < d ∨ d + k ≤ r) :
    let y := fillRegs n m d val tag kind k x
    Tab.getD y.v r 0 = Tab.getD x.v r 0 ∧ vTag y r = vTag x r ∧ vKind y r = vKind x r := by
  induction k with
  | zero => exact ⟨rfl, rfl, rfl⟩
  | succ k ih =>
    obtain ⟨hv, ht, hk⟩ := ih (by omega)
    rw [fillRegs_succ]
    obtain ⟨hv', ht', hk'⟩ := (setV_only (fillRegs n m d val tag kind k x) (d + k) (n * m) (vpack n (val k)) tag kind).2 r (by omega)
    exact ⟨hv'.trans hv, ht'.trans ht, hk'.trans hk⟩

theorem element_eq_of_getD_eq {x y : Tun} {r : Nat} (h : Tab.getD y.v r 0 = Tab.getD x.v r 0) (n j : Nat) :
    element n y r j = element n x r j := congrArg (BitVec.extractLsb' (n * j) n) h

/-- Register `f` of those filled takes the elements of field `f` and their tag, and keeps the elements above. -/
theorem fillRegs_field (hm : n * m ≤ 8192) (hval : ∀ f, (val f).length = m) {f : Nat} (hf : f < k) :
    let y := fillRegs n m d val tag kind k x
    (∀ j, (hj : j < m) → element n y (d + f) j = BitVec.ofNat n ((val f)[j]'(by rw [hval]; exact hj))) ∧
    (∀ j, m ≤ j → element n y (d + f) j = element n x (d + f) j) ∧
    (n * m ≠ 0 → vTag y (d + f) = (tag || (decide (n * m < 8192) && vTag x (d + f)))) := by
  induction k with
  | zero => exact absurd hf (Nat.not_lt_zero f)
  | succ k ih =>
    rw [fillRegs_succ]
    by_cases hfk : f = k
    · subst hfk
      obtain ⟨hv, ht, -⟩ := fillRegs_other (n := n) (m := m) (d := d) (val := val) (tag := tag) (kind := kind) (k := f) (x := x)
        (r := d + f) (Or.inr (Nat.le_refl _))
      have hel := element_setV (fillRegs n m d val tag kind f x) (d + f) n m (vpack n (val f)) tag kind hm
        (by have := vpack_lt n (val f); rwa [hval] at this)
      refine ⟨fun j hj => ?_, fun j hj => ?_, fun h0 => ?_⟩
      · rw [hel, if_pos hj, ofNat_velem_vpack]
      · rw [hel, if_neg (Nat.not_lt.mpr hj), element_eq_of_getD_eq hv]
      · rw [vTag_setV h0, ht]
    · obtain ⟨hin, habove, htag⟩ := ih (by omega)
      obtain ⟨hv, ht, -⟩ := (setV_only (fillRegs n m d val tag kind k x) (d + k) (n * m) (vpack n (val k)) tag kind).2 (d + f)
        (by omega)
      exact ⟨fun j hj => (element_eq_of_getD_eq hv n j).trans (hin j hj),
        fun j hj => (element_eq_of_getD_eq hv n j).trans (habove j hj), fun h0 => ht.trans (htag h0)⟩

end

/-! ## Loads -/

section
variable {s : State} {t : Nat} {w : Microword}

theorem loadOn_ok {a : Act} {x1 : Tun} (hl : tunLive (s.tun t) = true)
    (h : a (envOf s t (s.tun t)) w (seen s t w) (seen s t w) = .ok x1) :
    loadOn t w a s = s.setTun t { x1 with
      scratch := (s.tun t).scratch, ltag := (s.tun t).ltag, lkind := (s.tun t).lkind, written := (s.tun t).written } := by
  rw [seen] at h
  simp only [loadOn, hl, Bool.not_true, Bool.false_eq_true, if_false, h]

theorem AccessOk.untagged {f : BitVec 6} {bytes first k : Nat} (h : AccessOk s t w f bytes first k) :
    sTag (s.tun t) (f.toNat % 16) = false := h.1

theorem AccessOk.fits {f : BitVec 6} {bytes first k : Nat} (h : AccessOk s t w f bytes first k) :
    (scalar (s.tun t) (f.toNat % 16)).toNat + bytes ≤ scratchSize s t := by
  obtain ⟨-, -, hfit, -, -⟩ := h
  exact hfit

/-- The address of an access that R126, R139 and R151 allow. -/
theorem AccessOk.scratchAddr {f : BitVec 6} {bytes first k : Nat} (h : AccessOk s t w f bytes first k) :
    scratchAddr (envOf s t (s.tun t)) (seen s t w) f (widthOf w.vew) bytes first k =
      .ok (scalar (s.tun t) (f.toNat % 16)).toNat := by
  obtain ⟨htag, halign, hfit, hregs, -⟩ := h
  rw [scalar_toNat] at halign hfit ⊢
  rw [scratchAddr_ok (by rwa [sTag_seen]) (by rwa [sreg_seen]) (by rwa [sreg_seen, envOf_limit]) hregs, sreg_seen]

/-- A load changes registers and the element width alone. -/
theorem load_frame {x x0 z p : Tun} {vew : BitVec 2}
    (h0 : x0 = { x with scratch := x0.scratch, lkind := x0.lkind, ltag := x0.ltag, written := x0.written, vew := vew })
    (hz : z = { x0 with v := z.v, vtag := z.vtag, vkind := z.vkind }) (hp : p = { z with s := p.s, stag := p.stag }) :
    { p with scratch := x.scratch, ltag := x.ltag, lkind := x.lkind, written := x.written } =
      { x with v := p.v, vtag := p.vtag, vkind := p.vkind, s := p.s, stag := p.stag, vew := vew } := by
  obtain ⟨s, stag, rfl⟩ : ∃ s stag, p = { z with s := s, stag := stag } := ⟨_, _, hp⟩
  obtain ⟨v, vtag, vkind, rfl⟩ : ∃ v vtag vkind, z = { x0 with v := v, vtag := vtag, vkind := vkind } := ⟨_, _, _, hz⟩
  obtain ⟨a, b, c, d, rfl⟩ : ∃ a b c d, x0 = { x with scratch := a, lkind := b, ltag := c, written := d, vew := vew } :=
    ⟨_, _, _, _, h0⟩
  rfl

/-- A load that fills `k` registers from `VDST` on and increments its address register. -/
theorem loadOn_fillRegs {a : Act} {bytes k : Nat} {val : Nat → List Nat} {tag : Bool} {kind : ShareKind}
    (hl : tunLive (s.tun t) = true) (hacc : AccessOk s t w w.mldAddr bytes w.vdst.toNat k)
    (hval : ∀ f, (val f).length = effCount (s.tun t) (widthOf w.vew))
    (ha : a (envOf s t (s.tun t)) w (seen s t w) (seen s t w) = .ok (postInc (seen s t w)
      (fillRegs (widthOf w.vew) (effCount (s.tun t) (widthOf w.vew)) w.vdst.toNat val tag kind k (seen s t w)) w.mldAddr bytes)) :
    let x := s.tun t
    let n := widthOf w.vew
    let m := effCount x n
    let d := w.vdst.toNat
    AnswersTun s t (.next (loadOn t w a s)) fun y =>
      y = { x with v := y.v, vtag := y.vtag, vkind := y.vkind, s := y.s, stag := y.stag, vew := w.vew } ∧
      PostIncremented x y w.mldAddr bytes ∧
      (∀ r, r < d ∨ d + k ≤ r → Tab.getD y.v r 0 = Tab.getD x.v r 0 ∧ vTag y r = vTag x r ∧ vKind y r = vKind x r) ∧
      ∀ f, f < k →
        (∀ j, (hj : j < m) → element n y (d + f) j = BitVec.ofNat n ((val f)[j]'(by rw [hval]; exact hj))) ∧
        (∀ j, m ≤ j → element n y (d + f) j = element n x (d + f) j) ∧
        (0 < m → vTag y (d + f) = (tag || (decide (m < vlMax n) && vTag x (d + f)))) := by
  intro x n m d
  generalize hz : fillRegs n m d val tag kind k (seen s t w) = z at ha
  generalize hp : postInc (seen s t w) z w.mldAddr bytes = p at ha
  have hzx : z = { seen s t w with v := z.v, vtag := z.vtag, vkind := z.vkind } := hz ▸ fillRegs_eq n m d val tag kind k _
  have hpz : p = { z with s := p.s, stag := p.stag } := hp ▸ postInc_eq _ _ _ _
  have hx0 := seen_eq s t w
  have hv : p.v = z.v := (congrArg Tun.v hpz :)
  have ht (r : Nat) : vTag p r = vTag z r := (congrArg (fun y : Tun => vTag y r) hpz :)
  have hk (r : Nat) : vKind p r = vKind z r := (congrArg (fun y : Tun => vKind y r) hpz :)
  have hxv : (seen s t w).v = x.v := (congrArg Tun.v hx0 :)
  refine ⟨_, congrArg _ (loadOn_ok hl ha), load_frame hx0 hzx hpz, ?increment, fun r hr => ?others, fun f hf => ?fields⟩
  case increment =>
    exact postIncremented_postInc (x0 := seen s t w) (z := z) sreg_seen
      ((congrArg Tun.s hzx :).trans (congrArg Tun.s hx0 :)) ((congrArg Tun.stag hzx :).trans (congrArg Tun.stag hx0 :)) hacc.untagged
      (congrArg Tun.s hp.symm :) (congrArg Tun.stag hp.symm :)
  case others =>
    obtain ⟨hzv, hzt, hzk⟩ := hz ▸ fillRegs_other (n := n) (m := m) (val := val) (tag := tag) (kind := kind) (x := seen s t w) hr
    rw [hxv] at hzv
    exact ⟨(congrArg (Tab.getD · r 0) hv).trans hzv, (ht r).trans (hzt.trans (vTag_seen r)),
      (hk r).trans (hzk.trans (vKind_seen r))⟩
  case fields =>
    obtain ⟨hin, habove, htag⟩ := hz ▸ fillRegs_field (d := d) (tag := tag) (kind := kind) (x := seen s t w)
      (widthOf_mul_effCount x w.vew) hval hf
    have hel (j : Nat) : element n p (d + f) j = element n z (d + f) j := element_eq_of_getD_eq (congrArg (Tab.getD · (d + f) 0) hv) n j
    refine ⟨fun j hj => (hel j).trans (hin j hj), fun j hj => (hel j).trans ((habove j hj).trans
      (element_eq_of_getD_eq (congrArg (Tab.getD · (d + f) 0) hxv) n j)), fun hm => ?_⟩
    have hpos : n * m ≠ 0 := Nat.mul_ne_zero (widthOf_pos _).ne' hm.ne'
    rw [← vTag_seen (s := s) (t := t) (w := w) (d + f), ← decide_eq_decide.mpr (widthOf_mul_lt_iff w.vew m)]
    exact (ht _).trans (htag hpos)

section
variable {k m a : Nat} {e : TunEnv} {x0 : Tun}

/-- A load of `k` interleaved fields of `m` elements. -/
theorem loadAct_ok (hm : effCount x0 (widthOf w.vew) = m) (h : scratchAddr e x0 w.mldAddr (widthOf w.vew)
      (m * k * (widthOf w.vew / 8)) w.vdst.toNat k = .ok a) :
    let len := m * k * (widthOf w.vew / 8)
    loadAct k e w x0 x0 = .ok (postInc x0 (fillRegs (widthOf w.vew) m w.vdst.toNat
      (fun f => (List.range m).map fun j => loadElem x0.scratch a (widthOf w.vew) k j f) ((linesOf a len).any x0.ltag.contains)
      (loadKind x0 (linesOf a len)) k x0) w.mldAddr len) := by
  subst hm
  simp only [loadAct, h]
  rfl

theorem broadcastAct_ok (hm : effCount x0 (widthOf w.vew) = m) (h : scratchAddr e x0 w.mldAddr (widthOf w.vew)
      (if m = 0 then 0 else widthOf w.vew / 8) w.vdst.toNat 1 = .ok a) :
    let len := if m = 0 then 0 else widthOf w.vew / 8
    broadcastAct e w x0 x0 = .ok (postInc x0 (fillRegs (widthOf w.vew) m w.vdst.toNat
      (fun _ => List.replicate m (loadElem x0.scratch a (widthOf w.vew) 1 0 0)) ((linesOf a len).any x0.ltag.contains)
      (loadKind x0 (linesOf a len)) 1 x0) w.mldAddr len) := by
  subst hm
  simp only [broadcastAct, h]
  rfl

end

end

end Sys2Proof.Machine
end

section
/-!
SUPPORT. Stores (R126, R128, R134, R151): the bytes of interleaved fields, and what a store leaves of the tun and of the gang.
-/

namespace Sys2Proof.Machine

/-! ## Pieces of one length in a row -/

section
variable {α : Type} {g : Nat → List α} {c : Nat}

theorem length_flatMap_range (hg : ∀ i, (g i).length = c) (m : Nat) : ((List.range m).flatMap g).length = m * c := by
  rw [List.length_flatMap, List.map_congr_left fun i _ => hg i, List.map_const', List.length_range, List.sum_replicate,
    smul_eq_mul]

theorem getD_flatMap_range (hg : ∀ i, (g i).length = c) {m i o : Nat} (hi : i < m) (ho : o < c) (z : α) :
    ((List.range m).flatMap g).getD (i * c + o) z = (g i).getD o z := by
  induction m with
  | zero => exact absurd hi (Nat.not_lt_zero i)
  | succ m ih =>
    have hlen := length_flatMap_range hg m
    rw [List.range_succ, List.flatMap_append, List.flatMap_singleton]
    by_cases h : i = m
    · subst h
      rw [List.getD_append_right _ _ _ _ (by omega), hlen, Nat.add_sub_cancel_left]
    · have hlt : i < m := by omega
      have hnext : (i + 1) * c ≤ m * c := Nat.mul_le_mul_right c hlt
      rw [Nat.succ_mul] at hnext
      rw [List.getD_append _ _ _ _ (by omega), ih hlt]

end

/-! ## The bytes of a store -/

theorem read_writeN {m : Mem} {a i : Nat} {bs : Bytes} (h : i < bs.length) : Mem.read (Mem.writeN m a bs) (a + i) = bs.getD i 0 := by
  induction bs generalizing m a i with
  | nil => exact absurd h (Nat.not_lt_zero i)
  | cons b bs ih =>
    rw [Mem.writeN]
    cases i with
    | zero => rw [Mem.read_writeN_outside _ _ _ (Or.inl (Nat.lt_succ_self (a + 0))), Nat.add_zero, Mem.read_write_self]; rfl
    | succ i =>
      rw [List.getD_cons_succ, ← ih (m := Mem.write m a b) (a := a + 1) (Nat.lt_of_succ_lt_succ h), Nat.add_right_comm,
        Nat.add_assoc]

theorem length_storeBytes (x : Tun) (n m k first : Nat) : (storeBytes x n m k first).length = m * k * (n / 8) := by
  rw [storeBytes, length_flatMap_range fun j => length_flatMap_range (fun f => length_le _ _) k, Nat.mul_assoc]

/-- A byte of an element, in the bytes of a store. -/
theorem getD_storeBytes {n m k first j f b : Nat} (x : Tun) (hj : j < m) (hf : f < k) (hb : b < n / 8) :
    (storeBytes x n m k first).getD ((j * k + f) * (n / 8) + b) 0 = (element n x (first + f) j).extractLsb' (8 * b) 8 := by
  have hidx : (j * k + f) * (n / 8) + b = j * (k * (n / 8)) + (f * (n / 8) + b) := by ring
  have hin : f * (n / 8) + b < k * (n / 8) := by simpa using field_lt (m := 1) Nat.zero_lt_one hf hb
  rw [storeBytes, hidx, getD_flatMap_range (fun j => length_flatMap_range (fun f => length_le _ _) k) hj hin,
    getD_flatMap_range (fun f => length_le _ _) hf hb, List.getD_eq_getElem _ _ (by rwa [length_le]), getElem_le, element_eq]
  refine BitVec.eq_of_getLsbD_eq fun i hi => ?_
  rw [BitVec.getLsbD_ofNat, Nat.testBit_div_two_pow, BitVec.getLsbD_extractLsb', BitVec.getLsbD_ofNat,
    decide_eq_true hi, decide_eq_true (by omega : 8 * b + i < n), Bool.true_and, Bool.true_and, Bool.true_and, Nat.add_comm i]

/-! ## What a store leaves of its tun -/

/-- Tagging lines changes nothing but what stands beside the lines. -/
theorem tagLines_eq (x : Tun) (a n : Nat) (tag : Bool) (kind : ShareKind) :
    let y := tagLines x a n tag kind
    y = { x with ltag := y.ltag, lkind := y.lkind, written := y.written } := by
  unfold tagLines
  generalize linesOf a n = ls
  induction ls generalizing x with
  | nil => rfl
  | cons l ls ih => exact ih _

section
variable {s : State} {t : Nat} {w : Microword}

theorem storeOn_ok {a : Act} {x1 : Tun} (hl : tunLive (s.tun t) = true)
    (h : a (envOf s t (s.tun t)) w (seen s t w) (seen s t w) = .ok x1) :
    storeOn t w a s = scatter s t (gangOf s t (s.tun t)) x1 := by
  rw [seen] at h
  simp only [storeOn, hl, Bool.not_true, Bool.false_eq_true, if_false, h]

@[simp] theorem storeBytes_seen (n m k first : Nat) : storeBytes (seen s t w) n m k first = storeBytes (s.tun t) n m k first := by
  simp only [storeBytes, vreg_seen]

/-- A store of `k` interleaved fields of `m` elements, before the gang's scratch is put back. -/
theorem storeAct_ok {k m a : Nat} {e : TunEnv} {x0 : Tun} (hm : effCount x0 (widthOf w.vew) = m)
    (h : scratchAddr e x0 w.mstAddr (widthOf w.vew) (m * k * (widthOf w.vew / 8)) w.vsrcB.toNat k = .ok a) :
    let len := m * k * (widthOf w.vew / 8)
    ∃ tag kind, storeAct k e w x0 x0 = .ok (postInc x0 (tagLines
      { x0 with scratch := Mem.writeN x0.scratch a (storeBytes x0 (widthOf w.vew) m k w.vsrcB.toNat) } a len tag kind)
      w.mstAddr len) := by
  subst hm
  intro len
  let srcs := (List.range k).map (w.vsrcB.toNat + ·)
  refine ⟨srcs.any (vTag x0), ((srcs.find? (vTag x0)).map (vKind x0)).getD .boolean, ?_⟩
  simp only [storeAct, h]
  rfl

/-- A store changes scratch, scalar registers and the element width alone. -/
theorem store_frame {x x0 z p : Tun} {m : Mem} {vew : BitVec 2}
    (h0 : x0 = { x with scratch := x0.scratch, lkind := x0.lkind, ltag := x0.ltag, written := x0.written, vew := vew })
    (hz : z = { x0 with scratch := m, ltag := z.ltag, lkind := z.lkind, written := z.written })
    (hp : p = { z with s := p.s, stag := p.stag }) :
    p = { x with
      scratch := m, ltag := p.ltag, lkind := p.lkind, written := p.written, s := p.s, stag := p.stag, vew := vew } := by
  obtain ⟨s, stag, rfl⟩ : ∃ s stag, p = { z with s := s, stag := stag } := ⟨_, _, hp⟩
  obtain ⟨b, c, d, rfl⟩ : ∃ b c d, z = { x0 with scratch := m, ltag := b, lkind := c, written := d } := ⟨_, _, _, hz⟩
  obtain ⟨a, b, c, d, rfl⟩ : ∃ a b c d, x0 = { x with scratch := a, lkind := b, ltag := c, written := d, vew := vew } :=
    ⟨_, _, _, _, h0⟩
  rfl

/-- A store by its bytes: the tun that is put back into the gang. -/
theorem storeOn_bytes {k : Nat} (hl : tunLive (s.tun t) = true) (hacc : AccessOk s t w w.mstAddr
      (effCount (s.tun t) (widthOf w.vew) * k * (widthOf w.vew / 8)) w.vsrcB.toNat k) :
    let x := s.tun t
    let n := widthOf w.vew
    let m := effCount x n
    let a := (scalar x (w.mstAddr.toNat % 16)).toNat
    ∃ x1, storeOn t w (storeAct k) s = scatter s t (gangOf s t x) x1 ∧
      x1 = { x with
        scratch := Mem.writeN (seen s t w).scratch a (storeBytes x n m k w.vsrcB.toNat)
        ltag := x1.ltag, lkind := x1.lkind, written := x1.written, s := x1.s, stag := x1.stag, vew := w.vew } ∧
      PostIncremented x x1 w.mstAddr (m * k * (n / 8)) := by
  intro x n m a
  obtain ⟨tag, kind, hact⟩ := storeAct_ok (effCount_seen n) hacc.scratchAddr
  rw [storeBytes_seen] at hact
  have hz := tagLines_eq { seen s t w with scratch := Mem.writeN (seen s t w).scratch a (storeBytes x n m k w.vsrcB.toNat) } a
    (m * k * (n / 8)) tag kind
  have hx0 := seen_eq s t w
  refine ⟨_, storeOn_ok hl hact, store_frame hx0 hz (postInc_eq _ _ _ _), ?_⟩
  exact postIncremented_postInc sreg_seen ((congrArg Tun.s hz :).trans (congrArg Tun.s hx0 :))
    ((congrArg Tun.stag hz :).trans (congrArg Tun.stag hx0 :)) hacc.untagged rfl rfl

/-- The registers after an increment, where one more tun has the same scalar registers. -/
theorem PostIncremented.congr {x y z : Tun} {f : BitVec 6} {bytes : Nat} (h : PostIncremented x y f bytes) (hs : z.s = y.s)
    (ht : z.stag = y.stag) : PostIncremented x z f bytes := by
  intro r
  rw [sTag, scalar, hs, ht]
  exact h r

end

end Sys2Proof.Machine
end

section
/-!
SUPPORT. Loads and stores as R126 and R134 say them: the fields and their tags, and the bytes of the gang's scratch.
-/

namespace Sys2Proof.Machine

section
variable {s : State} {t : Nat} {w : Microword}

/-- A load of interleaved fields. -/
theorem loadOn_fields {k : Nat} (hl : tunLive (s.tun t) = true) (hg : GangOk s t) (hacc : AccessOk s t w w.mldAddr
      (effCount (s.tun t) (widthOf w.vew) * k * (widthOf w.vew / 8)) w.vdst.toNat k) :
    let x := s.tun t
    let n := widthOf w.vew
    let m := effCount x n
    let d := w.vdst.toNat
    let a := (scalar x (w.mldAddr.toNat % 16)).toNat
    AnswersTun s t (.next (loadOn t w (loadAct k) s)) fun y =>
      y = { x with v := y.v, vtag := y.vtag, vkind := y.vkind, s := y.s, stag := y.stag, vew := w.vew } ∧
      PostIncremented x y w.mldAddr (m * k * (n / 8)) ∧
      (∀ r, r < d ∨ d + k ≤ r → Tab.getD y.v r 0 = Tab.getD x.v r 0 ∧ vTag y r = vTag x r ∧ vKind y r = vKind x r) ∧
      ∀ f, f < k →
        (∀ j, m ≤ j → element n y (d + f) j = element n x (d + f) j) ∧
        (∀ j b, j < m → b < n / 8 →
          (element n y (d + f) j).extractLsb' (8 * b) 8 = scratchByte s t (a + (j * k + f) * (n / 8) + b)) ∧
        (0 < m → (vTag y (d + f) = true ↔
          (∃ p, a ≤ p ∧ p < a + m * k * (n / 8) ∧ scratchTag s t p = true) ∨ (m < vlMax n ∧ vTag x (d + f) = true))) := by
  intro x n m d a
  have hfit : a + m * k * (n / 8) ≤ scratchSize s t := hacc.fits
  have hact := loadAct_ok (effCount_seen n) hacc.scratchAddr
  obtain ⟨y, hy, hframe, hinc, hothers, hfields⟩ := loadOn_fillRegs hl hacc
    (fun _ => (List.length_map _).trans List.length_range) hact
  refine ⟨y, hy, hframe, hinc, hothers, fun f hf => ?_⟩
  obtain ⟨hin, habove, htag⟩ := hfields f hf
  refine ⟨habove, fun j b hj hb => ?_, fun hm => ?_⟩
  · have hlt := field_lt hj hf hb
    have hp : a + (j * k + f) * (n / 8) + b < scratchSize s t := by omega
    rw [hin j hj, List.getElem_map, List.getElem_range, extractLsb'_loadElem hb]
    exact read_seen hg hp
  · rw [htag hm, Bool.or_eq_true, Bool.and_eq_true, decide_eq_true_iff]
    exact or_congr_left (any_linesOf_seen hg hfit)

/-- A broadcast load. -/
theorem loadOn_broadcast (hl : tunLive (s.tun t) = true) (hg : GangOk s t) (hacc : AccessOk s t w w.mldAddr
      (if effCount (s.tun t) (widthOf w.vew) = 0 then 0 else widthOf w.vew / 8) w.vdst.toNat 1) :
    let x := s.tun t
    let n := widthOf w.vew
    let m := effCount x n
    let d := w.vdst.toNat
    let a := (scalar x (w.mldAddr.toNat % 16)).toNat
    AnswersTun s t (.next (loadOn t w broadcastAct s)) fun y =>
      y = { x with v := y.v, vtag := y.vtag, vkind := y.vkind, s := y.s, stag := y.stag, vew := w.vew } ∧
      PostIncremented x y w.mldAddr (if m = 0 then 0 else n / 8) ∧
      (∀ r, r ≠ d → Tab.getD y.v r 0 = Tab.getD x.v r 0 ∧ vTag y r = vTag x r ∧ vKind y r = vKind x r) ∧
      (∀ j, m ≤ j → element n y d j = element n x d j) ∧
      ∀ j b, j < m → b < n / 8 → (element n y d j).extractLsb' (8 * b) 8 = scratchByte s t (a + b) := by
  intro x n m d a
  have hact := broadcastAct_ok (effCount_seen n) hacc.scratchAddr
  obtain ⟨y, hy, hframe, hinc, hothers, hfields⟩ := loadOn_fillRegs hl hacc (fun _ => List.length_replicate) hact
  obtain ⟨hin, habove, -⟩ := hfields 0 Nat.zero_lt_one
  refine ⟨y, hy, hframe, hinc, fun r hr => hothers r (by omega), habove, fun j b hj hb => ?_⟩
  have hfit : a + (if m = 0 then 0 else n / 8) ≤ scratchSize s t := hacc.fits
  rw [if_neg (by omega)] at hfit
  have hp : a + b < scratchSize s t := by omega
  refine (congrArg _ (hin j hj)).trans ?_
  rw [List.getElem_replicate, extractLsb'_loadElem hb, Nat.zero_mul, Nat.add_zero]
  exact read_seen hg hp

/-- The tun that stored, after the gang's scratch is put back. -/
theorem OnlyScratch.frame {x x1 y : Tun} {m : Mem} {vew : BitVec 2} (h : OnlyScratch x1 y) (h1 : x1 = { x with
      scratch := m, ltag := x1.ltag, lkind := x1.lkind, written := x1.written, s := x1.s, stag := x1.stag, vew := vew }) :
    y = { x with
      scratch := y.scratch, ltag := y.ltag, lkind := y.lkind, written := y.written, s := y.s, stag := y.stag, vew := vew } := by
  obtain ⟨a, b, c, d, rfl⟩ : ∃ a b c d, y = { x1 with scratch := a, ltag := b, lkind := c, written := d } := ⟨_, _, _, _, h⟩
  obtain ⟨b, c, d, e, f, rfl⟩ : ∃ b c d e f, x1 = { x with
    scratch := m, ltag := b, lkind := c, written := d, s := e, stag := f, vew := vew } := ⟨_, _, _, _, _, h1⟩
  rfl

/-- A store of interleaved fields. -/
theorem storeOn_fields {k : Nat} (hl : tunLive (s.tun t) = true) (hg : GangOk s t) (hacc : AccessOk s t w w.mstAddr
      (effCount (s.tun t) (widthOf w.vew) * k * (widthOf w.vew / 8)) w.vsrcB.toNat k) :
    let x := s.tun t
    let n := widthOf w.vew
    let m := effCount x n
    let first := w.vsrcB.toNat
    let a := (scalar x (w.mstAddr.toNat % 16)).toNat
    let s' := storeOn t w (storeAct k) s
    s' = { s with tuns := { s.tuns with tuns := s'.tuns.tuns } } ∧
    (∀ j f b, j < m → f < k → b < n / 8 →
      scratchByte s' t (a + (j * k + f) * (n / 8) + b) = (element n x (first + f) j).extractLsb' (8 * b) 8) ∧
    (∀ p, p < scratchSize s t → p < a ∨ a + m * k * (n / 8) ≤ p → scratchByte s' t p = scratchByte s t p) ∧
    (∀ u, u ∉ gangOf s t x → s'.tun u = s.tun u) ∧
    (∀ u, u ≠ t → ∃ y : Tun,
      s'.tun u = { s.tun u with scratch := y.scratch, ltag := y.ltag, lkind := y.lkind, written := y.written }) ∧
    s'.tun t = { x with
      scratch := (s'.tun t).scratch, ltag := (s'.tun t).ltag, lkind := (s'.tun t).lkind, written := (s'.tun t).written
      s := (s'.tun t).s, stag := (s'.tun t).stag, vew := w.vew } ∧
    PostIncremented x (s'.tun t) w.mstAddr (m * k * (n / 8)) := by
  intro x n m first a s'
  have hfit : a + m * k * (n / 8) ≤ scratchSize s t := hacc.fits
  obtain ⟨x1, hs', hframe, hinc⟩ := storeOn_bytes hl hacc
  have honly := onlyScratch_scatter hg x1
  rw [← hs'] at honly
  have hself := honly t
  rw [if_pos rfl] at hself
  have hbyte {p : Nat} (hp : p < scratchSize s t) : scratchByte s' t p = Mem.read x1.scratch p := by
    rw [show s' = _ from hs']
    exact scratchByte_scatter hg (congrArg Tun.sid hframe :) (congrArg Tun.openRoutine hframe :) hp
  have hscr : x1.scratch = Mem.writeN (seen s t w).scratch a (storeBytes x n m k first) := (congrArg Tun.scratch hframe :)
  have hlen := length_storeBytes x n m k first
  refine ⟨?only, fun j f b hj hf hb => ?inside, fun p hp hout => ?outside, fun u hu => ?foreign, fun u hu => ?member, ?self, ?inc⟩
  case only => rw [show s' = _ from hs']; exact scatter_tuns s t _ x1
  case inside =>
    have hlt := field_lt hj hf hb
    rw [hbyte (by omega), hscr, Nat.add_assoc, read_writeN (by omega), getD_storeBytes x hj hf hb]
  case outside => rw [hbyte hp, hscr, Mem.read_writeN_outside _ _ _ (by omega), read_seen hg hp]
  case foreign => rw [show s' = _ from hs']; exact tun_scatter_of_not_mem hg x1 hu
  case member => exact ⟨s'.tun u, by have := honly u; rwa [if_neg hu] at this⟩
  case self => exact hself.frame hframe
  case inc => exact hinc.congr (congrArg Tun.s hself :) (congrArg Tun.stag hself :)

end

end Sys2Proof.Machine

open Sys2Proof Sys2Proof.Machine

/-- Settles O13: a load or a store acts on the gang's scratch gathered into one address space, so its bytes are read off there, and
putting the space back gives every member its own bytes again. -/
theorem loadsAndStoresMoveInterleavedFields : Obligations.LoadsAndStoresMoveInterleavedFields := by
  refine ⟨fun s t w hl hg => ⟨fun k hk h1 h4 hacc => ?load, fun hacc => loadOn_broadcast hl hg hacc⟩,
    fun s t w hl hg h1 h4 hacc => ?store⟩
  case load =>
    subst hk
    rw [mldLoad_eq h1 h4]
    exact loadOn_fields hl hg hacc
  case store =>
    rw [mstStore_eq h1 h4]
    exact ⟨_, rfl, storeOn_fields hl hg hacc⟩
end

section
/-!
SUPPORT. Safe points and the watchdog (R155, R156): what a safe point does for the slip that runs on its tun.
-/

namespace Sys2Proof.Machine

section
variable {s : State} {t sid : Nat} {sl : Slip}

/-- For a slip that runs, what is pending is serviced in the order of R155. -/
theorem servicePending_running (ht : (s.tun t).sid = some sid) (hs : s.slip? sid = some sl) (hp : sl.phase = .running)
    (dropLate : Bool) : servicePending s t dropLate =
      if s.ent.state = .failed then abortRunning s sid sl St.entropyFailed
      else if dropLate then s
      else if sl.abortReq then abortRunning s sid sl St.aborted
      else if sl.suspendReq && csClass sl.cs == 5 then suspend s sid sl
      else s := by
  rw [servicePending, ht]
  dsimp only
  rw [hs]
  exact if_neg (not_not_intro hp)

/-- A safe point restarts the watchdog, then services what is pending. -/
theorem safePoint_running (hl : tunLive (s.tun t) = true) (ht : (s.tun t).sid = some sid) (hs : s.slip? sid = some sl)
    (hp : sl.phase = .running) :
    let s0 := s.setTun t { s.tun t with watchdog := 0 }
    exec (.safePoint t) s = .next (
      if s.ent.state = .failed then abortRunning s0 sid sl St.entropyFailed
      else if sl.abortReq then abortRunning s0 sid sl St.aborted
      else if sl.suspendReq && csClass sl.cs == 5 then suspend s0 sid sl
      else s0) := by
  intro s0
  have ht0 : (s0.tun t).sid = some sid := (congrArg Tun.sid (State.setTun_tun_self s t _)).trans ht
  exact (if_pos hl).trans (congrArg _ (servicePending_running ht0 hs hp false))

end

end Sys2Proof.Machine

open Sys2Proof Sys2Proof.Machine

/-- Settles O16: the requests that are pending at a safe point, each with those that go before it set aside. -/
theorem safePointsServicePendingRequests : Obligations.SafePointsServicePendingRequests := by
  intro s t sid sl hl ht hs hp x s0
  have hsafe := safePoint_running hl ht hs hp
  refine ⟨fun he => ?failed, fun he ha => ?abort, fun he ha hr hc => ?suspend, fun he ha hr => ?nothing, fun ho => ?openEnds,
    fun ho => ?closedFaults⟩
  case failed => rw [hsafe, if_pos he]; rfl
  case abort => rw [hsafe, if_neg he, if_pos ha]; rfl
  case suspend => rw [hsafe, if_neg he, if_neg (by simp [ha]), if_pos (by simp [hr, hc])]
  case nothing =>
    have hno : ¬ (sl.suspendReq && csClass sl.cs == 5) = true := by rcases hr with h | h <;> simp [h]
    rw [hsafe, if_neg he, if_neg (by simp [ha]), if_neg hno]
  case openEnds => exact ⟨_, (if_neg (by simp [hl])).trans (if_pos ho), rfl⟩
  case closedFaults => exact (if_neg (by simp [hl])).trans (if_neg (by simp [x, ho]))
end

section
/-!
SUPPORT. The sequencer (R144, R147, R148, R157): what the word at PC does as a whole, where it goes on, and what a word that only
sequences leaves in the tun.
-/

namespace Sys2Proof.Machine

/-! ## Loop counters (R149) -/

/-- Of a tun, `y` differs from `x` at most in the loop counters. -/
def OnlyCounters (x y : Tun) : Prop := y = { x with ct0 := y.ct0, ct1 := y.ct1, ct2 := y.ct2, ct3 := y.ct3 }

theorem setCtr_only (x : Tun) (n : Nat) (v : BitVec 16) : OnlyCounters x (setCtr x n v) := by
  unfold setCtr; split <;> rfl

theorem ctr_setCtr (x : Tun) {n i : Nat} (hn : n < 4) (hi : i < 4) (v : BitVec 16) :
    ctr (setCtr x n v) i = if i = n then v else ctr x i := by
  interval_cases n <;> interval_cases i <;> rfl

section
variable {s : State} {t : Nat} {w : Microword}

/-! ## The word at PC -/

@[simp] theorem cycles_seen : (seen s t w).cycles = (s.tun t).cycles := by rw [seen_eq]
@[simp] theorem watchdog_seen : (seen s t w).watchdog = (s.tun t).watchdog := by rw [seen_eq]
@[simp] theorem successor_seen (e : TunEnv) : successor e w (seen s t w) = successor e w (s.tun t) := by rw [seen_eq]; rfl

/-- The state in which the word at PC has run, before pending requests are serviced. -/
def wordRun (s : State) (t : Nat) (w : Microword) : State :=
  scatter (drawRng s w) t (gangOf s t (s.tun t)) (runWord (envOf s t (s.tun t)) w (seen s t w))

/-- The word at PC runs under its own sequencer operation, and under no other. -/
theorem seqRow_eq (hl : tunLive (s.tun t) = true) (hw : WordAt s t w) (op : Nat) :
    let last := decide (w.seqOp = 7) || decide (w.seqOp = 8)
    seqRow t op s = if w.seqOp.toNat ≠ op then s
      else if w.safe || last then servicePending (wordRun s t w) t last else wordRun s t w := by
  obtain ⟨hok, rfl, hinj⟩ := hw
  have hgood : ¬ (!wordOk (Tab.getD s.tuns.store (s.tun t).pc.toNat 0) || storeInjected s t) = true := by
    rw [hok, hinj]; decide
  exact (if_neg (by simp [hl])).trans (if_neg hgood)

/-- Drawing the random bytes of a word changes no tun and no slip. -/
theorem gangOk_drawRng (hg : GangOk s t) (w : Microword) :
    GangOk (drawRng s w) t ∧ gangOf (drawRng s w) t ((drawRng s w).tun t) = gangOf s t (s.tun t) := by
  unfold drawRng
  split <;> exact ⟨hg, rfl⟩

/-- The tun after the word at PC, but for its scratch. -/
theorem tun_wordRun (hg : GangOk s t) :
    OnlyScratch (runWord (envOf s t (s.tun t)) w (seen s t w)) ((wordRun s t w).tun t) := by
  obtain ⟨hg', hgang⟩ := gangOk_drawRng hg w
  have h := onlyScratch_scatter hg' (runWord (envOf s t (s.tun t)) w (seen s t w)) t
  rwa [if_pos rfl, hgang] at h

theorem exists_of_isOk {ε α : Type} {r : Except ε α} (h : r.isOk = true) : ∃ a, r = .ok a := by
  cases r with
  | error e => exact absurd h nofun
  | ok a => exact ⟨a, rfl⟩

/-- A word whose actions complete and whose successor is known leaves its successor in the tun, and has taken its cycles. -/
theorem runWord_completes {o : SeqOut} (hc : ActionsComplete s t w)
    (ho : successor (envOf s t (s.tun t)) w (s.tun t) = .ok o) :
    ∃ x : Tun, runWord (envOf s t (s.tun t)) w (seen s t w) = { x with
      pc := o.pc, stack := o.stack, ended := o.ends, cycles := (s.tun t).cycles + wordCost w (seen s t w)
      watchdog := if w.safe then 0 else (s.tun t).watchdog + wordCost w (seen s t w) } := by
  unfold ActionsComplete at hc
  obtain ⟨x, hx⟩ := exists_of_isOk hc
  refine ⟨x, ?_⟩
  simp only [runWord, successor_seen, ho, hx, cycles_seen, watchdog_seen]

/-- So the sequencer goes where the successor says. -/
theorem seqRow_sequencesTo {o : SeqOut} {op : Nat} (hl : tunLive (s.tun t) = true) (hg : GangOk s t) (hw : WordAt s t w)
    (hc : ActionsComplete s t w) (hop : w.seqOp.toNat = op)
    (ho : successor (envOf s t (s.tun t)) w (s.tun t) = .ok o) :
    SequencesTo s t w o.pc o.stack o.ends (.next (seqRow t op s)) := by
  rw [seqRow_eq hl hw, if_neg (not_not_intro hop)]
  obtain ⟨x, hx⟩ := runWord_completes hc ho
  have h := tun_wordRun (w := w) hg
  rw [hx] at h
  exact ⟨_, rfl, (congrArg Tun.pc h :), (congrArg Tun.stack h :), (congrArg Tun.ended h :), (congrArg Tun.cycles h :),
    (congrArg Tun.watchdog h :)⟩

end

/-! ## Successors (R147) and conditions (R148) -/

section
variable {e : TunEnv} {w : Microword} {x : Tun}

/-- A condition that is defined and reads no tagged flag is what R148's table says. -/
theorem condHolds_readable {c : BitVec 6} (h : ConditionReadable x c) : condHolds e x c = .ok (conditionHolds x e.outMax c) := by
  obtain ⟨hc, hf⟩ := h
  unfold condHolds condRaw conditionHolds
  generalize c.toNat % 32 = k at hc hf ⊢
  interval_cases k <;> simp [hf]

theorem successor_cont (h : w.seqOp = 0) : successor e w x = .ok { pc := x.pc + 1, stack := x.stack } := by
  rw [successor, h]; rfl

theorem successor_jump (h : w.seqOp = 1) : successor e w x = .ok { pc := w.next, stack := x.stack } := by
  rw [successor, h]; rfl

theorem successor_br (h : w.seqOp = 2) {b : Bool} (hb : condHolds e x w.cond = .ok b) :
    successor e w x = .ok { pc := if b then w.next else x.pc + 1, stack := x.stack } := by
  rw [successor, h, hb]
  cases b <;> rfl

theorem pushed_open (h : x.stack.length < 8) : pushed x w.next = .ok { pc := w.next, stack := (x.pc + 1) :: x.stack } :=
  if_neg (Nat.not_le.mpr h)

theorem pushed_full (h : 8 ≤ x.stack.length) : pushed x w.next = .error .fault := if_pos h

theorem successor_call (h : w.seqOp = 3) : successor e w x = pushed x w.next := by
  rw [successor, h]; rfl

theorem successor_callc (h : w.seqOp = 4) {b : Bool} (hb : condHolds e x w.cond = .ok b)
    (hs : b = true → x.stack.length < 8) : successor e w x = .ok {
      pc := if b then w.next else x.pc + 1, stack := if b then (x.pc + 1) :: x.stack else x.stack } := by
  rw [successor, h, hb]
  cases b with
  | false => rfl
  | true => exact pushed_open (hs rfl)

theorem successor_ret (h : w.seqOp = 5) {r : BitVec 14} {rs : List (BitVec 14)} (hs : x.stack = r :: rs) :
    successor e w x = .ok { pc := r, stack := rs } := by
  rw [successor, h, hs]; rfl

theorem successor_ret_empty (h : w.seqOp = 5) (hs : x.stack = []) : successor e w x = .error .fault := by
  rw [successor, h, hs]; rfl

theorem successor_loop (h : w.seqOp = 6) : successor e w x = .ok {
      pc := if (ctr x (w.ctr.toNat % 4)).toNat ≤ 1 then x.pc + 1 else w.next, stack := x.stack } := by
  rw [successor, h]
  exact congrArg Except.ok (by split <;> rfl)

theorem successor_exit (h : w.seqOp = 7) : successor e w x = .ok { pc := x.pc + 1, stack := x.stack, ends := some .ok } := by
  rw [successor, h]; rfl

theorem successor_fail (h : w.seqOp = 8) : successor e w x = .ok {
      pc := x.pc + 1, stack := x.stack, ends := some (.status (failStatus e.closed w.imm)) } := by
  rw [successor, h]; rfl

theorem envOf_closed (s : State) (t : Nat) (y : Tun) : (envOf s t y).closed = !y.openRoutine := by
  unfold envOf
  split <;> rfl

/-- An open routine that fails with a status of another range than R157's ends with `ROUTINE_FAULT`. -/
theorem failStatus_eq (isOpen : Bool) (imm : BitVec 32) : let v := imm.toNat % 65536
    failStatus (!isOpen) imm = if isOpen && !(decide (0x0401 ≤ v) && decide (v ≤ 0x0408)) then 0x0701 else v := by
  intro v
  unfold failStatus
  dsimp only
  by_cases hv : 0x0401 ≤ v ∧ v ≤ 0x0408
  · rw [if_pos (.inr hv), if_neg (by simp [hv])]
  · have hrange : (decide (0x0401 ≤ v) && decide (v ≤ 0x0408)) = false := by
      rw [← Bool.decide_and, decide_eq_false hv]
    rw [hrange]
    cases isOpen with
    | false => rfl
    | true => exact if_neg (by simpa using hv)

/-! ## Words that only sequence -/

theorem runActs_pure (h : PureSequencing w) (x0 : Tun) : runActs e w x0 (wordActs w) x none = .ok x := by
  obtain ⟨hvop, hmld, hinq, hcore, htag, hrnd, hsop, hvlop, hmst, houtq, hctr, htrace⟩ := h
  simp [wordActs, runActs, vectorAct, mldAct, inqAct, coreAct, tagAct, rndAct, scalarAct, vlopAct, mstAct, outqAct, ctrAct,
    traceAct, hvop, hmld, hinq, hcore, htag, hrnd, hsop, hvlop, hmst, houtq, hctr, htrace]

theorem wordCost_pure (h : PureSequencing w) : wordCost w x = 1 := by
  obtain ⟨hvop, hmld, hinq, hcore, htag, hrnd, -, -, hmst, houtq, -, -⟩ := h
  simp [wordCost, vopOf, coreCost, moveCost, hvop, hmld, hinq, hcore, htag, hrnd, hmst, houtq]

/-! ## The loop counter that a word names (R147) -/

theorem loopStep_of_ne (h : w.seqOp ≠ 6) : loopStep w x = x := if_neg fun hc => h hc.1

theorem loopStep_only (w : Microword) (x : Tun) : OnlyCounters x (loopStep w x) := by
  unfold loopStep
  dsimp only
  split
  · exact setCtr_only _ _ _
  · rfl

/-- `LOOP` lowers its counter by one, down to zero. -/
theorem ctr_loopStep (h : w.seqOp = 6) {i : Nat} (hi : i < 4) :
    let n := w.ctr.toNat % 4
    ctr (loopStep w x) i = if i = n then if ctr x n = 0 then 0 else ctr x n - 1 else ctr x i := by
  intro n
  have hn : n < 4 := Nat.mod_lt _ (by decide)
  unfold loopStep
  by_cases hz : ctr x n = 0
  · rw [if_neg fun hc => hc.2 hz, if_pos hz]
    split
    · next hin => rw [hin, hz]
    · rfl
  · rw [if_pos ⟨h, hz⟩, ctr_setCtr x hn hi, if_neg hz]

/-- A counter of at most one is zero once lowered. -/
theorem lowered_eq_zero_iff (c : BitVec 16) : (if c = 0 then 0 else c - 1) = 0 ↔ c.toNat ≤ 1 := by
  split
  · next h => simp [h]
  · bv_omega

/-- A word that only sequences stops where it has no successor. -/
theorem runWord_pure_stops (h : PureSequencing w) (hop : ¬(w.seqOp = 2 ∨ w.seqOp = 4))
    (ho : successor e w x = .error .fault) : runWord e w x = { x with ended := some (.status St.routineFault) } := by
  simp only [runWord, ho, if_neg hop, runActs_pure h]
  rfl

/-- The tun one cycle on, at another address. -/
def oneCycleOn (x : Tun) (pc : BitVec 14) : Tun := { x with pc := pc, cycles := x.cycles + 1, watchdog := x.watchdog + 1 }

/-- Otherwise it goes on, and takes one cycle. -/
theorem runWord_pure_goes (h : PureSequencing w) (hop : ¬(w.seqOp = 2 ∨ w.seqOp = 4)) (hsafe : w.safe = false)
    (hend : x.ended = none) {pc : BitVec 14} (ho : successor e w x = .ok { pc := pc, stack := x.stack }) :
    runWord e w x = oneCycleOn (loopStep w x) pc := by
  simp only [runWord, ho, if_neg hop, runActs_pure h, wordCost_pure h, hsafe]
  rw [show loopStep w x = _ from loopStep_only w x, ← hend]
  rfl

end

section
variable {s : State} {t : Nat} {w : Microword}

/-- A word that only sequences changes, on a tun alone, no more than that tun. -/
theorem seqRow_pure (hl : tunLive (s.tun t) = true) (hw : WordAt s t w) (hgang : gangOf s t (s.tun t) = [t])
    (hp : PureSequencing w) (hsafe : w.safe = false) {op : Nat} (hop : w.seqOp.toNat = op) (h7 : op < 7) :
    seqRow t op s = s.setTun t (runWord (envOf s t (s.tun t)) w (atWord w (s.tun t))) := by
  have hinq : w.inq ≠ 6 := by simp [hp.2.2.1]
  have hlast : ¬ (w.safe || (decide (w.seqOp = 7) || decide (w.seqOp = 8))) = true := by
    rw [hsafe, decide_eq_false (by rintro h; simp [h] at hop; omega), decide_eq_false (by rintro h; simp [h] at hop; omega)]
    decide
  rw [seqRow_eq hl hw, if_neg (not_not_intro hop), if_neg hlast, wordRun, drawRng, if_neg hinq,
    seen_single (by simp [hgang]), hgang]
  rfl

end
end Sys2Proof.Machine

open Sys2Proof Sys2Proof.Machine

/-- Settles O15: a word goes where its successor says, and a word that only sequences changes no more than that and its counter. -/
theorem sequencerOpsSelectTheNextAddress : Obligations.SequencerOpsSelectTheNextAddress := by
  refine ⟨fun s t w hl hg hw hc => ?whole, fun s t w hl hw hgang hp hsafe => ?alone⟩
  case whole =>
    intro x on e holds n v
    have goes {op : Nat} {o : SeqOut} (hop : w.seqOp.toNat = op) (ho : successor e w x = .ok o) :
        SequencesTo s t w o.pc o.stack o.ends (.next (seqRow t op s)) := seqRow_sequencesTo hl hg hw hc hop ho
    refine ⟨fun h => goes (by rw [h]; rfl) (successor_cont h), fun h => goes (by rw [h]; rfl) (successor_jump h),
      fun h hr => goes (by rw [h]; rfl) (successor_br h (condHolds_readable hr)),
      fun h hs => goes (by rw [h]; rfl) ((successor_call h).trans (pushed_open hs)),
      fun h hr hs => goes (by rw [h]; rfl) (successor_callc h (condHolds_readable hr) hs),
      fun r rs h hs => goes (by rw [h]; rfl) (successor_ret h hs), fun h => goes (by rw [h]; rfl) (successor_loop h),
      fun h => ⟨_, _, goes (by rw [h]; rfl) (successor_exit h)⟩, fun h => ?fail⟩
    case fail =>
      rw [← failStatus_eq, ← envOf_closed s t x]
      exact ⟨_, _, goes (by rw [h]; rfl) (successor_fail h)⟩
  case alone =>
    intro x n
    have hend : x.ended = none := (by simpa [tunLive] using hl : x.running = true ∧ x.ended = none).2
    have alone {op : Nat} (hop : w.seqOp.toNat = op) (h7 : op < 7) :
        seqRow t op s = s.setTun t (runWord (envOf s t x) w (atWord w x)) := seqRow_pure hl hw hgang hp hsafe hop h7
    have stops {op : Nat} (hop : w.seqOp.toNat = op) (h7 : op < 7) (h24 : ¬(w.seqOp = 2 ∨ w.seqOp = 4))
        (ho : successor (envOf s t x) w (atWord w x) = .error .fault) :
        seqRow t op s = s.setTun t { atWord w x with ended := some (.status St.routineFault) } :=
      (alone hop h7).trans (congrArg _ (runWord_pure_stops hp h24 ho))
    have goes {op : Nat} {pc : BitVec 14} (hop : w.seqOp.toNat = op) (h7 : op < 7) (h24 : ¬(w.seqOp = 2 ∨ w.seqOp = 4))
        (ho : successor (envOf s t x) w (atWord w x) = .ok { pc := pc, stack := x.stack }) :
        seqRow t op s = s.setTun t (oneCycleOn (loopStep w (atWord w x)) pc) :=
      (alone hop h7).trans (congrArg _ (runWord_pure_goes (x := atWord w x) hp h24 hsafe hend ho))
    refine ⟨fun h hs => ⟨_, congrArg _ (stops (by rw [h]; rfl) (by decide) (by simp [h]) ?full), rfl⟩,
      fun h hs => ⟨_, congrArg _ (stops (by rw [h]; rfl) (by decide) (by simp [h]) (successor_ret_empty h hs)), rfl⟩,
      fun h => ?loop, fun h => ⟨?cont, ?jump⟩⟩
    case full => exact (successor_call h).trans (pushed_full hs)
    case loop =>
      have hn : n < 4 := Nat.mod_lt _ (by decide)
      refine ⟨_, congrArg _ (goes (by rw [h]; rfl) (by decide) (by simp [h]) (successor_loop h)), ?frame, ?lowered,
        fun i hi hin => (ctr_loopStep h hi).trans (if_neg hin), if_congr ?pc rfl rfl⟩
      case frame => rw [show loopStep w (atWord w x) = _ from loopStep_only w _]; rfl
      case lowered => exact (ctr_loopStep h hn).trans (if_pos rfl)
      case pc =>
        change (ctr x n).toNat ≤ 1 ↔ ctr (loopStep w (atWord w x)) n = 0
        rw [ctr_loopStep h hn, if_pos rfl]
        exact (lowered_eq_zero_iff _).symm
    case cont => exact congrArg _ ((seqRow_eq hl hw 0).trans (if_pos (by rw [h]; decide)))
    case jump =>
      refine ⟨_, congrArg _ (goes (by rw [h]; rfl) (by decide) (by simp [h]) (successor_jump h)), ?_⟩
      rw [loopStep_of_ne (by simp [h])]
      rfl
end

section
/-!
SUPPORT. Queue transfers (R129, R140, R153, R154): the bytes that an input transfer takes, and where each output queue stops.
-/

namespace Sys2Proof.Machine

theorem getD_slice (b : Bytes) (o : Nat) {n i : Nat} (h : i < n) : (slice b o n).getD i 0 = b.getD (o + i) 0 := by
  rw [List.getD_eq_getElem?_getD, List.getD_eq_getElem?_getD, slice, fit, List.getElem?_take_of_lt h]
  rw [List.getElem?_append]
  split
  · rw [List.getElem?_drop]
  · next hlen =>
    rw [List.length_drop] at hlen
    rw [List.getElem?_eq_none (l := b) (by omega), zeros, List.getElem?_replicate]
    split <;> rfl

section
variable {s : State} {t : Nat} {w : Microword}

theorem answersTun_of_act {a : Act} {y : Tun} {P : Tun → Prop} (hl : tunLive (s.tun t) = true)
    (h : a (envOf s t (s.tun t)) w (atWord w (s.tun t)) (atWord w (s.tun t)) = .ok y) (hP : P y) :
    AnswersTun s t (.next (actOn t w a s)) P := ⟨y, congrArg _ (actOn_ok hl h), hP⟩

theorem endsRoutine_of_taint {a : Act} (hl : tunLive (s.tun t) = true)
    (h : a (envOf s t (s.tun t)) w (atWord w (s.tun t)) (atWord w (s.tun t)) = .error .taint) :
    EndsRoutine s t 0x0702 (.next (actOn t w a s)) := ⟨_, congrArg _ (actOn_error hl h), rfl⟩

/-! ## Input -/

/-- A transfer fits a register. -/
theorem eight_mul_moveBytes (w : Microword) (x : Tun) : 8 * moveBytes w x ≤ 8192 := by
  obtain ⟨k, hk⟩ := eight_dvd_widthOf w.vew
  have h := widthOf_mul_effCount x w.vew
  unfold moveBytes
  rw [show widthOf w.vew / 8 = k by omega]
  calc 8 * (effCount x (widthOf w.vew) * k) = widthOf w.vew * effCount x (widthOf w.vew) := by rw [hk]; ring
    _ ≤ 8192 := h

/-- A transfer moves the position of its own queue. -/
theorem queueOf_advanceQueue (e : TunEnv) (x : Tun) {q p : Nat} (n : Nat) (hq : 1 ≤ q ∧ q ≤ 6) (hp : 1 ≤ p ∧ p ≤ 5) :
    (queueOf e (advanceQueue x q n) p).2 = (queueOf e x p).2 + if p = q then n else 0 := by
  obtain ⟨hq1, hq6⟩ := hq
  obtain ⟨hp1, hp5⟩ := hp
  interval_cases p <;> interval_cases q <;> rfl

/-- It moves nothing else. -/
theorem advanceQueue_eq (x : Tun) (q n : Nat) : let y := advanceQueue x q n
    y = { x with inPos := y.inPos, auxPos := y.auxPos, paramPos := y.paramPos, keyPos := y.keyPos, carryPos := y.carryPos } := by
  dsimp only
  unfold advanceQueue
  split <;> rfl

/-- The register that an input transfer of `q` fills. -/
def filled (e : TunEnv) (w : Microword) (x : Tun) (q : Nat) : Tun :=
  setV x w.vdst.toNat (8 * moveBytes w x) (unle (slice (queueOf e x q).1 (queueOf e x q).2 (moveBytes w x))) (decide (4 ≤ q)) .boolean

/-- The tun after an input transfer of `q`. -/
def taken (e : TunEnv) (w : Microword) (x : Tun) (q : Nat) : Tun :=
  let n := moveBytes w x
  let ends := decide (0 < n) && q != 6 && decide ((queueOf e x q).1.length < (queueOf e x q).2 + n)
  advanceQueue { filled e w x q with qend := x.qend || ends } q n

theorem inqAct_ok {e : TunEnv} {x : Tun} (h1 : 1 ≤ w.inq.toNat) (h6 : w.inq.toNat ≤ 6) :
    inqAct e w x x = .ok (taken e w x w.inq.toNat) := by
  have hq : (filled e w x w.inq.toNat).qend = x.qend := (congrArg Tun.qend (setV_only x _ _ _ _ _).1 :)
  unfold taken
  rw [← hq]
  exact (if_neg (by omega)).trans (if_neg (by omega))

variable (e : TunEnv) (w : Microword) (x : Tun) {q : Nat}

/-- What a transfer changes: the register that it fills, `QEND`, and the positions of the queues. -/
theorem taken_eq (q : Nat) : let y := taken e w x q
    y = { x with
      v := y.v, vtag := y.vtag, vkind := y.vkind, vew := x.vew, qend := y.qend, inPos := y.inPos, auxPos := y.auxPos
      paramPos := y.paramPos, keyPos := y.keyPos, carryPos := y.carryPos } := by
  have hf : filled e w x q = _ := (setV_only x _ _ _ _ _).1
  dsimp only [taken]
  rw [advanceQueue_eq, hf]

theorem taken_regs (q : Nat) : (taken e w x q).v = (filled e w x q).v ∧ (taken e w x q).vtag = (filled e w x q).vtag ∧
    (taken e w x q).vkind = (filled e w x q).vkind := by
  unfold taken
  rw [advanceQueue_eq]
  exact ⟨rfl, rfl, rfl⟩

/-- The bits of the register filled: those of the queue's bytes, then its own. -/
theorem getLsbD_taken (q : Nat) {i : Nat} :
    (Tab.getD (taken e w x q).v w.vdst.toNat 0).getLsbD i =
      if i < 8 * moveBytes w x then ((queueOf e x q).1.getD ((queueOf e x q).2 + i / 8) 0).getLsbD (i % 8)
      else (Tab.getD x.v w.vdst.toNat 0).getLsbD i := by
  rw [(taken_regs e w x q).1, filled, getLsbD_setV (eight_mul_moveBytes w x)]
  split
  · rw [testBit_unle, getD_slice _ _ (by omega)]
  · rfl

theorem taken_qend (q : Nat) : (taken e w x q).qend = true ↔ x.qend = true ∨
    (0 < moveBytes w x ∧ q ≠ 6 ∧ (queueOf e x q).1.length < (queueOf e x q).2 + moveBytes w x) := by
  unfold taken
  rw [advanceQueue_eq]
  simp [and_assoc]

theorem taken_position {q p : Nat} (hq : 1 ≤ q ∧ q ≤ 6) (hp : 1 ≤ p ∧ p ≤ 5) :
    (queueOf e (taken e w x q) p).2 = (queueOf e x p).2 + if p = q then moveBytes w x else 0 := by
  have hf : filled e w x q = _ := (setV_only x _ _ _ _ _).1
  unfold taken
  rw [queueOf_advanceQueue _ _ _ hq hp, hf]
  rfl

end

section
variable {s : State} {t : Nat} {w : Microword}

/-- An input transfer draws the random bytes that it takes (R154). -/
theorem inq_takes (hl : tunLive (s.tun t) = true) (h1 : 1 ≤ w.inq.toNat) (h6 : w.inq.toNat ≤ 6) :
    let y := taken (envOf s t (s.tun t)) w (atWord w (s.tun t)) w.inq.toNat
    exec (.inq t w) s = .next (if w.inq.toNat = 6 then (s.setTun t y).drawn 1024 else s.setTun t y) := by
  intro y
  have hact : actOn t w inqAct s = s.setTun t y := actOn_ok hl (inqAct_ok h1 h6)
  refine congrArg _ ((if_pos hl).trans ?_)
  rw [hact, drawRng]
  exact if_congr BitVec.toNat_inj.symm rfl rfl

/-! ## Output -/

section
variable {e : TunEnv} {x : Tun}

/-- Bytes of an output transfer, and whether they are tagged. -/
def sentBytes (w : Microword) (x : Tun) : Bytes := le (moveBytes w x) (vreg x w.vsrcA.toNat)
def sentTag (w : Microword) (x : Tun) : Bool := vTag x w.vsrcA.toNat && decide (0 < moveBytes w x)

theorem outqAct_out (h : w.outq = 1) (hbar : (sentTag w x && releaseBarred e x) = false) :
    outqAct e w x x = .ok { x with
      out := (x.out ++ sentBytes w x).take e.outMax, outCount := x.outCount + moveBytes w x
      heldTagged := x.heldTagged || sentTag w x } := by
  rw [outqAct, h]
  exact if_neg (Bool.eq_false_iff.mp hbar)

theorem outqAct_result (h : w.outq = 2) (hbar : (sentTag w x && releaseBarred e x) = false)
    (hroom : x.result.length + moveBytes w x ≤ 8) :
    outqAct e w x x = .ok { x with
      result := x.result ++ sentBytes w x, heldTagged := x.heldTagged || sentTag w x } := by
  rw [outqAct, h]
  exact (if_neg (Bool.eq_false_iff.mp hbar)).trans (if_neg (Nat.not_lt.mpr hroom))

/-- Tagged bytes do not leave through OUT or RESULT without the right (R140). -/
theorem outqAct_barred (h : w.outq = 1 ∨ w.outq = 2) (hbar : (sentTag w x && releaseBarred e x) = true) :
    outqAct e w x x = .error .taint := by
  rcases h with h | h
  all_goals
    rw [outqAct, h]
    exact if_pos hbar

theorem outqAct_result_full (h : w.outq = 2) (hbar : (sentTag w x && releaseBarred e x) = false)
    (hroom : 8 < x.result.length + moveBytes w x) : outqAct e w x x = .error .fault := by
  rw [outqAct, h]
  exact (if_neg (Bool.eq_false_iff.mp hbar)).trans (if_pos hroom)

theorem outqAct_hold (h : w.outq = 3) (hh : e.hold = true) (hroom : x.hold.length + moveBytes w x ≤ 64) :
    outqAct e w x x = .ok { x with hold := x.hold ++ sentBytes w x } := by
  rw [outqAct, h]
  exact if_neg (by simp [hh, hroom])

theorem outqAct_hold_full (h : w.outq = 3) (hh : e.hold = false ∨ 64 < x.hold.length + moveBytes w x) :
    outqAct e w x x = .error .fault := by
  rw [outqAct, h]
  exact if_pos (by simpa using hh)

theorem outqAct_slot (h : w.outq = 4) (hd : e.dest = true) (hroom : x.slot.length + moveBytes w x ≤ 64) :
    outqAct e w x x = .ok { x with slot := x.slot ++ sentBytes w x } := by
  rw [outqAct, h]
  exact if_neg (by simp [hd, hroom])

theorem outqAct_slot_full (h : w.outq = 4) (hd : e.dest = false ∨ 64 < x.slot.length + moveBytes w x) :
    outqAct e w x x = .error .fault := by
  rw [outqAct, h]
  exact if_pos (by simpa using hd)

end

end
end Sys2Proof.Machine
end

section
/-!
SUPPORT. The other control fields (R120, R138, R149, R150, R173): tags of the registers that a word writes, the vector length, the
trace.
-/

namespace Sys2Proof.Machine

section
variable {e : TunEnv} {w : Microword} {x : Tun}

/-! ## Tags (R138, R140) -/

/-- Operations that each make its own register's tag `b`, and change no other, make `b` of the tags of all registers named. -/
theorem foldl_vTag {f : Tun → Nat → Tun} {b : Bool} (hf : ∀ x a r, vTag (f x a) r = if r = a then b else vTag x r)
    (l : List Nat) (x : Tun) (r : Nat) : vTag (l.foldl f x) r = if l.contains r then b else vTag x r := by
  induction l generalizing x with
  | nil => rfl
  | cons a l ih =>
    rw [List.foldl_cons, ih, hf, List.contains_cons]
    by_cases ha : r = a <;> simp [ha]

theorem vTag_of_setIn {x y : Tun} {a : Nat} {b : Bool} (h : y.vtag = setIn x.vtag a b) (r : Nat) :
    vTag y r = if r = a then b else vTag x r := by
  rw [vTag, h, vTag_setIn]; rfl

/-- One register becomes tagged. -/
def classifyOne (kind : ShareKind) (x : Tun) (r : Nat) : Tun :=
  if vTag x r then x else { x with vtag := setIn x.vtag r true, vkind := Tab.set x.vkind r kind }

theorem vTag_classifyOne (kind : ShareKind) (x : Tun) (a r : Nat) :
    vTag (classifyOne kind x a) r = if r = a then true else vTag x r := by
  unfold classifyOne
  split
  · next h => split <;> simp_all
  · exact vTag_of_setIn rfl r

/-- `classify` tags the registers that the word writes, and changes tags and kinds alone. -/
theorem classifyAct_tags (e : TunEnv) (w : Microword) (x : Tun) : ∃ y, classifyAct e w x x = .ok y ∧
    y = { x with vtag := y.vtag, vkind := y.vkind } ∧ ∀ r, vTag y r = (vTag x r || (writtenRegs w).contains r) := by
  refine ⟨(writtenRegs w).foldl (classifyOne (classifyKind w)) x, rfl, ?frame, fun r => ?tags⟩
  case frame =>
    refine List.foldlRecOn (motive := fun y : Tun => y = { x with vtag := y.vtag, vkind := y.vkind }) _ _ rfl fun y hy a _ => ?_
    unfold classifyOne
    split
    · exact hy
    · rw [hy]
  case tags =>
    rw [foldl_vTag (vTag_classifyOne _)]
    cases (writtenRegs w).contains r <;> simp

/-- `declassify` clears their tags, in closed stacks, and changes nothing else. -/
theorem declassifyAct_tags {e : TunEnv} (hc : e.closed = true) (w : Microword) (x : Tun) : ∃ y, declassifyAct e w x x = .ok y ∧
    y = { x with vtag := y.vtag } ∧ ∀ r, vTag y r = (vTag x r && !(writtenRegs w).contains r) := by
  refine ⟨_, if_pos hc, ?frame, fun r => ?tags⟩
  case frame =>
    refine List.foldlRecOn (motive := fun y : Tun => y = { x with vtag := y.vtag }) _ _ rfl fun y hy a _ => ?_
    rw [hy]
  case tags =>
    rw [foldl_vTag (b := false) fun x a r => vTag_of_setIn rfl r]
    cases (writtenRegs w).contains r <;> simp

/-! ## The vector length (R120, R150) -/

theorem ofNat_toNat_sub (a : BitVec 64) {v : Nat} (h : v ≤ a.toNat) : BitVec.ofNat 64 (a.toNat - v) = a - BitVec.ofNat 64 v := by
  have := a.isLt
  apply BitVec.eq_of_toNat_eq
  rw [BitVec.toNat_sub, BitVec.toNat_ofNat, BitVec.toNat_ofNat]
  omega

/-- `strip` lowers the register by the vector length that it sets; S0 reads zero and stays so. -/
theorem scalar_setS_sub (x : Tun) (d v : Nat) (h : v ≤ sreg x d) (r : Nat) :
    scalar (setS x d (sreg x d - v) false) r = if r = d then scalar x r - BitVec.ofNat 64 v else scalar x r := by
  split
  · next hr =>
    subst hr
    rw [scalar_setS_self]
    split
    · next h0 =>
      obtain rfl : v = 0 := Nat.le_zero.mp (by simpa [sreg, h0] using h)
      simp [scalar, h0]
    · rw [← scalar_toNat] at h ⊢
      exact ofNat_toNat_sub _ h
  · next hr => exact scalar_setS_of_ne hr _ _ _

/-! ## The trace (R173) -/

theorem envOf_tracing (s : State) (t : Nat) (y : Tun) : (envOf s t y).tracing = tracing s := by
  unfold envOf
  split <;> rfl

/-- A record is added behind the others; past 4,096 the oldest is overwritten. -/
theorem traceAct_records (h : ¬ (w.trace = 0 ∨ e.tracing = false)) : ∃ l, traceAct e w x x = .ok { x with trace := l } ∧
    l.length = min 4096 (x.trace.length + 1) ∧ l.getLast? = some (traceRec w x) := by
  refine ⟨_, if_neg h, ?_, ?_⟩
  · rw [List.length_drop, List.length_append, List.length_singleton]; omega
  · rw [List.getLast?_drop, if_neg (by simp), List.getLast?_concat]

end

end Sys2Proof.Machine

open Sys2Proof Sys2Proof.Machine

/-- Settles O14: each queue and each control field by what its action leaves in the tun. -/
theorem queueAndControlFieldActionsTakeTheirEffect : Obligations.QueueAndControlFieldActionsTakeTheirEffect := by
  refine ⟨fun s t w hl => ?queues, fun s t w hl => ?control⟩
  case queues =>
    intro x n q e src tag d
    refine ⟨fun h1 h6 => ?inq, fun h hbar => answersTun_of_act hl (outqAct_out h hbar) rfl,
      fun h hbar hroom => answersTun_of_act hl (outqAct_result h hbar hroom) rfl,
      fun h hh hroom => answersTun_of_act hl (outqAct_hold h hh hroom) rfl,
      fun h hd hroom => answersTun_of_act hl (outqAct_slot h hd hroom) rfl,
      fun h hbar => endsRoutine_of_taint hl (outqAct_barred h hbar),
      fun h hbar hroom => endsRoutine_of_fault hl (outqAct_result_full h hbar hroom),
      fun h hh => endsRoutine_of_fault hl (outqAct_hold_full h hh), fun h hd => endsRoutine_of_fault hl (outqAct_slot_full h hd)⟩
    case inq =>
      obtain ⟨hv, htag, hkind⟩ := taken_regs e w (atWord w x) q
      refine ⟨_, inq_takes hl h1 h6, taken_eq e w (atWord w x) q, fun r hr => ?others,
        fun i _ => getLsbD_taken e w (atWord w x) q, taken_qend e w (atWord w x) q,
        fun p hp1 hp5 => taken_position e w (atWord w x) ⟨h1, h6⟩ ⟨hp1, hp5⟩⟩
      rw [hv, vTag, htag, vKind, hkind]
      exact (setV_only (atWord w x) _ _ _ _ _).2 r hr
  case control =>
    intro x mx sb
    have hsb : sb = sreg x w.sb.toNat := scalar_toNat x _
    have hclosed : (envOf s t (s.tun t)).closed = !x.openRoutine := envOf_closed s t x
    refine ⟨answersTun_of_act hl rfl rfl, fun ht => ⟨answersTun_of_act hl (if_neg (Bool.eq_false_iff.mp ht)) ?reg,
        answersTun_of_act hl (if_neg (Bool.eq_false_iff.mp ht)) ⟨?strip, fun r => ?stripped⟩⟩,
      fun ht => ⟨endsRoutine_of_taint hl (if_pos ht), endsRoutine_of_taint hl (if_pos ht)⟩, ?classify, fun ho => ?declassify,
      fun ho => endsRoutine_of_taint hl (if_neg (by simp [hclosed, ho])), fun h => answersTun_of_act hl (if_pos h) rfl,
      answersTun_of_act hl rfl ⟨?imm, fun i hi => ctr_setCtr _ (Nat.mod_lt _ (by decide)) hi _⟩,
      fun ht => answersTun_of_act hl (if_neg (Bool.eq_false_iff.mp ht)) ⟨?ctr, fun i hi => ?loaded⟩,
      fun ht => endsRoutine_of_taint hl (if_pos ht), ?trace⟩
    case reg => rw [hsb]; rfl
    case strip => rw [hsb, setS_eq]; rfl
    case stripped =>
      rw [hsb]
      exact scalar_setS_sub (atWord w x) _ _ (Nat.min_le_left _ _) r
    case classify =>
      obtain ⟨y, hact, hy, htags⟩ := classifyAct_tags (envOf s t x) w (atWord w x)
      exact answersTun_of_act hl hact ⟨hy, htags⟩
    case declassify =>
      obtain ⟨y, hact, hy, htags⟩ := declassifyAct_tags (e := envOf s t x) (by rw [hclosed, ho]; rfl) w (atWord w x)
      exact answersTun_of_act hl hact ⟨hy, htags⟩
    case imm => exact setCtr_only (atWord w x) _ _
    case ctr => exact setCtr_only (atWord w x) _ _
    case loaded =>
      refine (ctr_setCtr _ (Nat.mod_lt _ (by decide)) hi _).trans (if_congr Iff.rfl ?_ rfl)
      rw [sreg_atWord, ← scalar_toNat]
      exact BitVec.eq_of_toNat_eq (by simp [x])
    case trace =>
      have htracing : (envOf s t (s.tun t)).tracing = (s.tmp.grantActive && s.tmp.rights.getLsbD 1) := envOf_tracing s t _
      by_cases h : w.trace = 0 ∨ (s.tmp.grantActive && s.tmp.rights.getLsbD 1) = false
      · exact answersTun_of_act hl (if_pos (htracing ▸ h)) (by rw [if_pos h])
      · obtain ⟨l, hact, hlen, hlast⟩ := traceAct_records (x := atWord w (s.tun t)) (htracing ▸ h)
        refine answersTun_of_act hl hact ?_
        rw [if_neg h, scalar_toNat]
        exact ⟨rfl, hlen, hlast⟩
end

section
/-!
SUPPORT. What keeps the staged firmware image and the mark of its trial (R385): events and faults, the completion of slips, and what
a wait refused or a deaccession committed does.
-/

namespace Sys2Proof.Machine

/-- The firmware image that is staged, and the mark of its trial. -/
def firmware (s : State) : Option FwImage × Trial := (s.reg.staged, s.reg.trial)

theorem firmware_of_fields {s t : State} (hs : t.reg.staged = s.reg.staged) (ht : t.reg.trial = s.reg.trial) :
    firmware t = firmware s := by rw [firmware, hs, ht, firmware]

theorem firmware_of_reg {s t : State} (h : t.reg = s.reg) : firmware t = firmware s := by rw [firmware, h, firmware]

/-! ## Events, answers and faults -/

@[simp] theorem setMbx_firmware (s : State) (f : Nat) (m : Mbx) : firmware (s.setMbx f m) = firmware s := rfl
@[simp] theorem chipReset_firmware (s : State) : firmware (chipReset s) = firmware s := rfl
@[simp] theorem freeUnit_firmware (s : State) (sid : Nat) : firmware (freeUnit s sid) = firmware s :=
  firmware_of_reg (freeUnit_reg ..)
@[simp] theorem auditAppend_firmware (s : State) (b : Bytes) : firmware (auditAppend s b) = firmware s :=
  firmware_of_reg (auditAppend_reg ..)

theorem OnlyMailboxes.firmware_eq {s t : State} (h : OnlyMailboxes s t) : firmware t = firmware s := by
  rw [show t = _ from h]; rfl

@[simp] theorem queueEvent_firmware (s : State) (code : Nat) (data : Bytes) (vf : Option Nat) :
    firmware (queueEvent s code data vf) = firmware s := (queueEvent_only s code data vf).firmware_eq

@[simp] theorem hopperEvent_firmware (s : State) (n : Nat) : firmware (hopperEvent s n) = firmware s :=
  (hopperEvent_only s n).firmware_eq

@[simp] theorem respond_firmware (s : State) (fn : Nat) (a : Ans) (keep : Bool) : firmware (respond s fn a keep) = firmware s := by
  unfold respond
  dsimp only
  split
  · rfl
  · exact auditAppend_firmware s _

@[simp] theorem answerWait_firmware (s : State) (fn : Nat) (w : MbxWait) (a : Ans) : firmware (answerWait s fn w a) = firmware s := by
  unfold answerWait
  split
  · exact respond_firmware ..
  · rfl

@[simp] theorem collect_firmware (s : State) (r : FaultReport) (applied : BitVec 8) (coincident fenced subst : Bool) :
    firmware (collect s r applied coincident fenced subst) = firmware s := by
  unfold collect
  extract_lets severe mask inj merge s1 _ s2 _ s3 _ s4
  have h1 : firmware s1 = firmware s := firmware_of_reg (countFault_reg s r)
  have h2 : firmware s2 = firmware s := by simp only [s2]; split <;> exact h1
  have h3 : firmware s3 = firmware s := by simp only [s3]; split <;> exact h2
  have h4 : firmware s4 = firmware s := (auditAppend_firmware _ _).trans h3
  split
  · exact h3
  · split
    · exact h4
    · exact (queueEvent_firmware ..).trans h4

@[simp] theorem errPin_firmware (s : State) : firmware (errPin s) = firmware s := by
  unfold errPin assertErrN
  split <;> rfl

@[simp] theorem faultEvent_firmware (s : State) (r : FaultReport) : firmware (faultEvent s r) = firmware s := by
  unfold faultEvent
  dsimp only
  split <;> split <;> simp

/-! ## Completing slips -/

@[simp] theorem completeSlip_firmware (s : State) (sid status outLen : Nat) (outs : List (W32 × W64 × Bytes)) (late : Bool) :
    firmware (completeSlip s sid status outLen outs late) = firmware s := by
  unfold completeSlip
  split
  · rfl
  · next sl _ =>
    extract_lets s1
    split
    · exact freeUnit_firmware s sid
    · extract_lets cseq e s2 s3 s4 s5
      have h4 : firmware s4 = firmware s := (firmware_of_reg (countRs_reg s2 sl status)).trans (freeUnit_firmware s sid)
      have h5 : firmware s5 = firmware s4 := by
        simp only [s5]
        split
        · exact faultEvent_firmware _ _
        · split
          · exact faultEvent_firmware _ _
          · rfl
      exact (firmware_of_reg (flushHopper_reg ..)).trans (h5.trans h4)

@[simp] theorem breakChain_firmware (s : State) (head : Nat) : firmware (breakChain s head) = firmware s := by
  refine foldl_keeps firmware (fun t p => ?_) _ (dropCarries s head)
  unfold breakOne
  split
  · rfl
  · exact (completeSlip_firmware ..).trans (firmware_of_reg (releaseAll_reg t _))

@[simp] theorem dropSlip_firmware (s : State) (sid : Nat) : firmware (dropSlip s sid) = firmware s := by
  unfold dropSlip
  split
  · rfl
  · exact (firmware_of_reg (releaseAll_reg ..)).trans (freeUnit_firmware s sid)

theorem completeAll_firmware (s : State) (outs : List (W32 × W64 × Bytes)) (l : List (Nat × Bool)) :
    firmware (completeAll s outs l) = firmware s := by
  induction l generalizing s outs with
  | nil => rfl
  | cons p l ih => exact (ih _ _).trans ((completeSlip_firmware ..).trans (firmware_of_reg (releaseAll_reg ..)))

@[simp] theorem haltSlip_firmware (s : State) (status : Nat) (inline : W64) (sid : Nat) :
    firmware (haltSlip s status inline sid) = firmware s := by
  unfold haltSlip
  split
  · rfl
  · exact freeUnit_firmware s sid

end Sys2Proof.Machine
end

section
/-!
SUPPORT. What keeps the staged firmware image and the mark of its trial (R385): deaccessions and the commits of chains.
-/

namespace Sys2Proof.Machine

/-! ## Deaccessions (R332) -/

@[simp] theorem catEvent_firmware (old s : State) : firmware (catEvent old s) = firmware s := by
  unfold catEvent
  split
  · rfl
  · exact queueEvent_firmware ..

@[simp] theorem catHitGenRetired_firmware (s : State) : firmware (catHitGenRetired s) = firmware s := catEvent_firmware ..
@[simp] theorem catHitArchiveLag_firmware (s : State) : firmware (catHitArchiveLag s) = firmware s := catEvent_firmware ..

@[simp] theorem createSlot_firmware (s : State) (n : Nat) (sl : Slot) : firmware (createSlot s n sl) = firmware s := by
  unfold createSlot
  extract_lets old _ x s1 s2
  have h2 : firmware s2 = firmware s := by
    simp only [s2]
    split
    · exact catHitGenRetired_firmware _
    · rfl
  split <;> exact h2

@[simp] theorem endSession_firmware (s : State) (fn cause : Nat) : firmware (endSession s fn cause) = firmware s := by
  unfold endSession
  split
  · rfl
  · exact queueEvent_firmware ..

@[simp] theorem retireImage_firmware (s : State) : firmware (retireImage s) = firmware s := by
  unfold retireImage
  split
  · rfl
  · dsimp only
    split <;> exact queueEvent_firmware ..

@[simp] theorem emptySlot_firmware (s : State) (n : Nat) : firmware (emptySlot s n) = firmware s := by
  unfold emptySlot
  extract_lets old _ x s1 s2 _ s3
  have h2 : firmware s2 = firmware s := by
    simp only [s2]
    split
    · exact catHitGenRetired_firmware _
    · rfl
  have h3 : firmware s3 = firmware s2 := by
    simp only [s3]
    split
    · exact firmware_of_reg (ledgerRelease_reg ..)
    · rfl
  exact h3.trans h2

@[simp] theorem deaccessionCommit_firmware (s : State) (n : Nat) : firmware (deaccessionCommit s n) = firmware s := by
  unfold deaccessionCommit
  extract_lets uses _ s1 _ s2 s3
  have h1 : firmware s1 = firmware s := emptySlot_firmware ..
  have h3 : firmware s3 = firmware s2 := by
    refine foldl_keeps firmware (fun t k => ?_) uses s2
    split
    · split
      · exact endSession_firmware ..
      · rfl
    · rfl
  split
  · exact h3.trans h1
  · exact (retireImage_firmware _).trans (h3.trans h1)

/-! ## The commit of a chain (R86) -/

@[simp] theorem applySlotOps_firmware (s : State) (sid : Nat) (sl : Slip) : firmware (applySlotOps s sid sl) = firmware s := by
  refine foldl_keeps firmware (fun t op => ?_) sl.slotOps s
  cases op with
  | create n x => exact createSlot_firmware ..
  | deaccession n =>
    dsimp only
    split
    · exact deaccessionCommit_firmware ..
    · rfl
  | dres f d => rfl

@[simp] theorem commitNow_firmware (s : State) (head : Nat) : firmware (commitNow s head) = firmware s := by
  unfold commitNow
  extract_lets m s1 s2
  have h1 : firmware s1 = firmware s := foldl_keeps firmware (fun t p => applySlotOps_firmware t p.1 p.2) m s
  split
  · exact (foldl_keeps firmware (fun t p => dropSlip_firmware t p.1) m s2).trans h1
  · exact (completeAll_firmware ..).trans h1

@[simp] theorem commitChain_firmware (s : State) (head : Nat) : firmware (commitChain s head) = firmware s := by
  unfold commitChain
  extract_lets m ops c deac sync s1 s2 memo
  have h1 : firmware s1 = firmware s := foldl_keeps firmware (fun _ _ => by rfl) m s
  have h2 : firmware s2 = firmware s1 := foldl_keeps firmware (fun _ _ => by rfl) deac s1
  split
  · exact commitNow_firmware ..
  · split <;> exact h2.trans h1

@[simp] theorem settleChain_firmware (s : State) (head : Nat) : firmware (settleChain s head) = firmware s := by
  unfold settleChain
  extract_lets m busy failed
  split
  · rfl
  · split
    · exact breakChain_firmware ..
    · split
      · exact commitChain_firmware ..
      · rfl

@[simp] theorem failSlip_firmware (s : State) (sid status outLen : Nat) (inline : W64) :
    firmware (failSlip s sid status outLen inline) = firmware s := by
  unfold failSlip
  split
  · rfl
  · dsimp only
    split
    · exact freeUnit_firmware s sid
    · exact (settleChain_firmware ..).trans (freeUnit_firmware s sid)

@[simp] theorem abortSlips_firmware (s : State) (which : Slip → Bool) (status : Nat) (inline : W64) :
    firmware (abortSlips s which status inline) = firmware s := by
  unfold abortSlips
  extract_lets hit heads s1 _ s2
  have h1 : firmware s1 = firmware s := foldl_keeps firmware (fun t i => haltSlip_firmware t status inline i) _ s
  exact (foldl_keeps firmware settleChain_firmware heads s2).trans h1

end Sys2Proof.Machine
end

section
/-!
SUPPORT. What keeps the staged firmware image and the mark of its trial (R385): refused waits and the collector's reactions.
-/

namespace Sys2Proof.Machine

/-! ## Refused waits (R430) -/

@[simp] theorem cancelDeac_firmware (s : State) (n : Nat) : firmware (cancelDeac s n) = firmware s := by
  unfold cancelDeac
  dsimp only
  split <;> rfl

@[simp] theorem refuseChain_firmware (s : State) (head : Nat) (a : Ans) : firmware (refuseChain s head a) = firmware s := by
  refine (settleChain_firmware ..).trans (foldl_keeps firmware (fun t p => ?_) (chainOf s head) s)
  extract_lets t1
  have h1 : firmware t1 = firmware t := by
    refine foldl_keeps firmware (fun t op => ?_) p.2.slotOps t
    cases op with
    | create n x => rfl
    | deaccession n =>
      dsimp only
      split
      · exact cancelDeac_firmware ..
      · rfl
    | dres f d => rfl
  split
  · exact h1
  · exact (haltSlip_firmware ..).trans h1

@[simp] theorem refuseBlock_firmware (s : State) (n : Nat) : firmware (refuseBlock s n) = firmware s := by
  refine foldl_keeps firmware (fun t p => ?_) _ s
  exact (settleChain_firmware ..).trans (haltSlip_firmware ..)

@[simp] theorem dropClaim_firmware (s : State) (fn : Nat) : firmware (dropClaim s fn) = firmware s := by
  unfold dropClaim
  split
  · rfl
  · exact (setMbx_firmware ..).trans (firmware_of_reg (releaseClaim_reg s _))

@[simp] theorem dropCut_firmware (s : State) (w : MbxWait) : firmware (dropCut s w) = firmware s := by
  unfold dropCut
  extract_lets hit _ s1
  refine foldl_keeps firmware (fun t p => ?_) hit s1
  split
  · exact firmware_of_reg (releaseClaim_reg t _)
  · rfl

@[simp] theorem setCarrelState_firmware (s : State) (c : Nat) (st : CarrelState) :
    firmware (setCarrelState s c st) = firmware s := by
  unfold setCarrelState
  extract_lets old s1 s2
  have h2 : firmware s2 = firmware s := by simp only [s2]; split <;> rfl
  split
  · exact h2
  · exact (queueEvent_firmware ..).trans h2

@[simp] theorem endWait_firmware (s : State) (n : Nat) (w : SyncWait) (a : Ans) : firmware (endWait s n w a) = firmware s := by
  cases w with
  | chain head => exact refuseChain_firmware ..
  | deaccession slot =>
    simp only [endWait]
    split <;> simp
  | lease slot => rfl
  | mailbox fn =>
    simp only [endWait]
    split <;> simp
  | weed c => rfl
  | useBlock slot c => exact refuseBlock_firmware ..
  | quiesced c =>
    simp only [endWait]
    split <;> simp

@[simp] theorem setPair_firmware (s : State) (st : PairState) : firmware (setPair s st) = firmware s := by
  unfold setPair
  split
  · rfl
  · exact queueEvent_firmware ..

@[simp] theorem linkDown_firmware (s : State) : firmware (linkDown s) = firmware s := by
  unfold linkDown
  extract_lets ws _ s1 s2
  have h2 : firmware s2 = firmware s := by
    simp only [s2]
    split
    · exact setPair_firmware ..
    · rfl
  exact (foldl_keeps firmware (fun t w => endWait_firmware (syncRefused t) w.1 w.2 syncRejected) ws s2).trans h2

/-! ## Block resets and events of a source (R438, R441) -/

@[simp] theorem scrubUnit_firmware (s : State) (e : EngineType) (phys : Nat) : firmware (scrubUnit s e phys) = firmware s := by
  cases e <;> rfl

@[simp] theorem stopUnits_firmware (s : State) (sid : Nat) (sl : Slip) : firmware (stopUnits s sid sl) = firmware s :=
  (foldl_keeps firmware (fun t p => scrubUnit_firmware t sl.engine p) _ _).trans (freeUnit_firmware s sid)

theorem stopAllUnits_firmware (l : List (Nat × Slip)) (s : State) :
    firmware (l.foldl (fun s p => stopUnits s p.1 p.2) s) = firmware s :=
  foldl_keeps firmware (fun t p => stopUnits_firmware t p.1 p.2) l s

@[simp] theorem hopperEngineReset_firmware (s : State) : firmware (hopperEngineReset s) = firmware s := by
  unfold hopperEngineReset
  split
  · rfl
  · exact (abortSlips_firmware ..).trans (stopAllUnits_firmware _ s)

@[simp] theorem octetReset_firmware (s : State) (n : Nat) : firmware (octetReset s n) = firmware s := by
  unfold octetReset
  dsimp only
  split <;> rfl

@[simp] theorem folioReset_firmware (s : State) (n : Nat) : firmware (folioReset s n) = firmware s := by
  unfold folioReset
  dsimp only
  split <;> rfl

@[simp] theorem blockReset_firmware (s : State) (r : FaultReport) : firmware (blockReset s r) = firmware s := by
  unfold blockReset
  split
  · exact octetReset_firmware ..
  · split
    · exact hopperEngineReset_firmware s
    · split
      · exact linkDown_firmware s
      · split
        · exact folioReset_firmware ..
        · rfl

@[simp] theorem report_firmware (s : State) (r : FaultReport) : firmware (report s r) = firmware s := by
  unfold report
  extract_lets m s1 s2
  have h1 : firmware s1 = firmware s := collect_firmware ..
  have h2 : firmware s2 = firmware s := by
    simp only [s2]
    split
    · exact (errPin_firmware s1).trans h1
    · exact h1
  split
  · exact h2
  · split
    · exact (blockReset_firmware ..).trans h2
    · exact h2

end Sys2Proof.Machine
end

section
/-!
SUPPORT. What keeps the staged firmware image and the mark of its trial (R385): queue pairs, carrels, deaccessions of commands, the
flush of the archive and the resignation.
-/

namespace Sys2Proof.Machine

@[simp] theorem setSlot_firmware (s : State) (n : Nat) (x : Slot) : firmware (s.setSlot n x) = firmware s := rfl

/-! ## Queue pairs given up (R57 to R59) -/

@[simp] theorem reportHop_firmware (s : State) (src carrel hopper octet : Nat) :
    firmware (reportHop s src carrel hopper octet) = firmware s := report_firmware ..

@[simp] theorem countFailed_firmware (s : State) (hn : Nat) (rs : Bytes) : firmware (countFailed s hn rs) = firmware s := by
  unfold countFailed
  split
  · rfl
  · split <;> rfl

@[simp] theorem ringFailed_firmware (s : State) (hn : Nat) : firmware (ringFailed s hn) = firmware s := by
  unfold ringFailed
  split
  · rfl
  · split
    · rfl
    · exact (reportHop_firmware ..).trans (hopperEvent_firmware ..)

@[simp] theorem failReq_firmware (s : State) (badOut : List (Nat × W32)) (st : Nat) (r : Req) :
    firmware (failReq s badOut st r) = firmware s := by
  unfold failReq
  split
  · exact ringFailed_firmware ..
  · exact failSlip_firmware ..
  · exact failSlip_firmware ..
  · dsimp only
    split
    · split
      · split
        · exact settleChain_firmware ..
        · rfl
      · exact failSlip_firmware ..
    · rfl
  · rfl
  · split
    · exact countFailed_firmware ..
    · rfl
  · rfl

@[simp] theorem failOutstanding_firmware (s : State) (q : Nat) : firmware (failOutstanding s q) = firmware s := by
  unfold failOutstanding
  split
  · rfl
  · exact foldl_keeps firmware (fun t r => failReq_firmware t _ _ r) _ _

@[simp] theorem unbind_firmware (s : State) (q : Nat) : firmware (unbind s q) = firmware s :=
  foldl_keeps firmware (fun t hn => hopperEvent_firmware (t.modHopper hn fun h => { h with qpn := none }) hn) _ s

@[simp] theorem closeQp_firmware (s : State) (q : Nat) : firmware (closeQp s q) = firmware s := by
  unfold closeQp
  split
  · rfl
  · split
    · rfl
    · exact (failOutstanding_firmware ..).trans (unbind_firmware ..)

@[simp] theorem setHopState_firmware (s : State) (n : Nat) (st : HopState) : firmware (setHopState s n st) = firmware s := by
  unfold setHopState
  split
  · rfl
  · split
    · rfl
    · exact hopperEvent_firmware ..

/-! ## Carrels reset, handed over and destroyed (R401, R402, R427) -/

@[simp] theorem resetCarrel_firmware (s : State) (c : Nat) : firmware (resetCarrel s c) = firmware s := by
  unfold resetCarrel
  extract_lets _ s1 s2
  have h2 : firmware s2 = firmware s := foldl_keeps firmware closeQp_firmware (qpsOf s1 c) s1
  exact (foldl_keeps firmware (fun t n => by exact setHopState_firmware t n .stopped) _ s2).trans h2

@[simp] theorem bumpEpoch_firmware (s : State) (c : Nat) : firmware (bumpEpoch s c) = firmware s := by
  unfold bumpEpoch ledgerWrite
  dsimp only
  split <;> rfl

@[simp] theorem withdrawAddresses_firmware (s : State) (c : Nat) : firmware (withdrawAddresses s c) = firmware s := rfl
@[simp] theorem setHome_firmware (s : State) (c : Nat) (h : Home) : firmware (setHome s c h) = firmware s := rfl
@[simp] theorem releaseBlocks_firmware (s : State) : firmware (releaseBlocks s) = firmware s := rfl
@[simp] theorem archiveCarrel_firmware (s : State) (c : Nat) : firmware (archiveCarrel s c) = firmware s := rfl

@[simp] theorem dropCarrel_firmware (s : State) (c : Nat) : firmware (dropCarrel s c) = firmware s := by
  unfold dropCarrel
  extract_lets s1 bs _ _ s2 s3 s4
  have h1 : firmware s1 = firmware s := foldl_keeps firmware (fun _ _ => by rfl) _ s
  have h2 : firmware s2 = firmware s1 := rfl
  have h4 : firmware s4 = firmware s2 := setCarrelState_firmware s2 c .absent
  exact (releaseBlocks_firmware _).trans ((setHome_firmware ..).trans (h4.trans (h2.trans h1)))

@[simp] theorem destroyCommit_firmware (s : State) (c : Nat) : firmware (destroyCommit s c) = firmware s := by
  unfold destroyCommit
  extract_lets s1 s2 _ s3 s4 s5
  have h2 : firmware s2 = firmware s := (deaccessionCommit_firmware ..).trans (resetCarrel_firmware ..)
  have h3 : firmware s3 = firmware s2 := firmware_of_fields rfl rfl
  have h4 : firmware s4 = firmware s3 := endSession_firmware ..
  have h5 : firmware s5 = firmware s4 := (withdrawAddresses_firmware ..).trans (bumpEpoch_firmware ..)
  exact (archiveCarrel_firmware ..).trans <| (dropCarrel_firmware ..).trans (h5.trans (h4.trans (h3.trans h2)))

@[simp] theorem createAt_firmware (s : State) (n : Nat) (x : Slot) : firmware (createAt s n x) = firmware s :=
  createSlot_firmware ..

@[simp] theorem plantAnchor_firmware (s : State) (c cls : Nat) (key : Bytes) : firmware (plantAnchor s c cls key) = firmware s := by
  unfold plantAnchor
  extract_lets s1 n s2
  have h1 : firmware s1 = firmware s := createAt_firmware ..
  have h2 : firmware s2 = firmware s1 := createAt_firmware ..
  refine (firmware_of_fields (s := s2) ?_ ?_).trans (h2.trans h1)
  · rfl
  · rfl

@[simp] theorem renewCommit_firmware (s : State) (c cls : Nat) (key : Bytes) : firmware (renewCommit s c cls key) = firmware s := by
  simp [renewCommit]

@[simp] theorem replaceCommit_firmware (s : State) (n : Nat) (p mat : Bytes) : firmware (replaceCommit s n p mat) = firmware s := by
  simp [replaceCommit]

/-! ## Deaccessions of commands and of chains that waited (R332) -/

theorem commitDeac_firmware (s : State) (fn n : Nat) : firmware (commitDeac s fn n).1 = firmware s := by
  unfold commitDeac
  dsimp only
  split <;> simp

theorem underMbx_firmware (s : State) (fn : Nat) (w : MbxWait) {k : State → State} (hk : ∀ t, firmware (k t) = firmware t) :
    firmware (underMbx s fn w k) = firmware s := by
  unfold underMbx
  split
  · exact hk s
  · split
    · rfl
    · exact (setMbx_firmware ..).trans (hk _)

@[simp] theorem finishDeac_firmware (s : State) (fn n : Nat) : firmware (finishDeac s fn n) = firmware s :=
  underMbx_firmware s fn _ fun t => (respond_firmware ..).trans (commitDeac_firmware t fn n)

@[simp] theorem tryChain_firmware (s : State) (head : Nat) : firmware (tryChain s head) = firmware s := by
  unfold tryChain
  dsimp only
  split
  · exact (commitNow_firmware ..).trans (foldl_keeps firmware (fun _ _ => by rfl) _ s)
  · rfl

@[simp] theorem tryDeac_firmware (s : State) (n : Nat) : firmware (tryDeac s n) = firmware s := by
  unfold tryDeac
  dsimp only
  split
  · split
    · exact finishDeac_firmware ..
    · rfl
  · exact foldl_keeps firmware tryChain_firmware _ s
  · rfl

/-! ## The flush of the archive and of the mirror (R385, R462, R427) -/

@[simp] theorem recEffect_firmware (s : State) (r : FolRecord) : firmware (recEffect s r) = firmware s := by
  unfold recEffect
  split
  · extract_lets s1 sl
    have h1 : firmware s1 = firmware s := by
      simp only [s1]
      split
      · exact catHitArchiveLag_firmware s
      · rfl
    split <;> exact h1
  · split
    · exact tryDeac_firmware ..
    · rfl
  · rfl

@[simp] theorem settleQueue_firmware (s : State) : firmware (settleQueue s) = firmware s :=
  foldl_keeps firmware recEffect_firmware _ _

@[simp] theorem archiveFlush_firmware (s : State) : firmware (archiveFlush s) = firmware s := by
  unfold archiveFlush
  extract_lets _ s1 due _ s2 s3 q slots _
  have h1 : firmware s1 = firmware s := foldl_keeps firmware (fun _ _ => by rfl) _ _
  have h3 : firmware s3 = firmware s2 := foldl_keeps firmware (fun t p => by split <;> rfl) due s2
  exact (settleQueue_firmware _).trans (h3.trans h1)

@[simp] theorem resign_firmware (s : State) : firmware (resign s) = firmware s := by
  unfold resign
  extract_lets cs s1 hs s2 s3
  have h1 : firmware s1 = firmware s := foldl_keeps firmware withdrawAddresses_firmware cs s
  have h3 : firmware s3 = firmware s2 := foldl_keeps firmware (fun t c => setHome_firmware t c .peer) cs s2
  split
  · rfl
  · split
    · rfl
    · exact h3.trans h1

/-! ## The reset that boots the image (R385) -/

/-- Once a wait of `FW_ACTIVATE` ends, the chip resets from a state that holds the staged image and its mark still. -/
theorem fwActivateWaitEnd_resets (s : State) (h : waiting s .fwReset ≠ []) :
    ∃ u, exec .fwActivateWaitEnd s = .next (chipReset u) ∧ firmware u = firmware s := by
  obtain ⟨f, fns, hw⟩ := List.exists_cons_of_ne_nil h
  refine ⟨_, by simp only [exec, execFwActivateWaitEnd, hw]; rfl, ?_⟩
  refine (foldl_keeps firmware (fun t f => answerWait_firmware t f .fwReset {}) _ _).trans ?_
  refine (resign_firmware _).trans ((archiveFlush_firmware _).trans ?_)
  exact stopAllUnits_firmware _ s

theorem fwActivateWaitEnd_idle (s : State) (h : waiting s .fwReset = []) : exec .fwActivateWaitEnd s = .next s := by
  simp only [exec, execFwActivateWaitEnd, h]

end Sys2Proof.Machine
end

section
/-!
SUPPORT. Open-stacks images and firmware (R162 to R169, R382 to R386): what each command checks, stages and activates.
-/

namespace Sys2Proof.Machine

section
variable {s t : State} {fn : Nat} {p host : Bytes}

@[simp] theorem accept_tuns (s : State) (fn : Nat) : (accept s fn).tuns = s.tuns := rfl
@[simp] theorem accept_staged (s : State) (fn : Nat) : (accept s fn).reg.staged = s.reg.staged := rfl
@[simp] theorem archiveOk_accept (s : State) (fn : Nat) : archiveOk (accept s fn) = archiveOk s := rfl

/-- A body that waits leaves its command in the mailbox. -/
theorem Passes.waits {c : CmdSpec} {body : State → Bytes → CmdRes} {w : MbxWait} (h : Passes s fn c p)
    (hb : body (accept s fn) p = .wait t w) : WaitsIn t fn w (.next (serve s fn c body)) :=
  next_congr (serve_wait body h.issued h.len h.rsv h.owns hb)

/-- A device that answers a command is not in RECOVERY. -/
theorem Issued.not_recovery {code : Nat} {role : Role} (h : Issued s fn code role p) : s.reg.dev ≠ .recovery := by
  obtain ⟨-, -, -, -, -, -, -, -, hdev, -⟩ := h
  rcases hdev with h | ⟨h, -⟩ <;> rw [h] <;> decide

/-! ## Staging and activating an open-stacks image (R167, R169) -/

/-- The image that a staging command reads (R167, R384). -/
def imageRead (p host : Bytes) : Bytes := fit (field p 8 4) host

theorem imageCheck_accept (s : State) (fn : Nat) (b : Bytes) : imageCheck (accept s fn) b = imageCheck s b := rfl

theorem ostkStage_refused (hi : Issued s fn 0x0501 .o p) (hl : p.length = 12) {k : Nat} {a : Ans}
    (hc : imageCheck s (imageRead p host) = some (k, a)) : AnswersIn (accept s fn) fn a (exec (.ostkStage fn host) s) := by
  refine Passes.answers ⟨hi, beq_iff_eq.mpr hl, rfl, rfl⟩ ?_
  dsimp only
  rw [← imageRead, imageCheck_accept, hc]

theorem ostkStage_stages (hi : Issued s fn 0x0501 .o p) (hl : p.length = 12) (hc : imageCheck s (imageRead p host) = none)
    (ha : archiveOk s = true) :
    let x := parseOstk (imageRead p host)
    AnswersIn (onMounted { accept s fn with tuns := { s.tuns with staged := some x } } fun f => { f with imgStaged := some x })
      fn {} (exec (.ostkStage fn host) s) := by
  refine Passes.answers ⟨hi, beq_iff_eq.mpr hl, rfl, rfl⟩ ?_
  dsimp only
  rw [← imageRead, imageCheck_accept, hc]
  exact if_neg (by simp [ha])

theorem imageCheck_malformed {b : Bytes} (h : imgHeaderOk b = false) :
    imageCheck s b = some (1, { fail St.formatInvalid with detail := 0xFFFF_FFFF }) := if_pos (by simp [h])

theorem ostkActivate_unstaged (hi : Issued s fn 0x0502 .o p) (hl : p = []) (hs : s.tuns.staged = none) :
    AnswersIn (accept s fn) fn (rejected 7 (ostkCode s)) (exec (.ostkActivate fn) s) :=
  Passes.answers ⟨hi, by rw [hl]; rfl, rfl, rfl⟩ (if_pos (by simp [hs]))

theorem ostkActivate_drains (hi : Issued s fn 0x0502 .o p) (hl : p = []) (hs : s.tuns.staged ≠ none)
    (hd : s.tuns.draining = none) (ha : archiveOk s = true) :
    WaitsIn { accept s fn with tuns := { s.tuns with draining := some (some fn, false) } } fn .ostkDrain
      (exec (.ostkActivate fn) s) :=
  Passes.waits ⟨hi, by rw [hl]; rfl, rfl, rfl⟩ ((if_neg (by simp [hs, hd])).trans (if_neg (by simp [ha])))

theorem ostkRetire_drains (hi : Issued s fn 0x0503 .o p) (hl : p = []) (hs : s.tuns.active ≠ none)
    (hd : s.tuns.draining = none) :
    WaitsIn { accept s fn with tuns := { s.tuns with draining := some (some fn, true) } } fn .ostkDrain
      (exec (.ostkRetire fn) s) :=
  Passes.waits ⟨hi, by rw [hl]; rfl, rfl, rfl⟩ (if_neg (by simp [hs, hd]))

/-! ## Firmware (R384, R385) -/

theorem fwCheck_accept (s : State) (fn : Nat) (b : Bytes) : fwCheck (accept s fn) b = fwCheck s b := rfl

theorem fwStage_stages (hi : Issued s fn 0x0510 .o p) (hl : p.length = 12) (hc : fwCheck s (imageRead p host) = none)
    (ha : archiveOk s = true) :
    AnswersIn { accept s fn with reg := { (accept s fn).reg with staged := some (parseFw (imageRead p host)) } } fn {}
      (exec (.fwStage fn host) s) := by
  refine Passes.answers ⟨hi, beq_iff_eq.mpr hl, rfl, rfl⟩ ?_
  dsimp only
  rw [if_neg fun h => hi.not_recovery h.1, ← imageRead, fwCheck_accept, hc]
  exact if_neg (by simp [fwArchiveOk, ha])

theorem fwStage_refused (hi : Issued s fn 0x0510 .o p) (hl : p.length = 12) {a : Ans}
    (hc : fwCheck s (imageRead p host) = some a) : AnswersIn (accept s fn) fn a (exec (.fwStage fn host) s) := by
  refine Passes.answers ⟨hi, beq_iff_eq.mpr hl, rfl, rfl⟩ ?_
  dsimp only
  rw [if_neg fun h => hi.not_recovery h.1, ← imageRead, fwCheck_accept, hc]

section
variable (hi : Issued s fn 0x0511 .o p) (hl : p.length = 1)
include hi hl

theorem fwActivate_passes (hv : field p 0 1 < 2) :
    Passes s fn { code := 0x0511, role := .o, lenOk := lenIs 1, rsvOk := fun p => decide (field p 0 1 < 2), recovery := true
                  s23 := false } p := ⟨hi, beq_iff_eq.mpr hl, decide_eq_true hv, rfl⟩

theorem fwActivate_unstaged (hv : field p 0 1 < 2) (hs : s.reg.staged = none) :
    AnswersIn (accept s fn) fn (devRejected s) (exec (.fwActivate fn) s) :=
  (fwActivate_passes hi hl hv).answers (if_pos (by simp [hs]))

theorem fwActivate_marks (hv : field p 0 1 = 0) (hs : s.reg.staged ≠ none) :
    AnswersIn { accept s fn with reg := { (accept s fn).reg with trial := .marked } } fn {} (exec (.fwActivate fn) s) :=
  (fwActivate_passes hi hl (by omega)).answers ((if_neg (by simpa using hs)).trans ((if_neg hi.not_recovery).trans
    (if_neg (by rw [hv]; decide))))

theorem fwActivate_waits (hv : field p 0 1 = 1) (hs : s.reg.staged ≠ none) :
    WaitsIn { accept s fn with
      reg := { (accept s fn).reg with trial := .marked }, hop := { s.hop with fetchStopped := true } } fn .fwReset
      (exec (.fwActivate fn) s) :=
  (fwActivate_passes hi hl (by omega)).waits ((if_neg (by simpa using hs)).trans ((if_neg hi.not_recovery).trans
    (if_pos (by rw [hv]; decide))))

end

/-- A time-out returns a trial that has not reached READY to the previous bank (R385). -/
theorem trialBootTimeout_reverts (hr : s.reg.trial = .running) (hd : s.reg.dev ≠ .ready) :
    exec .trialBootTimeout s = .next { s with reg := { s.reg with trial := .none, trialReverted := true } } := if_pos ⟨hr, hd⟩

theorem trialBootTimeout_ignored (h : s.reg.trial ≠ .running ∨ s.reg.dev = .ready) :
    exec .trialBootTimeout s = .next s := if_neg fun hc => h.elim (· hc.1) hc.2

end

end Sys2Proof.Machine
end

section
/-!
SUPPORT. The end of the draining (R167, R169): what the loading of an image leaves in the control store.
-/

namespace Sys2Proof.Machine

/-! ## Operations that leave the tuns alone -/

@[simp] theorem auditAppend_tuns (s : State) (b : Bytes) : (auditAppend s b).tuns = s.tuns := by
  unfold auditAppend; split <;> rfl

@[simp] theorem respond_tuns (s : State) (fn : Nat) (a : Ans) (keep : Bool) : (respond s fn a keep).tuns = s.tuns := by
  unfold respond
  dsimp only
  split
  · rfl
  · exact auditAppend_tuns s _

@[simp] theorem answerWait_tuns (s : State) (fn : Nat) (w : MbxWait) (a : Ans) : (answerWait s fn w a).tuns = s.tuns := by
  unfold answerWait
  split
  · exact respond_tuns ..
  · rfl

@[simp] theorem assignFamily_tuns (s : State) (x : OstkImage) : (assignFamily s x).tuns = s.tuns := by
  unfold assignFamily; split <;> rfl

@[simp] theorem ledgerRaise_tuns (s : State) (n v : Nat) : (ledgerRaise s n v).tuns = s.tuns := by
  unfold ledgerRaise ledgerWrite
  dsimp only
  split
  · rfl
  · split <;> rfl

@[simp] theorem wakeTuns_tuns (s : State) : (wakeTuns s).tuns = s.tuns := by
  refine List.foldlRecOn (motive := fun t : State => t.tuns = s.tuns) _ _ rfl fun t ht c _ => ?_
  dsimp only
  split <;> exact ht

/-! ## Loading an image (R167) -/

/-- The control store with words written from a place of the open half on. -/
def storeWords (ws : List (BitVec 192)) (k : Nat) (st : Tab (BitVec 192)) : Tab (BitVec 192) :=
  (ws.zipIdx k).foldl (fun t p => Tab.set t (0x2000 + p.2) p.1) st

theorem get?_storeWords_below (ws : List (BitVec 192)) {k j : Nat} (st : Tab (BitVec 192)) (h : j < k) :
    Tab.get? (storeWords ws k st) (0x2000 + j) = Tab.get? st (0x2000 + j) := by
  induction ws generalizing k st with
  | nil => rfl
  | cons w ws ih => exact (ih _ (by omega)).trans (Tab.get?_set_of_ne _ _ (by omega))

/-- Each word stands at its place. -/
theorem get?_storeWords {ws : List (BitVec 192)} {k i : Nat} {w : BitVec 192} (st : Tab (BitVec 192)) (h : ws[i]? = some w) :
    Tab.get? (storeWords ws k st) (0x2000 + (k + i)) = some w := by
  induction ws generalizing k i st with
  | nil => exact absurd h nofun
  | cons v ws ih =>
    cases i with
    | zero =>
      obtain rfl : v = w := Option.some.inj h
      exact (get?_storeWords_below ws _ (Nat.lt_succ_self k)).trans (Tab.get?_set_self _ _ _)
    | succ i => rw [show k + (i + 1) = k + 1 + i by omega]; exact ih _ h

/-- Loading changes the control store and the active image, and nothing else of the tuns. -/
theorem loadImage_tuns (s : State) (x : OstkImage) :
    ∃ st, (loadImage s x).tuns = { s.tuns with store := storeWords x.words 0 st, active := some x } := by
  unfold loadImage
  extract_lets s1 s2 s3
  have h1 : ∃ st, s1.tuns = { s.tuns with store := st } := by
    simp only [s1]
    split
    · exact ⟨_, rfl⟩
    · exact ⟨_, rfl⟩
  have h3 : s3.tuns = s1.tuns := by
    simp only [s3]
    split
    · exact (ledgerRaise_tuns ..).trans (assignFamily_tuns ..)
    · exact assignFamily_tuns ..
  obtain ⟨u, h1⟩ := h1
  exact ⟨u, congrArg (fun a : TunArray => { a with store := storeWords x.words 0 a.store, active := some x }) (h3.trans h1)⟩

section
variable {s : State} {f : Nat}

/-- The state once nothing is drained for any more. -/
def drained (s : State) : State := { s with tuns := { s.tuns with draining := none } }

theorem ostkDrainEnd_late {retire : Bool} (hd : s.tuns.draining = some (some f, retire)) (hb : openBusy s = true) :
    exec .ostkDrainEnd s = .next (answerWait (drained s) f .ostkDrain (rejected 7 (ostkCode s))) := by
  change execOstkDrainEnd s = _
  rw [execOstkDrainEnd, hd]
  exact if_pos hb

theorem ostkDrainEnd_retires (hd : s.tuns.draining = some (some f, true)) (hb : openBusy s = false) :
    exec .ostkDrainEnd s = .next (answerWait (unmarkImage (clearOpenStore { drained s with tuns :=
      { (drained s).tuns with active := none } })) f .ostkDrain {}) := by
  change execOstkDrainEnd s = _
  rw [execOstkDrainEnd, hd]
  exact (if_neg (Bool.eq_false_iff.mp hb)).trans (if_pos rfl)

theorem ostkDrainEnd_activates {y : OstkImage} (hd : s.tuns.draining = some (some f, false)) (hb : openBusy s = false)
    (hs : s.tuns.staged = some y) (ha : archiveOk s = true) :
    ∃ t, exec .ostkDrainEnd s = .next t ∧ t.tuns.active = some y ∧ t.tuns.staged = none ∧ t.tuns.draining = none ∧
      ∀ i w, y.words[i]? = some w → Tab.get? t.tuns.store (0x2000 + i) = some w := by
  let marked := onMounted (drained s) fun f => { f with imgActive := some y, imgStaged := none }
  let loaded := loadImage (wakeTuns marked) y
  have hexec : exec .ostkDrainEnd s =
      .next (answerWait { loaded with tuns := { loaded.tuns with staged := none } } f .ostkDrain {}) := by
    change execOstkDrainEnd s = _
    rw [execOstkDrainEnd, hd, hs]
    exact (if_neg (Bool.eq_false_iff.mp hb)).trans ((if_neg Bool.false_ne_true).trans (if_neg (by simp [ha])))
  obtain ⟨st, hst⟩ := loadImage_tuns (wakeTuns marked) y
  refine ⟨_, hexec, ?_⟩
  rw [answerWait_tuns]
  change loaded.tuns.active = some y ∧ _ ∧ loaded.tuns.draining = none ∧ ∀ i w, _ → Tab.get? loaded.tuns.store _ = _
  rw [show loaded.tuns = _ from hst, wakeTuns_tuns]
  exact ⟨rfl, rfl, rfl, fun i w h => (Nat.zero_add i ▸ get?_storeWords st h :)⟩

end

end Sys2Proof.Machine

open Sys2Proof Sys2Proof.Machine

/-- Settles O45: each command is one path through its body, the loading of an image is an induction on its words, and the reset that
ends an activation keeps what `firmware` names. -/
theorem imagesAreStagedAndActivated : Obligations.ImagesAreStagedAndActivated := by
  intro s fn p host r is b x ostkNow stop
  refine ⟨fun k a hi hl hc => ostkStage_refused hi hl hc, fun hi hl hc ha => ostkStage_stages hi hl hc ha, imageCheck_malformed,
    ostkActivate_unstaged, ostkActivate_drains, ostkRetire_drains, fun f retire => ostkDrainEnd_late,
    fun f => ostkDrainEnd_retires, fun f y => ostkDrainEnd_activates, fun hi hl hc ha => fwStage_stages hi hl hc ha,
    fun a hi hl hc => fwStage_refused hi hl hc, fwActivate_marks, fwActivate_waits,
    fun hi hl hv hs => fwActivate_unstaged hi hl (by omega) hs, fun h => ?_, fwActivateWaitEnd_idle s, trialBootTimeout_reverts,
    trialBootTimeout_ignored⟩
  obtain ⟨u, hexec, hkeep⟩ := fwActivateWaitEnd_resets s h
  obtain ⟨hstaged, htrial⟩ := Prod.mk.inj hkeep
  exact ⟨_, hexec, rfl, rfl, hstaged, htrial⟩

end

section
/-!
SUPPORT. What an operation of a call slip leaves behind (R81 step 11, R83, R321), said once for all operations: the start counts
the slip's uses and may draw random bytes, the result goes into the slip, and nothing else changes.
-/

namespace Sys2Proof.Machine

variable {s t : State} {sid : Nat} {sl : Slip} {r : Res}

/-! ## From the start to the result -/

theorem OnlySlip.setSlip (h : OnlySlip s t sid) (y : Slip) : OnlySlip s (t.setSlip sid y) sid := by
  obtain ⟨hframe, hother⟩ := h
  exact ⟨congrArg (State.setSlip · sid y) hframe, fun i hi => (State.setSlip_slip_of_ne t y hi).trans (hother i hi)⟩

/-- The operation has started: the slip's uses are counted, and of the rest at most random bytes have been drawn. -/
structure Started (s t : State) (sid : Nat) (sl : Slip) : Prop where
  frame : OnlySlip s t sid
  slip : t.slip? sid = some { sl with usesCounted := true }

theorem started_startUses (h : s.slip? sid = some sl) : Started s (startUses s sid) sid sl := by
  refine ⟨?_, startUses_slip h⟩
  obtain ⟨x, hx⟩ := startUses_eq h
  rw [hx]
  split
  · exact ⟨rfl, fun _ _ => rfl⟩
  · exact ⟨rfl, fun i hi => State.setSlip_slip_of_ne s _ hi⟩

theorem Started.drawn (h : Started s t sid sl) (n : Nat) : Started s (t.drawn n) sid sl := by
  obtain ⟨⟨hframe, hother⟩, hslip⟩ := h
  exact ⟨⟨congrArg (State.drawn · n) hframe, hother⟩, hslip⟩

theorem startUses_freeBytes (h : s.slip? sid = some sl) (n : Nat) : (startUses s sid).freeBytes n = s.freeBytes n := by
  obtain ⟨x, hx⟩ := startUses_eq h
  rw [hx]
  split <;> rfl

/-- What is approved, or what no policy restricts, passes the check of step 11 (R320). -/
theorem Started.judged (h : Started s t sid sl) {o : OpOut} (ha : PolicyAdmits s sl ∨ o.approved = true) :
    judged t sl o = o := by
  rcases ha with ⟨hcarrel, hkey⟩ | ha
  · obtain ⟨hframe, -⟩ := h.frame
    have hcarrel : (t.carrel sl.carrel).approvedOnly = false := by rw [hframe]; exact hcarrel
    have hkey : (sl.key.map (·.approvedOnly)).getD false = false := by
      cases hk : sl.key with
      | none => rfl
      | some k => exact hkey k hk
    simp [Machine.judged, hcarrel, hkey]
  · exact judged_approved ha t sl

/-- The answer is the state in which the slip's operation has left its result `o`, which may depend on the state that the
operation found. -/
def Leaves (s : State) (sid : Nat) (sl : Slip) (o : State → OpOut) (r : Res) : Prop :=
  ∃ t, Started s t sid sl ∧ r = .next (finishOp t sid (o t))

section
variable {cls op n : Nat} {ok : Slip → Bool} {f : Slip → State → State × OpOut} {o : State → OpOut}
  {ob : Bytes → State → OpOut}

theorem leaves_of_pure (h : SlipRuns s sid sl cls op) (hok : ok sl = true) (hf : ∀ u, f sl u = (u, o u))
    (ha : PolicyAdmits s sl ∨ ∀ u, (o u).approved = true) : Leaves s sid sl o (.next (runOp s sid cls ok f)) := by
  have hstart := started_startUses h.1
  refine ⟨_, hstart, next_congr ?_⟩
  rw [runOp_of_slipRuns h hok (hf _), hstart.judged (ha.imp_right fun ha => ha _)]

/-- An operation that draws random bytes is given those that come next. -/
theorem leaves_of_draw (h : SlipRuns s sid sl cls op) (hok : ok sl = true)
    (hf : ∀ u, f sl u = draw u n fun u b => (u, ob b u)) (ha : PolicyAdmits s sl ∨ ∀ b u, (ob b u).approved = true) :
    Leaves s sid sl (ob (s.freeBytes n)) (.next (runOp s sid cls ok f)) := by
  have hstart := (started_startUses h.1).drawn n
  refine ⟨_, hstart, next_congr ?_⟩
  rw [runOp_of_slipRuns h hok (hf _), startUses_freeBytes h.1, hstart.judged (ha.imp_right fun ha => ha _ _)]

end

/-! ## The result in the slip (R83) -/

section
variable {o : OpOut}

theorem Started.onlySlip_finishOp (h : Started s t sid sl) (o : OpOut) : OnlySlip s (finishOp t sid o) sid := by
  rw [finishOp, modSlip_eq h.slip]
  exact h.frame.setSlip _

/-- A result larger than the area is dropped and its size reported. -/
theorem finishOp_overflows (h : s.slip? sid = some sl) (hok : o.status = St.ok) (hbig : (cxOf s sl).outMax < o.out.length) :
    (finishOp s sid o).slip? sid = some { sl with
      phase := .executed, status := St.outputTooSmall, outLen := o.out.length, out := [], inline := 0
      secret := none, slotOps := [], approved := o.approved } := by
  simp [finishOp, modSlip_eq h, hok, hbig]

/-- A failure leaves its status. -/
theorem finishOp_fails (h : s.slip? sid = some sl) (hbad : o.status ≠ St.ok) :
    (finishOp s sid o).slip? sid = some { sl with
      phase := .executed, status := o.status, outLen := 0, out := [], inline := o.inline
      secret := none, slotOps := [], approved := o.approved } := by
  simp [finishOp, modSlip_eq h, hbad]

end

/-- The result is a success with this output and inline result, and its secret and its new key are as `P` says. -/
structure Succeeds (o : OpOut) (out : Bytes) (inl : W64) (P : Slip → Prop) : Prop where
  status : o.status = St.ok
  out : o.out = out
  outLen : o.outLen = none
  inline : o.inline = inl
  keys : ∀ y : Slip, y.secret = o.secret → y.slotOps = o.slotOps → P y

section
variable {o : State → OpOut} {out : Bytes} {inl : W64} {P : Slip → Prop} {st : Nat} {a : Bool}

theorem Leaves.produces (h : Leaves s sid sl o r) (ho : ∀ u, Succeeds (o u) out inl P) : Produces s sid sl out inl P r := by
  obtain ⟨t, hstart, rfl⟩ := h
  obtain ⟨hok, rfl, hlen, rfl, hkeys⟩ := ho t
  have hframe := hstart.onlySlip_finishOp (o t)
  constructor
  · intro hfit
    exact ⟨_, _, rfl, hframe, finishOp_fits hstart.slip hok hfit, rfl, rfl, rfl, by simp [hlen], rfl, hkeys _ rfl rfl⟩
  · intro hbig
    exact ⟨_, _, rfl, hframe, finishOp_overflows hstart.slip hok hbig, rfl, rfl, rfl, rfl, rfl, rfl, rfl⟩

theorem Leaves.fails (h : Leaves s sid sl (fun _ => .fail st a) r) (hst : st ≠ St.ok) : FailsWith s sid st r := by
  obtain ⟨t, hstart, rfl⟩ := h
  exact ⟨_, _, rfl, hstart.onlySlip_finishOp _, finishOp_fails hstart.slip hst, rfl, rfl, rfl, rfl, rfl, rfl, rfl⟩

theorem succeeds_output (b : Bytes) (i : W64) (a : Bool) : Succeeds { out := b, inline := i, approved := a } b i NoKey :=
  ⟨rfl, rfl, rfl, rfl, fun _ hsec hops => ⟨hsec, hops⟩⟩

theorem Leaves.verdict {v : Bool} (h : Leaves s sid sl (fun _ => .verdict v a) r) : Verdict s sid v r := by
  cases v with
  | true => exact (h.produces fun _ => succeeds_output [] 0 a).1 (Nat.zero_le _)
  | false => exact h.fails (by decide)

end

/-! ## New keys and secret results (R181, R323, R324) -/

section
variable {parent cls : Nat} {mat k : Bytes} {y : Slip}

theorem createsKey_of_newKeyOp (h : y.slotOps = newKeyOp s sl parent cls mat) : CreatesKey sl cls mat y := by
  intro n hn
  rw [newKeyOp, hn] at h
  exact ⟨_, h, rfl, rfl, rfl, rfl, rfl, rfl⟩

theorem succeeds_newKey (s : State) (sl : Slip) (parent cls : Nat) (mat out : Bytes) :
    Succeeds { out := out, slotOps := newKeyOp s sl parent cls mat } out 0
      (fun y => y.secret = none ∧ CreatesKey sl cls mat y) :=
  ⟨rfl, rfl, rfl, rfl, fun _ hsec hops => ⟨hsec, createsKey_of_newKeyOp hops⟩⟩

/-- A secret result is held for the chain, or becomes a key. -/
theorem succeeds_toSecret (s : State) (sl : Slip) (k out : Bytes) :
    Succeeds (toSecret s sl k { out := out }) out 0 (KeepsSecret sl k) := by
  unfold toSecret
  split
  · next hhold => exact ⟨rfl, rfl, rfl, rfl, fun _ hsec hops => by rw [KeepsSecret, if_pos hhold]; exact ⟨hsec, hops⟩⟩
  · next hhold =>
    exact ⟨rfl, rfl, rfl, rfl, fun _ hsec hops => by
      rw [KeepsSecret, if_neg hhold]; exact ⟨hsec, createsKey_of_newKeyOp hops⟩⟩

theorem toSecret_approved (s : State) (sl : Slip) (k : Bytes) (o : OpOut) :
    (toSecret s sl k o).approved = o.approved := by
  unfold toSecret
  split <;> rfl

end

end Sys2Proof.Machine
end

section
/-!
SUPPORT. ML-KEM (R174, R182, R183, R190): what each operation leaves in its slip.
-/

namespace Sys2Proof.Machine

/-- The two halves of a key pair are the parts of one string. -/
theorem kemPair_append (set : Nat) (seed : Bytes) :
    (kemPair set seed).1 ++ (kemPair set seed).2 = fit (kemEk set + kemDk set) (Config.compute (.mlKemKeyGen set) [seed]) :=
  List.take_append_drop ..

section
variable {s : State} {sid : Nat} {sl : Slip} {op : Nat} (hset : csSet sl.cs ≤ 2)
include hset

theorem isKem_of_slipRuns (h : SlipRuns s sid sl 1 op) : isKem op sl = true := by
  obtain ⟨-, -, -, -, -, -, hop⟩ := h
  simp [isKem, hop, hset]

theorem kemKeygen_produces (h : SlipRuns s sid sl 1 0x01) :
    Produces s sid sl (kemPair (csSet sl.cs) (s.freeBytes 64)).1 0
      (fun y => y.secret = none ∧ CreatesKey sl (0x10 + csSet sl.cs) (s.freeBytes 64) y) (exec (.kemKeygen sid) s) :=
  (leaves_of_draw h (isKem_of_slipRuns hset h) (fun _ => rfl) (.inr fun _ _ => rfl)).produces fun _ => succeeds_newKey ..

theorem kemEncaps_produces (h : SlipRuns s sid sl 1 0x02) (hek : ekOk (csSet sl.cs) sl.inData = true) :
    Produces s sid sl (kemEnc (csSet sl.cs) sl.inData (s.freeBytes 32)).1 0
      (KeepsSecret sl (kemEnc (csSet sl.cs) sl.inData (s.freeBytes 32)).2) (exec (.kemEncaps sid) s) := by
  have hf : ∀ u, kemEncaps sl u = draw u 32 fun u m =>
      (u, toSecret u sl (kemEnc (csSet sl.cs) sl.inData m).2 { out := (kemEnc (csSet sl.cs) sl.inData m).1 }) :=
    fun _ => if_neg (by simp [hek])
  exact (leaves_of_draw h (isKem_of_slipRuns hset h) hf (.inr fun _ _ => toSecret_approved ..)).produces fun _ =>
    succeeds_toSecret ..

theorem kemEncaps_fails (h : SlipRuns s sid sl 1 0x02) (hek : ekOk (csSet sl.cs) sl.inData = false) :
    FailsWith s sid St.inputMalformed (exec (.kemEncaps sid) s) :=
  have hf : ∀ u, kemEncaps sl u = (u, .fail St.inputMalformed) := fun _ => if_pos (by simp [hek])
  (leaves_of_pure h (isKem_of_slipRuns hset h) hf (.inr fun _ => rfl)).fails (by decide)

theorem kemDecaps_produces (h : SlipRuns s sid sl 1 0x03) :
    Produces s sid sl [] 0 (KeepsSecret sl (kemDec (csSet sl.cs) (kemPair (csSet sl.cs) (keyMat sl)).2 sl.inData))
      (exec (.kemDecaps sid) s) :=
  (leaves_of_pure h (isKem_of_slipRuns hset h) (fun _ => rfl) (.inr fun _ => toSecret_approved ..)).produces fun _ =>
    succeeds_toSecret ..

theorem kemPubkey_produces (h : SlipRuns s sid sl 1 0x04) :
    Produces s sid sl (kemPair (csSet sl.cs) (keyMat sl)).1 0 NoKey (exec (.kemPubkey sid) s) :=
  (leaves_of_pure h (isKem_of_slipRuns hset h) (fun _ => rfl) (.inr fun _ => rfl)).produces fun _ => succeeds_output ..

/-! ## The known-answer operations, which are not approved (R190, R320) -/

section
variable (hp : PolicyAdmits s sl)
include hp

theorem kemKeygenKat_produces (h : SlipRuns s sid sl 1 0x81) :
    Produces s sid sl (fit (kemEk (csSet sl.cs) + kemDk (csSet sl.cs)) (Config.compute (.mlKemKeyGen (csSet sl.cs)) [sl.auxData]))
      0 NoKey (exec (.kemKeygenKat sid) s) := by
  rw [← kemPair_append]
  exact (leaves_of_pure h (isKem_of_slipRuns hset h) (fun _ => rfl) (.inl hp)).produces fun _ => succeeds_output ..

theorem kemEncapsKat_produces (h : SlipRuns s sid sl 1 0x82) (hek : ekOk (csSet sl.cs) sl.inData = true) :
    Produces s sid sl ((kemEnc (csSet sl.cs) sl.inData sl.auxData).1 ++ (kemEnc (csSet sl.cs) sl.inData sl.auxData).2) 0 NoKey
      (exec (.kemEncapsKat sid) s) :=
  have hf : ∀ u, kemEncapsKat sl u = (u, { out := (kemEnc (csSet sl.cs) sl.inData sl.auxData).1 ++
      (kemEnc (csSet sl.cs) sl.inData sl.auxData).2, approved := false }) := fun _ => if_neg (by simp [hek])
  (leaves_of_pure h (isKem_of_slipRuns hset h) hf (.inl hp)).produces fun _ => succeeds_output ..

theorem kemEncapsKat_fails (h : SlipRuns s sid sl 1 0x82) (hek : ekOk (csSet sl.cs) sl.inData = false) :
    FailsWith s sid St.inputMalformed (exec (.kemEncapsKat sid) s) :=
  have hf : ∀ u, kemEncapsKat sl u = (u, .fail St.inputMalformed false) := fun _ => if_pos (by simp [hek])
  (leaves_of_pure h (isKem_of_slipRuns hset h) hf (.inl hp)).fails (by decide)

theorem kemDecapsKat_produces (h : SlipRuns s sid sl 1 0x83) (hdk : dkOk (csSet sl.cs) sl.auxData = true) :
    Produces s sid sl (kemDec (csSet sl.cs) sl.auxData sl.inData) 0 NoKey (exec (.kemDecapsKat sid) s) :=
  have hf : ∀ u, kemDecapsKat sl u = (u, { out := kemDec (csSet sl.cs) sl.auxData sl.inData, approved := false }) :=
    fun _ => if_neg (by simp [hdk])
  (leaves_of_pure h (isKem_of_slipRuns hset h) hf (.inl hp)).produces fun _ => succeeds_output ..

end

end

end Sys2Proof.Machine

open Sys2Proof Sys2Proof.Machine

/-- Settles O18: each operation either fails its check of the key or leaves one result in its slip. -/
theorem kemOperationsProduceTheirResults : Obligations.KemOperationsProduceTheirResults := by
  rintro s sid sl _ rfl hset
  exact ⟨kemKeygen_produces hset, kemEncaps_produces hset, kemEncaps_fails hset, kemDecaps_produces hset,
    kemPubkey_produces hset, fun hp => ⟨kemKeygenKat_produces hset hp, kemEncapsKat_produces hset hp,
      kemEncapsKat_fails hset hp, kemDecapsKat_produces hset hp⟩⟩
end

section
/-!
SUPPORT. ML-DSA (R176, R184 to R190): what each operation leaves in its slip.
-/

namespace Sys2Proof.Machine

section
variable {s : State} {sid : Nat} {sl : Slip} {op : Nat} {r : Res}

/-- The two halves of a key pair are the parts of one string. -/
theorem dsaPair_append (set : Nat) (seed : Bytes) :
    (dsaPair set seed).1 ++ (dsaPair set seed).2 = fit (dsaPk set + dsaSk set) (Config.compute (.mlDsaKeyGen set) [seed]) :=
  List.take_append_drop ..

/-! ## Signing (R184 to R188) -/

/-- Bytes that a signing takes for its rnd: zeros for deterministic signing, else those that come next (R187). -/
def signRnd (s : State) (sl : Slip) (n : Nat) : Bytes := if csParam sl.cs % 2 = 1 then zeros n else s.freeBytes n

theorem spDet_iff (p : Nat) : spDet p = true ↔ p % 2 = 1 := by simp [spDet, bit]

theorem leaves_of_withRnd {cls n : Nat} {ok : Slip → Bool} {f : Slip → State → State × OpOut} {o : Bytes → OpOut}
    (h : SlipRuns s sid sl cls op) (hok : ok sl = true) (hf : ∀ u, f sl u = withRnd sl n u fun u b => (u, o b))
    (ha : PolicyAdmits s sl ∨ ∀ b, (o b).approved = true) :
    Leaves s sid sl (fun _ => o (signRnd s sl n)) (.next (runOp s sid cls ok f)) := by
  unfold signRnd
  split
  · next hdet =>
    exact leaves_of_pure h hok (fun u => (hf u).trans (if_pos ((spDet_iff _).mpr hdet))) (ha.imp_right fun ha _ => ha _)
  · next hdet =>
    exact leaves_of_draw (ob := fun b _ => o b) h hok (fun u => (hf u).trans (if_neg (mt (spDet_iff _).mp hdet)))
      (ha.imp_right fun ha b _ => ha b)

/-- Attempts that a signing makes; 0 where 256 do not suffice (R188). -/
def signAttempts (set : Nat) (k mu rnd : Bytes) : Nat := unle (Config.compute (.mlDsaAttempts set) [k, mu, rnd]) % 257

theorem dsaSignMu_eq_fail {set : Nat} {k mu rnd : Bytes} (a : Bool) (hn : signAttempts set k mu rnd = 0) :
    dsaSignMu set k mu rnd a = .fail St.aborted a := if_pos hn

theorem dsaSignMu_eq_signed {set : Nat} {k mu rnd : Bytes} (a : Bool) (hn : signAttempts set k mu rnd ≠ 0) :
    dsaSignMu set k mu rnd a = { out := fit (dsaSig set) (Config.compute (.mlDsaSign set) [k, mu, rnd])
                                 inline := BitVec.ofNat 64 (signAttempts set k mu rnd), approved := a } := if_neg hn

theorem dsaSignMu_approved (set : Nat) (k mu rnd : Bytes) (a : Bool) : (dsaSignMu set k mu rnd a).approved = a := by
  by_cases hn : signAttempts set k mu rnd = 0
  · rw [dsaSignMu_eq_fail a hn]; rfl
  · rw [dsaSignMu_eq_signed a hn]

/-- A signing ends with its signature and the count of its attempts, or with `ABORTED` (R188). -/
def Signs (s : State) (sid : Nat) (sl : Slip) (k mu rnd : Bytes) (r : Res) : Prop :=
  let set := csSet sl.cs
  let n := signAttempts set k mu rnd
  (n ≠ 0 → Produces s sid sl (fit (dsaSig set) (Config.compute (.mlDsaSign set) [k, mu, rnd])) (BitVec.ofNat 64 n) NoKey r) ∧
  (n = 0 → FailsWith s sid St.aborted r)

theorem Leaves.signs {k mu rnd : Bytes} {a : Bool} (h : Leaves s sid sl (fun _ => dsaSignMu (csSet sl.cs) k mu rnd a) r) :
    Signs s sid sl k mu rnd r := by
  constructor
  · intro hn
    refine h.produces fun _ => ?_
    rw [dsaSignMu_eq_signed a hn]
    exact succeeds_output ..
  · intro hn
    rw [dsaSignMu_eq_fail a hn] at h
    exact h.fails (by decide)

theorem signs_of_withRnd {ok : Slip → Bool} {f : Slip → State → State × OpOut} {k mu : Bytes} {a : Bool}
    (h : SlipRuns s sid sl 1 op) (hok : ok sl = true)
    (hf : ∀ u, f sl u = withRnd sl 32 u fun u b => (u, dsaSignMu (csSet sl.cs) k mu b a)) (ha : PolicyAdmits s sl ∨ a = true) :
    Signs s sid sl k mu (signRnd s sl 32) (.next (runOp s sid 1 ok f)) :=
  (leaves_of_withRnd h hok hf (ha.imp_right fun ha _ => (dsaSignMu_approved ..).trans ha)).signs

/-- μ of a message under a public key (R186). -/
def muOf (pk m : Bytes) : Bytes := dsaMu (dsaTr pk) m

/-! ## Verification (R176, R189) -/

/-- The public key of a verification: the slip's key, or the first bytes of `AUX`. -/
theorem verKey_eq (sl : Slip) (n : Nat) : verKey sl n =
    (if csKeyUsed sl.cs then keyMat sl else (ownAux sl).take n, if csKeyUsed sl.cs then ownAux sl else (ownAux sl).drop n) := by
  unfold verKey
  split <;> rfl

end

/-! ## The operations -/

section
variable {s : State} {sid : Nat} {sl : Slip} {op : Nat} (hlo : 4 ≤ csSet sl.cs) (hhi : csSet sl.cs ≤ 6)
include hlo hhi

theorem isDsa_of_slipRuns (h : SlipRuns s sid sl 1 op) : isDsa op sl = true := by
  obtain ⟨-, -, -, -, -, -, hop⟩ := h
  simp [isDsa, hop, hlo, hhi]

theorem dsaKeygen_produces (h : SlipRuns s sid sl 1 0x01) :
    Produces s sid sl (dsaPair (csSet sl.cs) (s.freeBytes 32)).1 0
      (fun y => y.secret = none ∧ CreatesKey sl (0x10 + csSet sl.cs) (s.freeBytes 32) y) (exec (.dsaKeygen sid) s) :=
  (leaves_of_draw h (isDsa_of_slipRuns hlo hhi h) (fun _ => rfl) (.inr fun _ _ => rfl)).produces fun _ => succeeds_newKey ..

theorem dsaPubkey_produces (h : SlipRuns s sid sl 1 0x02) :
    Produces s sid sl (dsaPair (csSet sl.cs) (keyMat sl)).1 0 NoKey (exec (.dsaPubkey sid) s) :=
  (leaves_of_pure h (isDsa_of_slipRuns hlo hhi h) (fun _ => rfl) (.inr fun _ => rfl)).produces fun _ => succeeds_output ..

theorem dsaSign_signs (h : SlipRuns s sid sl 1 0x10) :
    let pair := dsaPair (csSet sl.cs) (keyMat sl)
    Signs s sid sl pair.2 (muOf pair.1 (mPrime false (csParam sl.cs) (ownAux sl) sl.inData)) (signRnd s sl 32)
      (exec (.dsaSign sid) s) :=
  signs_of_withRnd h (isDsa_of_slipRuns hlo hhi h) (fun _ => rfl) (.inr rfl)

theorem dsaSignMu_signs (h : SlipRuns s sid sl 1 0x12) :
    Signs s sid sl (dsaPair (csSet sl.cs) (keyMat sl)).2 sl.inData (signRnd s sl 32) (exec (.dsaSignMu sid) s) :=
  signs_of_withRnd h (isDsa_of_slipRuns hlo hhi h) (fun _ => rfl) (.inr rfl)

theorem dsaVerify_verdict (h : SlipRuns s sid sl 1 0x20) :
    let set := csSet sl.cs
    let v := verKey sl (dsaPk set)
    Verdict s sid (Config.holds (.mlDsaSign set) [v.1, muOf v.1 (mPrime false (csParam sl.cs) (v.2.drop (dsaSig set)) sl.inData),
      v.2.take (dsaSig set)]) (exec (.dsaVerify sid) s) :=
  (leaves_of_pure h (isDsa_of_slipRuns hlo hhi h) (fun _ => rfl) (.inr fun _ => rfl)).verdict

theorem dsaVerifyMu_verdict (h : SlipRuns s sid sl 1 0x22) :
    let set := csSet sl.cs
    let v := verKey sl (dsaPk set)
    Verdict s sid (Config.holds (.mlDsaSign set) [v.1, sl.inData, v.2.take (dsaSig set)]) (exec (.dsaVerifyMu sid) s) :=
  (leaves_of_pure h (isDsa_of_slipRuns hlo hhi h) (fun _ => rfl) (.inr fun _ => rfl)).verdict

/-! The operations whose pre-hash may not be approved, and the known-answer operations, which are not (R185, R190, R320). -/

section
variable (hp : PolicyAdmits s sl)
include hp

theorem dsaSignPh_signs (h : SlipRuns s sid sl 1 0x11) :
    let pair := dsaPair (csSet sl.cs) (keyMat sl)
    Signs s sid sl pair.2 (muOf pair.1 (mPrime true (csParam sl.cs) (ownAux sl) sl.inData)) (signRnd s sl 32)
      (exec (.dsaSignPh sid) s) :=
  signs_of_withRnd h (isDsa_of_slipRuns hlo hhi h) (fun _ => rfl) (.inl hp)

theorem dsaVerifyPh_verdict (h : SlipRuns s sid sl 1 0x21) :
    let set := csSet sl.cs
    let v := verKey sl (dsaPk set)
    Verdict s sid (Config.holds (.mlDsaSign set) [v.1, muOf v.1 (mPrime true (csParam sl.cs) (v.2.drop (dsaSig set)) sl.inData),
      v.2.take (dsaSig set)]) (exec (.dsaVerifyPh sid) s) :=
  (leaves_of_pure h (isDsa_of_slipRuns hlo hhi h) (fun _ => rfl) (.inl hp)).verdict

theorem dsaKeygenKat_produces (h : SlipRuns s sid sl 1 0x81) :
    Produces s sid sl (fit (dsaPk (csSet sl.cs) + dsaSk (csSet sl.cs)) (Config.compute (.mlDsaKeyGen (csSet sl.cs)) [sl.auxData]))
      0 NoKey (exec (.dsaKeygenKat sid) s) := by
  rw [← dsaPair_append]
  exact (leaves_of_pure h (isDsa_of_slipRuns hlo hhi h) (fun _ => rfl) (.inl hp)).produces fun _ => succeeds_output ..

theorem dsaSignKat_signs (h : SlipRuns s sid sl 1 0x90) :
    let k := sl.auxData.take (dsaSk (csSet sl.cs))
    Signs s sid sl k (dsaMu (slice k 64 64) sl.inData) (sl.auxData.drop (dsaSk (csSet sl.cs))) (exec (.dsaSignKat sid) s) :=
  (leaves_of_pure h (isDsa_of_slipRuns hlo hhi h) (fun _ => rfl) (.inl hp)).signs

theorem dsaVerifyKat_verdict (h : SlipRuns s sid sl 1 0xA0) :
    let set := csSet sl.cs
    let pk := sl.auxData.take (dsaPk set)
    Verdict s sid (Config.holds (.mlDsaSign set) [pk, muOf pk sl.inData, sl.auxData.drop (dsaPk set)])
      (exec (.dsaVerifyKat sid) s) :=
  (leaves_of_pure h (isDsa_of_slipRuns hlo hhi h) (fun _ => rfl) (.inl hp)).verdict

end

end

end Sys2Proof.Machine

open Sys2Proof Sys2Proof.Machine

/-- Settles O19: a signing is decided by its number of attempts, a verification by the place of its public key. -/
theorem dsaOperationsProduceTheirResults : Obligations.DsaOperationsProduceTheirResults := by
  rintro s sid sl _ rfl hlo hhi
  have hver := dsaVerify_verdict (s := s) (sid := sid) hlo hhi
  have hmu := dsaVerifyMu_verdict (s := s) (sid := sid) hlo hhi
  have hph := fun hp => dsaVerifyPh_verdict (s := s) (sid := sid) hlo hhi hp
  simp only [verKey_eq] at hver hmu hph
  exact ⟨dsaKeygen_produces hlo hhi, dsaPubkey_produces hlo hhi, dsaSign_signs hlo hhi, dsaSignMu_signs hlo hhi, hver, hmu,
    fun hp => ⟨dsaSignPh_signs hlo hhi hp, hph hp, dsaKeygenKat_produces hlo hhi hp, dsaSignKat_signs hlo hhi hp,
      dsaVerifyKat_verdict hlo hhi hp⟩⟩
end

section
/-!
SUPPORT. SLH-DSA (R197 to R200, R217): what each operation leaves in its slip.
-/

namespace Sys2Proof.Machine

theorem slhSig_eq (set : Nat) : slhSig set =
    [7856, 7856, 17088, 17088, 16224, 16224, 35664, 35664, 29792, 29792, 49856, 49856].getD set 0 :=
  (List.getD_map (f := Prod.fst) ..).symm

section
variable {s : State} {sid : Nat} {sl : Slip} {op : Nat}

/-- The signature of a message under a private key (R199). -/
def slhSignature (set : Nat) (sk m opt : Bytes) : Bytes := fit (slhSig set) (Config.compute (.slhSign set) [sk, m, opt])

/-- The bytes that randomise a signature: PK.seed for deterministic signing, else those that come next (R200). -/
def slhOpt (s : State) (sl : Slip) : Bytes :=
  let n := slhN (csSet sl.cs)
  if csParam sl.cs % 2 = 1 then slice (keyMat sl) (2 * n) n else s.freeBytes n

section
variable (hset : csSet sl.cs ≤ 11)
include hset

theorem isSlh_of_slipRuns (h : SlipRuns s sid sl 2 op) : isSlh op sl = true := by
  obtain ⟨-, -, -, -, -, -, hop⟩ := h
  simp [isSlh, hop, hset]

theorem slhKeygen_produces (h : SlipRuns s sid sl 2 0x01) :
    let sk := slhKey (csSet sl.cs) (s.freeBytes (3 * slhN (csSet sl.cs)))
    Produces s sid sl (sk.drop (2 * slhN (csSet sl.cs))) 0 (fun y => y.secret = none ∧ CreatesKey sl (0x20 + csSet sl.cs) sk y)
      (exec (.slhKeygen sid) s) :=
  have hf : ∀ u, slhKeygen sl u = draw u (3 * slhN (csSet sl.cs)) fun u seeds =>
      let sk := slhKey (csSet sl.cs) seeds
      (u, { out := sk.drop (2 * slhN (csSet sl.cs)), slotOps := newKeyOp u sl (slipParent sl) (0x20 + csSet sl.cs) sk }) :=
    fun _ => rfl
  (leaves_of_draw h (isSlh_of_slipRuns hset h) hf (.inr fun _ _ => rfl)).produces fun _ => succeeds_newKey ..

theorem slhPubkey_produces (h : SlipRuns s sid sl 2 0x02) :
    Produces s sid sl (slice (keyMat sl) (2 * slhN (csSet sl.cs)) (2 * slhN (csSet sl.cs))) 0 NoKey (exec (.slhPubkey sid) s) :=
  (leaves_of_pure h (isSlh_of_slipRuns hset h) (fun _ => rfl) (.inr fun _ => rfl)).produces fun _ => succeeds_output ..

/-! ## Signing (R199, R200) -/

theorem slhSigner_produces {f : Slip → State → State × OpOut} {ph a : Bool} (h : SlipRuns s sid sl 2 op)
    (hf : ∀ u, f sl u = slhSigner sl u ph a) (ha : PolicyAdmits s sl ∨ a = true) :
    Produces s sid sl (slhSignature (csSet sl.cs) (keyMat sl) (mPrime ph (csParam sl.cs) (ownAux sl) sl.inData) (slhOpt s sl))
      0 NoKey (.next (runOp s sid 2 (isSlh op) f)) := by
  have hok := isSlh_of_slipRuns hset h
  unfold slhOpt
  dsimp only
  split
  · next hdet =>
    exact (leaves_of_pure h hok (fun u => (hf u).trans (if_pos ((spDet_iff _).mpr hdet)))
      (ha.imp_right fun ha _ => ha)).produces fun _ => succeeds_output ..
  · next hdet =>
    exact (leaves_of_draw h hok (fun u => (hf u).trans (if_neg (mt (spDet_iff _).mp hdet)))
      (ha.imp_right fun ha _ _ => ha)).produces fun _ => succeeds_output ..

theorem slhSign_produces (h : SlipRuns s sid sl 2 0x10) :
    Produces s sid sl (slhSignature (csSet sl.cs) (keyMat sl) (mPrime false (csParam sl.cs) (ownAux sl) sl.inData) (slhOpt s sl))
      0 NoKey (exec (.slhSign sid) s) :=
  slhSigner_produces hset h (fun _ => rfl) (.inr rfl)

theorem slhSignPh_produces (hp : PolicyAdmits s sl) (h : SlipRuns s sid sl 2 0x11) :
    Produces s sid sl (slhSignature (csSet sl.cs) (keyMat sl) (mPrime true (csParam sl.cs) (ownAux sl) sl.inData) (slhOpt s sl))
      0 NoKey (exec (.slhSignPh sid) s) :=
  slhSigner_produces hset h (fun _ => rfl) (.inl hp)

/-! ## Verification (R199) -/

/-- What a verification judges: the public key and the signature where the slip has them, and M′. -/
def slhVerified (ph : Bool) (sl : Slip) : Bool :=
  let set := csSet sl.cs
  let v := verKey sl (2 * slhN set)
  Config.holds (.slhSign set) [v.1, mPrime ph (csParam sl.cs) (v.2.drop (slhSig set)) sl.inData, v.2.take (slhSig set)]

theorem slhVerify_verdict (h : SlipRuns s sid sl 2 0x20) : Verdict s sid (slhVerified false sl) (exec (.slhVerify sid) s) :=
  (leaves_of_pure h (isSlh_of_slipRuns hset h) (fun _ => rfl) (.inr fun _ => rfl)).verdict

theorem slhVerifyPh_verdict (hp : PolicyAdmits s sl) (h : SlipRuns s sid sl 2 0x21) :
    Verdict s sid (slhVerified true sl) (exec (.slhVerifyPh sid) s) :=
  (leaves_of_pure h (isSlh_of_slipRuns hset h) (fun _ => rfl) (.inl hp)).verdict

/-! ## The known-answer operations, which are not approved (R217, R320) -/

theorem slhKeygenKat_produces (hp : PolicyAdmits s sl) (h : SlipRuns s sid sl 2 0x81) :
    let sk := slhKey (csSet sl.cs) sl.auxData
    Produces s sid sl (sk.drop (2 * slhN (csSet sl.cs)) ++ sk) 0 NoKey (exec (.slhKeygenKat sid) s) :=
  (leaves_of_pure h (isSlh_of_slipRuns hset h) (fun _ => rfl) (.inl hp)).produces fun _ => succeeds_output ..

theorem slhSignKat_produces (hp : PolicyAdmits s sl) (h : SlipRuns s sid sl 2 0x90) :
    let n := slhN (csSet sl.cs)
    Produces s sid sl (slhSignature (csSet sl.cs) (sl.auxData.take (4 * n)) sl.inData (sl.auxData.drop (4 * n))) 0 NoKey
      (exec (.slhSignKat sid) s) :=
  (leaves_of_pure h (isSlh_of_slipRuns hset h) (fun _ => rfl) (.inl hp)).produces fun _ => succeeds_output ..

end

end

end Sys2Proof.Machine

open Sys2Proof Sys2Proof.Machine

/-- Settles O20: an operation draws what it needs, and the place of the public key decides what a verification judges. -/
theorem slhOperationsProduceTheirResults : Obligations.SlhOperationsProduceTheirResults := by
  rintro s sid sl _ rfl hset
  have hver := slhVerify_verdict (s := s) (sid := sid) hset
  have hph := fun hp => slhVerifyPh_verdict (s := s) (sid := sid) hset hp
  have hkat := fun hp => slhSignKat_produces (s := s) (sid := sid) hset hp
  have hsign := slhSign_produces (s := s) (sid := sid) hset
  have hsignPh := fun hp => slhSignPh_produces (s := s) (sid := sid) hset hp
  simp only [slhVerified, slhSignature, verKey_eq, slhSig_eq] at hver hph hsign hsignPh hkat
  exact ⟨slhKeygen_produces hset, slhPubkey_produces hset, hsign, hver, fun hp => ⟨hsignPh hp, hph hp,
    slhKeygenKat_produces hset hp, hkat hp⟩⟩
end

section
/-!
SUPPORT. Stateful keys (R205, R207, R209): what each operation leaves in its slip.
-/

namespace Sys2Proof.Machine

/-! ## Indices left (R205): counting a use does not change them -/

theorem stfRemain_countUse (s : State) (n k : Nat) : stfRemain (countUse s n) k = stfRemain s k := by
  have hslot : ∃ r u, (countUse s n).slot k = { s.slot k with reserved := r, useCount := u } := by
    by_cases hk : k = n
    · subst hk
      exact ⟨_, _, State.setSlot_slot_self ..⟩
    · exact ⟨_, _, State.setSlot_slot_of_ne _ _ hk⟩
  obtain ⟨r, u, hslot⟩ := hslot
  unfold stfRemain
  rw [hslot]
  rfl

theorem stfRemain_startUses (s : State) (sid k : Nat) : stfRemain (startUses s sid) k = stfRemain s k := by
  unfold startUses
  cases s.slip? sid with
  | none => rfl
  | some sl =>
    dsimp only
    split
    · rfl
    · exact foldl_keeps (fun s => stfRemain s k) (fun s n => stfRemain_countUse s n k) sl.uses s

section
variable {s : State} {sid : Nat} {sl : Slip} {op : Nat}

theorem opReady_of_slipRuns {cls : Nat} {ok : Slip → Bool} (h : SlipRuns s sid sl cls op) (hok : ok sl = true) :
    opReady s sid cls ok = some sl := by
  obtain ⟨hslip, hphase, hfinal, hreads, hawake, hcls, -⟩ := h
  simp [opReady, hslip, hphase, hfinal, hreads, hawake, hcls, hok]

/-- The counter of the key is bound in the ledger, which nothing else shares. -/
theorem bindCounter_eq (s : State) (sid : Nat) : ∃ x, bindCounter s sid = { s with ledger := x } := by
  unfold bindCounter ledgerWrite
  split
  · exact ⟨_, rfl⟩
  · split
    · exact ⟨_, rfl⟩
    · dsimp only
      split
      · split <;> exact ⟨_, rfl⟩
      · exact ⟨_, rfl⟩

/-- A signing takes one index, and keeps it when it runs on. -/
theorem takeLeaf_of_taken {i : Nat} (h : s.slip? sid = some sl) (hi : sl.leaf = some i) : takeLeaf s sid = s := by
  simp [takeLeaf, h, hi]

/-- The public key stands in the material behind the header (R205; its place is the model's choice, log 40). -/
theorem stfPkOf_key {d : StfSet} (hd : sl.key.bind stfSetOf = some d) :
    (sl.key.map stfPkOf).getD [] = slice (keyMat sl) 20 (stfPkLen d) := by
  obtain ⟨k, hk, hd⟩ := Option.bind_eq_some_iff.mp hd
  simp [keyMat, hk, stfPkOf, hd]

/-- The public key of the key that the slip asks for, from its seed (R203). -/
def stfNewPk (d : StfSet) (sl : Slip) (seed : Bytes) : Bytes :=
  fit (stfPkLen d) (Config.compute .stfKeyGen [stfAskedHeader (csSet sl.cs) (csParam sl.cs) (sl.exts.getD 1 []), seed])

/-- A key generation that has its counter and its slot answers the public key, and a key of the family in that slot which holds
that counter (R203, R228). -/
theorem stfKeygen_of_claims {d : StfSet} {c n : Nat} (u : State)
    (hask : stfAsked (csSet sl.cs) (csParam sl.cs) (sl.exts.getD 1 []) = some d) (hc : sl.counterClaim = some c)
    (hn : sl.destClaim = some n) :
    ∃ t x, stfKeygen sl u = (t, { out := stfNewPk d sl (u.freeBytes 96), slotOps := [.create n x] }) ∧
      t.hop = u.hop ∧ x.keyClass = 0x40 + (csSet sl.cs - 12) ∧ x.ledger.map (·.1) = some c := by
  unfold stfKeygen
  simp only [hask, hc, hn]
  exact ⟨_, _, rfl, rfl, rfl, rfl⟩

section
variable (hlo : 12 ≤ csSet sl.cs) (hhi : csSet sl.cs ≤ 14)
include hlo hhi

theorem isStf_of_slipRuns (h : SlipRuns s sid sl 2 op) : isStf op sl = true := by
  obtain ⟨-, -, -, -, -, -, hop⟩ := h
  simp [isStf, hop, hlo, hhi]

theorem stfPubkey_produces {d : StfSet} (h : SlipRuns s sid sl 2 0x02) (hd : sl.key.bind stfSetOf = some d) :
    Produces s sid sl (slice (keyMat sl) 20 (stfPkLen d)) 0 NoKey (exec (.stfPubkey sid) s) := by
  rw [← stfPkOf_key hd]
  exact (leaves_of_pure h (isStf_of_slipRuns hlo hhi h) (fun _ => rfl) (.inr fun _ => rfl)).produces fun _ => succeeds_output ..

/-! ## Signing (R205, R207) -/

theorem execStfSign_eq (h : SlipRuns s sid sl 2 0x10) : exec (.stfSign sid) s =
    if (stfKey s (csKey sl.cs)).cached then .next (runOp (takeLeaf s sid) sid 2 (isStf 0x10) stfSign) else .next s := by
  change execStfSign sid s = _
  rw [execStfSign, opReady_of_slipRuns h (isStf_of_slipRuns hlo hhi h)]

theorem stfSign_uncached (h : SlipRuns s sid sl 2 0x10) (hcache : (stfKey s (csKey sl.cs)).cached = false) :
    exec (.stfSign sid) s = .next s := by
  rw [execStfSign_eq hlo hhi h, hcache]
  rfl

theorem stfSign_produces {d : StfSet} {i : Nat} (h : SlipRuns s sid sl 2 0x10) (hd : sl.key.bind stfSetOf = some d)
    (hi : sl.leaf = some i) (hcache : (stfKey s (csKey sl.cs)).cached = true) :
    Produces s sid sl (fit (stfSigLen d) (Config.compute .stfSign [keyMat sl, be 8 i, sl.inData])) (BitVec.ofNat 64 i) NoKey
      (exec (.stfSign sid) s) := by
  have hf : ∀ u, stfSign sl u = (u, { out := fit (stfSigLen d) (Config.compute .stfSign [keyMat sl, be 8 i, sl.inData])
                                      inline := BitVec.ofNat 64 i }) := by simp [stfSign, hi, hd]
  rw [execStfSign_eq hlo hhi h, if_pos hcache, takeLeaf_of_taken h.1 hi]
  exact (leaves_of_pure h (isStf_of_slipRuns hlo hhi h) hf (.inr fun _ => rfl)).produces fun _ => succeeds_output ..

/-! ## Verification (R209) -/

/-- What a verification judges: a signature that parses by the parameters of the public key, each where the slip has it. -/
def stfVerified (d : StfSet) (sl : Slip) : Bool :=
  let v := verKey sl (stfPkLen d)
  stfSigOk d v.1 v.2 && Config.holds .stfSign [v.1, sl.inData, v.2]

theorem stfVerify_verdict {d : StfSet} (h : SlipRuns s sid sl 2 0x20)
    (hd : stfPkSet (csSet sl.cs) (if csKeyUsed sl.cs then keyMat sl else ownAux sl) = some d) :
    Verdict s sid (stfVerified d sl) (exec (.stfVerify sid) s) :=
  have hf : ∀ u, stfVerify sl u = (u, .verdict (stfVerified d sl)) := by simp [stfVerify, hd, stfVerified]
  (leaves_of_pure h (isStf_of_slipRuns hlo hhi h) hf (.inr fun _ => rfl)).verdict

theorem stfVerify_fails (h : SlipRuns s sid sl 2 0x20)
    (hd : stfPkSet (csSet sl.cs) (if csKeyUsed sl.cs then keyMat sl else ownAux sl) = none) :
    FailsWith s sid St.inputMalformed (exec (.stfVerify sid) s) :=
  have hf : ∀ u, stfVerify sl u = (u, .fail St.inputMalformed) := by simp [stfVerify, hd]
  (leaves_of_pure h (isStf_of_slipRuns hlo hhi h) hf (.inr fun _ => rfl)).fails (by decide)

theorem stfRemain_completes (h : SlipRuns s sid sl 2 0x30) :
    Completes s sid 0 [] 0 (BitVec.ofNat 64 (stfRemain s (csKey sl.cs))) NoKey (exec (.stfRemain sid) s) := by
  have hleaves : Leaves s sid sl (fun _ => { inline := BitVec.ofNat 64 (stfRemain s (csKey sl.cs)) })
      (exec (.stfRemain sid) s) := by
    refine ⟨_, started_startUses h.1, next_congr ?_⟩
    rw [runOp_of_slipRuns h (isStf_of_slipRuns hlo hhi h) rfl, judged_approved rfl, stfRemain_startUses]
  exact (hleaves.produces fun _ => succeeds_output ..).1 (Nat.zero_le _)

/-! ## Key generation (R203, R228) -/

theorem stfKeygen_creates {d : StfSet} {c n : Nat} (h : SlipRuns s sid sl 2 0x01)
    (hask : stfAsked (csSet sl.cs) (csParam sl.cs) (sl.exts.getD 1 []) = some d) (hc : sl.counterClaim = some c)
    (hn : sl.destClaim = some n) (hfit : stfPkLen d ≤ (cxOf s sl).outMax) :
    ∃ s' y x, exec (.stfKeygen sid) s = .next s' ∧ s'.slip? sid = some y ∧ y.phase = .executed ∧ y.status = 0 ∧
      y.out = stfNewPk d sl (s.freeBytes 96) ∧ y.slotOps = [.create n x] ∧
      x.keyClass = 0x40 + (csSet sl.cs - 12) ∧ x.ledger.map (·.1) = some c := by
  have hok := isStf_of_slipRuns hlo hhi h
  obtain ⟨led, hbind⟩ := bindCounter_eq s sid
  have hruns : SlipRuns (bindCounter s sid) sid sl 2 0x01 := by rw [hbind]; exact h
  obtain ⟨t, x, hgen, hhop, hcls, hctr⟩ := stfKeygen_of_claims (startUses (bindCounter s sid) sid) hask hc hn
  have hexec : exec (.stfKeygen sid) s = .next (runOp (bindCounter s sid) sid 2 (isStf 0x01) stfKeygen) := by
    change execStfKeygen sid s = _
    rw [execStfKeygen, opReady_of_slipRuns h hok]
  have hslip : t.slip? sid = some { sl with usesCounted := true } := by
    rw [State.slip?, hhop]
    exact startUses_slip hruns.1
  have hlen : ∀ b, (stfNewPk d sl b).length ≤ stfPkLen d := fun _ => List.length_take_le ..
  rw [hexec, runOp_of_slipRuns hruns hok hgen, judged_approved rfl]
  refine ⟨_, _, x, rfl, finishOp_fits hslip rfl ((hlen _).trans hfit), rfl, rfl, ?_, rfl, hcls, hctr⟩
  rw [startUses_freeBytes hruns.1, hbind]
  rfl

end

end

end Sys2Proof.Machine

open Sys2Proof Sys2Proof.Machine

/-- Settles O21: the tree cache decides whether a signing runs, the parameters of the public key what a verification parses. -/
theorem statefulKeyOperationsProduceTheirResults : Obligations.StatefulKeyOperationsProduceTheirResults := by
  rintro s sid sl _ rfl hlo hhi
  refine ⟨fun _ => stfPubkey_produces hlo hhi, fun _ _ => stfSign_produces hlo hhi, stfSign_uncached hlo hhi,
    fun d h hkey hd => ?_, fun d h hkey hd => ?_, stfVerify_fails hlo hhi, stfRemain_completes hlo hhi,
    fun _ _ _ => stfKeygen_creates hlo hhi⟩
  · have hv := stfVerify_verdict hlo hhi h (by rw [if_pos hkey]; exact hd)
    simpa only [stfVerified, verKey_eq, if_pos hkey] using hv
  · have hkey : ¬ csKeyUsed sl.cs = true := by simp [hkey]
    have hv := stfVerify_verdict hlo hhi h (by rw [if_neg hkey]; exact hd)
    simpa only [stfVerified, verKey_eq, if_neg hkey] using hv
end

section
/-!
SUPPORT. HQC and Classic McEliece (R211 to R216, R190): what each operation leaves in its slip.
-/

namespace Sys2Proof.Machine

/-! ## Lengths and functions of a set (R211, R213) -/

theorem ckPk_eq (set : Nat) : ckPk set = [2241, 4514, 7237, 261120, 261120, 524160, 524160, 1044992, 1044992, 1047319, 1047319,
    1357824, 1357824].getD set 0 :=
  (List.getD_map (f := Prod.fst) ..).symm

theorem ckCt_eq (set : Nat) : ckCt set =
    [4433, 8978, 14421, 96, 96, 156, 156, 208, 208, 194, 194, 208, 208].getD set 0 :=
  (List.getD_map (f := fun r : Nat × Nat × Nat => r.2.2) ..).symm

/-- The two halves of a key pair are the parts of one string. -/
theorem ckPair_append (set : Nat) (seed : Bytes) : (ckPair set seed).1 ++ (ckPair set seed).2 =
    fit (ckPk set + ckFull set) (Config.compute (if isHqcSet set then .hqcKeyGen set else .mceKeyGen set) [seed]) :=
  List.take_append_drop ..

/-- The ciphertext and the shared secret, each by its scheme's function. -/
theorem ckEncaps_eq (set : Nat) (pk m : Bytes) : ckEncaps set pk m =
    (fit (ckCt set) (Config.compute (if isHqcSet set then .hqcEncaps set else .mceEncaps set) [pk, m]),
      fit 32 (Config.compute (if isHqcSet set then .hqcShared set else .mceShared set) [pk, m])) := by
  unfold ckEncaps
  split <;> rfl

/-- Whether the service counts as approved does not touch a secret result. -/
theorem succeeds_toSecret_unapproved (s : State) (sl : Slip) (k out : Bytes) :
    Succeeds (toSecret s sl k { out := out, approved := false }) out 0 (KeepsSecret sl k) := by
  have heq : toSecret s sl k { out := out, approved := false } = { toSecret s sl k { out := out } with approved := false } := by
    unfold toSecret
    split <;> rfl
  obtain ⟨hok, hout, hlen, hinline, hkeys⟩ := succeeds_toSecret s sl k out
  rw [heq]
  exact ⟨hok, hout, hlen, hinline, hkeys⟩

section
variable {s : State} {sid : Nat} {sl : Slip} {op : Nat} (hset : csSet sl.cs ≤ 12) (hp : PolicyAdmits s sl)
include hset

theorem isCk_of_slipRuns (h : SlipRuns s sid sl 3 op) : isCk op sl = true := by
  obtain ⟨-, -, -, -, -, -, hop⟩ := h
  simp [isCk, hop, hset]

include hp

theorem ckemKeygen_produces (h : SlipRuns s sid sl 3 0x01) :
    let seed := s.freeBytes 32
    let pair := ckPair (csSet sl.cs) seed
    Produces s sid sl pair.1 0
      (fun y => y.secret = none ∧ CreatesKey sl (0x50 + csSet sl.cs) (if isHqcSet (csSet sl.cs) then seed else pair.2) y)
      (exec (.ckemKeygen sid) s) :=
  have hf : ∀ u, ckemKeygen sl u = draw u 32 fun u seed =>
      let pair := ckPair (csSet sl.cs) seed
      (u, { out := pair.1, approved := false, slotOps := newKeyOp u sl (slipParent sl) (0x50 + csSet sl.cs)
              (if isHqcSet (csSet sl.cs) then seed else pair.2) }) := fun _ => rfl
  (leaves_of_draw h (isCk_of_slipRuns hset h) hf (.inl hp)).produces fun _ =>
    ⟨rfl, rfl, rfl, rfl, fun _ hsec hops => ⟨hsec, createsKey_of_newKeyOp hops⟩⟩

theorem ckemEncaps_produces (h : SlipRuns s sid sl 3 0x02) (hpad : ckPadOk (csSet sl.cs) sl.inData = true) :
    let r := ckEncaps (csSet sl.cs) sl.inData (s.freeBytes 32)
    Produces s sid sl r.1 0 (KeepsSecret sl r.2) (exec (.ckemEncaps sid) s) :=
  have hf : ∀ u, ckemEncaps sl u = draw u 32 fun u m => (u, toSecret u sl (ckEncaps (csSet sl.cs) sl.inData m).2
      { out := (ckEncaps (csSet sl.cs) sl.inData m).1, approved := false }) := fun _ => if_neg (by simp [hpad])
  (leaves_of_draw h (isCk_of_slipRuns hset h) hf (.inl hp)).produces fun _ =>
    succeeds_toSecret_unapproved ..

theorem ckemEncaps_fails (h : SlipRuns s sid sl 3 0x02) (hpad : ckPadOk (csSet sl.cs) sl.inData = false) :
    FailsWith s sid St.inputMalformed (exec (.ckemEncaps sid) s) :=
  have hf : ∀ u, ckemEncaps sl u = (u, .fail St.inputMalformed false) := fun _ => if_pos (by simp [hpad])
  (leaves_of_pure h (isCk_of_slipRuns hset h) hf (.inl hp)).fails (by decide)

theorem ckemDecaps_produces (h : SlipRuns s sid sl 3 0x03) :
    Produces s sid sl [] 0
      (KeepsSecret sl (ckDecaps (csSet sl.cs) (ckFullKey (csSet sl.cs) (keyMat sl)) sl.inData)) (exec (.ckemDecaps sid) s) :=
  have hf : ∀ u, ckemDecaps sl u = (u, toSecret u sl (ckDecaps (csSet sl.cs) (ckFullKey (csSet sl.cs) (keyMat sl)) sl.inData)
      { approved := false }) := fun _ => rfl
  (leaves_of_pure h (isCk_of_slipRuns hset h) hf (.inl hp)).produces fun _ =>
    succeeds_toSecret_unapproved ..

theorem ckemPubkey_produces (h : SlipRuns s sid sl 3 0x04) :
    Produces s sid sl (ckPair (csSet sl.cs) ((keyMat sl).take 32)).1 0 NoKey (exec (.ckemPubkey sid) s) :=
  (leaves_of_pure h (isCk_of_slipRuns hset h) (fun _ => rfl) (.inl hp)).produces fun _ => succeeds_output ..

/-! ## The known-answer operations (R190) -/

theorem ckemKeygenKat_produces (h : SlipRuns s sid sl 3 0x81) : ∃ n,
    Produces s sid sl (fit (ckPk (csSet sl.cs) + ckFull (csSet sl.cs)) (Config.compute
      (if isHqcSet (csSet sl.cs) then .hqcKeyGen (csSet sl.cs) else .mceKeyGen (csSet sl.cs)) [sl.auxData])) n NoKey
      (exec (.ckemKeygenKat sid) s) := by
  rw [← ckPair_append]
  exact ⟨_, (leaves_of_pure h (isCk_of_slipRuns hset h) (fun _ => rfl) (.inl hp)).produces fun _ => succeeds_output ..⟩

theorem ckemEncapsKat_produces (h : SlipRuns s sid sl 3 0x82) (hpad : ckPadOk (csSet sl.cs) sl.inData = true) :
    let r := ckEncaps (csSet sl.cs) sl.inData sl.auxData
    Produces s sid sl (r.1 ++ r.2) 0 NoKey (exec (.ckemEncapsKat sid) s) :=
  have hf : ∀ u, ckemEncapsKat sl u = (u, { out := (ckEncaps (csSet sl.cs) sl.inData sl.auxData).1 ++
      (ckEncaps (csSet sl.cs) sl.inData sl.auxData).2, approved := false }) := fun _ => if_neg (by simp [hpad])
  (leaves_of_pure h (isCk_of_slipRuns hset h) hf (.inl hp)).produces fun _ => succeeds_output ..

theorem ckemEncapsKat_fails (h : SlipRuns s sid sl 3 0x82) (hpad : ckPadOk (csSet sl.cs) sl.inData = false) :
    FailsWith s sid St.inputMalformed (exec (.ckemEncapsKat sid) s) :=
  have hf : ∀ u, ckemEncapsKat sl u = (u, .fail St.inputMalformed false) := fun _ => if_pos (by simp [hpad])
  (leaves_of_pure h (isCk_of_slipRuns hset h) hf (.inl hp)).fails (by decide)

theorem ckemDecapsKat_produces (h : SlipRuns s sid sl 3 0x83) :
    Produces s sid sl (ckDecaps (csSet sl.cs) sl.auxData sl.inData) 0 NoKey (exec (.ckemDecapsKat sid) s) :=
  (leaves_of_pure h (isCk_of_slipRuns hset h) (fun _ => rfl) (.inl hp)).produces fun _ => succeeds_output ..

end

end Sys2Proof.Machine

open Sys2Proof Sys2Proof.Machine

/-- Settles O22: both schemes share their operations; an encapsulation is decided by the padding of its public key. -/
theorem codeKemOperationsProduceTheirResults : Obligations.CodeKemOperationsProduceTheirResults := by
  rintro s sid sl _ rfl hset hp
  have hkeygen := ckemKeygen_produces (sid := sid) hset hp
  have hencaps := ckemEncaps_produces (sid := sid) hset hp
  have hpubkey := ckemPubkey_produces (sid := sid) hset hp
  have hdecaps := ckemDecaps_produces (sid := sid) hset hp
  have hkeygenKat := ckemKeygenKat_produces (sid := sid) hset hp
  have hencapsKat := ckemEncapsKat_produces (sid := sid) hset hp
  simp only [ckFullKey, ckPair, ckEncaps_eq, ckPk_eq, ckCt_eq] at hkeygen hencaps hpubkey hdecaps hkeygenKat hencapsKat
  exact ⟨hkeygen, hencaps, ckemEncaps_fails hset hp, hdecaps, hpubkey, hkeygenKat, hencapsKat, ckemEncapsKat_fails hset hp,
    ckemDecapsKat_produces hset hp⟩
end

section
/-!
SUPPORT. The ledger (R207, R222 to R226, R229): what a counter holds once one of its cells is written, and what the completions of
its writes, refreshes and tree builds make of it.
-/

namespace Sys2Proof.Machine

theorem Tab.get?_mapVals {α : Type} (t : Tab α) (f : Nat → α → α) (k : Nat) :
    Tab.get? (Tab.mapVals t f) k = (Tab.get? t k).map (f k) := by
  induction t with
  | nil => rfl
  | cons p t ih =>
    obtain ⟨k', v⟩ := p
    by_cases hk : k = k'
    · subst hk; simp [Tab.mapVals, Tab.get?]
    · simpa [Tab.mapVals, Tab.get?, hk] using ih

/-! ## The greatest valid cell (R222) -/

section
variable {n : Nat} {cs : List Cell} {b c : Cell}

theorem bestCell_valid (h : bestCell n cs = some b) : b ∈ cs ∧ cellValid n b = true := by
  induction cs generalizing b with
  | nil => exact absurd h nofun
  | cons x cs ih =>
    unfold bestCell at h
    split at h
    · split at h
      · next hx => cases h; exact ⟨List.mem_cons_self, hx⟩
      · exact absurd h nofun
    · next y hy =>
      split at h
      · next hx => cases h; exact ⟨List.mem_cons_self, hx.1⟩
      · cases h
        obtain ⟨hmem, hval⟩ := ih hy
        exact ⟨List.mem_cons_of_mem x hmem, hval⟩

theorem bestCell_greatest (hc : c ∈ cs) (hval : cellValid n c = true) : ∃ b, bestCell n cs = some b ∧ c.value ≤ b.value := by
  induction cs with
  | nil => exact absurd hc nofun
  | cons x cs ih =>
    unfold bestCell
    rcases List.mem_cons.mp hc with rfl | hc
    · split
      · exact ⟨c, if_pos hval, Nat.le_refl _⟩
      · next y _ =>
        split
        · exact ⟨c, rfl, Nat.le_refl _⟩
        · next hlt => exact ⟨y, rfl, (Nat.lt_of_not_le fun hle => hlt ⟨hval, hle⟩).le⟩
    · obtain ⟨y, hy, hle⟩ := ih hc
      rw [hy]
      dsimp only
      split
      · next hx => exact ⟨x, rfl, hle.trans hx.2⟩
      · exact ⟨y, rfl, hle⟩

end

theorem cellValid_mkCell (n v : Nat) (st : CtrState) (g : BitVec 6) : cellValid n (mkCell n v st g) = true := by
  simp [cellValid, mkCell]

/-- A cell written with a value no lower than the counter's gives the counter that value (R222). -/
theorem ctrContent_value_of_set {n p v : Nat} {st : CtrState} {g : BitVec 6} {c x : Counter}
    (hx : x.cells = c.cells.set p (mkCell n v st g)) (hlost : x.lost = false) (hp : p < c.cells.length) (hc : c.lost = false)
    (hle : (ctrContent n c).value ≤ v) : (ctrContent n x).value = v := by
  obtain ⟨b, hb, hvb⟩ := bestCell_greatest (List.mem_set hp (mkCell n v st g)) (cellValid_mkCell n v st g)
  have hbv : b.value ≤ v := by
    obtain ⟨hmem, hval⟩ := bestCell_valid hb
    rcases List.mem_or_eq_of_mem_set hmem with hold | rfl
    · obtain ⟨y, hy, hby⟩ := bestCell_greatest hold hval
      have hcv : (ctrContent n c).value = y.value := by simp [ctrContent, hc, hy]
      omega
    · exact Nat.le_refl _
  have hxv : (ctrContent n x).value = b.value := by simp [ctrContent, hlost, hx, hb]
  exact hxv.trans (Nat.le_antisymm hbv hvb)

section
variable {s : State} {n : Nat}

@[simp] theorem counter_setCounter_self (s : State) (n : Nat) (c : Counter) : counter (setCounter s n c) n = c := by
  simp [counter, setCounter]

theorem ctrContent_of_lost {c : Counter} (h : c.lost = true) :
    ctrContent n c = { value := 0xFFFF_FFFF_FFFF, state := .retired } := if_pos h

/-! ## Events of the ledger (R547) -/

theorem ledEvent_only (old s : State) : OnlyMailboxes s (ledEvent old s) := by
  unfold ledEvent
  split
  · exact .refl s
  · exact queueEvent_only ..

theorem noteLowFree_ledger (old s : State) : ∃ e, (noteLowFree old s).ledger = { s.ledger with lowFree := e } := by
  unfold noteLowFree
  dsimp only
  split
  · exact ⟨s.ledger.lowFree.hit, by rw [ledHitLowFree, ledEvent_only s]⟩
  · exact ⟨_, rfl⟩

/-! ## The end of a write (R222, R223) -/

/-- One more cell has been written, or tried. -/
def writeCounted (s : State) : State := { s with ledger := { s.ledger with writeTot := s.ledger.writeTot + 1 } }

/-- The counter once its one write in progress is done. -/
def cellWritten (n : Nat) (c : Counter) (w : LedPending) : Counter :=
  { c with cells := c.cells.set w.cell (mkCell n w.value w.state w.bindGen), writing := [] }

theorem ledgerWriteDone_idle (h : (counter s n).writing = []) (ok : Bool) : exec (.ledgerWriteDone n ok) s = .next s := by
  change execLedgerWriteDone n ok s = _
  simp only [execLedgerWriteDone, h]

section
variable {w : LedPending} (hw : (counter s n).writing = [w])
include hw

theorem ledgerWriteDone_retries (ha : w.attempts < 7) : exec (.ledgerWriteDone n false) s =
    .next (reportSrc (ledHitRetry (setCounter (writeCounted s) n { counter s n with
      cells := (counter s n).cells.set w.cell { cellAt (counter s n) w.cell with eccOk := false }
      writing := [{ w with cell := (w.cell + 1) % 8, attempts := w.attempts + 1 }] })) 0x1C1) := by
  have ha : ¬ w.attempts + 1 ≥ 8 := by omega
  change execLedgerWriteDone n false s = _
  simp only [execLedgerWriteDone, hw, if_neg ha]
  rfl

variable (hset : w.why = .set)
include hset

theorem ledgerWriteDone_written : exec (.ledgerWriteDone n true) s =
    .next (noteLowFree s (setCounter (writeCounted s) n (cellWritten n (counter s n) w))) := by
  change execLedgerWriteDone n true s = _
  simp only [execLedgerWriteDone, hw, hset]
  rfl

theorem ledgerWriteDone_loses (ha : 7 ≤ w.attempts) : exec (.ledgerWriteDone n false) s =
    .next (reportSrc (ledHitLost (setCounter (writeCounted s) n
      { cells := (counter s n).cells.set w.cell { cellAt (counter s n) w.cell with eccOk := false }, lost := true
        writing := [] })) 0x1C2) := by
  have ha : w.attempts + 1 ≥ 8 := by omega
  change execLedgerWriteDone n false s = _
  simp only [execLedgerWriteDone, hw, if_pos ha, hset]
  rfl

theorem ledgerWriteDone_raises (hlost : (counter s n).lost = false) (hcell : w.cell < (counter s n).cells.length)
    (hle : ctrValue s n ≤ w.value) :
    ∃ t, exec (.ledgerWriteDone n true) s = .next t ∧ ctrValue t n = w.value ∧ t.ledger.writeTot = s.ledger.writeTot + 1 := by
  refine ⟨_, ledgerWriteDone_written hw hset, ?_⟩
  obtain ⟨e, he⟩ := noteLowFree_ledger s (setCounter (writeCounted s) n (cellWritten n (counter s n) w))
  have hctr : counter (noteLowFree s (setCounter (writeCounted s) n (cellWritten n (counter s n) w))) n =
      cellWritten n (counter s n) w := by
    rw [counter, he]
    exact counter_setCounter_self ..
  exact ⟨by rw [ctrValue, hctr]; exact ctrContent_value_of_set rfl hlost hcell hlost hle, by rw [he]; rfl⟩

end

/-! ## Refresh (R225) -/

theorem ledgerRefresh_stops (h : s.cel.stage ≠ 0 ∨ s.cel.mainPower = false) : exec .ledgerRefresh s = .next s := if_pos h

theorem ledgerRefresh_runs (hstage : s.cel.stage = 0) (hpower : s.cel.mainPower = true) :
    ∃ t, exec .ledgerRefresh s = .next t ∧
      (∀ k x, Tab.get? s.ledger.counters k = some x → x.lost = true → Tab.get? t.ledger.counters k = some x) ∧
      ∀ k x, Tab.get? s.ledger.counters k = some x → x.lost = false → ∃ y, Tab.get? t.ledger.counters k = some y ∧
        y.cells = x.cells ∧ y.writing.length = x.writing.length + 1 ∧ ∀ w ∈ y.writing, w ∈ x.writing ∨
          (w.value = (ctrContent k x).value ∧ w.state = (ctrContent k x).state ∧ w.cell = targetCell k x) := by
  refine ⟨_, if_neg (by simp [hstage, hpower]), fun k x hk hlost => ?_, fun k x hk hlost => ?_⟩
  · rw [Tab.get?_mapVals, hk, Option.map_some, if_pos hlost]
  · rw [Tab.get?_mapVals, hk, Option.map_some, if_neg (by simp [hlost])]
    refine ⟨_, rfl, rfl, List.length_append, fun w hw => ?_⟩
    rcases List.mem_append.mp hw with hw | hw
    · exact .inl hw
    · cases List.mem_singleton.mp hw
      exact .inr ⟨rfl, rfl, rfl⟩

/-! ## Trees (R207) -/

/-- The key once one more quantum of a level's next tree is done: the tree is built, or its build goes on. -/
def quantumDone (k : StfKey) (d : StfSet) (l q : Nat) : StfKey :=
  if treeQuanta d (d.levels.getD l (0, 0)) ≤ q + 1 then
    { k with built := Tab.set k.built l (Tab.getD k.cur l 0 + 1), building := Tab.erase k.building l }
  else { k with building := Tab.set k.building l (q + 1) }

theorem treeBuildQuantum_builds {d : StfSet} {l q : Nat} (hd : stfSetOf (s.slot n) = some d)
    (hq : Tab.get? (stfKey s n).building l = some q) (hstage : s.cel.stage = 0) : exec (.treeBuildQuantum n l) s =
      .next (chargeFloor (setStfKey s n (quantumDone (stfKey s n) d l q)) (s.slot n).owner 30000000) := by
  change execTreeBuildQuantum n l s = _
  simp only [execTreeBuildQuantum, hd, hq, hstage]
  rfl

theorem treeBuildQuantum_idle {l : Nat} (h : s.cel.stage ≠ 0 ∨ Tab.get? (stfKey s n).building l = none) :
    exec (.treeBuildQuantum n l) s = .next s := by
  change execTreeBuildQuantum n l s = _
  unfold execTreeBuildQuantum
  dsimp only
  split
  · next d q _ hq => exact if_pos (h.resolve_right (by simp [hq]))
  · rfl

theorem treeCacheRestored_unknown (h : Tab.has s.ledger.keys n = false) : exec (.treeCacheRestored n) s = .next s :=
  if_pos (by simp [h])

theorem treeCacheRestored_fits (h : Tab.has s.ledger.keys n = true) :
    let t := setStfKey s n { stfKey s n with cached := true, usedAt := s.now }
    (t.ledger.keys.filter fun p => p.2.cached).length ≤ 32 → exec (.treeCacheRestored n) s = .next t := by
  intro t hfit
  have hroom : (t.ledger.keys.filter fun p => p.2.cached).length ≤ (if t.qdr.paired then 32 else 64) := by split <;> omega
  exact (if_neg (by simp [h])).trans (if_pos hroom)

end

end Sys2Proof.Machine
end

section
/-!
SUPPORT. Weeding and the records due (R333, R334, R546): what a pass keeps, and what joins the journal's queue.
-/

namespace Sys2Proof.Machine

variable {s : State} {n : Nat}

/-! ## Weeding passes (R333) -/

theorem catEvent_only (old s : State) : OnlyMailboxes s (catEvent old s) := by
  unfold catEvent
  split
  · exact .refl s
  · exact queueEvent_only ..

@[simp] theorem catEvent_cat (old s : State) : (catEvent old s).cat = s.cat := by rw [catEvent_only old s]

@[simp] theorem ledgerRelease_cat (s : State) (c : Nat) : (ledgerRelease s c).cat = s.cat := by
  unfold ledgerRelease ledgerWrite
  dsimp only
  split
  · split <;> rfl
  · rfl

theorem emptySlot_weedPassTot (s : State) (n : Nat) : (emptySlot s n).cat.weedPassTot = s.cat.weedPassTot := by
  unfold emptySlot
  extract_lets old _ x s1 s2 _ s3
  have h2 : s2.cat.weedPassTot = s.cat.weedPassTot := by
    simp only [s2]
    split
    · simp only [catHitGenRetired, catEvent_cat]; rfl
    · rfl
  have h3 : s3.cat = s2.cat := by
    simp only [s3]
    split
    · exact ledgerRelease_cat ..
    · rfl
  exact (congrArg Catalogue.weedPassTot h3).trans h2

theorem weedOne_weedPassTot (s : State) (n : Nat) : (weedOne s n).cat.weedPassTot = s.cat.weedPassTot := by
  unfold weedOne
  dsimp only
  split
  · rfl
  · split
    · split <;> rfl
    · simp only [weedSlot, catHitWeedFound, catEvent_cat, emptySlot_weedPassTot]

theorem weedingPass_stops (h : s.cel.stage ≠ 0) : exec .weedingPass s = .next s := if_pos h

theorem weedingPass_counts (h : s.cel.stage = 0) : ∃ t, exec .weedingPass s = .next t ∧
    t.cat.weedPassTot = s.cat.weedPassTot + 1 ∧
    (orphans s = [] → t.cat.slots = s.cat.slots ∧ t.cat.weedZeroTot = s.cat.weedZeroTot) := by
  refine ⟨_, if_neg (by simp [h]), ?_, fun hno => ?_⟩
  · exact congrArg (· + 1) (foldl_keeps (fun s => s.cat.weedPassTot) weedOne_weedPassTot (orphans s) s)
  · rw [hno]
    exact ⟨rfl, rfl⟩

/-! ## Records due (R333, R334, R546) -/

theorem archiveRecordDue_none (ht : n ∉ s.cat.tombstones) (hp : Tab.get? s.cat.archivePending n = none) :
    exec (.archiveRecordDue n) s = .next s := by
  change execArchiveRecordDue n s = _
  simp [execArchiveRecordDue, ht, hp]

theorem archiveRecordDue_tombstone (ht : n ∈ s.cat.tombstones) : exec (.archiveRecordDue n) s =
    .next (queueRecord { s with cat := { s.cat with tombstones := s.cat.tombstones.filter (· != n) } }
      (.tombstone n (s.slot n).ownGen)) :=
  if_pos (List.contains_iff_mem.mpr ht)

theorem archiveRecordDue_queues {due : Nat} (ht : n ∉ s.cat.tombstones) (hp : Tab.get? s.cat.archivePending n = some due)
    (hvalid : (s.slot n).valid = true) (hpers : (s.slot n).persistent = true) : exec (.archiveRecordDue n) s =
    .next { s with
      cat := { s.cat with archivePending := Tab.erase s.cat.archivePending n }
      folio := { s.folio with
        queue := s.folio.queue ++
          [{ seq := s.folio.nextSeq, kind := .slot n (archiveSlot (s.slot n)), due := due, devSec := s.sec }]
        nextSeq := s.folio.nextSeq + 1 } } := by
  change execArchiveRecordDue n s = _
  simp [execArchiveRecordDue, ht, hp, hvalid, hpers, State.sec]

end Sys2Proof.Machine
end

section
/-!
SUPPORT. QDR (R518, R522, R525, R528, R529): channels, re-encryptions and the recovery of slots.
-/

namespace Sys2Proof.Machine

variable {s : State} {n : Nat}

/-! ## Channels (R518, R529) -/

theorem qdrRetrack_counts (ht : s.qdr.trained = true) (hs : s.cel.stage < 4) :
    exec .qdrRetrack s = .next { s with qdr := { s.qdr with retracks := s.qdr.retracks + 1 } } :=
  next_congr (if_pos (by simp [ht, hs]))

theorem qdrRetrack_stops (h : s.qdr.trained = false ∨ 4 ≤ s.cel.stage) : exec .qdrRetrack s = .next s :=
  next_congr (if_neg (by rcases h with h | h <;> simp [h]))

theorem qdrChannelLost_ignored (h : 8 ≤ n ∨ s.qdr.trained = false ∨ s.qdr.chOk.getLsbD n = false) :
    exec (.qdrChannelLost n) s = .next s := if_pos h

/-- Losing a channel in service is reported; it then counts as lost, unless the report has reset the chip. -/
theorem qdrChannelLost_eq (hn : n < 8) (ht : s.qdr.trained = true) (hok : s.qdr.chOk.getLsbD n = true) :
    exec (.qdrChannelLost n) s =
    let t := reportSrc { s with qdr := { s.qdr with chLost := s.qdr.chLost.hit } } 0x184 0xFF (BitVec.ofNat 32 n)
    .next (if resets s 0x184 then t else loseChannel t n) :=
  if_neg (by simp only [ht, hok, Bool.true_eq_false, or_false]; omega)

/-! ## Re-encryption (R522, R525) -/

theorem groupReencryptionDone_ignored (h : s.qdr.guardKeys = false ∨ (if s.qdr.paired then 64512 else 129024) ≤ n) :
    exec (.groupReencryptionDone n) s = .next s := if_pos h

theorem Tab.get?_filter_none {α : Type} (t : Tab α) {p : Nat × α → Bool} {k : Nat} (h : ∀ v, p (k, v) = false) :
    Tab.get? (t.filter p) k = none :=
  Tab.get?_of_notMem_keys (by simp [Tab.keys, h])

theorem groupReencryptionDone_raises (hk : s.qdr.guardKeys = true) (hn : n < (if s.qdr.paired then 64512 else 129024)) :
    ∃ t, exec (.groupReencryptionDone n) s = .next t ∧ Tab.getD t.qdr.majors n 0 = Tab.getD s.qdr.majors n 0 + 1 ∧
      (∀ k, k / 64 = n → Tab.getD t.qdr.minors k 0 = 0) ∧ (∀ k, k ≠ n → Tab.getD t.qdr.majors k 0 = Tab.getD s.qdr.majors k 0) ∧
      n ∈ t.qdr.writtenGroups ∧ t.qdr.reencTot = s.qdr.reencTot + 1 ∧ t.cat = s.cat ∧ t.hop = s.hop := by
  refine ⟨_, if_neg (by simp only [hk, Bool.true_eq_false, false_or]; omega), Tab.getD_set_self .., fun k hk => ?_,
    fun k hk => Tab.getD_set_of_ne _ _ _ hk, ?_, rfl, rfl, rfl⟩
  · rw [Tab.getD, Tab.get?_filter_none _ (by simp [hk])]
    rfl
  · dsimp only
    split
    · next h => exact List.contains_iff_mem.mp h
    · simp

/-! ## Slot recovery (R528) -/

theorem slotRecoveryRequest_sends (hm : s.mirror.state = .paired) (hv : (s.slot n).valid = true)
    (hmir : (s.slot n).mirrored = true) (hr : n ∉ s.qdr.recovering) :
    exec (.slotRecoveryRequest n) s = .next (s.send (.slotSend (peerSlot n (s.slot n)))) :=
  next_congr (if_pos (by simp [hm, hv, hmir, hr]))

theorem slotRecoveryRequest_ignored
    (h : s.mirror.state ≠ .paired ∨ (s.slot n).valid = false ∨ (s.slot n).mirrored = false ∨ n ∈ s.qdr.recovering) :
    exec (.slotRecoveryRequest n) s = .next s :=
  next_congr (if_neg (by rcases h with h | h | h | h <;> simp [h]))

theorem slotRecoveryDone_idle (x : RecoverySource) (hr : n ∉ s.qdr.recovering) :
    exec (.slotRecoveryDone n x) s = .next s := if_pos (by simp [hr])

theorem slotRecoveryDone_eq (x : RecoverySource) (hr : n ∈ s.qdr.recovering) : exec (.slotRecoveryDone n x) s =
    match x with
    | .peer => .next (if (s.slot n).mirrored && s.mirror.state == .paired then recovered s n else s)
    | .archive => .next (if (s.slot n).persistent then recovered s n else s)
    | .none header => .next (if header then retireSlot s n else giveUpSlot s n) :=
  (if_neg (by simp [hr])).trans (by cases x <;> rfl)

theorem retireSlot_retires (s : State) (n : Nat) : ((retireSlot s n).slot n).retired = true ∧
    ((retireSlot s n).slot n).valid = false ∧ ((retireSlot s n).slot n).ownGen = (s.slot n).ownGen ∧
    n ∉ (retireSlot s n).qdr.recovering := by
  have hslot : (retireSlot s n).slot n = { ownGen := (s.slot n).ownGen, owner := (s.slot n).owner, retired := true } := by
    rw [State.slot, retireSlot, catHitGenRetired, catEvent_cat]
    exact State.setSlot_slot_self ..
  have hqdr : (retireSlot s n).qdr.recovering = s.qdr.recovering.filter (· != n) := by
    rw [retireSlot, catHitGenRetired, catEvent_only]
    rfl
  rw [hslot, hqdr]
  exact ⟨rfl, rfl, rfl, by simp⟩

end Sys2Proof.Machine

open Sys2Proof Sys2Proof.Machine

/-- Settles O53: a written cell is the greatest valid one of its counter, a refresh and a pass go entry by entry, and a
lost channel counts unless its report resets the chip. -/
theorem ledgerWeedingAndQdrTakeEffect : Obligations.LedgerWeedingAndQdrTakeEffect := by
  intro s n
  refine ⟨ledgerWriteDone_idle, fun w hw hset => ⟨ledgerWriteDone_written hw hset, ledgerWriteDone_retries hw,
      ledgerWriteDone_loses hw hset⟩, fun w hw hset => ledgerWriteDone_raises hw hset, ?_, ?_, ?_, ledgerRefresh_stops,
    ledgerRefresh_runs, rfl, fun d l q => treeBuildQuantum_builds, fun l => treeBuildQuantum_idle, treeCacheRestored_unknown,
    treeCacheRestored_fits, weedingPass_stops, weedingPass_counts, archiveRecordDue_none, archiveRecordDue_tombstone,
    fun due => archiveRecordDue_queues, qdrRetrack_counts, qdrRetrack_stops, qdrChannelLost_ignored, fun hn ht hok => ?_,
    groupReencryptionDone_raises, groupReencryptionDone_ignored, slotRecoveryRequest_sends, slotRecoveryRequest_ignored,
    slotRecoveryDone_idle, fun hr => ?_⟩
  · rw [counter_setCounter_self]
  · rw [ctrValue, counter_setCounter_self, ctrContent_of_lost rfl]
  · rw [ctrSt, counter_setCounter_self, ctrContent_of_lost rfl]
  · have hexec := qdrChannelLost_eq hn ht hok
    refine ⟨fun hres => ?_, fun hres hgone => ?_, fun hres hgone => ?_⟩
    · exact hexec.trans (next_congr (if_pos hres))
    · exact hexec.trans (next_congr ((if_neg (ne_true_of_eq_false hres)).trans (if_pos hgone)))
    · exact hexec.trans (next_congr ((if_neg (ne_true_of_eq_false hres)).trans (if_neg (ne_true_of_eq_false hgone))))
  · have hexec := fun x => slotRecoveryDone_eq x hr
    exact ⟨fun hm hp => (hexec _).trans (next_congr (if_pos (by simp [hm, hp]))),
      fun h => (hexec _).trans (next_congr (if_neg (by rcases h with h | h <;> simp [h]))),
      fun h => (hexec _).trans (next_congr (if_pos h)), fun h => (hexec _).trans (next_congr (if_neg (by simp [h]))),
      ⟨_, hexec _, retireSlot_retires s n⟩, hexec _⟩
end

section
/-!
SUPPORT. The mirror link, at the device whose change is mirrored: what a synchronous command sends, what its acknowledgement
commits, and the batches (R322, R363, R423, R424, R430).
-/

namespace Sys2Proof.Machine

variable {s : State} {fn n : Nat} {p : Bytes}

/-! ## Synchronous changes (R363, R423, R430) -/

section
variable {c : SyncCmd}

/-- A paired device refuses no change for want of a standby. -/
theorem syncBlocked_of_mirrors {k : Nat} (h : mirrors s k = true) : syncBlocked s k = false := by
  have hp : s.mirror.state = .paired := by
    simp only [mirrors, Bool.and_eq_true, beq_iff_eq] at h
    exact h.1.1
  simp [syncBlocked, hp]

theorem syncBody_blocked (hc : c.check s fn p = none) (hr : c.recs s fn p ≠ []) (hb : syncBlocked s (c.carrel s fn p) = true) :
    syncBody c s fn p = .done (syncRefused s) syncRejected := by
  simp [syncBody, hc, hr, hb]

theorem syncBody_sends (hc : c.check s fn p = none) (hr : c.recs s fn p ≠ []) (hm : mirrors s (c.carrel s fn p) = true) :
    syncBody c s fn p = .wait (sendSync s (c.recs s fn p) (.mailbox fn)) (.mirror s.mirror.nextSync) := by
  simp [syncBody, hc, hr, hm, syncBlocked_of_mirrors hm]

theorem serveSync_busy (hb : syncBusy s = true) (fn : Nat) (c : SyncCmd) : serveSync s fn c = s := if_pos hb

section
variable (h : Passes s fn c.spec p) (hb : syncBusy s = false) (hc : c.check (accept s fn) fn p = none)
  (hr : c.recs (accept s fn) fn p ≠ [])
include h hb hc hr

/-- What the standby cannot hear of is refused. -/
theorem serveSync_blocked (hk : syncBlocked s (c.carrel (accept s fn) fn p) = true) :
    serveSync s fn c = respond (syncRefused (accept s fn)) fn syncRejected :=
  (if_neg (Bool.eq_false_iff.mp hb)).trans (serve_done _ h.issued h.len h.rsv h.owns (syncBody_blocked hc hr hk))

/-- What the standby must hear of waits for it. -/
theorem serveSync_sends (hk : mirrors s (c.carrel (accept s fn) fn p) = true) :
    let t := sendSync (accept s fn) (c.recs (accept s fn) fn p) (.mailbox fn)
    serveSync s fn c = t.setMbx fn { t.mbx fn with wait := .mirror s.mirror.nextSync } :=
  (if_neg (Bool.eq_false_iff.mp hb)).trans (serve_wait _ h.issued h.len h.rsv h.owns (syncBody_sends hc hr hk))

end

end

/-! ## Acknowledgements (R322, R423) -/

theorem mirrorSyncAck_unknown (h : Tab.get? s.mirror.waits n = none) (b : Bool) : exec (.mirrorSyncAck n b) s = .next s := by
  change execMirrorSyncAck n b s = _
  simp only [execMirrorSyncAck, h]

theorem mirrorSyncAck_awaited {w : SyncWait} (h : Tab.get? s.mirror.waits n = some w) (b : Bool) :
    exec (.mirrorSyncAck n b) s =
      let t := noteAck s n
      .next (if b then endWait t n w (refusedAns t w) else acked t n w) := by
  change execMirrorSyncAck n b s = _
  simp only [execMirrorSyncAck, h]

/-- A mirrored command other than an import is checked again and committed. -/
theorem commitMirrored_eq {c : SyncCmd} (hc : syncCmdOf (field (s.mbx fn).cmdWin 0 2) = some c) :
    commitMirrored s fn = commitSync s fn c := by
  have hcode : field (s.mbx fn).cmdWin 0 2 ≠ 0x0401 := fun h => by rw [h] at hc; exact absurd hc nofun
  simp only [commitMirrored, hcode, hc, if_false]

/-- A refused command that has claimed no slot is only answered. -/
theorem endWait_mailbox {a : Ans} (hm : (s.mbx fn).wait = .mirror n) (hclaim : (s.mbx fn).claim = none) :
    endWait s n (.mailbox fn) a = respond s fn a := by
  have hdrop : dropClaim s fn = s := by simp only [dropClaim, hclaim]
  simp only [endWait, answerWait, hm, hdrop, if_true]

section
variable (hw : Tab.get? s.mirror.waits n = some (.mailbox fn)) (hm : (s.mbx fn).wait = .mirror n)
include hw hm

theorem mirrorSyncAck_commits {c : SyncCmd} (hc : syncCmdOf (field (s.mbx fn).cmdWin 0 2) = some c) :
    exec (.mirrorSyncAck n false) s = .next (commitSync (noteAck s n) fn c) := by
  have hcom : commitMirrored (noteAck s n) fn = commitSync (noteAck s n) fn c := commitMirrored_eq hc
  exact (mirrorSyncAck_awaited hw false).trans (next_congr ((if_pos hm).trans hcom))

/-- The standby refuses a command other than a carrel's creation for want of a free counter (R235). -/
theorem mirrorSyncAck_refused (hcode : field (s.mbx fn).cmdWin 0 2 ≠ 0x0201) (hclaim : (s.mbx fn).claim = none) :
    exec (.mirrorSyncAck n true) s = .next (respond (noteAck s n) fn (fail St.ledgerExhausted)) := by
  have hans : refusedAns (noteAck s n) (.mailbox fn) = fail St.ledgerExhausted := if_neg hcode
  have hend : endWait (noteAck s n) n (.mailbox fn) (fail St.ledgerExhausted) =
      respond (noteAck s n) fn (fail St.ledgerExhausted) := endWait_mailbox hm hclaim
  exact (mirrorSyncAck_awaited hw true).trans (next_congr ((if_pos rfl).trans (by rw [hans, hend])))

end

/-! ## Batches (R423, R424) -/

theorem mirrorBatch_sends (hp : s.mirror.state = .paired) (hl : s.mirror.linkUp = true) :
    exec .mirrorBatch s = .next (sendBatch s false (changedHops s) []) := if_pos ⟨hp, hl⟩

theorem mirrorBatch_stops (h : s.mirror.state ≠ .paired ∨ s.mirror.linkUp = false) : exec .mirrorBatch s = .next s :=
  if_neg (by rcases h with h | h <;> simp [h])

theorem batchAck_unknown {b : BatchAck} (h : Tab.get? s.mirror.batches b.seq = none) : exec (.batchAck b) s = .next s := by
  change execBatchAck b s = _
  simp only [execBatchAck, h]

/-- The ceilings proposed in an acknowledged batch are raised, and its hoppers go on. -/
theorem batchAck_raises {b : BatchAck} {hs : List BatchHop} (h : Tab.get? s.mirror.batches b.seq = some hs) :
    let ours := hs.foldl (fun t x => Tab.mod t x.hopper fun k => { k with fc := later k.fc x.fc, cc := later k.cc x.cc })
      s.mirror.ours
    let t := { s with mirror := { s.mirror with
      batches := Tab.erase s.mirror.batches b.seq, batchTot := s.mirror.batchTot + 1, ours := ours } }
    exec (.batchAck b) s = .next (hs.foldl (fun s x => flushHopper s x.hopper) t) := by
  change execBatchAck b s = _
  simp only [execBatchAck, h]

theorem later_of_before {a b : W32} (h : before a b = true) : later a b = b := if_pos h

theorem later_of_not_before {a b : W32} (h : before a b = false) : later a b = a := if_neg (Bool.eq_false_iff.mp h)

end Sys2Proof.Machine
end

section
/-!
SUPPORT. The mirror link, at the standby: the batches and records it stores and answers, and what it does when the link or the
heartbeat is lost or its peer resigns (R235, R416 to R418, R423 to R427, R430, R434).
-/

namespace Sys2Proof.Machine

variable {s : State}

/-! ## Batches received (R423, R425, R427) -/

theorem batchReceived_unpaired (h : pairLive s = false) (b : Batch) : exec (.batchReceived b) s = .next s :=
  if_pos (by simp [h])

/-- A keep-alive only tells the peer's image. -/
theorem batchReceived_keepAlive (h : pairLive s = true) {b : Batch} (hh : b.hops = []) (hheld : b.held = [])
    (he : b.exact = false) :
    exec (.batchReceived b) s =
      .next ({ s with mirror := { s.mirror with peerImage := b.image, exact := s.mirror.exact } }.send (.batchAck b.seq)) := by
  change execBatchReceived b s = _
  simp [execBatchReceived, batchCarrels, h, hh, hheld, he]

/-- A batch of one hopper of the peer's stores its entry. -/
theorem batchReceived_stores (hp : pairLive s = true) {b : Batch} {x : BatchHop} {h : Hopper} (hh : b.hops = [x])
    (hheld : b.held = []) (hx : s.hopper? x.hopper = some h) (hhome : homeOf s h.carrel = .peer) :
    ∃ exact, exec (.batchReceived b) s =
      .next ({ storeHop s x with mirror := { (storeHop s x).mirror with peerImage := b.image, exact := exact } }.send
        (.batchAck b.seq)) := by
  refine ⟨(s.mirror.exact.filter fun c => !(batchCarrels s b).contains c) ++ if b.exact then batchCarrels s b else [], ?_⟩
  change execBatchReceived b s = _
  simp [execBatchReceived, storeHop, hp, hh, hheld, hx, hhome]

/-- A memo stays until the oldest uncompleted entry of its hopper has passed it (R425). -/
theorem storeHop_memos {x : BatchHop} {y : Memo} (h : y ∈ (storeHop s x).mirror.memos) :
    y ∈ s.mirror.memos ∧ ¬ (y.hopper = x.hopper ∧ before y.entry x.oc = true) := by
  simpa [storeHop, ← imp_iff_not_or] using h

theorem storeHop_theirs (s : State) (x : BatchHop) : Tab.get? (storeHop s x).mirror.theirs x.hopper =
    some { oc := x.oc, ci := x.ci, p := x.p, lastSlipSeq := x.lastSlipSeq, lastDbSeq := x.lastDbSeq, nextCseq := x.nextCseq
           fcProposed := x.fc, ccProposed := x.cc, fc := x.fc, cc := x.cc } :=
  Tab.get?_set_self ..

/-! ## Records received (R235, R423, R425) -/

theorem syncRecord_unpaired (h : pairLive s = false) (x : SyncRec) : exec (.syncRecord x) s = .next s := if_pos (by simp [h])

/-- A record that is answered leaves what its application makes of the state, and the answer. -/
theorem syncRecord_answers (hp : pairLive s = true) {x : SyncRec} {t : State} {b : Bool} (h : applySync s x = (t, some b)) :
    exec (.syncRecord x) s = .next (t.send (.mirrorAck b)) := by
  change execSyncRecord x s = _
  simp [execSyncRecord, hp, h]

theorem applySync_slotGone_invalid {k : Nat} {g : W32} (h : (s.slot k).valid = false) :
    applySync s (.slotGone k g none) = (s.setSlot k { s.slot k with ownGen := g }, some false) := by
  simp [applySync, addMemo, goneSlot, h]

theorem applySync_slotSet_refused {x : PeerSlot} (h : putSlot s x = none) (memo : Option (Nat × W32)) :
    applySync s (.slotSet x memo) = (s, some true) := by
  simp only [applySync, h]

theorem applySync_slotSet_put {x : PeerSlot} {t : State} (h : putSlot s x = some t) :
    applySync s (.slotSet x none) = (t, some false) := by
  simp only [applySync, h, addMemo]

theorem applySync_carrelSet_refused {x : PeerCarrel} (hst : (s.carrel x.carrel).st ≠ .absent)
    (hh : homeOf s x.carrel ≠ .peer) : applySync s (.carrelSet x) = (s, some true) := if_neg (not_or.mpr ⟨hst, hh⟩)

theorem applySync_carrelSet_put {x : PeerCarrel} (h : (s.carrel x.carrel).st = .absent ∨ homeOf s x.carrel = .peer) :
    applySync s (.carrelSet x) = (putCarrelHead s x, some false) := if_pos h

theorem applySync_lease_refused {k : Nat} (h : (s.slot k).ledger = none) (ceil : Nat) :
    applySync s (.lease k ceil) = (s, some true) := by
  simp only [applySync, h]

/-! ## The link (R416, R418, R430) -/

theorem linkLost_down (h : s.mirror.linkUp = false) : exec .linkLost s = .next s := next_congr (if_neg (by simp [h]))

/-- With no change under way, a pair that loses its link only becomes DEGRADED. -/
theorem linkLost_degrades (hl : s.mirror.linkUp = true) (hw : s.mirror.waits = []) (hp : s.mirror.state = .paired) :
    exec .linkLost s = .next (setPair { s with mirror := { s.mirror with
      linkUp := false, linkLost := s.mirror.linkLost.hit, waits := [], sentAt := [], batches := [] } } .degraded) := by
  refine next_congr ((if_pos hl).trans ?_)
  simp only [linkDown, hw, hp, true_or, if_true, List.foldl_nil]

theorem mirrorLinkUp_restored (h : s.mirror.state ≠ .degraded) :
    exec .mirrorLinkUp s = .next { s with mirror := { s.mirror with linkUp := true } } := next_congr (if_neg h)

theorem mirrorLinkUp_rejoins (h : s.mirror.state = .degraded) :
    exec .mirrorLinkUp s = .next (setPair { s with mirror := { s.mirror with linkUp := true } } .rejoining) :=
  next_congr (if_pos h)

theorem linkKeyRenewal_renews (h : s.mirror.linkKeys = true) :
    exec .linkKeyRenewal s = .next { s with mirror := { s.mirror with keyedAt := s.now } } := if_pos h

theorem linkKeyRenewal_none (h : s.mirror.linkKeys = false) : exec .linkKeyRenewal s = .next s := if_neg (by simp [h])

/-! ## The heartbeat and RESIGN (R417, R418, R426, R427, R434) -/

theorem heartbeatLost_absent (h : s.mirror.hbPresent = false) : exec .heartbeatLost s = .next s := if_pos h

/-- The state once the loss of the heartbeat is counted and reported. -/
def heartbeatGone (s : State) : State :=
  reportSrc { s with mirror := { s.mirror with hbPresent := false, hbLost := s.mirror.hbLost.hit } } 0x1E2

/-- A device takes over where the link was lost before and it may. -/
theorem heartbeatLost_present (h : s.mirror.hbPresent = true) :
    exec .heartbeatLost s = .next (if (heartbeatGone s).mirror.state = .degraded ∧ (heartbeatGone s).mirror.linkUp = false ∧
      canTakeover (heartbeatGone s) = true then takeAll (heartbeatGone s) else heartbeatGone s) :=
  if_neg (by simp [h])

theorem heartbeatLost_takesOver (h : s.mirror.hbPresent = true) (hst : (heartbeatGone s).mirror.state = .degraded)
    (hl : (heartbeatGone s).mirror.linkUp = false) (hc : canTakeover (heartbeatGone s) = true) :
    exec .heartbeatLost s = .next (takeAll (heartbeatGone s)) :=
  (heartbeatLost_present h).trans (next_congr (if_pos ⟨hst, hl, hc⟩))

theorem heartbeatLost_onlyReported (h : s.mirror.hbPresent = true) (hn : (heartbeatGone s).mirror.state ≠ .degraded ∨
    (heartbeatGone s).mirror.linkUp = true ∨ canTakeover (heartbeatGone s) = false) :
    exec .heartbeatLost s = .next (heartbeatGone s) :=
  (heartbeatLost_present h).trans (next_congr (if_neg (by rcases hn with hn | hn | hn <;> simp [hn])))

theorem setPair_state (s : State) (st : PairState) : (setPair s st).mirror.state = st := by
  unfold setPair
  split
  · assumption
  · rw [queueEvent_only]

theorem mirResign_takesOver (hp : pairLive s = true) (hc : canTakeover s = true) : exec .mirResign s = .next (takeAll s) :=
  next_congr (if_pos (by simp [hp, hc]))

theorem mirResign_unpaired (h : pairLive s = false) : exec .mirResign s = .next s := next_congr (if_neg (by simp [h]))

end Sys2Proof.Machine

open Sys2Proof Sys2Proof.Machine

/-- Settles O52: a command waits for its acknowledgement, the standby answers each record by what it makes of it, and the loss of
link and heartbeat, in that order, or `RESIGN` makes it take over. -/
theorem theMirrorLinkKeepsTheCopy : Obligations.TheMirrorLinkKeepsTheCopy := by
  intro s fn n p m r
  refine ⟨fun c hb => serveSync_busy hb fn c, ?syncCommand, mirrorSyncAck_unknown, ?mailboxAck,
    fun slot ceil hw => mirrorSyncAck_awaited hw false, ?sendsBatch, mirrorBatch_stops, fun b => batchAck_unknown,
    fun b hs => batchAck_raises, fun a b => later_of_before, fun a b => later_of_not_before,
    fun hp b => batchReceived_keepAlive hp, ?storesBatch, fun hp => ⟨batchReceived_unpaired hp, syncRecord_unpaired hp⟩,
    fun hp => ?records, linkLost_down, linkLost_degrades, mirrorLinkUp_restored, mirrorLinkUp_rejoins, heartbeatLost_absent,
    fun hb => ⟨heartbeatLost_takesOver hb, heartbeatLost_onlyReported hb⟩, rfl,
    fun hp hc => ⟨mirResign_takesOver hp hc, setPair_state ..⟩, mirResign_unpaired, rfl, linkKeyRenewal_renews,
    linkKeyRenewal_none⟩
  case syncCommand =>
    intro c hb hi hl hrsv ho hc hr
    have hpass : Passes s fn c.spec p := ⟨hi, hl, hrsv, ho⟩
    exact ⟨serveSync_blocked hpass hb hc hr, serveSync_sends hpass hb hc hr⟩
  case mailboxAck =>
    intro c hw hm hc hcode
    exact ⟨mirrorSyncAck_commits hw hm hc, mirrorSyncAck_refused hw hm hcode⟩
  case sendsBatch => exact fun hp hl => ⟨_, mirrorBatch_sends hp hl, rfl, rfl, rfl, rfl⟩
  case storesBatch =>
    intro hp b x h hh hheld hx hhome
    obtain ⟨_, hexec⟩ := batchReceived_stores hp hh hheld hx hhome
    exact ⟨_, hexec, rfl, fun y => storeHop_memos, storeHop_theirs s x⟩
  case records =>
    have hans := fun {x t b} => syncRecord_answers hp (x := x) (t := t) (b := b)
    exact ⟨fun h => hans rfl, fun c t => hans rfl, fun k g hv => hans (applySync_slotGone_invalid hv),
      fun x memo h => hans (applySync_slotSet_refused h memo), fun x t h => hans (applySync_slotSet_put h),
      fun x hst hh => hans (applySync_carrelSet_refused hst hh), fun x h => hans (applySync_carrelSet_put h),
      fun k ceil h => hans (applySync_lease_refused h ceil)⟩
end

section
/-!
SUPPORT. Digests, key derivations and composed MACs (R246 to R254, R258 to R261): what each operation leaves in its slip.
-/

namespace Sys2Proof.Machine

variable {s t : State} {sid op : Nat} {sl : Slip} {r : Res}

/-! ## Results that depend on the carries, and failures with an inline result -/

theorem Leaves.congr {o o' : State → OpOut} (h : Leaves s sid sl o r) (ho : ∀ u, Started s u sid sl → o u = o' u) :
    Leaves s sid sl o' r := by
  obtain ⟨u, hstart, rfl⟩ := h
  exact ⟨u, hstart, by rw [ho u hstart]⟩

/-- To count the slip's uses leaves its key and the chain's carries (R248). -/
theorem Started.keyCarry_eq (h : Started s t sid sl) : keyCarry t sl = keyCarry s sl := by rw [h.frame.1]; rfl

theorem Started.lcs_eq (h : Started s t sid sl) : t.tmp.lcs = s.tmp.lcs := by rw [h.frame.1]

theorem Leaves.completes_failed {o : OpOut} (h : Leaves s sid sl (fun _ => o) r) (hbad : o.status ≠ St.ok) :
    Completes s sid o.status [] 0 o.inline NoKey r := by
  obtain ⟨t, hstart, rfl⟩ := h
  exact ⟨_, _, rfl, hstart.onlySlip_finishOp _, finishOp_fails hstart.slip hbad, rfl, rfl, rfl, rfl, rfl, rfl, rfl⟩

/-! ## Destinations (R250) -/

/-- A delivered value is the result at the one destination that the slip names. -/
theorem Leaves.delivers {d : Bytes} {a : Bool} (h : Leaves s sid sl (fun u => deliver u sl d a) r) : Delivers s sid sl d r := by
  unfold Delivers
  split
  next hhold =>
    have hd : ∀ u, Succeeds (deliver u sl d a) [] 0 (fun y => y.secret = some d ∧ y.slotOps = []) := fun u => by
      rw [deliver, if_pos hhold]; exact ⟨rfl, rfl, rfl, rfl, fun _ hsec hops => ⟨hsec, hops⟩⟩
    exact (h.produces hd).1 (Nat.zero_le _)
  next hhold =>
    split
    next hdest =>
      have hd : ∀ u, Succeeds (deliver u sl d a) [] 0
          (fun y => y.secret = none ∧ CreatesKey sl (slipAttr sl.cs sl.exts).cls d y) := fun u => by
        rw [deliver, if_neg hhold, if_pos hdest]
        exact ⟨rfl, rfl, rfl, rfl, fun _ hsec hops => ⟨hsec, createsKey_of_newKeyOp hops⟩⟩
      exact (h.produces hd).1 (Nat.zero_le _)
    next hdest =>
      split
      next hdres =>
        have hd : ∀ u, Succeeds (deliver u sl d a) [] 0 (fun y => y.secret = none ∧ y.slotOps = [.dres (csSet sl.cs) d]) :=
          fun u => by
            rw [deliver, if_neg hhold, if_neg hdest, if_pos (by simpa [toDres] using hdres)]
            exact ⟨rfl, rfl, rfl, rfl, fun _ hsec hops => ⟨hsec, hops⟩⟩
        exact (h.produces hd).1 (Nat.zero_le _)
      next hdres =>
        refine h.produces fun u => ?_
        rw [deliver, if_neg hhold, if_neg hdest, if_neg (by simpa [toDres] using hdres)]
        exact succeeds_output ..

/-! ## Digest state records (R253, R254) -/

theorem fit_length (n : Nat) (b : Bytes) : (fit n b).length = n := by simp [fit, zeros]; omega

theorem fit_of_length {n : Nat} {b : Bytes} (h : b.length = n) : fit n b = b := by subst h; simp [fit, zeros]

theorem fit_fit (n : Nat) (b : Bytes) : fit n (fit n b) = fit n b := fit_of_length (fit_length n b)

theorem fit_dsrInit (f : Nat) : fit (digStateLen f) (dsrInit f) = dsrInit f := fit_fit ..

theorem fit_dsrState (f : Nat) (r : Bytes) : fit (digStateLen f) (dsrState f r) = dsrState f r := fit_fit ..

theorem digBlock_pos {f : Nat} (hf : f ≤ 10) : 0 < digBlock f := by interval_cases f <;> decide

/-- A record whose chaining state has its length holds the state after the whole blocks, and the rest of the data. -/
theorem dsrAbsorb_eq {f total : Nat} {st data : Bytes} (hf : f ≤ 10) (hst : fit (digStateLen f) st = st) :
    dsrAbsorb f total st data =
      let n := data.length / digBlock f * digBlock f
      le 4 0x44475354 ++ [BitVec.ofNat 8 f, 1] ++ le 2 (data.drop n).length ++ le 8 total ++
        fit 200 (if data.length < digBlock f then st
          else fit (digStateLen f) (Config.compute (.digestState f) [st, data.take n])) ++ fit 168 (data.drop n) := by
  have hpos := digBlock_pos hf
  have hzero : data.length / digBlock f * digBlock f = 0 ↔ data.length < digBlock f := by
    rw [Nat.mul_eq_zero, or_iff_left hpos.ne', Nat.div_eq_zero_iff_lt hpos]
  simp only [dsrAbsorb, dsr, hzero]
  congr 3
  split
  · exact hst
  · exact fit_fit ..

theorem isDig_of_slipRuns (hf : csSet sl.cs ≤ 10) (h : SlipRuns s sid sl 5 op) : isDig op sl = true := by
  obtain ⟨-, -, -, -, -, -, hop⟩ := h
  simp [isDig, hop, hf]

/-! ## Digests -/

section
variable (hf : csSet sl.cs ≤ 10) (hp : PolicyAdmits s sl)
include hf hp

theorem dig_leaves (h : SlipRuns s sid sl 5 0x01) : Leaves s sid sl
    (fun u => if toDres (csParam sl.cs) && s.tmp.lcs != .factory then
        { status := St.stateRejected, inline := stateInline 4 (lcsCode s.tmp.lcs), approved := false }
      else deliver u sl (fit (digLen (csSet sl.cs) (csParam sl.cs)) (Config.compute (digPrim (csSet sl.cs))
        [keyCarry s sl ++ sl.inData])) (!(csKeyUsed sl.cs || csCarry sl.cs != 0)))
    (exec (.dig sid) s) := by
  have hdig : ∀ u, dig sl u = (u, (dig sl u).2) := fun u => by unfold dig; dsimp only; split <;> rfl
  refine (leaves_of_pure h (isDig_of_slipRuns hf h) hdig (.inl hp)).congr fun u hu => ?_
  unfold dig
  rw [hu.lcs_eq, hu.keyCarry_eq]
  dsimp only
  split <;> rfl

theorem dig_delivers (h : SlipRuns s sid sl 5 0x01) (hdres : toDres (csParam sl.cs) = true → s.tmp.lcs = .factory) :
    Delivers s sid sl (fit (digLen (csSet sl.cs) (csParam sl.cs)) (Config.compute (digPrim (csSet sl.cs))
      [keyCarry s sl ++ sl.inData])) (exec (.dig sid) s) :=
  ((dig_leaves hf hp h).congr fun _ _ => if_neg (by simpa using hdres)).delivers

theorem dig_stateRejected (h : SlipRuns s sid sl 5 0x01) (hdres : toDres (csParam sl.cs) = true)
    (hlcs : s.tmp.lcs ≠ .factory) :
    Completes s sid St.stateRejected [] 0 (stateInline 4 (lcsCode s.tmp.lcs)) NoKey (exec (.dig sid) s) :=
  ((dig_leaves hf hp h).congr fun _ _ => if_pos (by simp [hdres, hlcs])).completes_failed (by simp [St.stateRejected, St.ok])

end

/-! ## Digests in parts -/

section
variable (hp : PolicyAdmits s sl)
include hp

theorem digStart_produces (hf : csSet sl.cs ≤ 10) (h : SlipRuns s sid sl 5 0x02) :
    Produces s sid sl (dsrAbsorb (csSet sl.cs) sl.inData.length (dsrInit (csSet sl.cs)) sl.inData) 0 NoKey
      (exec (.digStart sid) s) :=
  (leaves_of_pure h (isDig_of_slipRuns hf h) (fun _ => rfl) (.inl hp)).produces fun _ => succeeds_output ..

section
variable {ok : Slip → Bool} {k : Slip → Nat → Bytes → Bytes → OpOut} (h : SlipRuns s sid sl 5 op) (hok : ok sl = true)
include h hok

/-- An operation that goes on from a record gives what it makes of the record's total, state and data, where the record is well
formed and the total below the limit (R254). -/
theorem digCont_produces {out : Bytes} (hrec : dsrOk (csSet sl.cs) sl.auxData = true)
    (hlim : field sl.auxData 8 8 + sl.inData.length < 2 ^ 61)
    (hk : k sl (field sl.auxData 8 8 + sl.inData.length) (dsrState (csSet sl.cs) sl.auxData)
      (dsrPart sl.auxData ++ sl.inData) = { out := out }) :
    Produces s sid sl out 0 NoKey (.next (runOp s sid 5 ok fun sl s => digCont sl s (k sl))) := by
  refine (leaves_of_pure (o := fun _ => { out := out }) h hok (fun u => ?_) (.inl hp)).produces fun _ => succeeds_output ..
  rw [← hk]
  exact (if_neg (by simp [hrec])).trans (if_neg (by omega))

theorem digCont_malformed (hrec : ¬ dsrOk (csSet sl.cs) sl.auxData = true) :
    FailsWith s sid St.inputMalformed (.next (runOp s sid 5 ok fun sl s => digCont sl s (k sl))) :=
  (leaves_of_pure h hok (fun _ => if_pos (by simp [hrec])) (.inl hp)).fails (by decide)

theorem digCont_tooLong (hrec : dsrOk (csSet sl.cs) sl.auxData = true)
    (hlim : 2 ^ 61 ≤ field sl.auxData 8 8 + sl.inData.length) :
    FailsWith s sid St.lengthLimit (.next (runOp s sid 5 ok fun sl s => digCont sl s (k sl))) :=
  (leaves_of_pure h hok (fun _ => (if_neg (by simp [hrec])).trans (if_pos (by omega))) (.inl hp)).fails (by decide)

end

end

/-- The conditions of R254. -/
theorem dsrOk_iff (f : Nat) (r : Bytes) : dsrOk f r = true ↔
    field r 0 4 = 0x44475354 ∧ field r 4 1 = f ∧ field r 5 1 = 1 ∧ field r 6 2 = field r 8 8 % digBlock f ∧
      allZero (slice r (16 + digStateLen f) (200 - digStateLen f)) = true ∧ allZero (r.drop (216 + field r 6 2)) = true := by
  simp [dsrOk, and_assoc]

end Sys2Proof.Machine

open Sys2Proof Sys2Proof.Machine

/-- Settles O23: a digest is of what the slip and the carries hold; an operation on a record is decided by the record's form and its
total. -/
theorem digestOperationsProduceTheirResults : Obligations.DigestOperationsProduceTheirResults := by
  rintro s sid sl _ rfl hf hp
  refine ⟨dig_delivers hf hp, dig_stateRejected hf hp, fun h => ?start, fun h hrec hlim => ?update, fun h hrec hlim => ?finish,
    fun h hrec => ?_, fun h hrec => ?_, fun h hrec => ?_, fun h hrec => ?_⟩
  case start =>
    have hout := digStart_produces hp hf h
    rwa [dsrAbsorb_eq hf (fit_dsrInit _)] at hout
  case update =>
    have hout := digCont_produces hp h (isDig_of_slipRuns hf h) (k := fun sl total st data =>
      { out := dsrAbsorb (csSet sl.cs) total st data }) ((dsrOk_iff ..).mpr hrec) hlim rfl
    rwa [dsrAbsorb_eq hf (fit_dsrState ..)] at hout
  case finish => exact digCont_produces hp h (isDig_of_slipRuns hf h) ((dsrOk_iff ..).mpr hrec) hlim rfl
  · exact digCont_malformed hp h (isDig_of_slipRuns hf h) (mt (dsrOk_iff ..).mp hrec)
  · exact digCont_malformed hp h (isDig_of_slipRuns hf h) (mt (dsrOk_iff ..).mp hrec)
  · exact digCont_tooLong hp h (isDig_of_slipRuns hf h) ((dsrOk_iff ..).mpr hrec)
  · exact digCont_tooLong hp h (isDig_of_slipRuns hf h) ((dsrOk_iff ..).mpr hrec)
end

section
/-!
SUPPORT. Key derivations and composed MACs (R258 to R261): what each operation leaves in its slip.
-/

namespace Sys2Proof.Machine

variable {s : State} {sid op top : Nat} {sl : Slip} (hf : csSet sl.cs ≤ top)
include hf

theorem isKdf_of_slipRuns (h : SlipRuns s sid sl 9 op) : isKdf op top sl = true := by
  obtain ⟨-, -, -, -, -, -, hop⟩ := h
  simp [isKdf, hop, hf]

variable (hp : PolicyAdmits s sl)
include hp

/-- A derivation delivers its value, which depends on the state only by the key and the carries. -/
theorem delivers_of_kdfDeliver {okm : Bytes → Bytes} {f : Slip → State → State × OpOut} (h : SlipRuns s sid sl 9 op)
    (hk : ∀ u, f sl u = kdfDeliver u sl (okm (keyCarry u sl))) :
    Delivers s sid sl (fit (outBytes (csParam sl.cs)) (okm (keyCarry s sl))) (.next (runOp s sid 9 (isKdf op top) f)) := by
  have hleaves := leaves_of_pure h (isKdf_of_slipRuns hf h) hk (.inl hp)
  refine (hleaves.congr fun u hu => ?_).delivers (a := kdfOk s sl)
  simp only [kdfOk, hu.keyCarry_eq]

theorem macGen_produces (h : SlipRuns s sid sl 9 0x20) :
    Produces s sid sl (macTag (csSet sl.cs) (outBytes (csParam sl.cs)) (keyMat sl) (ownAux sl) sl.inData) 0 NoKey
      (.next (runOp s sid 9 (isKdf 0x20 top) macGen)) :=
  (leaves_of_pure h (isKdf_of_slipRuns hf h) (fun _ => rfl) (.inl hp)).produces fun _ => succeeds_output ..

theorem macVerify_verdict (h : SlipRuns s sid sl 9 0x21) :
    let n := outBytes (csParam sl.cs)
    Verdict s sid (macTag (csSet sl.cs) n (keyMat sl) ((ownAux sl).drop n) sl.inData == (ownAux sl).take n)
      (.next (runOp s sid 9 (isKdf 0x21 top) macVerify)) :=
  (leaves_of_pure h (isKdf_of_slipRuns hf h) (fun _ => rfl) (.inl hp)).verdict

end Sys2Proof.Machine

open Sys2Proof Sys2Proof.Machine

/-- Settles O24: a derivation reads the key, the carries and its slip; a MAC is that of the set's function. -/
theorem kdfAndMacOperationsProduceTheirResults : Obligations.KdfAndMacOperationsProduceTheirResults := by
  rintro s sid sl _ rfl hf hp
  exact ⟨fun hf h => delivers_of_kdfDeliver hf hp h (okm := fun kc => Config.compute (.hkdf (csSet sl.cs))
      [(ownAux sl).take (splitLen (csParam sl.cs)), kc ++ sl.inData, (ownAux sl).drop (splitLen (csParam sl.cs)),
        be 4 (outBytes (csParam sl.cs))]) fun _ => rfl,
    fun hf h => delivers_of_kdfDeliver hf hp h (okm := fun _ => Config.compute (.hkdfExpand (csSet sl.cs))
      [keyMat sl, ownAux sl, be 4 (outBytes (csParam sl.cs))]) fun _ => rfl,
    fun h => delivers_of_kdfDeliver hf hp h (okm := fun kc => Config.compute (.kdf108 (csSet sl.cs))
      [kc, (ownAux sl).take (splitLen (csParam sl.cs)), (ownAux sl).drop (splitLen (csParam sl.cs)),
        be 4 (8 * outBytes (csParam sl.cs))]) fun _ => rfl,
    macGen_produces hf hp, macVerify_verdict hf hp⟩
end

section
open Sys2Proof Sys2Proof.Machine

/-- Settles O60: the areas are empty, and no digest has been taken. -/
theorem resetHasTheDigestRegistersFormed : Obligations.ResetHasTheDigestRegistersFormed := by
  unfold Obligations.ResetHasTheDigestRegistersFormed DresFormed
  decide
end

section
/-!
SUPPORT. The digest result registers (R256) keep their form. A chip reset clears them, a committed digest and the measurements of
images at boot and at staging fill them; every other operation leaves them as they are. `f_dres` says that `f` leaves them,
`f_formed` that it keeps their form. A frame that holds by unfolding is proved `by rfl`, so that `simp` rewrites with it also
inside the hypothesis of `foldl_dres`.
-/

namespace Sys2Proof.Machine

variable {s : State}

/-! ## Branches and folds -/

theorem formed_of_eq {d e : Dres} (he : e = d) (h : DresFormed d) : DresFormed e := he ▸ h

@[simp] theorem dres_ite (c : Prop) [Decidable c] (a b : State) :
    (if c then a else b).dres = if c then a.dres else b.dres := apply_ite State.dres c a b

@[simp] theorem fst_ite {α : Type} (c : Prop) [Decidable c] (a b : State × α) :
    (if c then a else b).1 = if c then a.1 else b.1 := apply_ite Prod.fst c a b

theorem formed_ite {c : Prop} [Decidable c] {a b : State} (ha : DresFormed a.dres) (hb : DresFormed b.dres) :
    DresFormed (if c then a else b).dres := by split <;> assumption

theorem formed_ite_step {c : Prop} [Decidable c] {a b : State} (ha : DresFormed b.dres → DresFormed a.dres)
    (h : DresFormed b.dres) : DresFormed (if c then a else b).dres := formed_ite (ha h) h

@[simp] theorem foldl_dres {α : Type} {f : State → α → State} (hf : ∀ s a, (f s a).dres = s.dres) (l : List α) (s : State) :
    (l.foldl f s).dres = s.dres := foldl_keeps State.dres hf l s

theorem foldl_frame {α : Type} {f : State → α → State} (hf : ∀ s a, (f s a).dres = s.dres) {l : List α} {s : State}
    (h : DresFormed s.dres) : DresFormed (l.foldl f s).dres := formed_of_eq (foldl_keeps State.dres hf l s) h

theorem foldl_formed {α : Type} {f : State → α → State} (hf : ∀ s a, DresFormed s.dres → DresFormed (f s a).dres)
    {l : List α} {s : State} (h : DresFormed s.dres) : DresFormed (l.foldl f s).dres := by
  induction l generalizing s with
  | nil => exact h
  | cons a l ih => exact ih (hf s a h)

/-! ## Answers -/

/-- What a command of the mailbox leaves, and what it does after its response, has the registers formed. -/
def CmdFormed : CmdRes → Prop
  | .done s _ | .wait s _ => DresFormed s.dres
  | .doneThen s _ after => DresFormed s.dres ∧ ∀ t, DresFormed t.dres → DresFormed (after t).dres

@[simp] theorem cmdFormed_done {s : State} {a} : CmdFormed (.done s a) ↔ DresFormed s.dres := Iff.rfl

@[simp] theorem cmdFormed_wait {s : State} {w} : CmdFormed (.wait s w) ↔ DresFormed s.dres := Iff.rfl

theorem cmdFormed_doneThen {s : State} {a after} :
    CmdFormed (.doneThen s a after) ↔ DresFormed s.dres ∧ ∀ t, DresFormed t.dres → DresFormed (after t).dres := Iff.rfl

@[simp] theorem cmdFormed_ite {c : Prop} [Decidable c] {a b : CmdRes} :
    CmdFormed (if c then a else b) ↔ if c then CmdFormed a else CmdFormed b := by split <;> rfl

theorem CmdFormed.ite {c : Prop} [Decidable c] {a b : CmdRes} (ha : CmdFormed a) (hb : CmdFormed b) :
    CmdFormed (if c then a else b) := by split <;> assumption

/-- The commit of a synchronous command keeps the form. -/
def CommitsFormed (c : SyncCmd) : Prop := ∀ s fn p, DresFormed s.dres → DresFormed (c.commit s fn p).1.dres

/-- The step goes on, to a state with the registers formed. -/
def AnswersFormed (r : Res) : Prop := ∃ t, r = .next t ∧ DresFormed t.dres

@[simp] theorem answersFormed_next {t : State} : AnswersFormed (.next t) ↔ DresFormed t.dres :=
  ⟨fun ⟨_, ht, h⟩ => Host.Outcome.next.inj ht ▸ h, fun h => ⟨t, rfl, h⟩⟩

@[simp] theorem answersFormed_ite {c : Prop} [Decidable c] {a b : Res} :
    AnswersFormed (if c then a else b) ↔ if c then AnswersFormed a else AnswersFormed b := by split <;> rfl

theorem AnswersFormed.ite {c : Prop} [Decidable c] {a b : Res} (ha : AnswersFormed a) (hb : AnswersFormed b) :
    AnswersFormed (if c then a else b) := by split <;> assumption

/-! ## Events, tables and chip reset -/

@[simp] theorem eventTo_dres (fn code data) : (eventTo s fn code data).dres = s.dres := by simp [eventTo]

@[simp] theorem queueEvent_dres (code data vf) : (queueEvent s code data vf).dres = s.dres := by
  unfold queueEvent
  split <;> simp

@[simp] theorem noteDev_dres (old) : (noteDev old s).dres = s.dres := by simp [noteDev]
@[simp] theorem clearPageKeys_dres (fn) : (clearPageKeys s fn).dres = s.dres := by rfl
@[simp] theorem setCarrelState_dres (c st) : (setCarrelState s c st).dres = s.dres := by simp [setCarrelState]

@[simp] theorem hopperEvent_dres (n) : (hopperEvent s n).dres = s.dres := by
  unfold hopperEvent
  split <;> simp

@[simp] theorem setHopState_dres (n st) : (setHopState s n st).dres = s.dres := by
  unfold setHopState
  split <;> simp

@[simp] theorem catEvent_dres (old) : (catEvent old s).dres = s.dres := by simp [catEvent]
@[simp] theorem ledEvent_dres (old) : (ledEvent old s).dres = s.dres := by simp [ledEvent]
@[simp] theorem catHitGenRetired_dres : (catHitGenRetired s).dres = s.dres := by simp [catHitGenRetired]
@[simp] theorem catHitWeedFound_dres : (catHitWeedFound s).dres = s.dres := by simp [catHitWeedFound]
@[simp] theorem catHitExtentLow_dres : (catHitExtentLow s).dres = s.dres := by simp [catHitExtentLow]
@[simp] theorem catHitArchiveLag_dres : (catHitArchiveLag s).dres = s.dres := by simp [catHitArchiveLag]
@[simp] theorem ledHitInvalid_dres : (ledHitInvalid s).dres = s.dres := by simp [ledHitInvalid]
@[simp] theorem ledHitRetry_dres : (ledHitRetry s).dres = s.dres := by simp [ledHitRetry]
@[simp] theorem ledHitLost_dres : (ledHitLost s).dres = s.dres := by simp [ledHitLost]
@[simp] theorem ledHitRetired_dres : (ledHitRetired s).dres = s.dres := by simp [ledHitRetired]
@[simp] theorem ledHitLowFree_dres : (ledHitLowFree s).dres = s.dres := by simp [ledHitLowFree]
@[simp] theorem auditAppend_dres (e) : (auditAppend s e).dres = s.dres := by simp [auditAppend]
@[simp] theorem addLog_dres (e) : (addLog s e).dres = s.dres := by simp [addLog]
@[simp] theorem countFault_dres (r) : (countFault s r).dres = s.dres := by simp [countFault]

@[simp] theorem collect_dres (r applied coincident fenced subst) :
    (collect s r applied coincident fenced subst).dres = s.dres := by
  simp [collect]

@[simp] theorem assertErrN_dres : (assertErrN s).dres = s.dres := by simp [assertErrN]
@[simp] theorem errPin_dres : (errPin s).dres = s.dres := by simp [errPin]
@[simp] theorem chipReset_formed (s : State) : DresFormed (chipReset s).dres := resetHasTheDigestRegistersFormed

theorem faultEvent_formed {r} (h : DresFormed s.dres) : DresFormed (faultEvent s r).dres :=
  formed_ite (chipReset_formed _) (formed_of_eq (by simp) h)

/-! ## The ledger and the catalogue -/

@[simp] theorem setCounter_dres (n c) : (setCounter s n c).dres = s.dres := by rfl

@[simp] theorem ledgerWrite_dres (n value st gen why) : (ledgerWrite s n value st gen why).dres = s.dres := by
  simp [ledgerWrite]

@[simp] theorem ledgerRaise_dres (n v) : (ledgerRaise s n v).dres = s.dres := by simp [ledgerRaise]
@[simp] theorem ledgerRelease_dres (n) : (ledgerRelease s n).dres = s.dres := by simp [ledgerRelease]
@[simp] theorem bumpEpoch_dres (c) : (bumpEpoch s c).dres = s.dres := by simp [bumpEpoch]
@[simp] theorem releaseUse_dres (n) : (releaseUse s n).dres = s.dres := by rfl
@[simp] theorem countUse_dres (n) : (countUse s n).dres = s.dres := by rfl
@[simp] theorem claimSlot_dres (c n line keyLen) : (claimSlot s c n line keyLen).dres = s.dres := by simp [claimSlot]
@[simp] theorem releaseClaim_dres (n) : (releaseClaim s n).dres = s.dres := by simp [releaseClaim]
@[simp] theorem createSlot_dres (n sl) : (createSlot s n sl).dres = s.dres := by simp [createSlot]
@[simp] theorem closeSession_dres (fn) : (closeSession s fn).dres = s.dres := by rfl
@[simp] theorem sessionEvent_dres (fn cause) : (sessionEvent s fn cause).dres = s.dres := by simp [sessionEvent]

@[simp] theorem endSession_dres (fn cause) : (endSession s fn cause).dres = s.dres := by
  unfold endSession
  split <;> simp

@[simp] theorem clearOpenStore_dres : (clearOpenStore s).dres = s.dres := by rfl
@[simp] theorem unmarkImage_dres : (unmarkImage s).dres = s.dres := by rfl

@[simp] theorem retireImage_dres : (retireImage s).dres = s.dres := by
  unfold retireImage
  split <;> simp

@[simp] theorem emptySlot_dres (n) : (emptySlot s n).dres = s.dres := by
  unfold emptySlot
  dsimp only
  split <;> simp

@[simp] theorem deaccessionCommit_dres (n) : (deaccessionCommit s n).dres = s.dres := by
  unfold deaccessionCommit
  dsimp only
  rw [dres_ite, retireImage_dres, ite_self, foldl_keeps State.dres fun s k => by split <;> simp]
  simp

/-! ## Slips, chains and commits -/

@[simp] theorem useHop_dres (c port ip) : (useHop s c port ip).dres = s.dres := by simp [useHop]

@[simp] theorem pumpQp_dres (q) : (pumpQp s q).dres = s.dres := by
  simp only [pumpQp]
  repeat' split
  all_goals simp

@[simp] theorem addReq_dres (q r) : (addReq s q r).dres = s.dres := by
  unfold addReq
  split <;> simp

@[simp] theorem postWrite_dres (h kind addr data imm) : (postWrite s h kind addr data imm).dres = s.dres := by
  simp only [postWrite]
  repeat' split
  all_goals simp

@[simp] theorem postRead_dres (h kind addr len) : (postRead s h kind addr len).dres = s.dres := by
  simp only [postRead]
  repeat' split
  all_goals simp

@[simp] theorem postHeld_dres (hn e) : (postHeld s hn e).dres = s.dres := by
  simp only [postHeld]
  repeat' split
  all_goals simp

@[simp] theorem flushHeld_dres (n hn) : (flushHeld n s hn).dres = s.dres := by
  induction n generalizing s with
  | zero => rfl
  | succ n ih =>
    unfold flushHeld
    split
    · rfl
    · split <;> simp [ih]

@[simp] theorem flushStatus_dres (n hn) : (flushStatus n s hn).dres = s.dres := by
  induction n generalizing s with
  | zero => rfl
  | succ n ih =>
    unfold flushStatus
    split <;> simp [ih]

@[simp] theorem flushHopper_dres (hn) : (flushHopper s hn).dres = s.dres := by
  unfold flushHopper
  split <;> simp

@[simp] theorem notePeak_dres (e) : (notePeak s e).dres = s.dres := by simp [notePeak]
@[simp] theorem idleClusters_dres (e cs) : (idleClusters s e cs).dres = s.dres := by simp [idleClusters]
@[simp] theorem wipeTun_dres (t) : (wipeTun s t).dres = s.dres := by rfl

@[simp] theorem freeUnit_dres (sid) : (freeUnit s sid).dres = s.dres := by
  unfold freeUnit
  split <;> simp

@[simp] theorem releaseAll_dres (sl) : (releaseAll s sl).dres = s.dres := by
  simp only [releaseAll]
  repeat' split
  all_goals simp

theorem deadlineFault_formed {sl shed} (h : DresFormed s.dres) : DresFormed (deadlineFault s sl shed).dres :=
  faultEvent_formed h

@[simp] theorem countRs_dres (sl status) : (countRs s sl status).dres = s.dres := by simp [countRs]

theorem completeSlip_formed {sid status outLen outs late} (h : DresFormed s.dres) :
    DresFormed (completeSlip s sid status outLen outs late).dres := by
  grind [completeSlip, freeUnit_dres, State.delSlip_dres, State.setHopper_dres, countRs_dres, deadlineFault_formed,
    flushHopper_dres]

@[simp] theorem dropSlip_dres (sid) : (dropSlip s sid).dres = s.dres := by
  unfold dropSlip
  split <;> simp

@[simp] theorem dropCarries_dres (head) : (dropCarries s head).dres = s.dres := by rfl

theorem even_add_two {v : W32} (h : v.toNat % 2 = 0) : (v + 2).toNat % 2 = 0 := by bv_omega

theorem dresFactory_formed {func d} (h : DresFormed s.dres) : DresFormed (dresFactory s func d).dres := by
  obtain ⟨-, hb, -, hlen, hseq⟩ := h
  exact ⟨(fit_length ..).le, hb, (by decide : (2#8).toNat ≤ 3), hlen, even_add_two hseq⟩

theorem applySlotOps_formed {sid sl} (h : DresFormed s.dres) : DresFormed (applySlotOps s sid sl).dres := by
  refine foldl_formed (fun s op h => ?_) h
  cases op with
  | create n x => exact formed_of_eq (by simp) h
  | deaccession n => exact formed_of_eq (by simp) h
  | dres f d => exact dresFactory_formed h

theorem completeAll_formed {outs l} (h : DresFormed s.dres) : DresFormed (completeAll s outs l).dres := by
  induction l generalizing s outs with
  | nil => exact h
  | cons p l ih => exact ih (completeSlip_formed (formed_of_eq (releaseAll_dres ..) h))

theorem commitNow_formed {head} (h : DresFormed s.dres) : DresFormed (commitNow s head).dres := by
  have hops : DresFormed ((chainOf s head).foldl (fun s p => applySlotOps s p.1 p.2) s).dres :=
    foldl_formed (fun _ _ h => applySlotOps_formed h) h
  unfold commitNow
  dsimp only
  split
  · exact foldl_frame (fun _ _ => dropSlip_dres _) hops
  · exact completeAll_formed hops

@[simp] theorem sendSync_dres (recs w) : (sendSync s recs w).dres = s.dres := by rfl
@[simp] theorem queueRecord_dres (k) : (queueRecord s k).dres = s.dres := by rfl

theorem commitChain_formed {head} (h : DresFormed s.dres) : DresFormed (commitChain s head).dres := by
  refine formed_ite (commitNow_formed h) (formed_of_eq ?_ h)
  rw [dres_ite, sendSync_dres, ite_self, foldl_keeps State.dres fun _ _ => by rfl, foldl_keeps State.dres fun _ _ => by rfl]

theorem breakOne_formed {sid late} (h : DresFormed s.dres) : DresFormed (breakOne s sid late).dres := by
  unfold breakOne
  split
  · exact h
  · exact completeSlip_formed (formed_of_eq (by simp) h)

theorem breakChain_formed {head} (h : DresFormed s.dres) : DresFormed (breakChain s head).dres :=
  foldl_formed (fun _ _ h => breakOne_formed h) h

theorem settleChain_formed {head} (h : DresFormed s.dres) : DresFormed (settleChain s head).dres :=
  formed_ite h (formed_ite (breakChain_formed h) (formed_ite (commitChain_formed h) h))

theorem failSlip_formed {sid status outLen inline} (h : DresFormed s.dres) :
    DresFormed (failSlip s sid status outLen inline).dres := by
  unfold failSlip
  split
  · exact h
  · exact formed_ite (formed_of_eq (by simp) h) (settleChain_formed (formed_of_eq (by simp) h))

theorem passSlip_formed {sid} (h : DresFormed s.dres) : DresFormed (passSlip s sid).dres := by
  unfold passSlip
  split
  · exact h
  · split <;> exact settleChain_formed (formed_of_eq (by simp) h)

theorem breakOpenChain_formed {hn} (h : DresFormed s.dres) : DresFormed (breakOpenChain s hn).dres := by
  unfold breakOpenChain
  split
  · exact h
  · split
    · exact h
    · exact breakChain_formed (formed_of_eq (by simp) h)

@[simp] theorem haltSlip_dres (status inline sid) : (haltSlip s status inline sid).dres = s.dres := by
  unfold haltSlip
  split <;> simp

theorem abortSlips_formed {which status inline} (h : DresFormed s.dres) :
    DresFormed (abortSlips s which status inline).dres :=
  foldl_formed (fun _ _ h => settleChain_formed h) (foldl_frame (fun _ _ => haltSlip_dres ..) h)

/-! ## The mailbox -/

@[simp] theorem respond_dres (fn c keep) : (respond s fn c keep).dres = s.dres := by simp [respond]
@[simp] theorem replayRsp_dres (fn) : (replayRsp s fn).dres = s.dres := by rfl
@[simp] theorem accept_dres (fn) : (accept s fn).dres = s.dres := by rfl

theorem serve_formed {fn c body} (hb : ∀ s p, DresFormed s.dres → CmdFormed (body s p)) (h : DresFormed s.dres) :
    DresFormed (serve s fn c body).dres := by
  unfold serve
  refine formed_ite h (formed_ite (formed_of_eq (replayRsp_dres _) h) (formed_ite (formed_of_eq (respond_dres ..) h) ?_))
  extract_lets +lift t p
  have hbody := hb t p h
  split
  · exact formed_of_eq (respond_dres ..) h
  · cases hr : body t p <;> rw [hr] at hbody
    case done => exact formed_of_eq (respond_dres ..) hbody
    case doneThen => exact hbody.2 _ (formed_of_eq (respond_dres ..) hbody.1)
    case wait => exact hbody

@[simp] theorem answerWait_dres (fn w d) : (answerWait s fn w d).dres = s.dres := by simp [answerWait]
@[simp] theorem answerAll_dres (w c) : (answerAll s w c).dres = s.dres := by simp [answerAll]

/-! ## Synchronous changes and the mirror link -/

@[simp] theorem setPair_dres (st) : (setPair s st).dres = s.dres := by simp [setPair]
@[simp] theorem syncRefused_dres : (syncRefused s).dres = s.dres := by rfl

@[simp] theorem cancelDeac_dres (n) : (cancelDeac s n).dres = s.dres := by
  unfold cancelDeac
  dsimp only
  split <;> simp

theorem refuseChain_formed {head a} (h : DresFormed s.dres) : DresFormed (refuseChain s head a).dres := by
  refine settleChain_formed (foldl_formed (fun s p h => formed_of_eq ?_ h) h)
  simp only [dres_ite, State.modSlip_dres, haltSlip_dres, ite_self]
  exact foldl_keeps State.dres (fun s op => by split <;> simp) _ _

theorem refuseBlock_formed {n} (h : DresFormed s.dres) : DresFormed (refuseBlock s n).dres :=
  foldl_formed (fun _ _ h => settleChain_formed (formed_of_eq (haltSlip_dres ..) h)) h

@[simp] theorem requestBlock_dres (n) : (requestBlock s n).dres = s.dres := by simp [requestBlock]

@[simp] theorem dropClaim_dres (fn) : (dropClaim s fn).dres = s.dres := by
  unfold dropClaim
  split <;> simp

@[simp] theorem dropCut_dres (w) : (dropCut s w).dres = s.dres := by
  unfold dropCut
  exact foldl_keeps State.dres (fun s p => by split <;> simp) _ _

theorem endWait_formed {n w a} (h : DresFormed s.dres) : DresFormed (endWait s n w a).dres := by
  cases w with
  | chain head => exact refuseChain_formed h
  | deaccession slot =>
    unfold endWait
    dsimp only
    split <;> exact formed_of_eq (by simp) h
  | useBlock slot ceiling => exact refuseBlock_formed h
  | _ => exact formed_of_eq (by simp [endWait]) h

theorem refuseWait_formed {n w} (h : DresFormed s.dres) : DresFormed (refuseWait s n w).dres := endWait_formed h

theorem linkDown_formed (h : DresFormed s.dres) : DresFormed (linkDown s).dres :=
  foldl_formed (fun _ _ h => refuseWait_formed h) (formed_ite (formed_of_eq (setPair_dres ..) h) h)

theorem syncBody_formed {c fn p} (hc : CommitsFormed c) (h : DresFormed s.dres) : CmdFormed (syncBody c s fn p) := by
  unfold syncBody
  split
  · exact h
  · exact .ite (hc _ _ _ h) (.ite h (.ite (formed_of_eq (sendSync_dres ..) h) (hc _ _ _ h)))

theorem serveSync_formed {fn c} (hc : CommitsFormed c) (h : DresFormed s.dres) : DresFormed (serveSync s fn c).dres :=
  formed_ite h (serve_formed (fun _ _ h => syncBody_formed hc h) h)

/-! ## Work that stops and runs again -/

@[simp] theorem charge_dres (sl k) : (charge s sl k).dres = s.dres := by simp [charge]

@[simp] theorem scrubUnit_dres (e phys) : (scrubUnit s e phys).dres = s.dres := by
  unfold scrubUnit
  split <;> rfl

@[simp] theorem stopUnits_dres (sid sl) : (stopUnits s sid sl).dres = s.dres := by simp [stopUnits]

theorem rerun_formed {sid} (h : DresFormed s.dres) : DresFormed (rerun s sid).dres := by
  unfold rerun
  split
  · exact h
  · split
    · exact settleChain_formed (formed_of_eq (by simp) h)
    · exact formed_ite (settleChain_formed (formed_of_eq (by simp) h)) (formed_of_eq (by simp) h)

@[simp] theorem setCluster_dres (e c st) : (setCluster s e c st).dres = s.dres := by simp [setCluster]
@[simp] theorem wipeCluster_dres (c) : (wipeCluster s c).dres = s.dres := by rfl

@[simp] theorem wake_dres (e c) : (wake s e c).dres = s.dres := by
  unfold wake
  dsimp only
  split <;> simp

@[simp] theorem endPage_dres (fn p status) : (endPage s fn p status).dres = s.dres := by
  unfold endPage
  dsimp only
  split <;> simp

@[simp] theorem startPage_dres (l) : (startPage s l).dres = s.dres := by
  unfold startPage
  split <;> simp

@[simp] theorem servePages_dres : (servePages s).dres = s.dres := by simp [servePages]
@[simp] theorem rerunPage_dres (k) : (rerunPage s k).dres = s.dres := by simp [rerunPage]
@[simp] theorem abortPage_dres (fn p) : (abortPage s fn p).dres = s.dres := by simp [abortPage]

/-! ## The fault collector -/

@[simp] theorem octetReset_dres (n) : (octetReset s n).dres = s.dres := by simp [octetReset]

theorem hopperEngineReset_formed (h : DresFormed s.dres) : DresFormed (hopperEngineReset s).dres :=
  formed_ite h (abortSlips_formed (foldl_frame (fun _ _ => stopUnits_dres ..) h))

@[simp] theorem folioReset_dres (n) : (folioReset s n).dres = s.dres := by simp [folioReset]

theorem blockReset_formed {r} (h : DresFormed s.dres) : DresFormed (blockReset s r).dres :=
  formed_ite (formed_of_eq (by simp) h) (formed_ite (hopperEngineReset_formed h)
    (formed_ite (linkDown_formed h) (formed_of_eq (by simp) h)))

theorem report_formed {r} (h : DresFormed s.dres) : DresFormed (report s r).dres :=
  formed_ite (chipReset_formed _) (formed_ite (blockReset_formed (formed_of_eq (by simp) h)) (formed_of_eq (by simp) h))

theorem reportSrc_formed {src carrel detail} (h : DresFormed s.dres) : DresFormed (reportSrc s src carrel detail).dres :=
  report_formed h

theorem reportHop_formed {src carrel hopper octet} (h : DresFormed s.dres) :
    DresFormed (reportHop s src carrel hopper octet).dres :=
  report_formed h

@[simp] theorem fenceUnit_dres (e phys st) : (fenceUnit s e phys st).dres = s.dres := by simp [fenceUnit]

theorem substitute_formed {e phys l} (h : DresFormed s.dres) : DresFormed (substitute s e phys l).dres := by
  unfold substitute
  dsimp only
  split <;> exact report_formed (formed_of_eq (by simp) h)

theorem unitFault_formed {e phys src detail coincident cap} (h : DresFormed s.dres) :
    DresFormed (unitFault s e phys src detail coincident cap).dres := by
  refine formed_ite (chipReset_formed _) (formed_ite (report_formed (formed_of_eq (by simp) h))
    (formed_of_eq (noteDev_dres ..)
    (formed_ite_step (formed_of_eq (servePages_dres ..)) (foldl_frame (fun _ _ => rerunPage_dres _) ?_))))
  split
  · exact substitute_formed (foldl_formed (fun _ _ h => rerun_formed h) (formed_of_eq (by simp) h))
  · exact foldl_formed (fun _ _ h => rerun_formed h) (formed_of_eq (by simp) h)

theorem reportOne_formed {r} (h : DresFormed s.dres) : DresFormed (reportOne s r).dres :=
  formed_ite (unitFault_formed h) (report_formed h)

theorem reportAll_formed {rs} (h : DresFormed s.dres) : DresFormed (reportAll s rs).dres := by
  unfold reportAll
  split
  · exact h
  · exact reportOne_formed h
  · dsimp only
    refine formed_ite (chipReset_formed _) (foldl_formed (fun _ _ h => by split <;> [exact blockReset_formed h; exact h]) ?_)
    rw [dres_ite, errPin_dres, ite_self]
    exact foldl_formed (fun _ _ h => formed_ite (unitFault_formed h) (formed_of_eq (collect_dres ..) h)) h

/-! ## Operations of call slips -/

@[simp] theorem startUses_dres (sid) : (startUses s sid).dres = s.dres := by
  unfold startUses
  split <;> simp

@[simp] theorem finishOp_dres (sid o) : (finishOp s sid o).dres = s.dres := by rfl

theorem runOp_dres {sid cls ok f} (hf : ∀ sl s, (f sl s).1.dres = s.dres) : (runOp s sid cls ok f).dres = s.dres := by
  unfold runOp
  split <;> simp [hf]

@[simp] theorem issueReads_dres (sid aux) : (issueReads s sid aux).dres = s.dres := by
  simp only [issueReads]
  repeat' split
  all_goals simp

@[simp] theorem kemEncaps_dres (sl) : (kemEncaps sl s).1.dres = s.dres := by
  unfold kemEncaps
  split <;> rfl

@[simp] theorem kemEncapsKat_dres (sl) : (kemEncapsKat sl s).1.dres = s.dres := by simp [kemEncapsKat]
@[simp] theorem kemDecapsKat_dres (sl) : (kemDecapsKat sl s).1.dres = s.dres := by simp [kemDecapsKat]

@[simp] theorem dsaSigner_dres (sl ph approved) : (dsaSigner sl s ph approved).1.dres = s.dres := by
  simp [dsaSigner, withRnd, draw]

@[simp] theorem dsaSign_dres (sl) : (dsaSign sl s).1.dres = s.dres := by simp [dsaSign]
@[simp] theorem dsaSignPh_dres (sl) : (dsaSignPh sl s).1.dres = s.dres := by simp [dsaSignPh]
@[simp] theorem dsaSignMuOp_dres (sl) : (dsaSignMuOp sl s).1.dres = s.dres := by simp [dsaSignMuOp, withRnd, draw]
@[simp] theorem ckemEncaps_dres (sl) : (ckemEncaps sl s).1.dres = s.dres := by simp [ckemEncaps, draw]
@[simp] theorem ckemEncapsKat_dres (sl) : (ckemEncapsKat sl s).1.dres = s.dres := by simp [ckemEncapsKat]
@[simp] theorem setDrbg_dres (i d) : (setDrbg s i d).dres = s.dres := by rfl
@[simp] theorem entEvent_dres : (entEvent s).dres = s.dres := by simp [entEvent]
@[simp] theorem poolEmpty_dres : (poolEmpty s).dres = s.dres := by rfl

theorem takeBlock_dres {t : State} (h : takeBlock s = some t) : t.dres = s.dres := by
  unfold takeBlock at h
  split at h
  · cases h
  · cases h; rfl

@[simp] theorem reseed_dres (i) : (reseed s i).dres = s.dres := by
  unfold reseed
  split
  next t ht => exact (takeBlock_dres ht :)
  next => simp

theorem cliRequest_dres {n predRes} {r : State × Bytes} (h : cliRequest s n predRes = some r) : r.1.dres = s.dres := by
  simp only [cliRequest, Option.ite_none_left_eq_some, Option.some.injEq] at h
  obtain ⟨-, -, rfl⟩ := h
  simp

@[simp] theorem setStfKey_dres (shelf k) : (setStfKey s shelf k).dres = s.dres := by rfl

theorem startLease_formed {shelf} (h : DresFormed s.dres) : DresFormed (startLease s shelf).dres := by
  unfold startLease
  dsimp only
  split
  · exact h
  · split
    · exact h
    · split
      · exact reportSrc_formed (formed_of_eq (by simp) h)
      · exact formed_of_eq (by simp) h

@[simp] theorem leaseReady_dres (shelf) : (leaseReady s shelf).dres = s.dres := by simp [leaseReady]

theorem takeIndex_formed {shelf} (h : DresFormed s.dres) : DresFormed (takeIndex s shelf).1.dres := by
  unfold takeIndex
  dsimp only
  split
  · split
    · exact startLease_formed (formed_of_eq (by simp) h)
    · exact formed_of_eq (by simp) h
  · exact h

@[simp] theorem slhSigner_dres (sl ph approved) : (slhSigner sl s ph approved).1.dres = s.dres := by
  unfold slhSigner
  split <;> rfl

@[simp] theorem slhSign_dres (sl) : (slhSign sl s).1.dres = s.dres := by simp [slhSign]
@[simp] theorem slhSignPh_dres (sl) : (slhSignPh sl s).1.dres = s.dres := by simp [slhSignPh]

@[simp] theorem bindCounter_dres (sid) : (bindCounter s sid).dres = s.dres := by
  simp only [bindCounter]
  repeat' split
  all_goals simp

@[simp] theorem stfKeygen_dres (sl) : (stfKeygen sl s).1.dres = s.dres := by unfold stfKeygen; dsimp only; split <;> rfl

@[simp] theorem stfSign_dres (sl) : (stfSign sl s).1.dres = s.dres := by
  unfold stfSign
  split <;> rfl

@[simp] theorem stfVerify_dres (sl) : (stfVerify sl s).1.dres = s.dres := by
  unfold stfVerify
  dsimp only
  split <;> simp

theorem takeLeaf_formed {sid} (h : DresFormed s.dres) : DresFormed (takeLeaf s sid).dres := by
  unfold takeLeaf
  split
  · exact h
  · split
    · exact h
    · exact takeIndex_formed h

@[simp] theorem dig_dres (sl) : (dig sl s).1.dres = s.dres := by simp [dig]
@[simp] theorem digCont_dres (sl k) : (digCont sl s k).1.dres = s.dres := by simp [digCont]
@[simp] theorem digUpdate_dres (sl) : (digUpdate sl s).1.dres = s.dres := by simp [digUpdate]
@[simp] theorem digFinish_dres (sl) : (digFinish sl s).1.dres = s.dres := by simp [digFinish]
@[simp] theorem pkKeygen_dres (sl) : (pkKeygen sl s).1.dres = s.dres := by simp [pkKeygen, draw]
@[simp] theorem pkPubkey_dres (sl) : (pkPubkey sl s).1.dres = s.dres := by simp [pkPubkey]

@[simp] theorem pkAgree_dres (sl) : (pkAgree sl s).1.dres = s.dres := by
  simp only [pkAgree]
  repeat' split
  all_goals simp

@[simp] theorem ecdsaSign_dres (k sl d e n) : (ecdsaSign k sl d e n s).1.dres = s.dres := by
  induction n generalizing s with
  | zero => rfl
  | succ n ih => simp [ecdsaSign, ih]

@[simp] theorem pkSign_dres (sl) : (pkSign sl s).1.dres = s.dres := by simp [pkSign]

@[simp] theorem pkVerify_dres (sl) : (pkVerify sl s).1.dres = s.dres := by
  simp only [pkVerify]
  repeat' split
  all_goals simp

@[simp] theorem rsaEncrypt_dres (sl) : (rsaEncrypt sl s).1.dres = s.dres := by simp [rsaEncrypt, draw]
@[simp] theorem rsaDecrypt_dres (sl) : (rsaDecrypt sl s).1.dres = s.dres := by simp [rsaDecrypt]

@[simp] theorem curveLoad_dres (sl) : (curveLoad sl s).1.dres = s.dres := by
  unfold curveLoad draw
  dsimp only
  split
  · rfl
  · split <;> rfl

@[simp] theorem modOp_dres (second f sl) : (modOp second f sl s).1.dres = s.dres := by
  simp only [modOp]
  repeat' split
  all_goals simp

@[simp] theorem modadd_dres (a) : (modadd a s).1.dres = s.dres := by simp [modadd]
@[simp] theorem modsub_dres (a) : (modsub a s).1.dres = s.dres := by simp [modsub]
@[simp] theorem modmul_dres (a) : (modmul a s).1.dres = s.dres := by simp [modmul]
@[simp] theorem modinv_dres (a) : (modinv a s).1.dres = s.dres := by simp [modinv]
@[simp] theorem modexp_dres (a) : (modexp a s).1.dres = s.dres := by simp [modexp]

@[simp] theorem padd_dres (sl) : (padd sl s).1.dres = s.dres := by
  unfold padd
  dsimp only
  split <;> simp

@[simp] theorem pdbl_dres (sl) : (pdbl sl s).1.dres = s.dres := by
  unfold pdbl
  dsimp only
  split <;> simp

@[simp] theorem pmul_dres (sl) : (pmul sl s).1.dres = s.dres := by
  simp only [pmul]
  repeat' split
  all_goals simp

theorem withIv_dres {sid sl k} (hk : ∀ s iv, (k s iv).1.dres = s.dres) : (withIv sid sl s k).1.dres = s.dres := by
  unfold withIv
  dsimp only
  split
  · split <;> simp [hk]
  · simp [hk]

@[simp] theorem pipeOp_dres (sid sl) : (pipeOp sid sl s).1.dres = s.dres := by
  unfold pipeOp
  split
  · rfl
  · simp [withIv_dres]

@[simp] theorem postParts_dres (sid) : (postParts s sid).dres = s.dres := by
  simp only [postParts]
  repeat' split
  all_goals simp

@[simp] theorem runPipe_dres (sid op) : (runPipe s sid op).dres = s.dres := by
  unfold runPipe
  split
  · rfl
  · split
    · rfl
    · simp [runOp_dres]

@[simp] theorem ctlStatusBlock_dres (sl) : (ctlStatusBlock sl s).1.dres = s.dres := by
  unfold ctlStatusBlock
  split <;> rfl

@[simp] theorem catGenerate_dres (sl) : (catGenerate sl s).1.dres = s.dres := by simp [catGenerate, generateKey, draw]

@[simp] theorem catNarrow_dres (sl) : (catNarrow sl s).1.dres = s.dres := by
  unfold catNarrow
  split <;> rfl

@[simp] theorem catUnwrap_dres (sl) : (catUnwrap sl s).1.dres = s.dres := by
  unfold catUnwrap
  split <;> rfl

@[simp] theorem catWrapOut_dres (sl) : (catWrapOut sl s).1.dres = s.dres := by
  unfold catWrapOut
  split <;> rfl

/-! ## Checks and dispatch -/

theorem shedChain_formed {head} (h : DresFormed s.dres) : DresFormed (shedChain s head).dres :=
  settleChain_formed (formed_of_eq (by simp) h)

theorem acceptSlip_formed {sid sl c sp} (h : DresFormed s.dres) : DresFormed (acceptSlip s sid sl c sp).dres := by
  refine formed_ite_step startLease_formed (foldl_frame (fun _ _ => requestBlock_dres _) (formed_of_eq ?_ h))
  rw [State.setSlip_dres]
  split <;> split <;> simp [foldl_keeps State.dres (f := reserveUse) fun _ _ => by rfl]

theorem checkMember_formed {full alone head w sid} (h : DresFormed w.s.dres) :
    DresFormed (checkMember full alone head w sid).s.dres := by
  unfold checkMember
  split
  · exact h
  · dsimp only
    split
    · exact acceptSlip_formed h
    · exact h
    · exact h

theorem foldl_checkMember_formed {full alone head} {l : List Nat} {w : Walk} (h : DresFormed w.s.dres) :
    DresFormed (l.foldl (checkMember full alone head) w).s.dres := by
  induction l generalizing w with
  | nil => exact h
  | cons sid l ih => exact ih (checkMember_formed h)

theorem memoChain_formed {head m} (h : DresFormed s.dres) : DresFormed (memoChain s head m).dres :=
  settleChain_formed (foldl_frame (fun _ _ => by rfl) h)

theorem checkChain_formed {head} (h : DresFormed s.dres) : DresFormed (checkChain s head).dres := by
  unfold checkChain
  extract_lets +lift m t full w
  have ht : DresFormed t.dres := formed_ite_step (foldl_frame fun _ _ => by rfl) h
  have hw : DresFormed w.s.dres := foldl_checkMember_formed ht
  split
  · exact memoChain_formed ht
  · refine formed_ite (settleChain_formed hw) ?_
    split
    · exact hw
    · exact formed_ite (shedChain_formed hw) hw

theorem checkHead_formed {head} (h : DresFormed s.dres) : DresFormed (checkHead s head).dres := by
  unfold checkHead
  split
  · exact h
  · split
    · exact checkChain_formed h
    · exact h

theorem checkReady_formed (h : DresFormed s.dres) : DresFormed (checkReady s).dres :=
  foldl_formed (fun _ _ h => checkHead_formed h) h

@[simp] theorem noteLeaseWait_dres : (noteLeaseWait s).dres = s.dres := by rfl

@[simp] theorem catchUp_dres (e ps) : (catchUp s e ps).dres = s.dres := by
  unfold catchUp
  rw [foldl_keeps State.dres fun s c => by dsimp only; split <;> rfl]
  split <;> simp

@[simp] theorem noteReady_dres (e) : (noteReady s e).dres = s.dres := by simp [noteReady]
@[simp] theorem startReads_dres (sl) : (startReads s sl).dres = s.dres := by simp [startReads]

@[simp] theorem readyUnit_dres (e carrel l) : (readyUnit s e carrel l).dres = s.dres := by
  unfold readyUnit
  split <;> simp

@[simp] theorem startTun_dres (t sid sl pc opened right) : (startTun s t sid sl pc opened right).dres = s.dres := by rfl

@[simp] theorem startClosed_dres (sid sl) : (startClosed s sid sl).dres = s.dres := by
  unfold startClosed
  split <;> rfl

@[simp] theorem resumeTun_dres (sid sl) : (resumeTun s sid sl).dres = s.dres := by
  unfold resumeTun
  split <;> simp

@[simp] theorem assign_dres (e sid sl ls) : (assign s e sid sl ls).dres = s.dres := by simp [assign]

theorem foldl_keeps_fst {α : Type} {f : State × Nat → α → State × Nat} (hf : ∀ x a, (f x a).1.dres = x.1.dres) (l : List α)
    (x : State × Nat) : (l.foldl f x).1.dres = x.1.dres := by
  induction l generalizing x with
  | nil => rfl
  | cons a l ih => rw [List.foldl_cons, ih, hf]

@[simp] theorem coverWakes_dres (e) : (coverWakes s e).dres = s.dres :=
  foldl_keeps_fst (fun x c => by split <;> simp) _ _

@[simp] theorem suspendFor_dres (e) : (suspendFor s e).dres = s.dres := by
  simp only [suspendFor]
  repeat' split
  all_goals simp

theorem dispatchRound_formed {e} (h : DresFormed s.dres) : DresFormed (dispatchRound s e).dres := by
  grind [dispatchRound, catchUp_dres, suspendFor_dres, settleChain_formed, haltSlip_dres, shedChain_formed, assign_dres,
    coverWakes_dres, noteReady_dres]

@[simp] theorem startBare_dres : (startBare s).dres = s.dres := by
  unfold startBare
  split <;> simp

/-! ## Fetching, running and completing -/

theorem takeSlip_formed {hn x cs exts} (h : DresFormed s.dres) : DresFormed (takeSlip s hn x cs exts).dres :=
  formed_ite (checkHead_formed (foldl_frame (fun _ _ => by rfl) h)) h

theorem takeSlips_formed {n hn b} (h : DresFormed s.dres) : DresFormed (takeSlips n s hn b).dres := by
  induction n generalizing s b with
  | zero => exact h
  | succ n ih =>
    unfold takeSlips
    split
    · exact h
    · exact formed_ite h (ih (takeSlip_formed h))

theorem ringArrived_formed {hn part d} (h : DresFormed s.dres) : DresFormed (ringArrived s hn part d).dres := by
  unfold ringArrived
  split
  · exact h
  · split
    · exact h
    · exact formed_ite (formed_ite (takeSlips_formed (formed_of_eq (by simp) h)) (formed_of_eq (by simp) h))
        (formed_of_eq (by simp) h)

@[simp] theorem correct_dres (sl ns) : (correct s sl ns).dres = s.dres := by simp [correct]

@[simp] theorem toStage_dres (sid k) : (toStage s sid k).dres = s.dres := by
  unfold toStage
  dsimp only
  split <;> simp

theorem recordOpened_formed {sid sl} (h : DresFormed s.dres) : DresFormed (recordOpened s sid sl).dres := by
  unfold recordOpened
  split
  · exact failSlip_formed h
  · dsimp only
    split
    · exact failSlip_formed (formed_of_eq (by simp) h)
    · split
      · exact failSlip_formed (formed_of_eq (by simp) h)
      · exact formed_of_eq (by simp) h

theorem stageEnd_formed {sid sl} (h : DresFormed s.dres) : DresFormed (stageEnd s sid sl).dres := by
  grind [stageEnd, startUses_dres, recordOpened_formed, takeLeaf_formed, failSlip_formed, toStage_dres]

theorem routineEnd_formed {sid sl t} (h : DresFormed s.dres) : DresFormed (routineEnd s sid sl t).dres := by
  unfold routineEnd
  split
  · dsimp only
    split
    · exact h
    · exact failSlip_formed (formed_of_eq (by simp) h)
    · exact h
  · dsimp only
    split
    · exact h
    · exact failSlip_formed (formed_of_eq (by simp) h)
    · split
      · exact failSlip_formed (formed_of_eq (by simp) h)
      · split
        · exact failSlip_formed (formed_of_eq (by simp) h)
        · exact passSlip_formed (formed_of_eq (by simp) h)

@[simp] theorem suspend_dres (sid sl) : (suspend s sid sl).dres = s.dres := by
  unfold suspend
  split <;> simp

theorem abortRunning_formed {sid sl st} (h : DresFormed s.dres) : DresFormed (abortRunning s sid sl st).dres :=
  settleChain_formed (formed_of_eq (by simp) h)

@[simp] theorem unhold_dres (e phys) : (unhold s e phys).dres = s.dres := by simp [unhold]

/-! ## Queue pairs and ports -/

theorem doorbellError_formed {carrel hopper} (h : DresFormed s.dres) : DresFormed (doorbellError s carrel hopper).dres :=
  report_formed (by cases hopper <;> exact h)

theorem doorbellRecord_formed {hn b} (h : DresFormed s.dres) : DresFormed (doorbellRecord s hn b).dres := by
  unfold doorbellRecord
  split
  · exact h
  · split
    · exact doorbellError_formed h
    · split
      · exact formed_of_eq (by simp) h
      · exact formed_ite (doorbellError_formed h) (formed_of_eq (by simp) h)

@[simp] theorem cnpFor_dres (q ce) : (cnpFor s q ce).dres = s.dres := by
  unfold cnpFor
  split <;> simp

@[simp] theorem rehold_dres (hn e) : (rehold s hn e).dres = s.dres := by rfl

@[simp] theorem countFailed_dres (hn rs) : (countFailed s hn rs).dres = s.dres := by
  unfold countFailed
  split <;> simp

theorem ringFailed_formed {hn} (h : DresFormed s.dres) : DresFormed (ringFailed s hn).dres := by
  unfold ringFailed
  split
  · exact h
  · split
    · exact h
    · exact reportHop_formed (formed_of_eq (by simp) h)

theorem failReq_formed {badOut st r} (h : DresFormed s.dres) : DresFormed (failReq s badOut st r).dres := by
  unfold failReq
  split
  · exact ringFailed_formed h
  · exact failSlip_formed h
  · exact failSlip_formed h
  · dsimp only
    split
    · split
      · split
        · exact settleChain_formed (formed_of_eq (by simp) h)
        · exact formed_of_eq (by simp) h
      · exact failSlip_formed (formed_of_eq (by simp) h)
    · exact formed_of_eq (by simp) h
  · exact h
  · exact formed_of_eq (by simp) h
  · exact formed_of_eq (by simp) h

theorem failOutstanding_formed {q} (h : DresFormed s.dres) : DresFormed (failOutstanding s q).dres := by
  unfold failOutstanding
  split
  · exact h
  · exact foldl_formed (fun _ _ h => failReq_formed h) h

@[simp] theorem unbind_dres (q) : (unbind s q).dres = s.dres := by simp [unbind]

theorem closeQp_formed {q} (h : DresFormed s.dres) : DresFormed (closeQp s q).dres := by
  unfold closeQp
  split
  · exact h
  · split
    · exact h
    · exact failOutstanding_formed (formed_of_eq (by simp) h)

theorem qpError_formed {q source hopper} (h : DresFormed s.dres) : DresFormed (qpError s q source hopper).dres := by
  grind [qpError, State.setCarrel_dres, closeQp_formed, reportHop_formed]

theorem hostRecord_formed {fn k b} (h : DresFormed s.dres) : DresFormed (hostRecord s fn k b).dres := by
  unfold hostRecord
  split
  · exact doorbellError_formed h
  · split
    · exact h
    · split
      · exact doorbellRecord_formed h
      · exact doorbellError_formed h

@[simp] theorem sendRep_dres (qpn) : (sendRep s qpn).dres = s.dres := by
  simp only [sendRep]
  repeat' split
  all_goals simp

theorem rebindOn_formed {qpn old} (h : DresFormed s.dres) : DresFormed (rebindOn s qpn old).dres := by
  refine formed_of_eq (sendRep_dres ..) (foldl_formed (fun s o h => ?_) h)
  split
  · exact failOutstanding_formed (formed_of_eq (unbind_dres ..) h)
  · exact h

@[simp] theorem establish_dres (qpn) : (establish s qpn).dres = s.dres := by
  unfold establish
  split <;> simp

@[simp] theorem inputArrived_dres (sid off aux d) : (inputArrived s sid off aux d).dres = s.dres := by rfl

theorem deliverData_formed {r d} (h : DresFormed s.dres) : DresFormed (deliverData s r d).dres := by
  unfold deliverData
  split
  · exact ringArrived_formed h
  · exact formed_of_eq (by simp) h
  · exact formed_of_eq (by simp) h
  · exact h

theorem written_formed {r} (h : DresFormed s.dres) : DresFormed (written s r).dres := by
  unfold written
  split
  · exact formed_of_eq (by simp) h
  · dsimp only
    split
    · split
      · exact settleChain_formed (formed_of_eq (by simp) h)
      · exact formed_of_eq (by simp) h
    · exact formed_of_eq (by simp) h
  · exact h

theorem settleReq_formed {qpn rid} (h : DresFormed s.dres) : DresFormed (settleReq s qpn rid).dres := by
  unfold settleReq
  split
  · exact h
  · exact foldl_formed (fun _ _ h => written_formed h) h

@[simp] theorem afterAck_dres (qpn) : (afterAck s qpn).dres = s.dres := by simp [afterAck]

@[simp] theorem modReq_dres (qpn rid f) : (modReq s qpn rid f).dres = s.dres := by
  unfold modReq
  split <;> rfl

@[simp] theorem pumpCarrel_dres (c) : (pumpCarrel s c).dres = s.dres := by simp [pumpCarrel]
@[simp] theorem setHop_dres (c ip f) : (setHop s c ip f).dres = s.dres := by rfl
@[simp] theorem takeAddresses_dres (c) : (takeAddresses s c).dres = s.dres := by rfl
@[simp] theorem setPfc_dres (port prio x) : (setPfc s port prio x).dres = s.dres := by rfl

theorem portDown_formed {port} (h : DresFormed s.dres) : DresFormed (portDown s port).dres :=
  formed_ite (reportSrc_formed h) h

/-! ## The ledger, the catalogue and carrel records -/

@[simp] theorem noteLowFree_dres (old) : (noteLowFree old s).dres = s.dres := by simp [noteLowFree]

@[simp] theorem ownWriteDone_dres (b) : (ownWriteDone s b).dres = s.dres := by
  unfold ownWriteDone
  split <;> rfl

@[simp] theorem leaseLost_dres (b) : (leaseLost s b).dres = s.dres := by
  unfold leaseLost
  split <;> rfl

@[simp] theorem chargeFloor_dres (c ticks) : (chargeFloor s c ticks).dres = s.dres := by rfl
@[simp] theorem weedSlot_dres (n) : (weedSlot s n).dres = s.dres := by simp [weedSlot]
@[simp] theorem weedOne_dres (n) : (weedOne s n).dres = s.dres := by simp [weedOne]
@[simp] theorem releaseBlocks_dres : (releaseBlocks s).dres = s.dres := by rfl
@[simp] theorem assignBlocks_dres (c) : (assignBlocks s c).dres = s.dres := by rfl

theorem releaseQps_formed {c} (h : DresFormed s.dres) : DresFormed (releaseQps s c).dres :=
  foldl_formed (fun _ _ h => closeQp_formed h) h

@[simp] theorem withdrawAddresses_dres (c) : (withdrawAddresses s c).dres = s.dres := by rfl
@[simp] theorem archiveCarrel_dres (c) : (archiveCarrel s c).dres = s.dres := by rfl

/-! ## The mirror pair -/

@[simp] theorem setHome_dres (c h) : (setHome s c h).dres = s.dres := by rfl
@[simp] theorem sendBatch_dres (ex hs held) : (sendBatch s ex hs held).dres = s.dres := by rfl
@[simp] theorem storeHop_dres (b) : (storeHop s b).dres = s.dres := by rfl

@[simp] theorem addMemo_dres (memo shelf gen) : (addMemo s memo shelf gen).dres = s.dres := by
  unfold addMemo
  split <;> rfl

theorem bindOwn_dres {old new : Slot} {r : State × Slot} (h : bindOwn s old new = some r) : r.1.dres = s.dres := by
  unfold bindOwn at h
  split at h
  · cases h; rfl
  · split at h
    · cases h; rfl
    · split at h
      · cases h
      · cases h; simp

theorem putSlot_dres {p : PeerSlot} {t : State} (h : putSlot s p = some t) : t.dres = s.dres := by
  unfold putSlot at h
  dsimp only at h
  split at h
  · cases h
  next s' x hb =>
    cases h
    simpa using bindOwn_dres hb

@[simp] theorem goneSlot_dres (n gen) : (goneSlot s n gen).dres = s.dres := by simp [goneSlot]
@[simp] theorem putCarrelHead_dres (p) : (putCarrelHead s p).dres = s.dres := by simp [putCarrelHead]

@[simp] theorem putHopper_dres (c p) : (putHopper s c p).dres = s.dres := by
  unfold putHopper
  split <;> rfl

@[simp] theorem putToken_dres (c t) : (putToken s c t).dres = s.dres := by rfl
@[simp] theorem dropHopper_dres (hn) : (dropHopper s hn).dres = s.dres := by rfl
@[simp] theorem dropCarrel_dres (c) : (dropCarrel s c).dres = s.dres := by simp [dropCarrel]

@[simp] theorem applySync_dres (r) : (applySync s r).1.dres = s.dres := by
  unfold applySync
  cases r with
  | slotSet sl memo =>
    dsimp only
    split
    · rfl
    next t ht => simpa using putSlot_dres ht
  | lease shelf ceiling => dsimp only; split <;> simp
  | _ => simp

@[simp] theorem takeHopper_dres (hn) : (takeHopper s hn).dres = s.dres := by
  unfold takeHopper
  split <;> rfl

@[simp] theorem takeSlots_dres (c) : (takeSlots s c).dres = s.dres := by rfl

theorem takeCarrel_formed {c} (h : DresFormed s.dres) : DresFormed (takeCarrel s c).dres :=
  reportSrc_formed (formed_of_eq (by simp) h)

theorem takeAll_formed (h : DresFormed s.dres) : DresFormed (takeAll s).dres :=
  formed_of_eq (setPair_dres ..) (foldl_formed (fun _ _ h => takeCarrel_formed h) h)

@[simp] theorem stopHeartbeat_dres : (stopHeartbeat s).dres = s.dres := by rfl
@[simp] theorem resign_dres : (resign s).dres = s.dres := by simp [resign]
@[simp] theorem sendCopies_dres : (sendCopies s).dres = s.dres := by rfl

/-! ## The registrar and the mailbox commands -/

@[simp] theorem sysRequest_dres (n) : (sysRequest s n).1.dres = s.dres := by simp [sysRequest]
@[simp] theorem serveUnknown_dres (fn) : (serveUnknown s fn).dres = s.dres := by simp [serveUnknown]

theorem loginFailed_formed {fn} (h : DresFormed s.dres) : DresFormed (loginFailed s fn).dres := reportSrc_formed h

@[simp] theorem unenrol_dres (c pos) : (unenrol s c pos).dres = s.dres := by
  simp only [unenrol]
  repeat' split
  all_goals simp

theorem breakOctet_formed {n} (h : DresFormed s.dres) : DresFormed (breakOctet s n).dres :=
  foldl_formed (fun _ _ h => closeQp_formed h) h

theorem setOctetCfg_formed {n p} (h : DresFormed s.dres) : DresFormed (setOctetCfg s n p).dres := by
  unfold setOctetCfg
  split
  · refine formed_ite ?_ (formed_of_eq (by simp) h)
    split
    · exact formed_of_eq (by simp) h
    · exact breakOctet_formed (formed_of_eq (by simp) h)
  · refine formed_ite ?_ (formed_of_eq (by simp) h)
    split
    · exact formed_of_eq (by simp) h
    · exact breakOctet_formed (formed_of_eq (by simp) h)

@[simp] theorem restartCmds_dres : (restartCmds s).dres = s.dres := by simp [restartCmds]

theorem fencePair_formed (h : DresFormed s.dres) : DresFormed (fencePair s).dres :=
  formed_ite h (formed_ite (formed_of_eq (by simp) h) (formed_of_eq (noteDev_dres ..) (formed_of_eq (assertErrN_dres ..)
    (abortSlips_formed (foldl_formed (fun _ _ h => breakOpenChain_formed h) h)))))

@[simp] theorem createAt_dres (n x) : (createAt s n x).dres = s.dres := by simp [createAt]
@[simp] theorem plantAnchor_dres (c cls key) : (plantAnchor s c cls key).dres = s.dres := by simp [plantAnchor]

theorem resetCarrel_formed {c} (h : DresFormed s.dres) : DresFormed (resetCarrel s c).dres :=
  foldl_frame (fun _ _ => by simp) (releaseQps_formed h)

theorem destroyCommit_formed {c} (h : DresFormed s.dres) : DresFormed (destroyCommit s c).dres := by
  grind [destroyCommit, resetCarrel_formed, deaccessionCommit_dres, endSession_dres, withdrawAddresses_dres, bumpEpoch_dres,
    archiveCarrel_dres, dropCarrel_dres]

@[simp] theorem renewCommit_dres (c cls key) : (renewCommit s c cls key).dres = s.dres := by simp [renewCommit]
@[simp] theorem replaceCommit_dres (n p mat) : (replaceCommit s n p mat).dres = s.dres := by simp [replaceCommit]

theorem commitDeac_formed {fn n} (h : DresFormed s.dres) : DresFormed (commitDeac s fn n).1.dres := by
  grind [commitDeac, State.setSlot_dres, deaccessionCommit_dres, replaceCommit_dres, destroyCommit_formed, renewCommit_dres]

theorem underMbx_formed {fn w k} (hk : ∀ s, DresFormed s.dres → DresFormed (k s).dres) (h : DresFormed s.dres) :
    DresFormed (underMbx s fn w k).dres := by
  refine formed_ite (hk s h) ?_
  split
  · exact h
  · exact hk _ h

theorem finishDeac_formed {fn n} (h : DresFormed s.dres) : DresFormed (finishDeac s fn n).dres :=
  underMbx_formed (fun _ h => formed_of_eq (respond_dres ..) (commitDeac_formed h)) h

theorem tryChain_formed {head} (h : DresFormed s.dres) : DresFormed (tryChain s head).dres :=
  formed_ite (commitNow_formed (foldl_frame (fun _ _ => by rfl) h)) h

theorem tryDeac_formed {n} (h : DresFormed s.dres) : DresFormed (tryDeac s n).dres := by
  unfold tryDeac
  dsimp only
  split
  · exact formed_ite (finishDeac_formed h) h
  · exact foldl_formed (fun _ _ h => tryChain_formed h) h
  · exact h

@[simp] theorem createCarrel_dres (c b cls key) : (createCarrel s c b cls key).dres = s.dres := by simp [createCarrel]
@[simp] theorem establishStatic_dres (c) : (establishStatic s c).dres = s.dres := by simp [establishStatic]

theorem abortLong_formed {sid} (h : DresFormed s.dres) : DresFormed (abortLong s sid).dres := by
  unfold abortLong
  split
  · exact h
  · split
    · exact abortRunning_formed h
    · exact formed_of_eq (by simp) h

theorem abortStaged_formed {c} (h : DresFormed s.dres) : DresFormed (abortStaged s c).dres :=
  foldl_formed (fun _ _ h => abortSlips_formed (breakOpenChain_formed h)) h

@[simp] theorem stopBackground_dres (c) : (stopBackground s c).dres = s.dres := by simp [stopBackground]
@[simp] theorem revokeToken_dres (i) : (revokeToken s i).dres = s.dres := by rfl

theorem deleteHopper_formed {hn} (h : DresFormed s.dres) : DresFormed (deleteHopper s hn).dres := by
  have hrev : DresFormed ((tokensOver s hn).foldl revokeToken s).dres := foldl_frame (fun _ _ => by rfl) h
  refine formed_of_eq (dropHopper_dres _) ?_
  split
  · exact closeQp_formed hrev
  · exact hrev

@[simp] theorem importCommit_dres (fn p host n) : (importCommit s fn p host n).1.dres = s.dres := by simp [importCommit]

@[simp] theorem importAcked_dres (fn) : (importAcked s fn).dres = s.dres := by
  simp only [importAcked]
  repeat' split
  all_goals simp

@[simp] theorem putAttrs_dres (n x) : (putAttrs s n x).dres = s.dres := by simp [putAttrs]
@[simp] theorem failPairing_dres (b) : (failPairing s b).dres = s.dres := by simp [failPairing]

theorem discardCopy_formed {c} (h : DresFormed s.dres) : DresFormed (discardCopy s c).dres :=
  foldl_frame (fun _ _ => dropHopper_dres _) (foldl_frame (fun _ _ => weedSlot_dres _)
    (formed_of_eq (withdrawAddresses_dres _) (releaseQps_formed h)))

theorem installCopy_formed {p} (h : DresFormed s.dres) : DresFormed (installCopy s p).dres := by
  refine foldl_formed (fun s x h => ?_) (foldl_frame (fun _ _ => putToken_dres ..)
    (foldl_frame (fun _ _ => putHopper_dres ..) (formed_of_eq (putCarrelHead_dres _) (formed_ite h (discardCopy_formed h)))))
  cases hp : putSlot s x with
  | none => exact h
  | some t => exact formed_of_eq (putSlot_dres hp) h

@[simp] theorem raiseCeiling_dres (shelf ceiling) : (raiseCeiling s shelf ceiling).dres = s.dres := by
  unfold raiseCeiling
  dsimp only
  split <;> simp

@[simp] theorem finishPairing_dres : (finishPairing s).dres = s.dres := by simp [finishPairing]

theorem completePairing_formed {cs ceils} (h : DresFormed s.dres) : DresFormed (completePairing s cs ceils).dres := by
  refine formed_of_eq (finishPairing_dres ..) (foldl_frame (fun _ _ => raiseCeiling_dres ..)
    (foldl_formed (fun _ _ h => installCopy_formed h) (formed_of_eq (sendCopies_dres)
    (foldl_frame (fun _ _ => setHome_dres ..) h))))

theorem destroyCopy_formed {c} (h : DresFormed s.dres) : DresFormed (destroyCopy s c).dres :=
  destroyCommit_formed (formed_of_eq (by simp) h)

theorem endMirroring_formed (h : DresFormed s.dres) : DresFormed (endMirroring s).dres :=
  formed_of_eq (setPair_dres ..) (foldl_formed (fun _ _ h => refuseWait_formed h) h)

theorem yieldCarrel_formed {c} (h : DresFormed s.dres) : DresFormed (yieldCarrel s c).dres :=
  formed_ite (abortStaged_formed h) h

theorem keepCarrel_formed {c} (h : DresFormed s.dres) : DresFormed (keepCarrel s c).dres := formed_ite (takeCarrel_formed h) h

@[simp] theorem discardStaged_dres (c) : (discardStaged s c).dres = s.dres := by
  unfold discardStaged
  dsimp only
  rw [foldl_keeps State.dres fun s hn => by split <;> rfl]
  simp

theorem finishRehome_formed {fn} (h : DresFormed s.dres) : DresFormed (finishRehome s fn).dres := by
  unfold finishRehome
  split
  · exact formed_ite (formed_of_eq (respond_dres ..) h) (formed_ite
      (formed_of_eq (respond_dres ..) (formed_of_eq (setHome_dres ..)
      (foldl_frame (fun _ _ => by rfl) (formed_of_eq (sendBatch_dres ..)
        (formed_of_eq (withdrawAddresses_dres _) (releaseQps_formed h)))))) h)
  · exact h

@[simp] theorem resignFailed_dres : (resignFailed s).dres = s.dres := by simp [resignFailed]

theorem mirrorIdle_formed (h : DresFormed s.dres) : DresFormed (mirrorIdle s).dres :=
  formed_of_eq (resignFailed_dres ..) (formed_of_eq (finishPairing_dres ..)
    (foldl_formed (fun _ _ h => finishRehome_formed h) h))

@[simp] theorem importSlot1_dres (p) : (importSlot1 s p).dres = s.dres := by simp [importSlot1]

@[simp] theorem installImage_dres (c i) : (installImage s c i).1.dres = s.dres := by
  unfold installImage
  simp [foldl_keeps_fst (f := importHopper c) fun _ _ => rfl]

/-! ## Entropy and faults -/

@[simp] theorem refuseRandom_dres : (refuseRandom s).dres = s.dres :=
  foldl_keeps State.dres (fun s fn => by split <;> simp) _ _

theorem entropyFail_formed (h : DresFormed s.dres) : DresFormed (entropyFail s).dres := by
  have hrep : DresFormed (reportSrc { s with ent := { s.ent with state := .failed, drbgs := [], pool := 0 } } 0x0C2).dres :=
    reportSrc_formed h
  refine formed_ite hrep (formed_of_eq (refuseRandom_dres) (abortSlips_formed
    (foldl_frame (fun _ _ => endPage_dres ..) (foldl_frame (fun _ _ => stopUnits_dres ..)
    (formed_of_eq (entEvent_dres ..) hrep)))))

theorem latchOut_formed {src cause} (h : DresFormed s.dres) : DresFormed (latchOut s src cause).dres := by
  grind [latchOut, State.setSrc_dres, entEvent_dres, reportSrc_formed, noteDev_dres, entropyFail_formed]

@[simp] theorem addBlock_dres : (addBlock s).dres = s.dres := by
  simp only [addBlock]
  repeat' split
  all_goals simp

@[simp] theorem loadDefaults_dres : (loadDefaults s).dres = s.dres := by rfl
@[simp] theorem returnUnit_dres (e phys) : (returnUnit s e phys).dres = s.dres := by simp [returnUnit]
@[simp] theorem slotLineFailed_dres (n) : (slotLineFailed s n).dres = s.dres := by simp [slotLineFailed]

@[simp] theorem hopperLineFailed_dres (hn) : (hopperLineFailed s hn).dres = s.dres := by
  unfold hopperLineFailed
  split <;> simp

theorem contextFailed_formed {k} (h : DresFormed s.dres) : DresFormed (contextFailed s k).dres := by
  unfold contextFailed
  split
  · exact failSlip_formed h
  · exact h

theorem dataLineFailed_formed {line} (h : DresFormed s.dres) : DresFormed (dataLineFailed s line).dres := by
  refine formed_ite (formed_of_eq (by simp) h) ?_
  split
  · split
    · exact formed_of_eq (by simp) h
    · exact h
  · split
    · exact formed_of_eq (by simp) h
    · split
      · exact contextFailed_formed h
      · exact h

theorem lineFailed_formed {line} (h : DresFormed s.dres) : DresFormed (lineFailed s line).dres :=
  formed_ite (dataLineFailed_formed h) (foldl_formed (fun _ _ h => dataLineFailed_formed h) h)

theorem afterReport_formed {r} (h : DresFormed s.dres) : DresFormed (afterReport s r).dres :=
  formed_ite (fencePair_formed h) (formed_ite (lineFailed_formed h) (formed_of_eq (by simp) h))

/-! ## The folio -/

theorem recEffect_formed {r} (h : DresFormed s.dres) : DresFormed (recEffect s r).dres := by
  unfold recEffect
  split
  · exact formed_of_eq (by simp) h
  · exact formed_ite (tryDeac_formed (formed_of_eq (by simp) h)) h
  · exact h

theorem settleQueue_formed (h : DresFormed s.dres) : DresFormed (settleQueue s).dres :=
  foldl_formed (fun _ _ h => recEffect_formed h) (s := { s with folio := _ }) h

theorem archiveFlush_formed (h : DresFormed s.dres) : DresFormed (archiveFlush s).dres :=
  settleQueue_formed (foldl_formed (fun _ _ h => formed_ite (formed_of_eq (queueRecord_dres ..) h) h)
    (foldl_formed (s := { s with cat := _ }) (fun _ _ h => formed_of_eq (queueRecord_dres ..) h) h))

@[simp] theorem folEvent_dres (slot code) : (folEvent s slot code).dres = s.dres := by simp [folEvent]
@[simp] theorem folSettles_dres (slot st) : (folSettles s slot st).dres = s.dres := by simp [folSettles]

theorem idFails_formed {slot step} (h : DresFormed s.dres) : DresFormed (idFails s slot step).dres :=
  reportSrc_formed (formed_of_eq (by simp) h)

theorem checkWear_formed {slot} (h : DresFormed s.dres) : DresFormed (checkWear s slot).dres := by
  grind [checkWear, reportSrc_formed, folSettles_dres]

@[simp] theorem writeShadow_dres (slot) : (writeShadow s slot).dres = s.dres := by simp [writeShadow]

theorem readJournal_formed {slot rs} (h : DresFormed s.dres) : DresFormed (readJournal s slot rs).dres :=
  foldl_formed (fun _ _ h => formed_ite h (formed_ite (reportSrc_formed h) (reportSrc_formed h))) h

theorem beginReconcile_formed {slot rs} (h : DresFormed s.dres) : DresFormed (beginReconcile s slot rs).dres :=
  checkWear_formed (readJournal_formed h)

@[simp] theorem newCellarKey_dres : (newCellarKey s).dres = s.dres := by rfl

theorem abandonArchive_formed (h : DresFormed s.dres) : DresFormed (abandonArchive s).dres := reportSrc_formed h

/-! ## The tuns -/

@[simp] theorem scatterFrom_dres (x i ms) : (scatterFrom x i ms s).dres = s.dres := by
  induction ms generalizing i s with
  | nil => rfl
  | cons m ms ih => exact ih ..

@[simp] theorem scatter_dres (t ms x) : (scatter s t ms x).dres = s.dres := by simp [scatter]
@[simp] theorem drawRng_dres (w) : (drawRng s w).dres = s.dres := by simp [drawRng]

@[simp] theorem actOn_dres (t w c) : (actOn t w c s).dres = s.dres := by
  simp only [actOn]
  repeat' split
  all_goals simp

@[simp] theorem loadOn_dres (t w c) : (loadOn t w c s).dres = s.dres := by
  simp only [loadOn]
  repeat' split
  all_goals simp

@[simp] theorem storeOn_dres (t w c) : (storeOn t w c s).dres = s.dres := by
  simp only [storeOn]
  repeat' split
  all_goals simp

theorem servicePending_formed {t dropLate} (h : DresFormed s.dres) : DresFormed (servicePending s t dropLate).dres := by
  grind [servicePending, abortRunning_formed, suspend_dres]

theorem seqRow_formed {t op} (h : DresFormed s.dres) : DresFormed (seqRow t op s).dres :=
  formed_ite h (formed_ite (unitFault_formed h) (formed_ite h
    (formed_ite (servicePending_formed (formed_of_eq (by simp) h)) (formed_of_eq (by simp) h))))

/-! ## Images, life cycle and debug grants -/

@[simp] theorem onMounted_dres (g) : (onMounted s g).dres = s.dres := by rfl

@[simp] theorem assignFamily_dres (x) : (assignFamily s x).dres = s.dres := by
  unfold assignFamily
  split <;> rfl

@[simp] theorem loadImage_dres (x) : (loadImage s x).dres = s.dres := by
  unfold loadImage
  dsimp only
  split <;> simp

@[simp] theorem wakeTuns_dres : (wakeTuns s).dres = s.dres :=
  foldl_keeps State.dres (fun s c => by dsimp only; split <;> simp) _ _

theorem setDresA_formed {source m} (hsrc : source.toNat ≤ 3) (h : DresFormed s.dres) :
    DresFormed (setDresA s source m).dres := by
  obtain ⟨-, -, -, -, hseq⟩ := h
  exact ⟨(fit_length ..).le, Nat.zero_le _, hsrc, .inl rfl, even_add_two hseq⟩

@[simp] theorem forceOctet_dres (n) : (forceOctet s n).dres = s.dres := by simp [forceOctet]
@[simp] theorem forceOctets_dres : (forceOctets s).dres = s.dres := foldl_keeps State.dres (fun _ _ => forceOctet_dres _) _ _
@[simp] theorem endSessions_dres (cause) : (endSessions s cause).dres = s.dres := by simp [endSessions]
@[simp] theorem lowerCause_dres (src detail vbat) : (lowerCause s src detail vbat).dres = s.dres := by simp [lowerCause]

theorem tamperMain_formed {src detail inLimits} (h : DresFormed s.dres) :
    DresFormed (tamperMain s src detail inLimits).dres :=
  formed_ite (formed_ite (formed_of_eq (by simp) h) (chipReset_formed _)) (chipReset_formed _)

@[simp] theorem tamperVbat_dres (src detail) : (tamperVbat s src detail).dres = s.dres := by simp [tamperVbat]

theorem eraseSecrets_formed (h : DresFormed s.dres) : DresFormed (eraseSecrets s).dres := by
  unfold eraseSecrets
  extract_lets +lift t1 t2 t3
  have h3 : DresFormed t3.dres := formed_of_eq (endSessions_dres ..) (foldl_frame (fun _ _ => endPage_dres ..)
    (abortSlips_formed (foldl_frame (fun _ _ => stopUnits_dres ..) h)))
  exact formed_ite_step (fun h => formed_of_eq (unmarkImage_dres) (formed_of_eq (clearOpenStore_dres) h)) h3

theorem applyGrant_formed {b} (h : DresFormed s.dres) : DresFormed (applyGrant s b).1.dres := by
  grind [applyGrant, eraseSecrets_formed, forceOctets_dres]

theorem endGrant_formed (h : DresFormed s.dres) : DresFormed (endGrant s).dres :=
  formed_ite h (formed_ite (chipReset_formed _) (formed_of_eq (by simp) h))

/-! ## Register pages and function resets -/

@[simp] theorem ignoreWrite_dres (fn p) : (ignoreWrite s fn p).dres = s.dres := by rfl
@[simp] theorem pageWrite_dres (fn p f) : (pageWrite s fn p f).dres = s.dres := by simp [pageWrite]

@[simp] theorem finishPage_dres (fn page r) : (finishPage s fn page r).dres = s.dres := by
  unfold finishPage
  dsimp only
  split <;> simp

@[simp] theorem windowWrite_dres (fn off width v) : (windowWrite s fn off width v).dres = s.dres := by simp [windowWrite]
@[simp] theorem goWrite_dres (fn v) : (goWrite s fn v).dres = s.dres := by simp [goWrite]
@[simp] theorem evqBaseWrite_dres (fn v) : (evqBaseWrite s fn v).dres = s.dres := by simp [evqBaseWrite]

@[simp] theorem mbxWrite_dres (fn r v hw) : (mbxWrite s fn r v hw).dres = s.dres := by
  unfold mbxWrite
  split <;> simp

@[simp] theorem dpgWrite_dres (fn r v hw) : (dpgWrite s fn r v hw).dres = s.dres := by
  unfold dpgWrite
  split <;> simp

@[simp] theorem pfWrite_dres (r v hw) : (pfWrite s r v hw).dres = s.dres := by
  unfold pfWrite
  split <;> simp

@[simp] theorem answerRead_dres (es) : (answerRead s es).dres = s.dres := by rfl

@[simp] theorem cutCommand_dres (fn m) : (cutCommand s fn m).dres = s.dres := by
  unfold cutCommand
  split <;> rfl

theorem stopHostHoppers_formed {fn} (h : DresFormed s.dres) : DresFormed (stopHostHoppers s fn).dres := by
  unfold stopHostHoppers
  extract_lets +lift hs t
  have ht : DresFormed t.dres := foldl_formed (fun _ _ h => breakOpenChain_formed (formed_of_eq (setHopState_dres ..) h)) h
  exact formed_ite ht ht

theorem resetFunction_formed {fn} (h : DresFormed s.dres) : DresFormed (resetFunction s fn).dres :=
  stopHostHoppers_formed (formed_of_eq (by simp) h)

/-! ## Power -/

theorem shedReport_formed {n cause exit} (h : DresFormed s.dres) : DresFormed (shedReport s n cause exit).dres :=
  reportSrc_formed h

@[simp] theorem suspendWhere_dres (which) : (suspendWhere s which).dres = s.dres := by rfl

@[simp] theorem shedCommand_dres (fn) : (shedCommand s fn).dres = s.dres := by
  unfold shedCommand
  dsimp only
  split <;> simp

@[simp] theorem shedCut_dres (p) : (shedCut s p).dres = s.dres := by
  unfold shedCut
  split <;> simp

theorem enterS4_formed (h : DresFormed s.dres) : DresFormed (enterS4 s).dres :=
  formed_ite_step (formed_of_eq (stopHeartbeat_dres ..)) (foldl_frame (fun _ _ => shedCut_dres _)
    (foldl_frame (fun _ _ => shedCommand_dres _) (foldl_frame (fun _ _ => endPage_dres ..) (abortSlips_formed h))))

theorem stageActions_formed {n} (h : DresFormed s.dres) : DresFormed (stageActions s n).dres := by
  unfold stageActions
  split
  · exact formed_of_eq (by simp) h
  · exact formed_of_eq (by simp) h
  · exact enterS4_formed h
  · exact h

theorem enterStage_formed {cause n} (h : DresFormed s.dres) : DresFormed (enterStage cause s n).dres := by
  grind [enterStage, stageActions_formed, shedReport_formed, noteDev_dres]

@[simp] theorem holdBoot_dres (n cause) : (holdBoot s n cause).dres = s.dres := by rfl

theorem shed_formed {n cause} (h : DresFormed s.dres) : DresFormed (shed s n cause).dres :=
  formed_ite h (formed_ite (formed_of_eq (by simp) h) (foldl_formed (fun _ _ h => enterStage_formed h) h))

@[simp] theorem anchorS4_dres (slot) : (anchorS4 s slot).dres = s.dres := by simp [anchorS4]

theorem rerunFed_formed {pll} (h : DresFormed s.dres) : DresFormed (rerunFed s pll).dres :=
  formed_ite_step (foldl_frame fun _ _ => rerunPage_dres _) (foldl_formed (fun _ _ h => by exact rerun_formed h) h)

theorem pllLost_formed {pll} (h : DresFormed s.dres) : DresFormed (pllLost s pll).dres := formed_ite h (rerunFed_formed h)

theorem pllEffect_formed {pll} (h : DresFormed s.dres) : DresFormed (pllEffect s pll).dres := by
  unfold pllEffect
  split
  · exact chipReset_formed _
  · exact pllLost_formed h

/-! ## Boot -/

theorem porReset_formed (s : State) : DresFormed (porReset s).dres := chipReset_formed s

@[simp] theorem porRelease_dres (paired) : (porRelease s paired).dres = s.dres := by simp [porRelease]
@[simp] theorem bootTo_dres (n) : (bootTo s n).dres = s.dres := by rfl
@[simp] theorem failDevice_dres : (failDevice s).dres = s.dres := by simp [failDevice]
@[simp] theorem toRecovery_dres : (toRecovery s).dres = s.dres := by simp [toRecovery]

theorem stage3Folio_formed {r} (h : DresFormed s.dres) : DresFormed (stage3Folio s r).dres :=
  foldl_formed (fun _ _ h => formed_ite (idFails_formed h) h) (foldl_frame (fun _ _ => by rfl) h)

@[simp] theorem markBad_dres (bad) : (markBad s bad).dres = s.dres := by simp [markBad]

theorem inStage_formed {n f} (hf : ∀ s, DresFormed s.dres → DresFormed (f s).dres) (h : DresFormed s.dres) :
    DresFormed (inStage n s f).dres := formed_ite (hf s h) h

theorem cellReport_formed {n} (h : DresFormed s.dres) : DresFormed (cellReport s n).dres :=
  inStage_formed (fun _ h => reportSrc_formed (formed_of_eq (by simp) h)) h

theorem lostReport_formed {n} (h : DresFormed s.dres) : DresFormed (lostReport s n).dres :=
  inStage_formed (fun _ h => reportSrc_formed (formed_of_eq (by simp) h)) h

theorem checkCounter_formed {n} (h : DresFormed s.dres) : DresFormed (checkCounter s n).dres := by
  have hbad : DresFormed ((List.replicate ((counter s n).cells.filter fun x => !cellValid n x).length n).foldl cellReport
    s).dres := foldl_formed (fun _ _ h => cellReport_formed h) h
  exact formed_ite h (formed_ite (lostReport_formed hbad) hbad)

@[simp] theorem eraseAtBoot_dres : (eraseAtBoot s).dres = s.dres := by simp [eraseAtBoot]

theorem reconcileEvidence_formed (h : DresFormed s.dres) : DresFormed (reconcileEvidence s).dres :=
  formed_ite h (formed_ite (reportSrc_formed h) h)

@[simp] theorem logResponse_dres : (logResponse s).dres = s.dres := by simp [logResponse]
@[simp] theorem startSources_dres : (startSources s).dres = s.dres := foldl_keeps State.dres (fun _ _ => by rfl) _ _
@[simp] theorem instantiate_dres : (instantiate s).dres = s.dres := by simp [instantiate]
@[simp] theorem renewKey_dres : (renewKey s).dres = s.dres := by simp [renewKey]
@[simp] theorem restoreSlot_dres (n x) : (restoreSlot s n x).dres = s.dres := by rfl

@[simp] theorem restoreCarrel_dres (c x hs keys) : (restoreCarrel s c x hs keys).dres = s.dres := by
  unfold restoreCarrel
  have hh := foldl_keeps State.dres (f := fun s p => s.setHopper p.hopper { fromPeerHopper c p with state := .stopped }) fun
    _ _ => rfl
  simp [hh]

@[simp] theorem restoreRec_dres (r) : (restoreRec s r).dres = s.dres := by
  unfold restoreRec
  split <;> simp

@[simp] theorem restoreLease_dres (r) : (restoreLease s r).dres = s.dres := by
  simp only [restoreLease]
  repeat' split
  all_goals simp

theorem restoreDevSec_formed {all} (h : DresFormed s.dres) : DresFormed (restoreDevSec s all).dres :=
  formed_ite (reportSrc_formed h) h

theorem reloadImage_formed (h : DresFormed s.dres) : DresFormed (reloadImage s).dres := by
  unfold reloadImage
  split
  · exact h
  · split
    · exact formed_of_eq (queueEvent_dres ..) h
    · obtain ⟨ha, -, -, -, hseq⟩ := formed_of_eq (loadImage_dres ..) h
      exact ⟨ha, (fit_length ..).le, (by decide : (1#8).toNat ≤ 3), .inr rfl, even_add_two hseq⟩

theorem restore_formed (h : DresFormed s.dres) : DresFormed (restore s).dres :=
  inStage_formed (fun _ h => reloadImage_formed h) (restoreDevSec_formed (formed_of_eq (by simp) h))

@[simp] theorem setModes_dres (ms) : (setModes s ms).dres = s.dres := foldl_keeps State.dres (fun _ _ => by rfl) _ _
@[simp] theorem ensureAnchor_dres : (ensureAnchor s).dres = s.dres := by simp [ensureAnchor]

theorem failUnit_formed {u} (h : DresFormed s.dres) : DresFormed (failUnit s u).dres :=
  inStage_formed (fun _ h => report_formed (formed_of_eq (fenceUnit_dres ..) h)) h

@[simp] theorem assignIndices_dres (e) : (assignIndices s e).dres = s.dres := by simp [assignIndices]

@[simp] theorem endTrial_dres : (endTrial s).dres = s.dres := by
  unfold endTrial
  split <;> simp

@[simp] theorem preservedEvents_dres : (preservedEvents s).dres = s.dres :=
  foldl_keeps State.dres (fun _ _ => queueEvent_dres ..) _ _

/-! ## QDR -/

theorem qdrFail_formed (h : DresFormed s.dres) : DresFormed (qdrFail s).dres :=
  formed_of_eq (failDevice_dres) (abortSlips_formed (foldl_frame (fun _ _ => stopUnits_dres ..) h))

theorem loseChannel_formed {ch} (h : DresFormed s.dres) : DresFormed (loseChannel s ch).dres :=
  formed_ite (qdrFail_formed h) (formed_of_eq (by simp) h)

@[simp] theorem retireSlot_dres (n) : (retireSlot s n).dres = s.dres := by simp [retireSlot]
@[simp] theorem giveUpSlot_dres (n) : (giveUpSlot s n).dres = s.dres := by simp [giveUpSlot]
@[simp] theorem recovered_dres (n) : (recovered s n).dres = s.dres := by rfl

/-! ## Synchronous commands -/

theorem createCmd_formed : CommitsFormed createCmd := fun _ _ _ h => formed_of_eq (createCarrel_dres ..) h

theorem configCmd_formed : CommitsFormed configCmd := fun _ _ _ h => formed_of_eq (by simp [configCmd]) h

theorem activateCmd_formed : CommitsFormed activateCmd := fun _ _ _ h => formed_of_eq (by simp [activateCmd]) h

theorem quiesceCmd_formed : CommitsFormed quiesceCmd := by
  intro s fn p h
  simp only [quiesceCmd]
  split
  · exact formed_of_eq (by simp) h
  · refine formed_of_eq (archiveCarrel_dres _) (formed_of_eq (stopBackground_dres _) (formed_ite_step
      (foldl_formed fun _ _ h => abortLong_formed h) (abortStaged_formed (formed_of_eq (setCarrelState_dres ..) h))))

theorem freezeCmd_formed : CommitsFormed freezeCmd := fun _ _ _ h => formed_of_eq (by simp [freezeCmd]) h

theorem importCarrelCmd_formed : CommitsFormed importCarrelCmd := by
  intro s fn p h
  simp only [importCarrelCmd]
  split
  · exact formed_of_eq (installImage_dres ..) h
  · exact h

theorem resetCmd_formed : CommitsFormed resetCmd := fun _ _ _ h =>
  formed_of_eq (archiveCarrel_dres _) (formed_of_eq (setCarrelState_dres ..) (formed_of_eq (withdrawAddresses_dres _)
    (formed_of_eq (bumpEpoch_dres ..) (foldl_frame (fun _ _ => deaccessionCommit_dres _) (resetCarrel_formed h)))))

theorem hopCreateCmd_formed : CommitsFormed hopCreateCmd := by
  intro s fn p h
  simp only [hopCreateCmd]
  split <;> exact formed_of_eq (by simp) h

theorem hopConfigCmd_formed : CommitsFormed hopConfigCmd := by
  intro s fn p h
  simp only [hopConfigCmd]
  split <;> exact formed_of_eq (by simp) h

theorem hopStartCmd_formed : CommitsFormed hopStartCmd := fun _ _ _ h => formed_of_eq (by simp [hopStartCmd]) h

theorem hopStopCmd_formed : CommitsFormed hopStopCmd := fun _ _ _ h =>
  formed_of_eq (archiveCarrel_dres _) (breakOpenChain_formed (formed_of_eq (setHopState_dres ..) h))

theorem hopDeleteCmd_formed : CommitsFormed hopDeleteCmd :=
  fun _ _ _ h => formed_of_eq (archiveCarrel_dres _) (deleteHopper_formed h)

theorem hopResetCmd_formed : CommitsFormed hopResetCmd := fun _ _ _ h => h

theorem tokenIssueCmd_formed : CommitsFormed tokenIssueCmd := fun _ _ _ h => formed_of_eq (putToken_dres ..) h

theorem tokenRevokeCmd_formed : CommitsFormed tokenRevokeCmd := fun _ _ _ h =>
  formed_ite_step (foldl_formed fun _ _ h => closeQp_formed h) (formed_of_eq (revokeToken_dres _) h)

theorem bindStaticCmd_formed : CommitsFormed bindStaticCmd :=
  fun _ _ _ h => formed_ite_step (formed_of_eq (establish_dres ..)) h

theorem bindReleaseCmd_formed : CommitsFormed bindReleaseCmd := fun _ _ _ h => closeQp_formed h

theorem setAttrCmd_formed : CommitsFormed setAttrCmd := fun _ _ _ h => formed_of_eq (putAttrs_dres ..) h

/-! ## Acknowledged records and the passing of time -/

theorem syncCmdOf_formed {code c} (hc : syncCmdOf code = some c) : CommitsFormed c := by
  unfold syncCmdOf at hc
  split at hc <;> cases hc
  · exact createCmd_formed
  · exact configCmd_formed
  · exact activateCmd_formed
  · exact quiesceCmd_formed
  · exact freezeCmd_formed
  · exact importCarrelCmd_formed
  · exact resetCmd_formed
  · exact hopCreateCmd_formed
  · exact hopConfigCmd_formed
  · exact hopStartCmd_formed
  · exact hopStopCmd_formed
  · exact hopDeleteCmd_formed
  · exact hopResetCmd_formed
  · exact tokenIssueCmd_formed
  · exact tokenRevokeCmd_formed
  · exact bindStaticCmd_formed
  · exact bindReleaseCmd_formed
  · exact setAttrCmd_formed

theorem commitSync_formed {fn c} (hc : CommitsFormed c) (h : DresFormed s.dres) : DresFormed (commitSync s fn c).dres := by
  unfold commitSync
  dsimp only
  split
  · exact formed_of_eq (respond_dres ..) h
  · exact formed_of_eq (respond_dres ..) (hc _ _ _ h)

theorem commitMirrored_formed {fn} (h : DresFormed s.dres) : DresFormed (commitMirrored s fn).dres := by
  refine formed_ite (formed_of_eq (importAcked_dres _) h) ?_
  split
  next hc => exact commitSync_formed (syncCmdOf_formed hc) h
  · exact h

theorem chainPeer_formed {head} (h : DresFormed s.dres) : DresFormed (chainPeer s head).dres :=
  tryChain_formed (foldl_frame (fun _ _ => by rfl) h)

theorem acked_formed {n w} (h : DresFormed s.dres) : DresFormed (acked s n w).dres := by
  cases w with
  | chain head => exact chainPeer_formed h
  | deaccession slot => exact tryDeac_formed h
  | lease slot => exact formed_of_eq (by simp [acked]) h
  | mailbox fn => exact underMbx_formed (fun _ h => commitMirrored_formed h) h
  | weed slot => exact formed_of_eq (by simp [acked]) h
  | useBlock slot ceiling => exact formed_of_eq (by simp [acked]) h
  | quiesced c => exact formed_of_eq (by simp [acked]) h

theorem tick_formed (h : DresFormed s.dres) : DresFormed (tick s).dres := mirrorIdle_formed h

end Sys2Proof.Machine
end

section
/-!
SUPPORT. Each command of the machine, and the step, keep the form of the digest result registers (R256).
-/

namespace Sys2Proof.Machine

variable {s : State}

/-! ## What mailbox commands share -/

theorem withRandom_formed {n k} (hk : ∀ t b, DresFormed t.dres → CmdFormed (k t b)) (h : DresFormed s.dres) :
    CmdFormed (withRandom s n k) := by
  have hr : DresFormed (sysRequest s n).1.dres := formed_of_eq (sysRequest_dres _) h
  unfold withRandom
  split
  · exact h
  · exact h
  · split <;> rename_i heq <;> rw [heq] at hr
    · exact hk _ _ hr
    · exact hr

theorem hostWrite_formed {fn addr room b a} (h : DresFormed s.dres) : CmdFormed (hostWrite s fn addr room b a) := .ite h h

theorem startPair_formed {p st} (h : DresFormed s.dres) : CmdFormed (startPair s p st) := formed_of_eq (setPair_dres _) h

theorem startDeac_formed {fn n host recs sync c} (h : DresFormed s.dres) : CmdFormed (startDeac s fn n host recs sync c) := by
  refine .ite h (.ite (formed_of_eq syncRefused_dres h) ?_)
  extract_lets m _ t1 t2 t3 t4
  have h4 : DresFormed t4.dres :=
    formed_ite_step (formed_of_eq (sendSync_dres ..)) (formed_ite_step (formed_of_eq (queueRecord_dres _)) h)
  exact .ite h4 (commitDeac_formed h4)

/-! ## Operations of call slips -/

theorem execStfKeygen_formed {sid} (h : DresFormed s.dres) : AnswersFormed (execStfKeygen sid s) := by
  grind [execStfKeygen, answersFormed_next, runOp_dres, bindCounter_dres, stfKeygen_dres]

theorem execStfSign_formed {sid} (h : DresFormed s.dres) : AnswersFormed (execStfSign sid s) := by
  grind [execStfSign, answersFormed_next, runOp_dres, takeLeaf_formed, stfSign_dres]

theorem execPass1Done_formed {sid} (h : DresFormed s.dres) : AnswersFormed (execPass1Done sid s) := by
  grind [execPass1Done, answersFormed_next, startUses_dres, finishOp_dres, State.modSlip_dres, State.drawn_dres,
    issueReads_dres]

theorem execCtlRandom_formed {sid} (h : DresFormed s.dres) : AnswersFormed (execCtlRandom sid s) := by
  unfold execCtlRandom
  split
  · exact ⟨_, rfl, h⟩
  · dsimp only
    split
    next heq => exact ⟨_, rfl, formed_of_eq (by rw [runOp_dres fun _ _ => rfl, cliRequest_dres heq]) h⟩
    · exact .ite ⟨_, rfl, h⟩ ⟨_, rfl, formed_of_eq (by simp) h⟩

/-! ## Checks and dispatch -/

theorem execDispatch_formed {e} (h : DresFormed s.dres) : AnswersFormed (execDispatch e s) := by
  have hs : DresFormed (noteLeaseWait (checkReady s)).dres := formed_of_eq noteLeaseWait_dres (checkReady_formed h)
  cases e with
  | none => exact ⟨_, rfl, formed_of_eq startBare_dres hs⟩
  | pipe | floor | tun | kiln => exact ⟨_, rfl, dispatchRound_formed hs⟩

theorem execWakeComplete_formed {e cluster} (h : DresFormed s.dres) : AnswersFormed (execWakeComplete e cluster s) := by
  unfold execWakeComplete
  split <;> simp [h]

theorem execClusterNap_formed {e cluster} (h : DresFormed s.dres) : AnswersFormed (execClusterNap e cluster s) := by
  simp [execClusterNap, h]

theorem execClusterDormant_formed {e cluster} (h : DresFormed s.dres) : AnswersFormed (execClusterDormant e cluster s) := by
  unfold execClusterDormant
  split <;> simp [h]

/-! ## Fetching, running and completing -/

theorem execHopperFetch_formed {hopper n} (h : DresFormed s.dres) : AnswersFormed (execHopperFetch hopper n s) := by
  unfold execHopperFetch
  split <;> simp [h]

theorem execExecutionComplete_formed {sid actualNs} (h : DresFormed s.dres) :
    AnswersFormed (execExecutionComplete sid actualNs s) := by
  grind [execExecutionComplete, answersFormed_next, correct_dres, passSlip_formed, failSlip_formed, routineEnd_formed,
    stageEnd_formed]

theorem execLongSuspend_formed {sid} (h : DresFormed s.dres) : AnswersFormed (execLongSuspend sid s) := by
  unfold execLongSuspend
  split
  · exact ⟨_, rfl, h⟩
  · split
    · exact ⟨_, rfl, h⟩
    · split
      · exact ⟨_, rfl, abortRunning_formed h⟩
      · split
        · exact ⟨_, rfl, formed_of_eq (by simp) h⟩
        · exact ⟨_, rfl, h⟩

theorem execLongQuantumEnd_formed {sid} (h : DresFormed s.dres) : AnswersFormed (execLongQuantumEnd sid s) := by
  unfold execLongQuantumEnd
  split
  · exact ⟨_, rfl, h⟩
  · split
    · exact ⟨_, rfl, h⟩
    · split
      · exact ⟨_, rfl, abortRunning_formed h⟩
      · split
        · exact ⟨_, rfl, formed_of_eq (by simp) h⟩
        · exact ⟨_, rfl, h⟩

theorem execHopperStopped_formed {hopper} (h : DresFormed s.dres) : AnswersFormed (execHopperStopped hopper s) := by
  unfold execHopperStopped
  split <;> simp [h]

theorem execTunScrubDone_formed {t} (h : DresFormed s.dres) : AnswersFormed (execTunScrubDone t s) := by
  simp [execTunScrubDone, h]

theorem execKilnWipeDone_formed {k} (h : DresFormed s.dres) : AnswersFormed (execKilnWipeDone k s) := by
  simp [execKilnWipeDone, h]

/-! ## Queue pairs and ports -/

theorem execDoorbellWrite_formed {qpn psn ce rkey off data} (h : DresFormed s.dres) :
    AnswersFormed (execDoorbellWrite qpn psn ce rkey off data s) := by
  unfold execDoorbellWrite
  split
  · exact ⟨_, rfl, h⟩
  · refine .ite ⟨_, rfl, h⟩ ?_
    extract_lets c behind n ks hs admitted t
    have hc : DresFormed c.dres := formed_of_eq (cnpFor_dres ..) h
    have ht : DresFormed t.dres := by
      refine formed_of_eq ?_ hc
      unfold t
      split <;> rfl
    refine .ite ⟨_, rfl, formed_ite hc hc⟩ (.ite ⟨_, rfl, qpError_formed hc⟩ (.ite ⟨_, rfl, qpError_formed hc⟩ ?_))
    refine .ite ⟨_, rfl, foldl_formed (fun _ _ h => doorbellError_formed h) ht⟩ ⟨_, rfl, foldl_formed (fun _ _ h => ?_) ht⟩
    split
    · exact doorbellRecord_formed h
    · exact h

theorem execHostDoorbell_formed {fn off data} (h : DresFormed s.dres) : AnswersFormed (execHostDoorbell fn off data s) := by
  grind [execHostDoorbell, answersFormed_next, hostRecord_formed, doorbellError_formed]

theorem execCmReq_formed {r} (h : DresFormed s.dres) : AnswersFormed (execCmReq r s) := by
  unfold execCmReq
  dsimp only
  split
  · exact ⟨_, rfl, h⟩
  · refine ⟨_, rfl, formed_ite_step (formed_of_eq (sendRep_dres _))
      (foldl_frame (fun _ o => ?_) (foldl_formed (fun _ _ h => closeQp_formed h) h))⟩
    split <;> rfl
  · exact ⟨_, rfl, h⟩

theorem execRebindDrainDone_formed {qpn} (h : DresFormed s.dres) : AnswersFormed (execRebindDrainDone qpn s) := by
  unfold execRebindDrainDone
  split
  · split
    · exact ⟨_, rfl, rebindOn_formed h⟩
    · exact ⟨_, rfl, h⟩
  · exact ⟨_, rfl, h⟩

theorem execRebindDrainTimeout_formed {qpn} (h : DresFormed s.dres) : AnswersFormed (execRebindDrainTimeout qpn s) := by
  unfold execRebindDrainTimeout
  split
  · exact ⟨_, rfl, rebindOn_formed h⟩
  · exact ⟨_, rfl, h⟩

theorem execCmRtu_formed {qpn} (h : DresFormed s.dres) : AnswersFormed (execCmRtu qpn s) := by
  unfold execCmRtu
  split <;> simp [h]

theorem execCmDreq_formed {qpn} (h : DresFormed s.dres) : AnswersFormed (execCmDreq qpn s) := by
  unfold execCmDreq
  split
  · exact ⟨_, rfl, h⟩
  · exact ⟨_, rfl, failOutstanding_formed (formed_of_eq (by simp) h)⟩

theorem execCmDrep_formed {qpn} (h : DresFormed s.dres) : AnswersFormed (execCmDrep qpn s) := by
  unfold execCmDrep
  split <;> simp [h]

theorem execRdmaReadResponse_formed {qpn rid ce data} (h : DresFormed s.dres) :
    AnswersFormed (execRdmaReadResponse qpn rid ce data s) := by
  grind [execRdmaReadResponse, answersFormed_next, settleReq_formed, cnpFor_dres, afterAck_dres, deliverData_formed,
    failReq_formed, qpError_formed]

theorem execRdmaWriteAck_formed {qpn rid ce} (h : DresFormed s.dres) : AnswersFormed (execRdmaWriteAck qpn rid ce s) := by
  grind [execRdmaWriteAck, answersFormed_next, afterAck_dres, written_formed, settleReq_formed, cnpFor_dres]

theorem execNakRemoteAccessError_formed {qpn rid} (h : DresFormed s.dres) :
    AnswersFormed (execNakRemoteAccessError qpn rid s) := by
  unfold execNakRemoteAccessError
  split
  · exact ⟨_, rfl, qpError_formed (foldl_formed (fun _ _ h => written_formed h) h)⟩
  · exact ⟨_, rfl, h⟩

theorem execNakPsnSequenceError_formed {qpn rid} (h : DresFormed s.dres) :
    AnswersFormed (execNakPsnSequenceError qpn rid s) := by
  unfold execNakPsnSequenceError
  split <;> simp [h]

theorem execNakInvalidRequest_formed {qpn rid} (h : DresFormed s.dres) : AnswersFormed (execNakInvalidRequest qpn rid s) := by
  unfold execNakInvalidRequest
  split
  · exact ⟨_, rfl, qpError_formed h⟩
  · exact ⟨_, rfl, h⟩

theorem execRnrNak_formed {qpn rid} (h : DresFormed s.dres) : AnswersFormed (execRnrNak qpn rid s) := by
  unfold execRnrNak
  split <;> simp [h]

theorem execRnrRetry_formed {qpn rid} (h : DresFormed s.dres) : AnswersFormed (execRnrRetry qpn rid s) := by
  unfold execRnrRetry
  split
  · split
    · exact ⟨_, rfl, h⟩
    · split
      · exact ⟨_, rfl, qpError_formed h⟩
      · exact ⟨_, rfl, formed_of_eq (by simp) h⟩
  · exact ⟨_, rfl, h⟩

theorem execAckTimeout_formed {qpn} (h : DresFormed s.dres) : AnswersFormed (execAckTimeout qpn s) := by
  unfold execAckTimeout
  split
  · exact ⟨_, rfl, h⟩
  · split
    · exact ⟨_, rfl, h⟩
    · split
      · exact ⟨_, rfl, h⟩
      · split
        · exact ⟨_, rfl, qpError_formed h⟩
        · exact ⟨_, rfl, h⟩

theorem execInvalidRequestPacket_formed {qpn psn} (h : DresFormed s.dres) :
    AnswersFormed (execInvalidRequestPacket qpn psn s) := by
  unfold execInvalidRequestPacket
  split
  · exact ⟨_, rfl, qpError_formed h⟩
  · exact ⟨_, rfl, h⟩

theorem execCnpReceived_formed {qpn} (h : DresFormed s.dres) : AnswersFormed (execCnpReceived qpn s) := by
  unfold execCnpReceived
  split <;> simp [h]

theorem execRatePeriod_formed {qpn} (h : DresFormed s.dres) : AnswersFormed (execRatePeriod qpn s) := by
  unfold execRatePeriod
  split <;> simp [h]

theorem execFrameDiscarded_formed {port vlan why} (h : DresFormed s.dres) :
    AnswersFormed (execFrameDiscarded port vlan why s) := by
  unfold execFrameDiscarded
  split
  · exact ⟨_, rfl, h⟩
  · exact ⟨_, rfl, h⟩
  · split <;> exact ⟨_, rfl, h⟩

theorem execArpRequest_formed {port vlan senderMac senderIp targetIp} (h : DresFormed s.dres) :
    AnswersFormed (execArpRequest port vlan senderMac senderIp targetIp s) := by
  unfold execArpRequest
  split <;> simp [h]

theorem execNeighborSolicitation_formed {port vlan senderMac senderIp targetIp} (h : DresFormed s.dres) :
    AnswersFormed (execNeighborSolicitation port vlan senderMac senderIp targetIp s) := by
  unfold execNeighborSolicitation
  split <;> simp [h]

theorem execResolutionRetry_formed {carrel ip} (h : DresFormed s.dres) : AnswersFormed (execResolutionRetry carrel ip s) := by
  unfold execResolutionRetry
  split
  · split
    · split <;> exact ⟨_, rfl, h⟩
    · exact ⟨_, rfl, h⟩
  · exact ⟨_, rfl, h⟩

theorem execNextHopCacheExpiry_formed {carrel ip} (h : DresFormed s.dres) :
    AnswersFormed (execNextHopCacheExpiry carrel ip s) := by
  unfold execNextHopCacheExpiry
  split
  · split
    · exact ⟨_, rfl, h⟩
    · split <;> exact ⟨_, rfl, h⟩
  · exact ⟨_, rfl, h⟩

theorem execGratuitousArp_formed {carrel} (h : DresFormed s.dres) : AnswersFormed (execGratuitousArp carrel s) := by
  unfold execGratuitousArp
  split <;> simp [h]

theorem execPauseFrame_formed {port prio quanta} (h : DresFormed s.dres) :
    AnswersFormed (execPauseFrame port prio quanta s) := by
  simp [execPauseFrame, h]

theorem execPfcIgnoreRelease_formed {port prio} (h : DresFormed s.dres) :
    AnswersFormed (execPfcIgnoreRelease port prio s) := by
  simp [execPfcIgnoreRelease, h]

theorem execLinkUp_formed {port} (h : DresFormed s.dres) : AnswersFormed (execLinkUp port s) := by simp [execLinkUp, h]

theorem execHostDmaCompletion_formed {fn rid r} (h : DresFormed s.dres) :
    AnswersFormed (execHostDmaCompletion fn rid r s) := by
  grind [execHostDmaCompletion, answersFormed_next, failReq_formed, reportHop_formed, deliverData_formed]

/-! ## The ledger, the catalogue and carrel records -/

theorem execLedgerWriteDone_formed {counter ok} (h : DresFormed s.dres) :
    AnswersFormed (execLedgerWriteDone counter ok s) := by
  unfold execLedgerWriteDone
  split
  · dsimp only
    split
    · exact ⟨_, rfl, h⟩
    · exact ⟨_, rfl, formed_of_eq (by simp) h⟩
  · dsimp only
    split
    · exact ⟨_, rfl, h⟩
    · split <;> exact ⟨_, rfl, reportSrc_formed (formed_of_eq (by simp) h)⟩

theorem execLedgerRefresh_formed (h : DresFormed s.dres) : AnswersFormed (execLedgerRefresh s) := by
  simp [execLedgerRefresh, h]

theorem execTreeBuildQuantum_formed {slot level} (h : DresFormed s.dres) :
    AnswersFormed (execTreeBuildQuantum slot level s) := by
  unfold execTreeBuildQuantum
  dsimp only
  split <;> simp [h]

theorem execTreeCacheRestored_formed {slot} (h : DresFormed s.dres) : AnswersFormed (execTreeCacheRestored slot s) := by
  unfold execTreeCacheRestored
  split
  · exact ⟨_, rfl, h⟩
  · refine .ite ⟨_, rfl, h⟩ ?_
    split <;> exact ⟨_, rfl, h⟩

theorem execWeedingPass_formed (h : DresFormed s.dres) : AnswersFormed (execWeedingPass s) := by simp [execWeedingPass, h]

theorem execArchiveRecordDue_formed {slot} (h : DresFormed s.dres) : AnswersFormed (execArchiveRecordDue slot s) := by
  unfold execArchiveRecordDue
  split
  · exact ⟨_, rfl, h⟩
  · split
    · exact ⟨_, rfl, h⟩
    · exact .ite ⟨_, rfl, h⟩ ⟨_, rfl, h⟩

/-! ## The mirror pair -/

theorem execMirrorBatch_formed (h : DresFormed s.dres) : AnswersFormed (execMirrorBatch s) := by simp [execMirrorBatch, h]

theorem execBatchAck_formed {b} (h : DresFormed s.dres) : AnswersFormed (execBatchAck b s) := by
  unfold execBatchAck
  split <;> simp [h]

theorem execBatchReceived_formed {b} (h : DresFormed s.dres) : AnswersFormed (execBatchReceived b s) := by
  unfold execBatchReceived
  refine .ite ⟨_, rfl, h⟩ ⟨_, rfl, foldl_frame (fun _ _ => by exact State.modHopper_dres ..) ?_⟩
  exact foldl_frame (fun _ _ => storeHop_dres _) h

theorem execSyncRecord_formed {r} (h : DresFormed s.dres) : AnswersFormed (execSyncRecord r s) := by
  grind [execSyncRecord, answersFormed_next, applySync_dres, State.send_dres]

theorem execHeartbeatLost_formed (h : DresFormed s.dres) : AnswersFormed (execHeartbeatLost s) :=
  .ite ⟨_, rfl, h⟩ ⟨_, rfl, formed_ite (takeAll_formed (reportSrc_formed h)) (reportSrc_formed h)⟩

theorem execLinkKeyRenewal_formed (h : DresFormed s.dres) : AnswersFormed (execLinkKeyRenewal s) := by
  simp [execLinkKeyRenewal, h]

/-! ## The registrar and the mailbox commands -/

theorem execEntropyWaitTimeout_formed {fn} (h : DresFormed s.dres) : AnswersFormed (execEntropyWaitTimeout fn s) := by
  unfold execEntropyWaitTimeout
  split <;> simp [h]

theorem execMbxNop_formed {fn} (h : DresFormed s.dres) : AnswersFormed (execMbxNop fn s) := by
  refine .ite ⟨_, rfl, ?_⟩ ⟨_, rfl, serve_formed (fun _ _ h => h) h⟩
  exact formed_of_eq (serveUnknown_dres _) h

theorem execAuthLogin_formed {fn} (h : DresFormed s.dres) : AnswersFormed (execAuthLogin fn s) := by
  refine ⟨_, rfl, serve_formed (fun t p h => ?_) h⟩
  refine .ite h (.ite h (.ite (loginFailed_formed h) (withRandom_formed (fun u b h => ⟨?_, fun v h => ?_⟩) h)))
  · exact formed_ite (formed_of_eq (closeSession_dres _) h) h
  · exact formed_ite (formed_of_eq (sessionEvent_dres ..) h) h

theorem execAuthLogout_formed {fn} (h : DresFormed s.dres) : AnswersFormed (execAuthLogout fn s) := by
  refine ⟨_, rfl, serve_formed (fun s p h => ?_) h⟩
  dsimp only
  grind [cmdFormed_done, cmdFormed_wait, cmdFormed_doneThen, closeSession_dres, sessionEvent_dres]

theorem execSessionCfg_formed {fn} (h : DresFormed s.dres) : AnswersFormed (execSessionCfg fn s) :=
  ⟨_, rfl, serve_formed (fun _ _ h => by simp [h]) h⟩

theorem execSessionIdleTimeout_formed {fn} (h : DresFormed s.dres) : AnswersFormed (execSessionIdleTimeout fn s) := by
  unfold execSessionIdleTimeout
  split <;> simp [h]

theorem execAdmEnrol_formed {fn} (h : DresFormed s.dres) : AnswersFormed (execAdmEnrol fn s) := by
  refine ⟨_, rfl, serve_formed (fun s p h => ?_) h⟩
  dsimp only
  grind [cmdFormed_done, cmdFormed_wait, cmdFormed_doneThen, unenrol_dres, archiveCarrel_dres]

theorem execAdmRemove_formed {fn} (h : DresFormed s.dres) : AnswersFormed (execAdmRemove fn s) :=
  ⟨_, rfl, serve_formed (fun _ _ h => by simp [h]) h⟩

theorem execOctConfig_formed {fn} (h : DresFormed s.dres) : AnswersFormed (execOctConfig fn s) := by
  refine .ite ⟨_, rfl, h⟩ ⟨_, rfl, serve_formed (fun s p h => ?_) h⟩
  dsimp only
  grind [cmdFormed_done, cmdFormed_wait, cmdFormed_doneThen, setOctetCfg_formed]

theorem execFecthOnly_formed {fn} (h : DresFormed s.dres) : AnswersFormed (execFecthOnly fn s) :=
  .ite ⟨_, rfl, h⟩ ⟨_, rfl, serve_formed (fun _ _ h => by simp [h]) h⟩

theorem execWarmMinSet_formed {fn} (h : DresFormed s.dres) : AnswersFormed (execWarmMinSet fn s) :=
  ⟨_, rfl, serve_formed (fun _ _ h => by simp [h]) h⟩

theorem execDirectCntSet_formed {fn} (h : DresFormed s.dres) : AnswersFormed (execDirectCntSet fn s) :=
  ⟨_, rfl, serve_formed (fun _ _ h => by simp [h]) h⟩

theorem execLedQuery_formed {fn} (h : DresFormed s.dres) : AnswersFormed (execLedQuery fn s) :=
  ⟨_, rfl, serve_formed (fun _ _ h => by simp [h]) h⟩

theorem execTombstoneWaitTimeout_formed {slot} (h : DresFormed s.dres) : AnswersFormed (execTombstoneWaitTimeout slot s) := by
  unfold execTombstoneWaitTimeout
  refine .ite ⟨_, rfl, h⟩ ?_
  split
  · exact ⟨_, rfl, h⟩
  · exact ⟨_, rfl, formed_of_eq (by simp) h⟩
  · exact ⟨_, rfl, foldl_formed (fun _ _ h => refuseChain_formed h) h⟩

theorem execCrlCreate_formed {fn} (h : DresFormed s.dres) : AnswersFormed (execCrlCreate fn s) := by
  refine .ite ⟨_, rfl, h⟩ ⟨_, rfl, serve_formed (fun t p h => ?_) h⟩
  split
  · exact h
  · exact withRandom_formed (fun _ _ h => syncBody_formed createCmd_formed h) h

theorem execQuiesceComplete_formed {carrel} (h : DresFormed s.dres) : AnswersFormed (execQuiesceComplete carrel s) := by
  simp [execQuiesceComplete, h]

theorem execCrlAnchorRenew_formed {fn} (h : DresFormed s.dres) : AnswersFormed (execCrlAnchorRenew fn s) := by
  refine ⟨_, rfl, serve_formed (fun t p h => .ite h ?_) h⟩
  split
  · exact h
  · exact withRandom_formed (fun _ _ h => startDeac_formed h) h

theorem execHopQuery_formed {fn} (h : DresFormed s.dres) : AnswersFormed (execHopQuery fn s) := by
  refine ⟨_, rfl, serve_formed (fun t p h => ?_) h⟩
  split
  · exact .ite h h
  · exact h

theorem execBindTokenIssue_formed {fn} (h : DresFormed s.dres) : AnswersFormed (execBindTokenIssue fn s) := by
  refine .ite ⟨_, rfl, h⟩ ⟨_, rfl, serve_formed (fun t p h => ?_) h⟩
  split
  · exact h
  · exact withRandom_formed (fun _ _ h => syncBody_formed tokenIssueCmd_formed h) h

theorem execCatImport_formed {fn host} (h : DresFormed s.dres) : AnswersFormed (execCatImport fn host s) := by
  refine .ite ⟨_, rfl, h⟩ ⟨_, rfl, serve_formed (fun s p h => ?_) h⟩
  dsimp only
  split <;> simp [h]

theorem execCatReplace_formed {fn host} (h : DresFormed s.dres) : AnswersFormed (execCatReplace fn host s) := by
  refine ⟨_, rfl, serve_formed (fun t p h => ?_) h⟩
  dsimp only
  split
  · exact h
  · split
    · exact h
    · exact startDeac_formed h

theorem execCatDeaccessionCmd_formed {fn} (h : DresFormed s.dres) : AnswersFormed (execCatDeaccessionCmd fn s) := by
  refine ⟨_, rfl, serve_formed (fun t p h => ?_) h⟩
  dsimp only
  split
  · exact h
  · split
    · exact h
    · exact startDeac_formed h

theorem execCatQuery_formed {fn} (h : DresFormed s.dres) : AnswersFormed (execCatQuery fn s) :=
  ⟨_, rfl, serve_formed (fun _ _ h => by simp [h]) h⟩

theorem execCatEnrolSigner_formed {fn} (h : DresFormed s.dres) : AnswersFormed (execCatEnrolSigner fn s) := by
  refine ⟨_, rfl, serve_formed (fun s p h => ?_) h⟩
  dsimp only
  split <;> simp [h]

theorem execPairingComplete_formed {r} (h : DresFormed s.dres) : AnswersFormed (execPairingComplete r s) := by
  unfold execPairingComplete
  refine .ite ⟨_, rfl, h⟩ ?_
  split
  · exact ⟨_, rfl, formed_of_eq (by simp) h⟩
  · exact ⟨_, rfl, formed_of_eq (by simp) h⟩
  · exact ⟨_, rfl, formed_of_eq (by simp) h⟩
  · exact .ite ⟨_, rfl, formed_of_eq (by simp) h⟩ ⟨_, rfl, completePairing_formed h⟩

theorem execMirUnpair_formed {fn} (h : DresFormed s.dres) : AnswersFormed (execMirUnpair fn s) := by
  refine ⟨_, rfl, serve_formed (fun _ _ h => .ite h ?_) h⟩
  exact endMirroring_formed (foldl_formed (fun _ _ h => destroyCopy_formed h) h)

theorem execMirArbitrate_formed {fn} (h : DresFormed s.dres) : AnswersFormed (execMirArbitrate fn s) := by
  refine ⟨_, rfl, serve_formed (fun _ _ h => .ite h (.ite h (formed_of_eq (setPair_dres _) ?_))) h⟩
  exact foldl_formed (fun _ _ h => keepCarrel_formed h) (foldl_formed (fun _ _ h => yieldCarrel_formed h) h)

theorem execMirRehome_formed {fn} (h : DresFormed s.dres) : AnswersFormed (execMirRehome fn s) :=
  ⟨_, rfl, serve_formed (fun _ _ h => by simp [h]) h⟩

theorem execAttQuote_formed {fn} (h : DresFormed s.dres) : AnswersFormed (execAttQuote fn s) := by
  refine ⟨_, rfl, serve_formed (fun t p h => ?_) h⟩
  simp [h, hostWrite_formed]

theorem execCrlRestoreOffer_formed {fn} (h : DresFormed s.dres) : AnswersFormed (execCrlRestoreOffer fn s) := by
  refine .ite ⟨_, rfl, h⟩ ⟨_, rfl, serve_formed (fun t p h => .ite h (.ite h ?_)) h⟩
  split
  · exact h
  · exact withRandom_formed (fun _ _ h => hostWrite_formed h) h

theorem execCrlSaveAccept_formed {fn host certs} (h : DresFormed s.dres) :
    AnswersFormed (execCrlSaveAccept fn host certs s) := by
  refine .ite ⟨_, rfl, h⟩ ⟨_, rfl, serve_formed (fun t p h => .ite h (.ite h ?_)) h⟩
  split
  · exact h
  · split
    · exact h
    · split
      · exact h
      · exact withRandom_formed (fun _ _ h => hostWrite_formed h) h

theorem execCrlRestoreConfirm_formed {fn host certs} (h : DresFormed s.dres) :
    AnswersFormed (execCrlRestoreConfirm fn host certs s) := by
  refine .ite ⟨_, rfl, h⟩ ⟨_, rfl, serve_formed (fun t p h => ?_) h⟩
  dsimp only
  split
  · exact h
  · refine .ite h ?_
    split
    · exact h
    · split
      · exact h
      · exact withRandom_formed (fun _ _ h => hostWrite_formed h) h

theorem execCrlSaveExport_formed {fn host certs} (h : DresFormed s.dres) :
    AnswersFormed (execCrlSaveExport fn host certs s) := by
  refine .ite ⟨_, rfl, h⟩ ⟨_, rfl, serve_formed (fun t p h => ?_) h⟩
  dsimp only
  split
  · exact h
  · refine .ite h ?_
    split
    · exact h
    · split
      · exact h
      · exact formed_of_eq (by simp) h

/-! ## Entropy and faults -/

theorem execEntWindowComplete_formed {src samples} (h : DresFormed s.dres) :
    AnswersFormed (execEntWindowComplete src samples s) := by
  refine .ite ⟨_, rfl, h⟩ ?_
  split
  · exact ⟨_, rfl, latchOut_formed h⟩
  · exact ⟨_, rfl, formed_of_eq (by simp) h⟩

theorem execEntTestPattern_formed {fn} (h : DresFormed s.dres) : AnswersFormed (execEntTestPattern fn s) :=
  ⟨_, rfl, serve_formed (fun _ _ h => by simp [h]) h⟩

theorem execEntRawCapture_formed {fn samples} (h : DresFormed s.dres) : AnswersFormed (execEntRawCapture fn samples s) :=
  ⟨_, rfl, serve_formed (fun _ _ h => by simp [h]) h⟩

theorem execRetestComplete_formed {e phys fail} (h : DresFormed s.dres) :
    AnswersFormed (execRetestComplete e phys fail s) := by
  unfold execRetestComplete
  split
  · exact ⟨_, rfl, h⟩
  · exact ⟨_, rfl, formed_ite (unitFault_formed h) h⟩
  · exact ⟨_, rfl, formed_of_eq (by simp) h⟩
  · exact ⟨_, rfl, h⟩

theorem execCheckerReport_formed {events} (h : DresFormed s.dres) : AnswersFormed (execCheckerReport events s) := by
  have ht := reportAll_formed (rs := events.filter (reported s)) h
  exact ⟨_, rfl, formed_ite ht (foldl_formed (fun _ _ h => afterReport_formed h) ht)⟩

theorem execSetSource_formed {fn} (h : DresFormed s.dres) : AnswersFormed (execSetSource fn s) := by
  unfold execSetSource
  refine .ite ⟨_, rfl, h⟩ (.ite ⟨_, rfl, serve_formed (fun _ _ h => h) h⟩ ?_)
  exact ⟨_, rfl, serve_formed (fun _ _ h => .ite h (formed_of_eq (queueRecord_dres _) h)) h⟩

theorem execSetProfile_formed {fn} (h : DresFormed s.dres) : AnswersFormed (execSetProfile fn s) :=
  .ite ⟨_, rfl, h⟩ ⟨_, rfl, serve_formed (fun _ _ h => by simp [h]) h⟩

theorem execFiArm_formed {fn} (h : DresFormed s.dres) : AnswersFormed (execFiArm fn s) :=
  .ite ⟨_, rfl, h⟩ ⟨_, rfl, serve_formed (fun _ _ h => by simp [h]) h⟩

/-! ## The folio -/

theorem execCartridgeInsert_formed {slot} (h : DresFormed s.dres) : AnswersFormed (execCartridgeInsert slot s) := by
  simp [execCartridgeInsert, h]

theorem execCartridgeRemove_formed {slot} (h : DresFormed s.dres) : AnswersFormed (execCartridgeRemove slot s) := by
  grind [execCartridgeRemove, answersFormed_next, State.setFolSlot_dres, reportSrc_formed, settleQueue_formed, folEvent_dres]

theorem execCmd1Poll_formed {slot ready} (h : DresFormed s.dres) : AnswersFormed (execCmd1Poll slot ready s) := by
  unfold execCmd1Poll
  split
  · exact .ite ⟨_, rfl, h⟩ ⟨_, rfl, h⟩
  · refine .ite ⟨_, rfl, h⟩ ?_
    split
    · exact ⟨_, rfl, idFails_formed h⟩
    · exact ⟨_, rfl, h⟩

theorem execMount_formed {slot r} (h : DresFormed s.dres) : AnswersFormed (execMount slot r s) := by
  grind [execMount, answersFormed_next, State.setFolSlot_dres, idFails_formed, beginReconcile_formed, folSettles_dres,
    reportSrc_formed, ledgerRaise_dres]

theorem execReconcileComplete_formed {slot} (h : DresFormed s.dres) : AnswersFormed (execReconcileComplete slot s) :=
  .ite ⟨_, rfl, h⟩ (.ite ⟨_, rfl, formed_of_eq (by simp) h⟩ ⟨_, rfl, settleQueue_formed (formed_of_eq (by simp) h)⟩)

theorem execRecordCopyADone_formed {slot} (h : DresFormed s.dres) : AnswersFormed (execRecordCopyADone slot s) := by
  unfold execRecordCopyADone
  dsimp only
  split <;> simp [h]

theorem execRecordOnFolio_formed {slot} (h : DresFormed s.dres) : AnswersFormed (execRecordOnFolio slot s) := by
  unfold execRecordOnFolio
  dsimp only
  split
  · exact ⟨_, rfl, h⟩
  · exact ⟨_, rfl, settleQueue_formed h⟩

theorem execAnchorWrite_formed {slot} (h : DresFormed s.dres) : AnswersFormed (execAnchorWrite slot s) := by
  simp [execAnchorWrite, h]

theorem execAnchorWriteDone_formed {slot} (h : DresFormed s.dres) : AnswersFormed (execAnchorWriteDone slot s) :=
  .ite ⟨_, rfl, h⟩ ⟨_, rfl, formed_ite (settleQueue_formed (formed_of_eq (by simp) h)) (formed_of_eq (by simp) h)⟩

theorem execDevsecMark_formed (h : DresFormed s.dres) : AnswersFormed (execDevsecMark s) := by simp [execDevsecMark, h]

theorem execFolIoErr_formed {slot} (h : DresFormed s.dres) : AnswersFormed (execFolIoErr slot s) := by
  grind [execFolIoErr, answersFormed_next, State.setFolSlot_dres, settleQueue_formed, reportSrc_formed]

theorem execRetune_formed {slot ok} (h : DresFormed s.dres) : AnswersFormed (execRetune slot ok s) := by simp [execRetune, h]

theorem execLifeCheck_formed {slot life} (h : DresFormed s.dres) : AnswersFormed (execLifeCheck slot life s) := by
  grind [execLifeCheck, answersFormed_next, settleQueue_formed, checkWear_formed, State.setFolSlot_dres]

/-! ## The tuns -/

theorem execOpenStacksInvoke_formed {sid} (h : DresFormed s.dres) : AnswersFormed (execOpenStacksInvoke sid s) := by
  unfold execOpenStacksInvoke
  split
  · exact ⟨_, rfl, h⟩
  · split
    · split
      · exact ⟨_, rfl, h⟩
      · split
        · exact ⟨_, rfl, h⟩
        · exact ⟨_, rfl, formed_of_eq (by simp) h⟩
    · exact ⟨_, rfl, h⟩

theorem execTunWatchdog_formed {t} (h : DresFormed s.dres) : AnswersFormed (execTunWatchdog t s) :=
  .ite ⟨_, rfl, h⟩ (.ite ⟨_, rfl, h⟩ ⟨_, rfl, unitFault_formed h⟩)

theorem execMaskgenReseed_formed {t} (h : DresFormed s.dres) : AnswersFormed (execMaskgenReseed t s) := by
  simp [execMaskgenReseed, h]

/-! ## Images, life cycle and debug grants -/

theorem execOstkStage_formed {fn host} (h : DresFormed s.dres) : AnswersFormed (execOstkStage fn host s) := by
  refine ⟨_, rfl, serve_formed (fun s p h => ?_) h⟩
  dsimp only
  split <;> simp [h]

theorem execOstkActivate_formed {fn} (h : DresFormed s.dres) : AnswersFormed (execOstkActivate fn s) :=
  ⟨_, rfl, serve_formed (fun _ _ h => by simp [h]) h⟩

theorem execOstkRetire_formed {fn} (h : DresFormed s.dres) : AnswersFormed (execOstkRetire fn s) :=
  ⟨_, rfl, serve_formed (fun _ _ h => by simp [h]) h⟩

theorem execOstkDrainEnd_formed (h : DresFormed s.dres) : AnswersFormed (execOstkDrainEnd s) := by
  grind [execOstkDrainEnd, answersFormed_next, answerWait_dres, unmarkImage_dres, clearOpenStore_dres, onMounted_dres,
    loadImage_dres, wakeTuns_dres]

theorem execFwStage_formed {fn host} (h : DresFormed s.dres) : AnswersFormed (execFwStage fn host s) := by
  refine ⟨_, rfl, serve_formed (fun s p h => ?_) h⟩
  dsimp only
  grind [cmdFormed_done, cmdFormed_wait, cmdFormed_doneThen, setDresA_formed]

theorem execFwActivate_formed {fn} (h : DresFormed s.dres) : AnswersFormed (execFwActivate fn s) := by
  refine ⟨_, rfl, serve_formed (fun s p h => ?_) h⟩
  dsimp only
  grind [cmdFormed_done, cmdFormed_wait, cmdFormed_doneThen, chipReset_formed]

theorem execFwActivateWaitEnd_formed (h : DresFormed s.dres) : AnswersFormed (execFwActivateWaitEnd s) := by
  unfold execFwActivateWaitEnd
  split <;> simp [h]

theorem execTrialBootTimeout_formed (h : DresFormed s.dres) : AnswersFormed (execTrialBootTimeout s) := by
  simp [execTrialBootTimeout, h]

theorem execTmpShield_formed {detail} (h : DresFormed s.dres) : AnswersFormed (execTmpShield detail s) := by
  unfold execTmpShield
  split
  · exact ⟨_, rfl, h⟩
  · split
    · exact ⟨_, rfl, tamperMain_formed h⟩
    · exact ⟨_, rfl, formed_of_eq (by simp) h⟩

theorem execTmpLoop_formed {loop} (h : DresFormed s.dres) : AnswersFormed (execTmpLoop loop s) := by
  unfold execTmpLoop
  split
  · exact ⟨_, rfl, h⟩
  · split
    · exact ⟨_, rfl, tamperMain_formed h⟩
    · exact ⟨_, rfl, formed_of_eq (by simp) h⟩

theorem execShieldReseed_formed (h : DresFormed s.dres) : AnswersFormed (execShieldReseed s) := by simp [execShieldReseed, h]

theorem execTamperOutRelease_formed (h : DresFormed s.dres) : AnswersFormed (execTamperOutRelease s) := by
  simp [execTamperOutRelease, h]

theorem execLcsTransition_formed {fn railsOk vbatMv dieTemp} (h : DresFormed s.dres) :
    AnswersFormed (execLcsTransition fn railsOk vbatMv dieTemp s) := by
  refine ⟨_, rfl, serve_formed (fun s p h => ?_) h⟩
  dsimp only
  grind [cmdFormed_done, cmdFormed_wait, cmdFormed_doneThen]

theorem execLcsGroupDone_formed (h : DresFormed s.dres) : AnswersFormed (execLcsGroupDone s) := by
  unfold execLcsGroupDone
  split
  · exact ⟨_, rfl, h⟩
  · refine .ite ⟨_, rfl, h⟩ ?_
    split
    · split
      · exact ⟨_, rfl, h⟩
      · exact ⟨_, rfl, chipReset_formed _⟩
    · split
      · exact ⟨_, rfl, h⟩
      · exact ⟨_, rfl, chipReset_formed _⟩

theorem execDbgGrant_formed {fn host} (h : DresFormed s.dres) : AnswersFormed (execDbgGrant fn host s) := by
  refine ⟨_, rfl, serve_formed (fun s p h => ?_) h⟩
  dsimp only
  grind [cmdFormed_done, cmdFormed_wait, cmdFormed_doneThen, applyGrant_formed]

/-! ## Register pages and function resets -/

theorem execDpgStart_formed {fn page} (h : DresFormed s.dres) : AnswersFormed (execDpgStart fn page s) := by
  unfold execDpgStart
  split
  · exact ⟨_, rfl, h⟩
  · refine .ite ⟨_, rfl, h⟩ ?_
    dsimp only
    split <;> exact ⟨_, rfl, formed_of_eq (by simp) h⟩

theorem execDpgKey_formed {fn page idx value} (h : DresFormed s.dres) : AnswersFormed (execDpgKey fn page idx value s) := by
  simp [execDpgKey, h]

theorem execDpgDone_formed {fn page r} (h : DresFormed s.dres) : AnswersFormed (execDpgDone fn page r s) := by
  simp [execDpgDone, h]

theorem execRegisterWrite_formed {fn reg value hwSet} (h : DresFormed s.dres) :
    AnswersFormed (execRegisterWrite fn reg value hwSet s) := by
  unfold execRegisterWrite
  split <;> simp [h]

theorem execPrtOctEvt_formed {octet hw} (h : DresFormed s.dres) : AnswersFormed (execPrtOctEvt octet hw s) := by
  simp [execPrtOctEvt, h]

theorem execHopDlEvt_formed {carrel hw} (h : DresFormed s.dres) : AnswersFormed (execHopDlEvt carrel hw s) := by
  simp [execHopDlEvt, h]

theorem execDpgEvt_formed {fn page hw} (h : DresFormed s.dres) : AnswersFormed (execDpgEvt fn page hw s) := by
  simp [execDpgEvt, h]

theorem execFolSlotEvt_formed {slot hw} (h : DresFormed s.dres) : AnswersFormed (execFolSlotEvt slot hw s) := by
  simp [execFolSlotEvt, h]

/-! ## Power -/

theorem execS4Abandon_formed (h : DresFormed s.dres) : AnswersFormed (execS4Abandon s) := by
  unfold execS4Abandon
  refine .ite ⟨_, rfl, h⟩ ?_
  extract_lets s1 s2 heads s3 _ s4 s5
  have h1 : DresFormed s1.dres := foldl_frame (fun _ _ => stopUnits_dres ..) h
  have h4 : DresFormed s4.dres := foldl_formed (fun _ _ h => refuseChain_formed h) (abortSlips_formed h1)
  have h5 : DresFormed s5.dres := foldl_frame (fun _ _ => endPage_dres ..) h4
  exact ⟨_, rfl, h5⟩

theorem execS4FlushDone_formed (h : DresFormed s.dres) : AnswersFormed (execS4FlushDone s) := by
  grind [execS4FlushDone, answersFormed_next, resign_dres, anchorS4_dres, archiveFlush_formed]

theorem execMainPowerLoss_formed {warned} (h : DresFormed s.dres) : AnswersFormed (execMainPowerLoss warned s) := by
  simp [execMainPowerLoss, h]

theorem execMainPowerReturn_formed (h : DresFormed s.dres) : AnswersFormed (execMainPowerReturn s) := by
  simp [execMainPowerReturn, h]

theorem execPllUnlock_formed {pll} (h : DresFormed s.dres) : AnswersFormed (execPllUnlock pll s) := by
  grind [execPllUnlock, answersFormed_next, reportSrc_formed, pllEffect_formed]

theorem execPllRelock_formed {pll} (h : DresFormed s.dres) : AnswersFormed (execPllRelock pll s) := by simp [execPllRelock, h]

theorem execRefclkLoss_formed {ref} (h : DresFormed s.dres) : AnswersFormed (execRefclkLoss ref s) := by
  have hs := reportSrc_formed (src := 0x042) (carrel := 0xFF) (detail := BitVec.ofNat 32 ref) h
  exact .ite ⟨_, rfl, hs⟩ ⟨_, rfl, foldl_formed (fun _ _ h => portDown_formed h) hs⟩

/-! ## Boot -/

theorem execPorN_formed {release paired} (h : DresFormed s.dres) : AnswersFormed (execPorN release paired s) :=
  .ite ⟨_, rfl, h⟩ (.ite ⟨_, rfl, formed_of_eq (by simp) h⟩ ⟨_, rfl, porReset_formed _⟩)

theorem execBootHoldEnd_formed (h : DresFormed s.dres) : AnswersFormed (execBootHoldEnd s) := by simp [execBootHoldEnd, h]

theorem execBootStage3_formed {r} (h : DresFormed s.dres) : AnswersFormed (execBootStage3 r s) :=
  .ite ⟨_, rfl, h⟩ (.ite ⟨_, rfl, formed_of_eq (by simp) h⟩ ⟨_, rfl, stage3Folio_formed h⟩)

theorem execBootDieTempReached_formed (h : DresFormed s.dres) : AnswersFormed (execBootDieTempReached s) := by
  simp [execBootDieTempReached, h]

theorem execBootStage4_formed {r} (h : DresFormed s.dres) : AnswersFormed (execBootStage4 r s) := by
  grind [execBootStage4, answersFormed_next, bootTo_dres, toRecovery_dres, setDresA_formed]

theorem execBootStage5_formed {r} (h : DresFormed s.dres) : AnswersFormed (execBootStage5 r s) := by
  have hs : DresFormed ((Tab.keys (markBad (loadDefaults (bootTo s 5)) r.badCells).ledger.counters).foldl checkCounter
      (markBad (loadDefaults (bootTo s 5)) r.badCells)).dres :=
    foldl_formed (fun _ _ h => checkCounter_formed h) (formed_of_eq (by simp) h)
  refine .ite ⟨_, rfl, h⟩ (.ite ⟨_, rfl, inStage_formed (fun _ h => formed_of_eq toRecovery_dres h) hs⟩
    ⟨_, rfl, inStage_formed (fun _ h => ?_) hs⟩)
  exact formed_ite (formed_of_eq eraseAtBoot_dres h) h

theorem execBootStage6_formed (h : DresFormed s.dres) : AnswersFormed (execBootStage6 s) :=
  .ite ⟨_, rfl, h⟩ ⟨_, rfl, inStage_formed (fun _ h => formed_ite (reportSrc_formed h) h)
    (inStage_formed (fun _ h => formed_of_eq logResponse_dres h) (reconcileEvidence_formed (formed_of_eq (bootTo_dres _) h)))⟩

theorem execBootStage7_formed {r} (h : DresFormed s.dres) : AnswersFormed (execBootStage7 r s) := by
  have hs : DresFormed (startSources (bootTo s 7)).dres := formed_of_eq (by simp) h
  have hk : DresFormed (if r.katOk then startSources (bootTo s 7)
      else inStage 7 (reportSrc (startSources (bootTo s 7)) 0x0C1) entropyFail).dres :=
    formed_ite hs (inStage_formed (fun _ h => entropyFail_formed h) (reportSrc_formed hs))
  refine .ite ⟨_, rfl, h⟩ ⟨_, rfl, inStage_formed (fun _ h => formed_of_eq (by simp) h) (foldl_formed (fun _ _ h => ?_) hk)⟩
  exact inStage_formed (fun _ h => latchOut_formed h) h

theorem execBootStage8_formed {r} (h : DresFormed s.dres) : AnswersFormed (execBootStage8 r s) := by
  unfold execBootStage8
  refine .ite ⟨_, rfl, h⟩ ?_
  extract_lets s1
  refine .ite ⟨_, rfl, formed_of_eq (by simp [s1]) h⟩ ⟨_, rfl, ?_⟩
  refine inStage_formed (fun _ h => formed_ite (formed_of_eq failDevice_dres h) h) (foldl_formed (fun _ _ h => ?_) h)
  exact inStage_formed (fun _ h => reportSrc_formed (reportSrc_formed h)) h

theorem execBootStage9_formed {r} (h : DresFormed s.dres) : AnswersFormed (execBootStage9 r s) := by
  have hs : DresFormed (setModes (bootTo s 9) r.modes).dres := formed_of_eq (by simp) h
  refine .ite ⟨_, rfl, h⟩ ⟨_, rfl, inStage_formed (fun _ h => ?_) (formed_ite (abandonArchive_formed hs) hs)⟩
  exact formed_ite (inStage_formed (fun _ h => formed_of_eq ensureAnchor_dres h) (restore_formed h)) h

theorem execBootStage10_formed {r} (h : DresFormed s.dres) : AnswersFormed (execBootStage10 r s) := by
  refine .ite ⟨_, rfl, h⟩ ⟨_, rfl, inStage_formed (fun _ h => ?_) (foldl_formed (fun _ _ h => failUnit_formed h) h)⟩
  exact foldl_frame (fun _ _ => assignIndices_dres _) h

theorem execBootStage12_formed (h : DresFormed s.dres) : AnswersFormed (execBootStage12 s) := by simp [execBootStage12, h]

theorem execBootStage13_formed (h : DresFormed s.dres) : AnswersFormed (execBootStage13 s) := by simp [execBootStage13, h]

/-! ## QDR -/

theorem execQdrChannelLost_formed {ch} (h : DresFormed s.dres) : AnswersFormed (execQdrChannelLost ch s) :=
  .ite ⟨_, rfl, h⟩ ⟨_, rfl, formed_ite (reportSrc_formed h) (loseChannel_formed (reportSrc_formed h))⟩

theorem execGroupReencryptionDone_formed {group} (h : DresFormed s.dres) :
    AnswersFormed (execGroupReencryptionDone group s) := by
  simp [execGroupReencryptionDone, h]

theorem execSlotRecoveryDone_formed {slot r} (h : DresFormed s.dres) : AnswersFormed (execSlotRecoveryDone slot r s) := by
  unfold execSlotRecoveryDone
  refine .ite ⟨_, rfl, h⟩ ?_
  split <;> exact ⟨_, rfl, formed_of_eq (by simp) h⟩

/-! ## Acknowledged records and the passing of time -/

theorem execMirrorSyncAck_formed {seq refused} (h : DresFormed s.dres) : AnswersFormed (execMirrorSyncAck seq refused s) := by
  unfold execMirrorSyncAck
  split
  · exact ⟨_, rfl, h⟩
  · split
    · exact ⟨_, rfl, endWait_formed h⟩
    · exact ⟨_, rfl, acked_formed h⟩

/-! ## Every command -/

theorem exec_formed (i : Instr) (h : DresFormed s.dres) : AnswersFormed (exec i s) := by
  cases i with
  | portFecUncorr | mirLinkAuth => exact ⟨_, rfl, reportSrc_formed h⟩
  | nextHopResolved | errNRelease | aeadEncrypt | aeadDecrypt | ctrEncrypt | ctrDecrypt | cbcEncrypt | cbcDecrypt
  | xtsEncrypt | xtsDecrypt | cmacGen | cmacVerify | kwWrap | kwUnwrap | kwpWrap | kwpUnwrap | mldLoad | mldBroadcast
  | mstStore | inq | leaseGranted | drbgReseed | dpgAbort | dpgClearKey | ledEvt | ledEvt2 | catEvt | bootStage11
  | mirrorLinkUp | qdrRetrack | slotRecoveryRequest =>
    exact ⟨_, rfl, formed_of_eq (by simp) h⟩
  | portPfcStorm | celVbatLow => exact .ite ⟨_, rfl, h⟩ ⟨_, rfl, reportSrc_formed h⟩
  | hopperEngineResetDone | migrationExpiry | registrarSwitchDone | entEvt | mbxEvt | mirEvt | fltEvt | celEvt | tmpEvt
  | qdrEvt | vddCellarLoss | crystalRestart | vddCellarRestored | heartbeatRestored =>
    exact ⟨_, rfl, h⟩
  | ctlNop | ctlFence | kemKeygen | kemDecaps | kemPubkey | dsaKeygen | dsaPubkey | dsaVerify | dsaVerifyPh | dsaVerifyMu
  | kemKeygenKat | dsaKeygenKat | dsaSignKat | dsaVerifyKat | slhKeygen | slhPubkey | slhVerify | slhVerifyPh | slhKeygenKat
  | slhSignKat | stfPubkey | stfRemain | ckemKeygen | ckemDecaps | ckemPubkey | ckemKeygenKat | ckemDecapsKat | digStart
  | kdfHkdf | kdfHkdfExpand | kdf108 | macGen | macVerify | catDeaccession | catInfo =>
    exact ⟨_, rfl, formed_of_eq (runOp_dres fun _ _ => rfl) h⟩
  | ctlStatus | kemEncaps | dsaSign | dsaSignPh | dsaSignMu | kemEncapsKat | kemDecapsKat | slhSign | slhSignPh | stfVerify
  | ckemEncaps | ckemEncapsKat | dig | digUpdate | digFinish | pkKeygen | pkPubkey | pkAgree | pkSign | pkVerify | rsaEncrypt
  | rsaDecrypt | curveLoad | modadd | modsub | modmul | modinv | modexp | padd | pdbl | pmul | catGenerate | catNarrow
  | catUnwrap | catWrapOut =>
    exact ⟨_, rfl, formed_of_eq (runOp_dres fun _ _ => by simp) h⟩
  | seqCont | seqJump | seqBr | seqCall | seqCallc | seqRet | seqLoop | seqExit | seqFail => exact ⟨_, rfl, seqRow_formed h⟩
  | vnop | vadd | vsub | vmull | vmulhu | vmulhs | vminu | vmaxu | vmins | vmaxs | vneg | vmov | vbcast | vbcasts | vext
  | vand | vor | vxor | vnot | vandn | vselb | vshl | vshr | vsra | vrol | vshlv | vshrv | vpopc | vbitrev | vbswap | vmadd
  | vmsub | vmneg | vmmont | vmbar | vmred | vmcsub | vmcent | vqadds | vqsubs | vqaddu | vqsubu | vrshrs | vrshru | vrmulhs
  | vrmulhu | vcmpeq | vcmpne | vcmpltu | vcmplts | vcmpleu | vcmples | vcompress | vredadd | vredor | vbfly | vbflyi
  | vpermf | vpermv | vslideup | vslidedn | vzip | vunzip | vwidenu | vwidens | vnarrow | vpackb | vunpackb | vclmull
  | vclmulh | va2b | vb2a | vrefresh | snop | sadd | ssub | sand | sor | sxor | sshl | sshr | ssra | smul | sli | slih
  | scmpltu | scmpeq | sadd8 | sadd16 | sadd32 | ssub8 | ssub16 | ssub32 | sextb | sgetvl | smin | smax | smset | hcoreReset
  | hcoreAbsorb | hcorePad | hcorePermute | hcoreSqueeze | hcoreCompress | hcoreSave | hcoreRestore | outq | vlopConst
  | vlopReg | vlopStrip | classify | declassify | rndRefresh | ctrLoadImm | ctrLoadReg | traceRecord =>
    exact ⟨_, rfl, formed_of_eq (actOn_dres ..) h⟩
  | devInfo | ledLowThSet | crlStats | mirStatus => exact ⟨_, rfl, serve_formed (fun _ _ h => h) h⟩
  | algTable | attCerts => exact ⟨_, rfl, serve_formed (fun _ _ h => hostWrite_formed h) h⟩
  | fiDisarm | resetCounts => exact .ite ⟨_, rfl, h⟩ ⟨_, rfl, serve_formed (fun _ _ h => h) h⟩
  | mirPair | mirPairRejoin => exact .ite ⟨_, rfl, h⟩ ⟨_, rfl, serve_formed (fun _ _ h => .ite h (startPair_formed h)) h⟩
  | vfDisable | perstN => exact ⟨_, rfl, foldl_formed (fun _ _ h => resetFunction_formed h) h⟩
  | shedS1 | shedS2 | shedS3 | shedS4 => exact ⟨_, rfl, shed_formed h⟩
  | tmpRail | tmpTemp | tmpClock | tmpGlitch => exact ⟨_, rfl, formed_ite (tamperMain_formed h) h⟩
  | doorbellWrite => exact execDoorbellWrite_formed h
  | hostDoorbell => exact execHostDoorbell_formed h
  | cmReq => exact execCmReq_formed h
  | rebindDrainDone => exact execRebindDrainDone_formed h
  | rebindDrainTimeout => exact execRebindDrainTimeout_formed h
  | cmRtu => exact execCmRtu_formed h
  | cmDreq => exact execCmDreq_formed h
  | cmDrep => exact execCmDrep_formed h
  | rdmaReadResponse => exact execRdmaReadResponse_formed h
  | rdmaWriteAck => exact execRdmaWriteAck_formed h
  | nakRemoteAccessError => exact execNakRemoteAccessError_formed h
  | nakPsnSequenceError => exact execNakPsnSequenceError_formed h
  | nakInvalidRequest => exact execNakInvalidRequest_formed h
  | rnrNak => exact execRnrNak_formed h
  | rnrRetry => exact execRnrRetry_formed h
  | ackTimeout => exact execAckTimeout_formed h
  | invalidRequestPacket => exact execInvalidRequestPacket_formed h
  | cnpReceived => exact execCnpReceived_formed h
  | ratePeriod => exact execRatePeriod_formed h
  | frameDiscarded => exact execFrameDiscarded_formed h
  | arpRequest => exact execArpRequest_formed h
  | neighborSolicitation => exact execNeighborSolicitation_formed h
  | resolutionRetry => exact execResolutionRetry_formed h
  | nextHopCacheExpiry => exact execNextHopCacheExpiry_formed h
  | gratuitousArp => exact execGratuitousArp_formed h
  | pauseFrame => exact execPauseFrame_formed h
  | pfcIgnoreRelease => exact execPfcIgnoreRelease_formed h
  | linkDown => exact ⟨_, rfl, portDown_formed h⟩
  | linkUp => exact execLinkUp_formed h
  | hostDmaCompletion => exact execHostDmaCompletion_formed h
  | hopperFetch => exact execHopperFetch_formed h
  | dispatch => exact execDispatch_formed h
  | wakeComplete => exact execWakeComplete_formed h
  | clusterNap => exact execClusterNap_formed h
  | clusterDormant => exact execClusterDormant_formed h
  | longQuantumEnd => exact execLongQuantumEnd_formed h
  | longSuspend => exact execLongSuspend_formed h
  | executionComplete => exact execExecutionComplete_formed h
  | hopperStopped => exact execHopperStopped_formed h
  | unitFault => exact ⟨_, rfl, formed_ite (unitFault_formed h) h⟩
  | retestComplete => exact execRetestComplete_formed h
  | tunWatchdog => exact execTunWatchdog_formed h
  | tunScrubDone => exact execTunScrubDone_formed h
  | maskgenReseed t => exact execMaskgenReseed_formed (t := t) h
  | kilnWipeDone => exact execKilnWipeDone_formed h
  | pass1Done => exact execPass1Done_formed h
  | ctlRandom => exact execCtlRandom_formed h
  | stfKeygen => exact execStfKeygen_formed h
  | stfSign => exact execStfSign_formed h
  | openStacksInvoke => exact execOpenStacksInvoke_formed h
  | safePoint => exact .ite ⟨_, rfl, servicePending_formed h⟩ ⟨_, rfl, h⟩
  | ledgerWriteDone => exact execLedgerWriteDone_formed h
  | ledgerRefresh => exact execLedgerRefresh_formed h
  | treeBuildQuantum => exact execTreeBuildQuantum_formed h
  | treeCacheRestored => exact execTreeCacheRestored_formed h
  | deaccessionCommit => exact ⟨_, rfl, tryDeac_formed h⟩
  | weedingPass => exact execWeedingPass_formed h
  | archiveRecordDue => exact execArchiveRecordDue_formed h
  | entWindowComplete => exact execEntWindowComplete_formed h
  | entSrcFail => exact ⟨_, rfl, latchOut_formed h⟩
  | mbxNop => exact execMbxNop_formed h
  | authChallenge => exact ⟨_, rfl, serve_formed (fun _ _ h => withRandom_formed (fun _ _ h => h) h) h⟩
  | authLogin => exact execAuthLogin_formed h
  | authLogout => exact execAuthLogout_formed h
  | sessionCfg => exact execSessionCfg_formed h
  | admEnrol => exact execAdmEnrol_formed h
  | admRemove => exact execAdmRemove_formed h
  | octConfig => exact execOctConfig_formed h
  | fecthOnly => exact execFecthOnly_formed h
  | warmMinSet => exact execWarmMinSet_formed h
  | directCntSet => exact execDirectCntSet_formed h
  | setSource => exact execSetSource_formed h
  | setProfile => exact execSetProfile_formed h
  | fiArm => exact execFiArm_formed h
  | lcsTransition => exact execLcsTransition_formed h
  | lcsGroupDone => exact execLcsGroupDone_formed h
  | crlCreate => exact execCrlCreate_formed h
  | crlConfig => exact ⟨_, rfl, serveSync_formed configCmd_formed h⟩
  | crlActivate => exact ⟨_, rfl, serveSync_formed activateCmd_formed h⟩
  | crlQuiesce => exact ⟨_, rfl, serveSync_formed quiesceCmd_formed h⟩
  | quiesceComplete => exact execQuiesceComplete_formed h
  | crlFreeze => exact ⟨_, rfl, serveSync_formed freezeCmd_formed h⟩
  | crlSaveAccept => exact execCrlSaveAccept_formed h
  | crlSaveExport => exact execCrlSaveExport_formed h
  | crlRestoreOffer => exact execCrlRestoreOffer_formed h
  | crlRestoreConfirm => exact execCrlRestoreConfirm_formed h
  | crlRestoreImport =>
    exact .ite ⟨_, rfl, h⟩ ⟨_, rfl, serve_formed (fun _ _ h => syncBody_formed importCarrelCmd_formed h) h⟩
  | crlDestroy => exact ⟨_, rfl, serve_formed (fun _ _ h => .ite h (startDeac_formed h)) h⟩
  | crlReset => exact ⟨_, rfl, serveSync_formed resetCmd_formed h⟩
  | crlAnchorRenew => exact execCrlAnchorRenew_formed h
  | hopCreate => exact ⟨_, rfl, serveSync_formed hopCreateCmd_formed h⟩
  | hopConfig => exact ⟨_, rfl, serveSync_formed hopConfigCmd_formed h⟩
  | hopStart => exact ⟨_, rfl, serveSync_formed hopStartCmd_formed h⟩
  | hopStop => exact ⟨_, rfl, serveSync_formed hopStopCmd_formed h⟩
  | hopDelete => exact ⟨_, rfl, serveSync_formed hopDeleteCmd_formed h⟩
  | hopResetIdx => exact ⟨_, rfl, serveSync_formed hopResetCmd_formed h⟩
  | hopQuery => exact execHopQuery_formed h
  | bindTokenIssue => exact execBindTokenIssue_formed h
  | bindTokenRevoke => exact ⟨_, rfl, serveSync_formed tokenRevokeCmd_formed h⟩
  | bindStatic => exact ⟨_, rfl, serveSync_formed bindStaticCmd_formed h⟩
  | bindRelease => exact ⟨_, rfl, serveSync_formed bindReleaseCmd_formed h⟩
  | catImport => exact execCatImport_formed h
  | catReplace => exact execCatReplace_formed h
  | catDeaccessionCmd => exact execCatDeaccessionCmd_formed h
  | catSetAttr => exact ⟨_, rfl, serveSync_formed setAttrCmd_formed h⟩
  | catQuery => exact execCatQuery_formed h
  | catEnrolSigner => exact execCatEnrolSigner_formed h
  | ledQuery => exact execLedQuery_formed h
  | ledReclaim => exact ⟨_, rfl, serve_formed (fun _ _ h => formed_of_eq (by simp) h) h⟩
  | ostkStage => exact execOstkStage_formed h
  | ostkActivate => exact execOstkActivate_formed h
  | ostkDrainEnd => exact execOstkDrainEnd_formed h
  | ostkRetire => exact execOstkRetire_formed h
  | fwStage => exact execFwStage_formed h
  | fwActivate => exact execFwActivate_formed h
  | fwActivateWaitEnd => exact execFwActivateWaitEnd_formed h
  | trialBootTimeout => exact execTrialBootTimeout_formed h
  | pairingComplete => exact execPairingComplete_formed h
  | mirUnpair => exact execMirUnpair_formed h
  | mirArbitrate => exact execMirArbitrate_formed h
  | mirRehome => exact execMirRehome_formed h
  | entTestPattern => exact execEntTestPattern_formed h
  | entRawCapture => exact execEntRawCapture_formed h
  | attQuote => exact execAttQuote_formed h
  | dbgNonce => exact ⟨_, rfl, serve_formed (fun _ _ h => .ite h (withRandom_formed (fun _ _ h => h) h)) h⟩
  | dbgGrant => exact execDbgGrant_formed h
  | dbgEnd => exact ⟨_, rfl, serve_formed (fun _ _ h => .ite h ⟨h, fun _ h => endGrant_formed h⟩) h⟩
  | grantExpiry => exact ⟨_, rfl, formed_ite (endGrant_formed h) h⟩
  | sessionIdleTimeout => exact execSessionIdleTimeout_formed h
  | regLockstep => exact ⟨_, rfl, formed_ite (reportSrc_formed h) (fencePair_formed (reportSrc_formed h))⟩
  | dpgStart => exact execDpgStart_formed h
  | dpgKey => exact execDpgKey_formed h
  | dpgDone => exact execDpgDone_formed h
  | hostAccess => exact ⟨_, rfl, reportSrc_formed (formed_ite h h)⟩
  | registerWrite => exact execRegisterWrite_formed h
  | prtOctEvt => exact execPrtOctEvt_formed h
  | hopDlEvt => exact execHopDlEvt_formed h
  | dpgEvt => exact execDpgEvt_formed h
  | folSlotEvt => exact execFolSlotEvt_formed h
  | flr => exact ⟨_, rfl, resetFunction_formed h⟩
  | porN => exact execPorN_formed h
  | bootStage3 => exact execBootStage3_formed h
  | bootStage4 => exact execBootStage4_formed h
  | bootStage5 => exact execBootStage5_formed h
  | bootStage6 => exact execBootStage6_formed h
  | bootStage7 => exact execBootStage7_formed h
  | bootStage8 => exact execBootStage8_formed h
  | bootStage9 => exact execBootStage9_formed h
  | bootStage10 => exact execBootStage10_formed h
  | bootStage12 => exact execBootStage12_formed h
  | bootStage13 => exact execBootStage13_formed h
  | bootHoldEnd => exact execBootHoldEnd_formed h
  | shedStageExit => exact .ite ⟨_, rfl, h⟩ ⟨_, rfl, shedReport_formed (formed_of_eq (by simp) h)⟩
  | s4Abandon => exact execS4Abandon_formed h
  | s4FlushDone => exact execS4FlushDone_formed h
  | s4Restart => exact ⟨_, rfl, formed_ite (chipReset_formed _) h⟩
  | mainPowerLoss => exact execMainPowerLoss_formed h
  | celXtalFail => exact .ite ⟨_, rfl, h⟩ ⟨_, rfl, formed_ite (reportSrc_formed h) h⟩
  | pllUnlock => exact execPllUnlock_formed h
  | refclkLoss => exact execRefclkLoss_formed h
  | pllRelock => exact execPllRelock_formed h
  | tmpShield => exact execTmpShield_formed h
  | tmpLoop => exact execTmpLoop_formed h
  | shieldReseed => exact execShieldReseed_formed h
  | tamperOutRelease => exact execTamperOutRelease_formed h
  | linkLost => exact ⟨_, rfl, formed_ite (linkDown_formed h) h⟩
  | heartbeatLost => exact execHeartbeatLost_formed h
  | mirResign => exact ⟨_, rfl, formed_ite (takeAll_formed h) h⟩
  | linkKeyRenewal => exact execLinkKeyRenewal_formed h
  | mirrorBatch => exact execMirrorBatch_formed h
  | batchAck => exact execBatchAck_formed h
  | batchReceived => exact execBatchReceived_formed h
  | syncRecord => exact execSyncRecord_formed h
  | mirrorSyncAck => exact execMirrorSyncAck_formed h
  | cartridgeInsert => exact execCartridgeInsert_formed h
  | cartridgeRemove => exact execCartridgeRemove_formed h
  | cmd1Poll => exact execCmd1Poll_formed h
  | mount => exact execMount_formed h
  | reconcileComplete => exact execReconcileComplete_formed h
  | folIoErr => exact execFolIoErr_formed h
  | retune => exact execRetune_formed h
  | recordCopyADone => exact execRecordCopyADone_formed h
  | recordOnFolio => exact execRecordOnFolio_formed h
  | anchorWrite => exact execAnchorWrite_formed h
  | anchorWriteDone => exact execAnchorWriteDone_formed h
  | lifeCheck => exact execLifeCheck_formed h
  | devsecMark => exact execDevsecMark_formed h
  | folArchiveAbandoned => exact .ite ⟨_, rfl, h⟩ ⟨_, rfl, abandonArchive_formed h⟩
  | qdrChannelLost => exact execQdrChannelLost_formed h
  | slotRecoveryDone => exact execSlotRecoveryDone_formed h
  | groupReencryptionDone => exact execGroupReencryptionDone_formed h
  | mainPowerReturn => exact execMainPowerReturn_formed h
  | checkerReport => exact execCheckerReport_formed h
  | entropyWaitTimeout => exact execEntropyWaitTimeout_formed h
  | tombstoneWaitTimeout => exact execTombstoneWaitTimeout_formed h
  | bootDieTempReached => exact execBootDieTempReached_formed h
  | rehomeTakeover => exact .ite ⟨_, rfl, takeCarrel_formed h⟩ ⟨_, rfl, h⟩

end Sys2Proof.Machine

open Sys2Proof Sys2Proof.Machine

/-- Settles O59: a cycle passes, or the command at the front of the queue runs; both keep the form. -/
theorem everyStepKeepsTheDigestRegisters : Obligations.EveryStepKeepsTheDigestRegisters := by
  intro s h
  unfold step
  split
  · exact ⟨_, rfl, tick_formed h⟩
  · exact exec_formed _ h
end

section
/-!
SUPPORT. The first of two passes over an input (R272): posting leaves the slips alone, the READs of a slip are issued again, and what
the end of pass 1 answers.
-/

namespace Sys2Proof.Machine

variable {s t : State} {sid op : Nat} {sl : Slip}

/-! ## READs (R50, R81 step 10) -/

theorem Posts.slip_eq (h : Posts s t) (i : Nat) : t.slip? i = s.slip? i := by rw [h.frame]; rfl

theorem Posts.pipes_eq (h : Posts s t) : t.pipes = s.pipes := by rw [h.frame]

theorem postRead_posts (s : State) (h : Hopper) (kind : ReqKind) (addr : W64) (len : Nat) :
    Posts s (postRead s h kind addr len) := by
  unfold postRead
  cases h.attach with
  | host => exact .of_ports rfl
  | network =>
    cases h.qpn with
    | none => exact .refl s
    | some q => exact addReq_posts ..

theorem readParts_length (n : Nat) : (readParts n).length = (n + 65535) / 65536 := by simp [readParts]

/-- The input of a slip is read again: its slip waits for every part, and of the rest only requests change. -/
theorem issueReads_input {h : Hopper} (hsl : s.slip? sid = some sl) (hh : s.hopper? sl.hopper = some h) :
    Posts (s.setSlip sid { sl with fetched := true, readsLeft := ((cxOf s sl).inLen + 65535) / 65536, inData := [] })
      (issueReads s sid false) := by
  rw [issueReads, hsl]
  dsimp only
  rw [hh, ← readParts_length]
  exact .foldl (fun _ _ => postRead_posts ..) _ _

/-! ## The key of a slip (R267) -/

/-- To count the slip's uses leaves its key and the chain's carries (R248). -/
theorem Started.pipeKey_eq (h : Started s t sid sl) : pipeKey t sl = pipeKey s sl := by rw [h.frame.1]; rfl

/-! ## The end of pass 1 (R272) -/

/-- An AEAD slip of more than 64 KiB, alone in its chain and not streamed, reads its input twice. -/
theorem pipeTwoPass_aead {n p : Nat} (hn : 65536 < n) (hp : pStream p = false) : pipeTwoPass .aead true n p = true := by
  simp [pipeTwoPass, pipeBuffered, hp, Nat.not_le.mpr hn]

theorem slipAlone_iff : slipAlone sl sid = true ↔ sl.head = sid ∧ csChain sl.cs = false := by simp [slipAlone]

/-- The check value of pass 1: the tag of a decryption, else a value under a key drawn for the slip alone. -/
def passOneValue (s : State) (sl : Slip) (back : Bool) : Bytes :=
  let p := csParam sl.cs
  passValue (csSet sl.cs) .aead back p (pipeKey s sl) ((ownAux sl).take (pIvLen p)) ((ownAux sl).drop (pIvLen p)) (s.freeBytes 16)
    sl.inData

/-- Only a decryption checks a tag in pass 1: the one at the end of its data. -/
def tagFails (s : State) (sl : Slip) (back : Bool) : Bool :=
  back && passOneValue s sl back != sl.inData.drop (sl.inData.length - pTagLen (csParam sl.cs))

/-- Pass 1 has ended: its check value `v` and the key `gkey` stay in the slip, and the device has counted it. -/
def passOneKept (s : State) (sid : Nat) (gkey v : Bytes) : State :=
  let s := (s.drawn 16).modSlip sid fun sl => { sl with pass1 := some true, check1 := gkey ++ v }
  { s with pipes := { s.pipes with twoPassTot := s.pipes.twoPassTot + 1 } }

/-- An AEAD slip in its first pass, with a fit key, whose hopper can be written to. -/
structure PassOneEnds (s : State) (sid : Nat) (sl : Slip) (h : Hopper) : Prop where
  hopper : s.hopper? sl.hopper = some h
  post : canPost s h = true
  two : pipeTwoPass .aead (slipAlone sl sid) sl.inData.length (csParam sl.cs) = true
  first : sl.pass1 = none
  key : (pipeKey s sl).length = pipeKeyLen (csSet sl.cs) .aead

theorem pass1Done_eq {h : Hopper} {back : Bool} (hr : SlipRuns s sid sl 4 op)
    (hm : pipeMode (csSet sl.cs) op = some (.aead, back)) (hp : PassOneEnds s sid sl h) :
    exec (.pass1Done sid) s = if tagFails s sl back then
        .next (finishOp (startUses s sid) sid (.fail St.signatureInvalid (pipeApproved (csSet sl.cs) .aead back (csParam sl.cs))))
      else .next (issueReads (passOneKept (startUses s sid) sid (s.freeBytes 16) (passOneValue s sl back)) sid false) := by
  obtain ⟨hsl, hphase, hfinal, hreads, hawake, hcls, rfl⟩ := hr
  obtain ⟨hh, hpost, htwo, hfirst, hkey⟩ := hp
  have hready : opReady s sid 4 (fun sl => (pipeMode (csSet sl.cs) (csOp sl.cs)).isSome) = some sl := by
    simp [opReady, hsl, hphase, hfinal, hreads, hawake, hcls, hm]
  have hstart := (started_startUses hsl).pipeKey_eq
  change execPass1Done sid s = _
  rw [execPass1Done, hready]
  simp only [hm, hh, hstart, startUses_freeBytes hsl]
  exact (if_neg (by simp [htwo, hfirst, hpost])).trans <| (if_neg (not_not.mpr hkey)).trans <| if_neg Bool.false_ne_true

section
variable {h : Hopper} {back : Bool} (hr : SlipRuns s sid sl 4 op) (hm : pipeMode (csSet sl.cs) op = some (.aead, back))
  (hp : PassOneEnds s sid sl h)
include hr hm hp

/-- A decryption whose tag fails ends with nothing written. -/
theorem pass1Done_fails (ht : tagFails s sl back = true) : FailsWith s sid St.signatureInvalid (exec (.pass1Done sid) s) := by
  have hans := (pass1Done_eq hr hm hp).trans (if_pos ht)
  exact Leaves.fails ⟨_, started_startUses hr.1, hans⟩ (by decide)

/-- Else the check value is kept, and the input is read again. -/
theorem pass1Done_reads (ht : tagFails s sl back = false) : ∃ s' y, exec (.pass1Done sid) s = .next s' ∧ s'.slip? sid = some y ∧
    y.phase = .running ∧ y.pass1 = some true ∧ y.check1 = s.freeBytes 16 ++ passOneValue s sl back ∧ y.inData = [] ∧
    y.readsLeft = ((cxOf s sl).inLen + 65535) / 65536 ∧ s'.pipes.twoPassTot = s.pipes.twoPassTot + 1 := by
  have hans := (pass1Done_eq hr hm hp).trans (if_neg (ne_true_of_eq_false ht))
  have hstart := started_startUses hr.1
  have hslip : (passOneKept (startUses s sid) sid (s.freeBytes 16) (passOneValue s sl back)).slip? sid =
      some { sl with usesCounted := true, pass1 := some true, check1 := s.freeBytes 16 ++ passOneValue s sl back } := by
    change ((startUses s sid).drawn 16 |>.modSlip sid _).slip? sid = _
    rw [State.modSlip_slip_self, State.drawn_slip, hstart.slip]
    rfl
  have hhop : (passOneKept (startUses s sid) sid (s.freeBytes 16) (passOneValue s sl back)).hopper? sl.hopper = some h := by
    change (startUses s sid).hopper? sl.hopper = _
    rw [State.hopper?, (startUses_keeps hr.1).1]
    exact hp.hopper
  have hreads := issueReads_input hslip hhop
  refine ⟨_, _, hans, (hreads.slip_eq sid).trans (State.setSlip_slip_self ..), hr.2.1, rfl, rfl, rfl, rfl, ?_⟩
  rw [hreads.pipes_eq]
  change (startUses s sid).pipes.twoPassTot + 1 = _
  rw [hstart.frame.1]

end

end Sys2Proof.Machine

open Sys2Proof Sys2Proof.Machine

/-- Settles O26: the tag of a decryption decides whether pass 1 ends the slip or hands it to pass 2. -/
theorem passOneChecksTheInput : Obligations.PassOneChecksTheInput := by
  intro s sid sl h _ hset hh hpost hhead hchain hlong hstream hfirst hkey p set d n iv rest tl tag reads
  have hp : PassOneEnds s sid sl h := by
    refine ⟨hh, hpost, ?_, hfirst, hkey⟩
    rw [slipAlone_iff.mpr ⟨hhead, hchain⟩]
    exact pipeTwoPass_aead hlong hstream
  have henc : pipeMode (csSet sl.cs) 0x01 = some (.aead, false) := if_pos hset
  have hdec : pipeMode (csSet sl.cs) 0x02 = some (.aead, true) := if_pos hset
  have htag : passOneValue s sl true = tag := by
    simp only [passOneValue, passValue, aeadTag, aeadPrims, tag, set, apply_ite Prod.snd]
    rfl
  have hfail : tagFails s sl true = true ↔ tag ≠ d.drop (n - tl) := by
    rw [← htag]
    exact bne_iff_ne
  refine ⟨fun hr => pass1Done_reads hr henc hp rfl, fun hr heq => ?_, fun hr hne => pass1Done_fails hr hdec hp (hfail.mpr hne)⟩
  have hreads := pass1Done_reads hr hdec hp (eq_false_of_ne_true fun hf => hfail.mp hf heq)
  rwa [htag] at hreads
end

section
/-!
SUPPORT. The output of a symmetric slip whose data is not held whole (R272, R274): the command posts it in parts of 4 KiB, which on a
hopper of the host are messages of the device. Besides its slip, a symmetric operation changes what posting changes.
-/

namespace Sys2Proof.Machine

variable {s t u : State} {sid op : Nat} {sl y : Slip} {h : Hopper} {m : PipeMode} {back : Bool}

/-! ## What a symmetric operation changes -/

/-- From `s` to `t` nothing has changed but hoppers, slips, ports, messages out, slots and the count of free values drawn. -/
def PipeChanges (s t : State) : Prop :=
  t = { s with
    hop := t.hop, ports := t.ports, out := t.out, cat := { s.cat with slots := t.cat.slots }, freeCtr := t.freeCtr }

theorem PipeChanges.trans (h : PipeChanges s t) (h' : PipeChanges t u) : PipeChanges s u := by
  unfold PipeChanges at h'
  rw [h', h]
  rfl

theorem Posts.pipeChanges (h : Posts s t) : PipeChanges s t := by
  rw [h.frame]
  rfl

theorem setSlip_changes (s : State) (sid : Nat) (y : Slip) : PipeChanges s (s.setSlip sid y) := rfl

theorem postParts_changes (s : State) (sid : Nat) : PipeChanges s (postParts s sid) := by
  unfold postParts
  split
  · rfl
  · split
    · split
      · exact (setSlip_changes s sid _).trans (Posts.foldl (fun _ _ => postWrite_posts ..) _ _).pipeChanges
      · rfl
    · rfl

theorem withIv_changes {k : State → Bytes → State × OpOut} (hk : ∀ t iv, (k t iv).1 = t) :
    PipeChanges s (withIv sid sl s k).1 := by
  unfold withIv
  dsimp only
  split
  · split
    · rw [hk]; rfl
    · rw [hk]; rfl
  · rw [hk]; rfl

theorem pipeOp_changes (sid : Nat) (sl : Slip) (s : State) : PipeChanges s (pipeOp sid sl s).1 := by
  unfold pipeOp
  split
  · rfl
  · dsimp only
    split
    · rfl
    · exact withIv_changes fun t iv => by split <;> rfl

theorem startUses_changes (s : State) (sid : Nat) : PipeChanges s (startUses s sid) := by
  cases hsl : s.slip? sid with
  | none => rw [startUses, hsl]; rfl
  | some sl => rw [(started_startUses hsl).frame.1]; rfl

/-- A symmetric operation changes what `PipeChanges` lists, messages out among it. -/
theorem runPipe_changes (s : State) (sid op : Nat) : PipeChanges s (runPipe s sid op) := by
  unfold runPipe
  split
  · rfl
  · split
    · rfl
    · split
      · rfl
      · refine PipeChanges.trans ?_ (postParts_changes ..)
        unfold runOp
        split
        · rfl
        · exact (startUses_changes ..).trans <| (pipeOp_changes ..).trans rfl

/-! ## Parts of an output (R274) -/

theorem foldl_out_length {α : Type} {f : State → α → State} (hf : ∀ s a, (f s a).out.length = s.out.length + 1) (l : List α)
    (s : State) : (l.foldl f s).out.length = s.out.length + l.length := by
  induction l generalizing s with
  | nil => rfl
  | cons a l ih => rw [List.foldl_cons, ih, hf, List.length_cons]; omega

theorem postWrite_host_out (hhost : h.attach = .host) (kind : ReqKind) (addr : W64) (data : Bytes) (imm : Option W32) :
    (postWrite s h kind addr data imm).out = s.out ++ [.dmaWrite h.carrel addr data] := by
  rw [postWrite, hhost]
  rfl

/-- On a hopper of the host, each part of 4 KiB is a message of its own. -/
theorem postParts_out_length (hy : s.slip? sid = some y) (hm : pipeMode (csSet y.cs) (csOp y.cs) = some (m, back))
    (hh : s.hopper? y.hopper = some h) (hhost : h.attach = .host) (hphase : y.phase = .executed) (hok : y.status = St.ok)
    (hbuf : pipeBuffered m (slipAlone y sid) y.inData.length = false) :
    (postParts s sid).out.length = s.out.length + (partLen m back (csParam y.cs) y.out.length + 4095) / 4096 := by
  have hpost : canPost s h = true := by rw [canPost, hhost]
  simp only [postParts, hy, hm, hh, hphase, hok, hbuf, hpost, and_self, if_true]
  rw [foldl_out_length fun t q => by rw [postWrite_host_out hhost, List.length_append]; rfl, List.length_map, List.length_range]
  rfl

/-! ## A streamed slip (R273) -/

theorem runPipe_of_slipRuns (hr : SlipRuns s sid sl 4 op) (hm : pipeMode (csSet sl.cs) op = some (m, back))
    (htwo : pipeTwoPass m (slipAlone sl sid) sl.inData.length (csParam sl.cs) = false) (hok : isPipe [op] sl = true) :
    runPipe s sid op = postParts (runOp s sid 4 (isPipe [op]) (pipeOp sid)) sid := by
  obtain ⟨hsl, hphase, hfinal, hreads, hawake, hcls, -⟩ := hr
  have hready : opReady s sid 4 (isPipe [op]) = some sl := by
    simp [opReady, hsl, hphase, hfinal, hreads, hawake, hcls, hok]
  rw [runPipe, hready]
  simp [hm, htwo]

theorem isPipe_of_slipRuns (hr : SlipRuns s sid sl 4 op) (hm : pipeMode (csSet sl.cs) op = some (m, back)) :
    isPipe [op] sl = true := by
  obtain ⟨-, -, -, -, -, -, hop⟩ := hr
  simp [isPipe, hop, hm]

theorem pipeCrypt_ctr_length (p : Nat) (key iv d : Bytes) : (pipeCrypt .ctr back p key iv d).length = d.length := by
  simp [pipeCrypt, xorBytes, keystream, fit_length]

/-- An operation that reads its input once, with a fit key and no IV to generate, has the status and the output of its mode. -/
theorem pipeOp_once (hm : pipeMode (csSet sl.cs) (csOp sl.cs) = some (m, back))
    (hkey : (pipeKey s sl).length = pipeKeyLen (csSet sl.cs) m) (hgen : pIvGen (csParam sl.cs) = false)
    (htwo : pipeTwoPass m (slipAlone sl sid) sl.inData.length (csParam sl.cs) = false) :
    let p := csParam sl.cs
    let res := pipeResult (csSet sl.cs) m back p (pipeKey s sl) ((ownAux sl).take (pIvLen p)) ((ownAux sl).drop (pIvLen p)) sl.inData
    ∃ o, pipeOp sid sl s = (s, o) ∧ o.status = res.status ∧ o.out = res.out := by
  rw [pipeOp, hm]
  dsimp only
  rw [if_neg (not_not.mpr hkey), withIv, htwo]
  simp only [hgen, Bool.false_and, Bool.false_eq_true, if_false]
  refine ⟨_, rfl, ?_, ?_⟩
  · split <;> rfl
  · split <;> rfl

/-- A streamed CTR encryption of the host, with a fit key and room for its output, sends a message for every 4 KiB of its data. -/
theorem ctrEncrypt_out_length (hr : SlipRuns s sid sl 4 0x10) (hset : csSet sl.cs ≤ 2) (hp : PolicyAdmits s sl)
    (hkey : (pipeKey s sl).length = pipeKeyLen (csSet sl.cs) .ctr) (hgen : pIvGen (csParam sl.cs) = false)
    (hstream : pipeStreamed .ctr (slipAlone sl sid) sl.inData.length (csParam sl.cs) = true)
    (hfit : sl.inData.length ≤ (cxOf s sl).outMax) (hh : s.hopper? sl.hopper = some h) (hhost : h.attach = .host) :
    (runPipe s sid 0x10).out.length = s.out.length + (sl.inData.length + 4095) / 4096 := by
  have ⟨hsl, _, _, _, _, _, hop⟩ := hr
  have hstart := started_startUses hsl
  have hm : pipeMode (csSet sl.cs) 0x10 = some (.ctr, false) := by simp [pipeMode, hset, Nat.le_succ_of_le hset]
  obtain ⟨hbuf, hone⟩ : pipeBuffered .ctr (slipAlone sl sid) sl.inData.length = false ∧ pStream (csParam sl.cs) = true := by
    simpa [pipeStreamed] using hstream
  have htwo : pipeTwoPass .ctr (slipAlone sl sid) sl.inData.length (csParam sl.cs) = false := by simp [pipeTwoPass, hone]
  obtain ⟨o, hrun, hok, hout⟩ := pipeOp_once (s := startUses s sid) (hop ▸ hm) (hstart.pipeKey_eq ▸ hkey) hgen htwo
  have hlen : o.out.length = sl.inData.length := 
    (congrArg List.length hout).trans (pipeCrypt_ctr_length (back := false) (csParam sl.cs) ..)
  have hslip := finishOp_fits hstart.slip hok (hlen.trans_le hfit)
  rw [runPipe_of_slipRuns hr hm htwo (isPipe_of_slipRuns hr hm), runOp_of_slipRuns hr (isPipe_of_slipRuns hr hm) hrun,
    hstart.judged (.inl hp), postParts_out_length hslip (hop ▸ hm) (h := h) ?_ hhost rfl rfl hbuf]
  · dsimp only [partLen]
    rw [hlen]
    change (startUses s sid).out.length + _ = _
    rw [hstart.frame.1]
    rfl
  · exact (congrArg (Tab.get? · sl.hopper) (startUses_keeps hsl).1).trans hh

/-! ## A streamed slip of 65,537 bytes -/

/-- A CTR encryption with AES-128 runs on hopper 0 of the host, streamed, with an output area as large as its data. -/
def streamedSlip : Slip :=
  { hopper := 0, carrel := 0, head := 0, phase := .running, inData := zeros 65537, auxData := zeros 16
    key := some { material := zeros 16 }
    cs := { opcode := 0x4010, keyRef := 0x80000000, inLen := 65537, outMax := 65537, auxLen := 16, param := 0x210 } }

theorem streamedSlip_runs : SlipRuns (withSlips [(0, streamedSlip)]) 0 streamedSlip 4 0x10 :=
  ⟨rfl, rfl, rfl, rfl, rfl, by decide, by decide⟩

theorem streamedSlip_admitted : PolicyAdmits (withSlips [(0, streamedSlip)]) streamedSlip :=
  ⟨rfl, fun _ hk => by cases hk; rfl⟩

theorem streamedSlip_key : (pipeKey (withSlips [(0, streamedSlip)]) streamedSlip).length = 16 := by decide

theorem streamedSlip_length : streamedSlip.inData.length = 65537 := List.length_replicate

/-- Its output leaves in 17 messages. -/
theorem streamedSlip_out_length :
    (runPipe (withSlips [(0, streamedSlip)]) 0 0x10).out.length = (withSlips [(0, streamedSlip)]).out.length + 17 := by
  have hstream : pipeStreamed .ctr (slipAlone streamedSlip 0) streamedSlip.inData.length (csParam streamedSlip.cs) = true := by
    rw [streamedSlip_length]; decide
  have hfit : streamedSlip.inData.length ≤ (cxOf (withSlips [(0, streamedSlip)]) streamedSlip).outMax := by
    rw [streamedSlip_length]; decide
  rw [ctrEncrypt_out_length streamedSlip_runs (by decide) streamedSlip_admitted streamedSlip_key (by decide) hstream hfit
    (withSlips_hopper _) rfl, streamedSlip_length]

end Sys2Proof.Machine

open Sys2Proof Sys2Proof.Machine

/-- Refutes O25: a streamed CTR encryption of 65,537 bytes on a hopper of the host. Its output leaves in parts, as R274 says, and each
part is a message of the device (`out`), which the frame of `PipeEnds` does not list. With the messages among what may change, the
frame holds for every symmetric operation (`runPipe_changes`). -/
theorem not_pipeOperationsProduceTheirResults : ¬ Obligations.PipeOperationsProduceTheirResults := by
  unfold Obligations.PipeOperationsProduceTheirResults
  intro h
  obtain ⟨-, -, -, -, -, hctr, -⟩ := h (withSlips [(0, streamedSlip)]) 0 streamedSlip 0 (by decide) streamedSlip_admitted
  obtain ⟨s', -, hrun, -, -, -, -, -, -, -, -, hframe⟩ :=
    hctr ⟨streamedSlip_runs, by decide, streamedSlip_key⟩ (.inr (.inl (by decide)))
  have hs' : runPipe (withSlips [(0, streamedSlip)]) 0 0x10 = s' := Host.Outcome.next.inj hrun
  have hkept : s'.out = (withSlips [(0, streamedSlip)]).out := by rw [hframe]
  have hsent := streamedSlip_out_length
  rw [hs', hkept] at hsent
  omega
end

section
open Sys2Proof Sys2Proof.Machine

/-- Settles O57: a step reads the queue's front, and no row of the table has bits to fetch. -/
theorem aStepRunsTheFrontCommand : Obligations.AStepRunsTheFrontCommand :=
  fun s _ _ => ⟨fun h => by rw [step, h], fun h => by rw [step, h], rfl⟩
end

section
/-!
SUPPORT. The state at reset: a counter of which nothing is recorded is as manufactured (R226).
-/

namespace Sys2Proof.Machine

/-- A counter as manufactured holds the content of any of its eight equal cells. -/
theorem ctrContent_freshCounter (n : Nat) : ctrContent n (freshCounter n) = mkCell n 0 (if n < 1024 then .system else .free) 0 := by
  obtain ⟨b, hb, -⟩ := bestCell_greatest (n := n) (cs := (freshCounter n).cells) List.mem_cons_self (cellValid_mkCell ..)
  have hmem : b ∈ (freshCounter n).cells := (bestCell_valid hb).1
  simp only [ctrContent, hb]
  exact List.eq_of_mem_replicate hmem

theorem counter_reset (n : Nat) : counter State.reset n = freshCounter n := rfl

end Sys2Proof.Machine

open Sys2Proof Sys2Proof.Machine

/-- Settles O58: the record of the reset state is read off field by field, a counter from its fresh cells. -/
theorem resetLeavesTheSpecsValues : Obligations.ResetLeavesTheSpecsValues := by
  have hcounter : ∀ n, ctrContent n (counter State.reset n) = mkCell n 0 (if n < 1024 then .system else .free) 0 := fun n => by
    rw [counter_reset, ctrContent_freshCounter]
  have hstate : ∀ n, ctrSt State.reset n = if n < 1024 then .system else .free := fun n => by rw [ctrSt, hcounter]; rfl
  refine ⟨⟨rfl, rfl, rfl, rfl, rfl⟩, ⟨rfl, rfl, rfl, rfl⟩, ⟨rfl, rfl, rfl, rfl, rfl⟩, ⟨rfl, rfl, rfl⟩, ⟨rfl, rfl⟩,
    ⟨rfl, rfl, rfl, fun n _ => ⟨?value, ?system, ?free⟩⟩, ⟨rfl, rfl, rfl⟩, ⟨rfl, rfl, rfl⟩, ⟨rfl, rfl, rfl, rfl, rfl⟩, ⟨rfl, rfl⟩,
    ⟨rfl, rfl⟩, ⟨rfl, rfl⟩, ⟨rfl, rfl, rfl, rfl, rfl⟩, rfl⟩
  case value => rw [ctrValue, hcounter]; rfl
  case system => exact fun h => (hstate n).trans (if_pos h)
  case free => exact fun h => (hstate n).trans (if_neg (Nat.not_lt.mpr h))
end

section
/-!
SUPPORT. The kilns (R290 to R303): what an operation leaves when it depends on the slip's curve, which the count of the slip's uses
leaves as it is.
-/

namespace Sys2Proof.Machine

section
variable {s u : State} {sid cls op n : Nat} {sl : Slip} {ok : Slip → Bool} {f : Slip → State → State × OpOut} {o : OpOut} {r : Res}

/-! ## The curve of a slip (R290, R309) -/

theorem foldl_countUse_material (l : List Nat) (s : State) (k : Nat) :
    ((l.foldl countUse s).slot k).material = (s.slot k).material := by
  refine foldl_keeps (fun t => (t.slot k).material) (fun t i => ?_) l s
  by_cases h : k = i
  · rw [h, countUse, State.setSlot_slot_self]
  · exact congrArg Slot.material (State.setSlot_slot_of_ne t _ h)

theorem startUses_material (h : s.slip? sid = some sl) (k : Nat) :
    ((startUses s sid).slot k).material = (s.slot k).material := by
  rw [startUses, h]
  dsimp only
  split
  · rfl
  · exact foldl_countUse_material sl.uses s k

/-- The curve is read from its slot's material, which no use changes. -/
theorem slipCurve_startUses (h : s.slip? sid = some sl) : slipCurve (startUses s sid) sl = slipCurve s sl := by
  unfold slipCurve
  split
  · cases sl.curve with
    | some x => rfl
    | none => simp only [Option.getD_none, slotCurve, startUses_material h]
  · rfl

/-! ## Results of one run -/

/-- What the operation answers in the state that the count of the slip's uses gives, it leaves. -/
theorem leaves_of_run (h : SlipRuns s sid sl cls op) (hok : ok sl = true) (hf : f sl (startUses s sid) = (u, o))
    (hu : Started s u sid sl) (hp : PolicyAdmits s sl) : Leaves s sid sl (fun _ => o) (.next (runOp s sid cls ok f)) :=
  ⟨u, hu, next_congr (by rw [runOp_of_slipRuns h hok hf, hu.judged (.inl hp)])⟩

/-- An operation that draws nothing and depends on the state by the slip's curve alone. -/
theorem leaves_of_curve {g : Curve → OpOut} (h : SlipRuns s sid sl cls op) (hok : ok sl = true)
    (hf : ∀ t, f sl t = (t, g (slipCurve t sl))) (hp : PolicyAdmits s sl) :
    Leaves s sid sl (fun _ => g (slipCurve s sl)) (.next (runOp s sid cls ok f)) := by
  rw [← slipCurve_startUses h.1]
  exact leaves_of_run h hok (hf _) (started_startUses h.1) hp

/-- An operation that draws random bytes for its slip's curve. -/
theorem leaves_of_curveDraw {g : Curve → Bytes → State → OpOut} {n : Curve → Nat} (h : SlipRuns s sid sl cls op)
    (hok : ok sl = true)
    (hf : ∀ t, f sl t = draw t (n (slipCurve t sl)) fun u b => (u, g (slipCurve t sl) b u)) (hp : PolicyAdmits s sl) :
    Leaves s sid sl (g (slipCurve s sl) (s.freeBytes (n (slipCurve s sl)))) (.next (runOp s sid cls ok f)) := by
  have hstart := (started_startUses h.1).drawn (n (slipCurve s sl))
  refine ⟨_, hstart, next_congr ?_⟩
  rw [runOp_of_slipRuns h hok (hf _), slipCurve_startUses h.1, startUses_freeBytes h.1, hstart.judged (.inl hp)]

theorem isKiln_of_slipRuns (h : SlipRuns s sid sl 6 op) (hset : csSet sl.cs ≤ 6) : isKiln op sl = true := by
  obtain ⟨-, -, -, -, -, -, hop⟩ := h
  simp [isKiln, hop, hset]

end

/-! ## Results of a kiln -/

section
variable {s : State} {sl : Slip} {cls : Nat} {mat k out : Bytes} {inl : W64} {a : Bool}

/-- The new key is as any other, but for its parent on a loaded curve (R300). -/
theorem createsKey_of_kilnNewKey {y : Slip} (h : y.slotOps = kilnNewKey s sl cls mat) : CreatesKey sl cls mat y := by
  unfold kilnNewKey at h
  split at h
  · next m _ _ hm =>
    intro n hn
    obtain rfl := Option.some.inj (hm.symm.trans hn)
    exact ⟨_, h, rfl, rfl, rfl, rfl, rfl, rfl⟩
  · exact createsKey_of_newKeyOp h

theorem succeeds_kilnNewKey (s : State) (sl : Slip) (cls : Nat) (mat out : Bytes) (inl : W64) (a : Bool) :
    Succeeds { out := out, inline := inl, slotOps := kilnNewKey s sl cls mat, approved := a } out inl
      (fun y => y.secret = none ∧ CreatesKey sl cls mat y) :=
  ⟨rfl, rfl, rfl, rfl, fun _ hsec hops => ⟨hsec, createsKey_of_kilnNewKey hops⟩⟩

theorem succeeds_secret (s : State) (sl : Slip) (k : Bytes) (a : Bool) :
    Succeeds (toSecret s sl k { approved := a }) [] 0 (KeepsSecret sl k) := by
  cases a with
  | true => exact succeeds_toSecret s sl k []
  | false => exact succeeds_toSecret_unapproved s sl k []

end

/-! ## Sets and scalars (R290, R303) -/

section
variable {set : Nat}

theorem isEdwards_of (h : set = 4 ∨ set = 5) : isEdwards set = true := by rcases h with rfl | rfl <;> rfl

theorem kAgree_edwards (h : set = 4 ∨ set = 5) : kAgree set = if set = 4 then 0x70 else 0x73 := by rcases h with rfl | rfl <;> rfl

/-- The sets of short-Weierstrass curves. -/
def IsCurveSet (set : Nat) : Prop := set = 1 ∨ set = 2 ∨ set = 3 ∨ set = 6

theorem IsCurveSet.not_rsa (h : IsCurveSet set) : set ≠ 0 := by unfold IsCurveSet at h; omega

theorem IsCurveSet.le (h : IsCurveSet set) : set ≤ 6 := by unfold IsCurveSet at h; omega

theorem IsCurveSet.not_edwards (h : IsCurveSet set) : ¬ isEdwards set = true := by
  rcases h with rfl | rfl | rfl | rfl <;> decide

theorem IsCurveSet.isShort (h : IsCurveSet set) : isShort set = true := by
  rcases h with rfl | rfl | rfl | rfl <;> rfl

theorem scalarOk_iff {k : Curve} {d : Nat} : scalarOk k d = true ↔ d ≠ 0 ∧ d < k.n := by simp [scalarOk]

end

end Sys2Proof.Machine
end

section
/-!
SUPPORT. Class 0x6 on RSA and Edwards sets (R290 to R300): what each operation leaves in its slip.
-/

namespace Sys2Proof.Machine

section
variable {s : State} {sid : Nat} {sl : Slip} (hp : PolicyAdmits s sl)
include hp

/-! ## RSA (R296, R300) -/

/-- The key pair of a generation, and the count of candidates it tried (R300). -/
def rsaPair (p : Nat) (seed : Bytes) : Bytes :=
  fit (7 * (32 * kSize p) / 2 + 4) (Config.compute .rsaKeyGen [le 2 (32 * kSize p), seed])

def rsaTried (p : Nat) (seed : Bytes) : W64 :=
  BitVec.ofNat 64 (unle (Config.compute (.rsaCandidates (32 * kSize p)) [seed]) % 2 ^ 32)

def rsaKeygenOut (sl : Slip) (seed : Bytes) (t : State) : OpOut :=
  if Config.holds .rsaKeyGen [seed] then
    { out := rsaPublicKey (32 * kSize (csParam sl.cs)) (rsaPair (csParam sl.cs) seed), inline := rsaTried (csParam sl.cs) seed
      slotOps := kilnNewKey t sl (slipAttr sl.cs sl.exts).cls (rsaPair (csParam sl.cs) seed) }
  else { status := St.aborted, inline := rsaTried (csParam sl.cs) seed }

section
variable (hset : csSet sl.cs = 0)
include hset

theorem pkKeygen_rsa_leaves (h : SlipRuns s sid sl 6 0x01) :
    Leaves s sid sl (rsaKeygenOut sl (s.freeBytes 64)) (exec (.pkKeygen sid) s) := by
  refine leaves_of_draw h (isKiln_of_slipRuns h (by omega)) (fun t => ?_) (.inl hp)
  exact (if_pos hset).trans (apply_ite (Prod.mk _) _ _ _).symm

theorem pkKeygen_rsa_produces (h : SlipRuns s sid sl 6 0x01) (hkg : Config.holds .rsaKeyGen [s.freeBytes 64] = true) :
    Produces s sid sl ((rsaPair (csParam sl.cs) (s.freeBytes 64)).take (32 * kSize (csParam sl.cs) + 4))
      (rsaTried (csParam sl.cs) (s.freeBytes 64))
      (fun y => y.secret = none ∧ CreatesKey sl (slipAttr sl.cs sl.exts).cls (rsaPair (csParam sl.cs) (s.freeBytes 64)) y)
      (exec (.pkKeygen sid) s) := by
  refine (pkKeygen_rsa_leaves hp hset h).produces fun _ => ?_
  rw [rsaKeygenOut, if_pos hkg]
  exact succeeds_kilnNewKey ..

theorem pkKeygen_rsa_aborts (h : SlipRuns s sid sl 6 0x01) (hkg : Config.holds .rsaKeyGen [s.freeBytes 64] = false) :
    Completes s sid 0x0507 [] 0 (rsaTried (csParam sl.cs) (s.freeBytes 64)) NoKey (exec (.pkKeygen sid) s) := by
  have hout := (pkKeygen_rsa_leaves hp hset h).congr fun _ _ => if_neg (Bool.eq_false_iff.mp hkg)
  exact hout.completes_failed (Nat.ne_of_gt (by decide : 0 < St.aborted))

theorem pkPubkey_rsa_produces (h : SlipRuns s sid sl 6 0x02) :
    Produces s sid sl ((keyMat sl).take (rsaK 0x60 (keyMat sl).length + 4)) 0 NoKey (exec (.pkPubkey sid) s) :=
  (leaves_of_pure h (isKiln_of_slipRuns h (by omega)) (fun _ => if_pos hset) (.inl hp)).produces fun _ => succeeds_output ..

theorem pkSign_rsa_produces (h : SlipRuns s sid sl 6 0x10) :
    Produces s sid sl (fit (rsaK 0x60 (keyMat sl).length) (Config.compute (.rsaSign (kPad (csParam sl.cs)))
      [keyMat sl, sigCtx (csParam sl.cs) [], kMsg sl, s.freeBytes (kSalt (csParam sl.cs))])) 0 NoKey (exec (.pkSign sid) s) :=
  (leaves_of_draw (ob := fun b _ => { out := fit (rsaK 0x60 (keyMat sl).length) (Config.compute (.rsaSign (kPad (csParam sl.cs)))
      [keyMat sl, sigCtx (csParam sl.cs) [], kMsg sl, b]) }) h (isKiln_of_slipRuns h (by omega)) (fun _ => if_pos hset)
    (.inl hp)).produces fun _ => succeeds_output ..

end

/-! ## Edwards and Montgomery curves (R295, R300) -/

section
variable (hset : csSet sl.cs = 4 ∨ csSet sl.cs = 5)
include hset

omit hp in
theorem edwards_cases {α : Sort*} (a b c : α) :
    (if csSet sl.cs = 0 then a else if isEdwards (csSet sl.cs) then b else c) = b :=
  (if_neg (by omega)).trans (if_pos (isEdwards_of hset))

/-- Bytes of a new secret key of class `cls` (R293). -/
def edSeedLen (set cls : Nat) : Nat := if cls = kAgree set then montLen set else edLen set

theorem pkKeygen_ed_produces (h : SlipRuns s sid sl 6 0x01) :
    let cls := (slipAttr sl.cs sl.exts).cls
    let seed := s.freeBytes (edSeedLen (csSet sl.cs) cls)
    Produces s sid sl (edPublicKey (csSet sl.cs) cls seed) 0 (fun y => y.secret = none ∧ CreatesKey sl cls seed y)
      (exec (.pkKeygen sid) s) :=
  (leaves_of_draw (ob := fun b t => { out := edPublicKey (csSet sl.cs) (slipAttr sl.cs sl.exts).cls b
                                      slotOps := kilnNewKey t sl (slipAttr sl.cs sl.exts).cls b })
    h (isKiln_of_slipRuns h (by omega)) (fun _ => edwards_cases hset ..) (.inl hp)).produces fun _ => succeeds_kilnNewKey ..

theorem pkPubkey_ed_produces (h : SlipRuns s sid sl 6 0x02) :
    Produces s sid sl (edPublicKey (csSet sl.cs) ((sl.key.map (·.keyClass)).getD 0) (keyMat sl)) 0 NoKey
      (exec (.pkPubkey sid) s) :=
  (leaves_of_pure h (isKiln_of_slipRuns h (by omega)) (fun _ => edwards_cases hset ..) (.inl hp)).produces fun _ =>
    succeeds_output ..

/-- The shared secret of an agreement. -/
def montShared (sl : Slip) : Bytes :=
  fit (montLen (csSet sl.cs)) (Config.compute (.montAgree (csSet sl.cs)) [keyMat sl, sl.inData])

omit hp in
theorem pkAgree_ed (t : State) : pkAgree sl t =
    if allZero (montShared sl) then (t, .fail St.zeroSharedSecret) else (t, toSecret t sl (montShared sl) {}) :=
  if_pos (isEdwards_of hset)

theorem pkAgree_ed_produces (h : SlipRuns s sid sl 6 0x03) (hz : allZero (montShared sl) = false) :
    Produces s sid sl [] 0 (KeepsSecret sl (montShared sl)) (exec (.pkAgree sid) s) :=
  (leaves_of_pure h (isKiln_of_slipRuns h (by omega))
    (fun _ => (pkAgree_ed hset _).trans (if_neg (Bool.eq_false_iff.mp hz))) (.inl hp)).produces fun _ => succeeds_secret ..

theorem pkAgree_ed_fails (h : SlipRuns s sid sl 6 0x03) (hz : allZero (montShared sl) = true) :
    FailsWith s sid St.zeroSharedSecret (exec (.pkAgree sid) s) :=
  (leaves_of_pure h (isKiln_of_slipRuns h (by omega)) (fun _ => (pkAgree_ed hset _).trans (if_pos hz)) (.inl hp)).fails
    (by decide)

theorem pkSign_ed_produces (h : SlipRuns s sid sl 6 0x10) :
    Produces s sid sl (fit (edSig (csSet sl.cs)) (Config.compute (.edSign (csSet sl.cs))
      [keyMat sl, sigCtx (csParam sl.cs) (ownAux sl), kMsg sl])) 0 NoKey (exec (.pkSign sid) s) :=
  (leaves_of_pure h (isKiln_of_slipRuns h (by omega)) (fun _ => edwards_cases hset ..) (.inl hp)).produces fun _ =>
    succeeds_output ..

end

/-! ## Verification (R292, R298) -/

/-- The public key of a verification and what follows it in `AUX`. -/
def kilnKey (sl : Slip) (cur : Curve) : Bytes × Bytes :=
  verKey sl (pkFront (csSet sl.cs) (32 * kSize (csParam sl.cs)) cur (ownAux sl))

/-- What a verification answers on a curve. -/
def pkVerdict (sl : Slip) (cur : Curve) : OpOut :=
  let v := kilnKey sl cur
  let p := csParam sl.cs
  if csSet sl.cs = 0 then
    if !rsaPkOk v.1 && !csKeyUsed sl.cs then .fail St.inputMalformed (decide (65537 ≤ rsaE v.1))
    else .verdict (decide (unbe v.2 < unbe (v.1.take (v.1.length - 4))) &&
      Config.holds (.rsaSign (kPad p)) [v.1, sigCtx p [], kMsg sl, v.2]) (decide (65537 ≤ rsaE v.1))
  else if isEdwards (csSet sl.cs) then
    .verdict (Config.holds (.edSign (csSet sl.cs)) [v.1, sigCtx p (v.2.drop (edSig (csSet sl.cs))), kMsg sl,
      v.2.take (edSig (csSet sl.cs))])
  else match cur.pubPoint v.1 with
    | none => .fail St.pointInvalid (!kLoaded sl)
    | some q => .verdict (ecdsaOk cur q (digestInt cur (kMsg sl)) (unbe (v.2.take cur.cs)) (unbe (v.2.drop cur.cs)))
        (!kLoaded sl)

omit hp in
theorem kilnKey_eq (sl : Slip) (cur : Curve) : kilnKey sl cur =
    let n := if csKeyUsed sl.cs then 0 else pkFront (csSet sl.cs) (32 * kSize (csParam sl.cs)) cur (ownAux sl)
    (if csKeyUsed sl.cs then keyMat sl else (ownAux sl).take n, (ownAux sl).drop n) := by
  unfold kilnKey verKey
  cases csKeyUsed sl.cs <;> rfl

omit hp in
theorem pkVerify_eq (t : State) : pkVerify sl t = (t, pkVerdict sl (slipCurve t sl)) := by
  unfold pkVerify pkVerdict
  rw [kilnKey_eq]
  dsimp only
  split
  · exact (apply_ite (Prod.mk t) _ _ _).symm
  · split
    · rfl
    · generalize (slipCurve t sl).pubPoint _ = q
      cases q <;> rfl

theorem pkVerify_leaves (h : SlipRuns s sid sl 6 0x20) (hset : csSet sl.cs ≤ 6) :
    Leaves s sid sl (fun _ => pkVerdict sl (slipCurve s sl)) (exec (.pkVerify sid) s) :=
  leaves_of_curve h (isKiln_of_slipRuns h hset) pkVerify_eq hp

end

end Sys2Proof.Machine
end

section
/-!
SUPPORT. Class 0x6 on short-Weierstrass curves (R300, R303, R304), and the answers of a verification (R298).
-/

namespace Sys2Proof.Machine

section
variable {s : State} {sid : Nat} {sl : Slip} (hp : PolicyAdmits s sl) (hset : IsCurveSet (csSet sl.cs))
include hset

theorem curveSet_cases {α : Sort*} (a b c : α) :
    (if csSet sl.cs = 0 then a else if isEdwards (csSet sl.cs) then b else c) = c :=
  (if_neg hset.not_rsa).trans (if_neg hset.not_edwards)

include hp

theorem pkKeygen_ec_produces (h : SlipRuns s sid sl 6 0x01) :
    let cls := (slipAttr sl.cs sl.exts).cls
    let k := slipCurve s sl
    let d := unbe (s.freeBytes (k.cs + 8)) % k.n
    Produces s sid sl (k.pubBytes (k.mul d k.g)) 0 (fun y => y.secret = none ∧ CreatesKey sl cls (be k.c d) y)
      (exec (.pkKeygen sid) s) :=
  (leaves_of_curveDraw (n := fun k => k.cs + 8) (g := fun k b t =>
      { out := k.pubBytes (k.mul (unbe b % k.n) k.g)
        slotOps := kilnNewKey t sl (slipAttr sl.cs sl.exts).cls (be k.c (unbe b % k.n)), approved := !kLoaded sl })
    h (isKiln_of_slipRuns h hset.le) (fun _ => curveSet_cases hset ..) hp).produces fun _ => succeeds_kilnNewKey ..

/-! ## Private scalars (R303) -/

/-- What an operation answers whose secret scalar is checked first. -/
def withScalar (sl : Slip) (o : Curve → OpOut) (k : Curve) : OpOut :=
  if scalarOk k (unbe (keyMat sl)) then o k else .fail St.operandRange (!kLoaded sl)

omit hset hp in
theorem withScalar_ok {o : Curve → OpOut} {k : Curve} (hd : unbe (keyMat sl) ≠ 0 ∧ unbe (keyMat sl) < k.n) :
    withScalar sl o k = o k := if_pos (scalarOk_iff.mpr hd)

omit hset hp in
theorem withScalar_bad {o : Curve → OpOut} {k : Curve} (hd : ¬ (unbe (keyMat sl) ≠ 0 ∧ unbe (keyMat sl) < k.n)) :
    withScalar sl o k = .fail St.operandRange (!kLoaded sl) := if_neg (mt scalarOk_iff.mp hd)

omit hset hp in
theorem Leaves.fails_scalar {r : Res} {o : Curve → OpOut} {k : Curve} (h : Leaves s sid sl (fun _ => withScalar sl o k) r)
    (hd : ¬ (unbe (keyMat sl) ≠ 0 ∧ unbe (keyMat sl) < k.n)) : FailsWith s sid St.operandRange r := by
  rw [withScalar_bad hd] at h
  exact h.fails (by decide)

theorem pkPubkey_ec_leaves (h : SlipRuns s sid sl 6 0x02) :
    Leaves s sid sl (fun _ => withScalar sl (fun k =>
      { out := k.pubBytes (k.mul (unbe (keyMat sl)) k.g), approved := !kLoaded sl }) (slipCurve s sl)) (exec (.pkPubkey sid) s) :=
  leaves_of_curve h (isKiln_of_slipRuns h hset.le)
    (fun t => (curveSet_cases hset ..).trans (apply_ite (Prod.mk t) _ _ _).symm) hp

theorem pkPubkey_ec_produces (h : SlipRuns s sid sl 6 0x02)
    (hd : unbe (keyMat sl) ≠ 0 ∧ unbe (keyMat sl) < (slipCurve s sl).n) :
    Produces s sid sl ((slipCurve s sl).pubBytes ((slipCurve s sl).mul (unbe (keyMat sl)) (slipCurve s sl).g)) 0 NoKey
      (exec (.pkPubkey sid) s) :=
  (pkPubkey_ec_leaves hp hset h).produces fun _ => by rw [withScalar_ok hd]; exact succeeds_output ..

/-! ## Agreement (R303) -/

/-- What an agreement answers in state `t` once its scalar is found in range. -/
def ecShared (sl : Slip) (t : State) (k : Curve) : OpOut :=
  match k.pubPoint sl.inData with
  | none => .fail St.pointInvalid (!kLoaded sl)
  | some q => match k.mul (unbe (keyMat sl)) (some q) with
    | none => .fail St.pointInvalid (!kLoaded sl)
    | some (x, _) => toSecret t sl (be k.c x) { approved := !kLoaded sl }

omit hp in
theorem pkAgree_ec (t : State) : pkAgree sl t = (t, withScalar sl (ecShared sl t) (slipCurve t sl)) := by
  unfold pkAgree withScalar ecShared
  rw [if_neg hset.not_edwards]
  dsimp only
  cases scalarOk (slipCurve t sl) (unbe (keyMat sl))
  · rfl
  · cases (slipCurve t sl).pubPoint sl.inData with
    | none => rfl
    | some q =>
      dsimp only
      cases (slipCurve t sl).mul (unbe (keyMat sl)) (some q) <;> rfl

theorem pkAgree_ec_leaves (h : SlipRuns s sid sl 6 0x03) :
    Leaves s sid sl (fun _ => withScalar sl (ecShared sl (startUses s sid)) (slipCurve s sl)) (exec (.pkAgree sid) s) := by
  refine leaves_of_run (f := pkAgree) h (isKiln_of_slipRuns h hset.le) ?_ (started_startUses h.1) hp
  rw [pkAgree_ec hset, slipCurve_startUses h.1]

theorem pkAgree_ec_produces (h : SlipRuns s sid sl 6 0x03)
    (hd : unbe (keyMat sl) ≠ 0 ∧ unbe (keyMat sl) < (slipCurve s sl).n) {q : Nat × Nat} {x y : Nat}
    (hq : (slipCurve s sl).pubPoint sl.inData = some q)
    (hm : (slipCurve s sl).mul (unbe (keyMat sl)) (some q) = some (x, y)) :
    Produces s sid sl [] 0 (KeepsSecret sl (be (slipCurve s sl).c x)) (exec (.pkAgree sid) s) :=
  (pkAgree_ec_leaves hp hset h).produces fun _ => by
    rw [withScalar_ok hd]
    simp only [ecShared, hq, hm]
    exact succeeds_secret ..

theorem pkAgree_ec_fails (h : SlipRuns s sid sl 6 0x03)
    (hd : unbe (keyMat sl) ≠ 0 ∧ unbe (keyMat sl) < (slipCurve s sl).n)
    (hq : (slipCurve s sl).pubPoint sl.inData = none) : FailsWith s sid St.pointInvalid (exec (.pkAgree sid) s) := by
  have hleaves := pkAgree_ec_leaves hp hset h
  simp only [withScalar_ok hd, ecShared, hq] at hleaves
  exact hleaves.fails (by decide)

/-! ## Signing (R304) -/

/-- The bytes from which the first nonce is made: deterministic ones, or those that come next. -/
def nonceBytes (s : State) (sl : Slip) (k : Curve) : Bytes :=
  if kDet (csParam sl.cs) then Config.compute .ecNonce [keyMat sl, le 128 (digestInt k (kMsg sl)), le 1 3]
  else s.freeBytes (k.cs + 8)

/-- r and s that the first nonce gives. -/
def firstRS (s : State) (sl : Slip) (k : Curve) : Nat × Nat :=
  ecdsaRS k (unbe (keyMat sl)) (digestInt k (kMsg sl)) (1 + unbe (nonceBytes s sl k) % (k.n - 1))

omit hset hp in
theorem ecdsaSign_first {t : State} {k : Curve} (hr : (firstRS t sl k).1 ≠ 0) (hs : (firstRS t sl k).2 ≠ 0) :
    ecdsaSign k sl (unbe (keyMat sl)) (digestInt k (kMsg sl)) 4 t =
      (if kDet (csParam sl.cs) then t else t.drawn (k.cs + 8),
        { out := be k.cs (firstRS t sl k).1 ++ be k.cs (firstRS t sl k).2, approved := !kLoaded sl }) :=
  if_neg (not_or.mpr ⟨hr, hs⟩)

omit hp in
theorem pkSign_ec (t : State) : pkSign sl t =
    if scalarOk (slipCurve t sl) (unbe (keyMat sl)) then
      ecdsaSign (slipCurve t sl) sl (unbe (keyMat sl)) (digestInt (slipCurve t sl) (kMsg sl)) 4 t
    else (t, .fail St.operandRange (!kLoaded sl)) := curveSet_cases hset ..

omit hset hp in
theorem firstRS_startUses (h : s.slip? sid = some sl) (k : Curve) : firstRS (startUses s sid) sl k = firstRS s sl k := by
  rw [firstRS, nonceBytes, startUses_freeBytes h]; rfl

theorem pkSign_ec_produces (h : SlipRuns s sid sl 6 0x10)
    (hd : unbe (keyMat sl) ≠ 0 ∧ unbe (keyMat sl) < (slipCurve s sl).n)
    (hr : (firstRS s sl (slipCurve s sl)).1 ≠ 0) (hs : (firstRS s sl (slipCurve s sl)).2 ≠ 0) :
    Produces s sid sl (be (slipCurve s sl).cs (firstRS s sl (slipCurve s sl)).1 ++
      be (slipCurve s sl).cs (firstRS s sl (slipCurve s sl)).2) 0 NoKey (exec (.pkSign sid) s) := by
  have hstart := started_startUses h.1
  have hdrawn : Started s (if kDet (csParam sl.cs) then startUses s sid else (startUses s sid).drawn ((slipCurve s sl).cs + 8))
      sid sl := by
    split
    · exact hstart
    · exact hstart.drawn _
  have hsign := pkSign_ec (sl := sl) hset (startUses s sid)
  rw [slipCurve_startUses h.1, if_pos (scalarOk_iff.mpr hd), ecdsaSign_first (by rwa [firstRS_startUses h.1])
    (by rwa [firstRS_startUses h.1]), firstRS_startUses h.1] at hsign
  exact (leaves_of_run h (isKiln_of_slipRuns h hset.le) hsign hdrawn hp).produces fun _ => succeeds_output ..

theorem pkSign_ec_fails (h : SlipRuns s sid sl 6 0x10)
    (hd : ¬ (unbe (keyMat sl) ≠ 0 ∧ unbe (keyMat sl) < (slipCurve s sl).n)) :
    FailsWith s sid St.operandRange (exec (.pkSign sid) s) := by
  have hsign := pkSign_ec (sl := sl) hset (startUses s sid)
  rw [slipCurve_startUses h.1, if_neg (mt scalarOk_iff.mp hd)] at hsign
  exact (leaves_of_run h (isKiln_of_slipRuns h hset.le) hsign (started_startUses h.1) hp).fails (by decide)

end

/-! ## Verification (R298) -/

section
variable {s : State} {sid : Nat} {sl : Slip} {cur : Curve}

theorem rsaPkOk_iff {pk : Bytes} : rsaPkOk pk = true ↔ 3 ≤ rsaE pk ∧ rsaE pk % 2 = 1 := by simp [rsaPkOk, rsaE]

/-- An inline RSA public key is refused for its exponent (R292). -/
def BadExponent (sl : Slip) (pk : Bytes) : Prop := csKeyUsed sl.cs = false ∧ ¬ (3 ≤ rsaE pk ∧ rsaE pk % 2 = 1)

theorem badExponent_iff {pk : Bytes} : BadExponent sl pk ↔ (!rsaPkOk pk && !csKeyUsed sl.cs) = true := by
  rw [BadExponent, ← rsaPkOk_iff]
  cases rsaPkOk pk <;> simp

theorem pkVerdict_rsa_bad (h0 : csSet sl.cs = 0) (hb : BadExponent sl (kilnKey sl cur).1) : pkVerdict sl cur =
    .fail St.inputMalformed (decide (65537 ≤ rsaE (kilnKey sl cur).1)) := (if_pos h0).trans (if_pos (badExponent_iff.mp hb))

theorem pkVerdict_rsa (h0 : csSet sl.cs = 0) (hb : ¬ BadExponent sl (kilnKey sl cur).1) : pkVerdict sl cur =
    .verdict (decide (unbe (kilnKey sl cur).2 < unbe ((kilnKey sl cur).1.take ((kilnKey sl cur).1.length - 4))) &&
      Config.holds (.rsaSign (kPad (csParam sl.cs))) [(kilnKey sl cur).1, sigCtx (csParam sl.cs) [], kMsg sl,
        (kilnKey sl cur).2]) (decide (65537 ≤ rsaE (kilnKey sl cur).1)) :=
  (if_pos h0).trans (if_neg (mt badExponent_iff.mpr hb))

theorem pkVerdict_ed (hset : csSet sl.cs = 4 ∨ csSet sl.cs = 5) : pkVerdict sl cur =
    .verdict (Config.holds (.edSign (csSet sl.cs)) [(kilnKey sl cur).1,
      sigCtx (csParam sl.cs) ((kilnKey sl cur).2.drop (edSig (csSet sl.cs))), kMsg sl,
      (kilnKey sl cur).2.take (edSig (csSet sl.cs))]) := edwards_cases hset ..

theorem pkVerdict_ec_invalid (hset : IsCurveSet (csSet sl.cs)) (hq : cur.pubPoint (kilnKey sl cur).1 = none) :
    pkVerdict sl cur = .fail St.pointInvalid (!kLoaded sl) := by
  simp only [pkVerdict, if_neg hset.not_rsa, if_neg hset.not_edwards, hq]

theorem pkVerdict_ec {q : Nat × Nat} (hset : IsCurveSet (csSet sl.cs)) (hq : cur.pubPoint (kilnKey sl cur).1 = some q) :
    pkVerdict sl cur = .verdict (ecdsaOk cur q (digestInt cur (kMsg sl)) (unbe ((kilnKey sl cur).2.take cur.cs))
      (unbe ((kilnKey sl cur).2.drop cur.cs))) (!kLoaded sl) := by
  simp only [pkVerdict, if_neg hset.not_rsa, if_neg hset.not_edwards, hq]

variable (hp : PolicyAdmits s sl) (h : SlipRuns s sid sl 6 0x20)
include hp h

theorem pkVerify_verdict {v a : Bool} (hset : csSet sl.cs ≤ 6) (hv : pkVerdict sl (slipCurve s sl) = .verdict v a) :
    Verdict s sid v (exec (.pkVerify sid) s) :=
  ((pkVerify_leaves hp h hset).congr fun _ _ => hv).verdict

theorem pkVerify_fails {st : Nat} {a : Bool} (hset : csSet sl.cs ≤ 6) (hv : pkVerdict sl (slipCurve s sl) = .fail st a)
    (hst : st ≠ St.ok) : FailsWith s sid st (exec (.pkVerify sid) s) :=
  ((pkVerify_leaves hp h hset).congr fun _ _ => hv).fails hst

end

end Sys2Proof.Machine
end

section
open Sys2Proof Sys2Proof.Machine

/-- Settles O27: a set is one of RSA, of an Edwards curve or of a short-Weierstrass curve, and each operation has one result for
each. -/
theorem kilnOperationsProduceTheirResults : Obligations.KilnOperationsProduceTheirResults := by
  rintro s sid sl _ rfl hp runs rsa ed ec p cls cur key d inRange m aux mont edl sg agree edPub rk keygen made pk rest sigp e badPk
  have hpub : ed → ∀ c seed, edPublicKey (csSet sl.cs) c seed = edPub c seed := fun hed c seed => by
    rw [edPublicKey, kAgree_edwards hed]; rfl
  have hseed : ed → edSeedLen (csSet sl.cs) cls = if agree cls then mont else edl := fun hed => by
    rw [edSeedLen, kAgree_edwards hed]; rfl
  have hkey : kilnKey sl cur = (pk, rest) := verKey_eq ..
  refine ⟨fun h h0 => ⟨pkKeygen_rsa_produces hp h0 h, pkKeygen_rsa_aborts hp h0 h⟩, ?edKeygen,
    fun h hec => pkKeygen_ec_produces hp hec h, fun h h0 => pkPubkey_rsa_produces hp h0 h, ?edPubkey,
    fun h hec => pkPubkey_ec_produces hp hec h, fun h hec => (pkPubkey_ec_leaves hp hec h).fails_scalar,
    fun h hed => ⟨pkAgree_ed_produces hp hed h, pkAgree_ed_fails hp hed h⟩,
    fun q x y h hec hd => pkAgree_ec_produces hp hec h hd, fun h hec hd => pkAgree_ec_fails hp hec h hd,
    fun h hec => (pkAgree_ec_leaves hp hec h).fails_scalar, fun h h0 => pkSign_rsa_produces hp h0 h,
    fun h hed => pkSign_ed_produces hp hed h, fun h hec hd => pkSign_ec_produces hp hec h hd,
    fun h hec => pkSign_ec_fails hp hec h, ?rsaVerify, ?rsaBad, ?edVerify, ?ecVerify, ?ecBad⟩
  case edKeygen =>
    intro h hed
    have hmade : made (edPublicKey (csSet sl.cs) cls (s.freeBytes (edSeedLen (csSet sl.cs) cls)))
        (s.freeBytes (edSeedLen (csSet sl.cs) cls)) := pkKeygen_ed_produces hp hed h
    rwa [hpub hed, hseed hed] at hmade
  case edPubkey =>
    intro h hed
    rw [← hpub hed]
    exact pkPubkey_ed_produces hp hed h
  case rsaVerify =>
    intro h h0 hb
    have hv := pkVerdict_rsa (cur := cur) h0 (by rwa [hkey])
    rw [hkey] at hv
    exact pkVerify_verdict hp h (by omega) hv
  case rsaBad =>
    intro h h0 hb
    exact pkVerify_fails hp h (by omega) (pkVerdict_rsa_bad (cur := cur) h0 (by rwa [hkey])) (by decide)
  case edVerify =>
    intro h hed
    have hv := pkVerdict_ed (cur := cur) hed
    rw [hkey] at hv
    exact pkVerify_verdict hp h (by omega) hv
  case ecVerify =>
    intro q h hec hq
    have hv := pkVerdict_ec (cur := cur) hec (by rwa [hkey])
    rw [hkey] at hv
    exact pkVerify_verdict hp h (IsCurveSet.le hec) hv
  case ecBad =>
    intro h hec hq
    exact pkVerify_fails hp h (IsCurveSet.le hec) (pkVerdict_ec_invalid (cur := cur) hec (by rwa [hkey])) (by decide)
end

section
/-!
SUPPORT. RSA transport, the loading of curves, and class 0x7 (R296, R297, R301 to R303, R307 to R309): what each operation leaves in
its slip.
-/

namespace Sys2Proof.Machine

section
variable {s : State} {sid op : Nat} {sl : Slip} (hp : PolicyAdmits s sl)
include hp

/-! ## RSA transport (R296, R297) -/

/-- Where an encryption's public key ends in `AUX`. -/
def rsaFront (sl : Slip) : Nat := if csKeyUsed sl.cs then 0 else 32 * kSize (csParam sl.cs) + 4

def rsaTransportKey (sl : Slip) : Bytes := if csKeyUsed sl.cs then keyMat sl else (ownAux sl).take (rsaFront sl)

def rsaEncryptOut (sl : Slip) (b : Bytes) : OpOut :=
  { out := fit ((rsaTransportKey sl).length - 4) (Config.compute (.rsaEnc (kPad (csParam sl.cs)))
      [rsaTransportKey sl, le 1 (kHash (csParam sl.cs)), (ownAux sl).drop (rsaFront sl), sl.inData, b])
    approved := kPad (csParam sl.cs) != 0 && decide (65537 ≤ rsaE (rsaTransportKey sl)) }

section
variable (h : SlipRuns s sid sl 6 0x30) (hset : csSet sl.cs ≤ 6)
include h hset

theorem rsaEncrypt_produces (hb : ¬ BadExponent sl (rsaTransportKey sl)) :
    Produces s sid sl (rsaEncryptOut sl (s.freeBytes 1024)).out 0 NoKey (exec (.rsaEncrypt sid) s) :=
  (leaves_of_draw (ob := fun b _ => rsaEncryptOut sl b) h (isKiln_of_slipRuns h hset)
    (fun _ => if_neg (mt badExponent_iff.mpr hb)) (.inl hp)).produces fun _ => succeeds_output ..

theorem rsaEncrypt_fails (hb : BadExponent sl (rsaTransportKey sl)) :
    FailsWith s sid St.inputMalformed (exec (.rsaEncrypt sid) s) :=
  (leaves_of_pure h (isKiln_of_slipRuns h hset) (fun _ => if_pos (badExponent_iff.mp hb)) (.inl hp)).fails (by decide)

end

section
variable (h : SlipRuns s sid sl 6 0x31) (hset : csSet sl.cs ≤ 6)
include h hset

/-- What a decryption takes, and the message it then gives where the padding is valid and the length is right, else the rejection
value (R297). -/
def rsaIns (sl : Slip) : List Bytes := [keyMat sl, le 1 (kHash (csParam sl.cs)), ownAux sl, sl.inData]

def rsaSecretLen (sl : Slip) : Nat :=
  if csHold sl.cs then kSecret (csParam sl.cs) else (classLen (slipAttr sl.cs sl.exts).cls).getD 0

def rsaSecret (sl : Slip) : Bytes :=
  if Config.holds (.rsaDec (kPad (csParam sl.cs))) (rsaIns sl) &&
      (Config.compute (.rsaDec (kPad (csParam sl.cs))) (rsaIns sl)).length == rsaSecretLen sl then
    Config.compute (.rsaDec (kPad (csParam sl.cs))) (rsaIns sl)
  else fit (rsaSecretLen sl) (Config.compute (.shake 256) [Config.compute .rsaExponent [keyMat sl] ++ rsaIr ++ sl.inData])

theorem rsaDecrypt_produces (hlt : unbe sl.inData < unbe ((keyMat sl).take (rsaK 0x60 (keyMat sl).length))) :
    Produces s sid sl [] 0 (KeepsSecret sl (rsaSecret sl)) (exec (.rsaDecrypt sid) s) :=
  (leaves_of_pure h (isKiln_of_slipRuns h hset) (fun _ => if_neg (Nat.not_le.mpr hlt)) (.inl hp)).produces fun _ =>
    succeeds_secret ..

theorem rsaDecrypt_fails (hle : unbe ((keyMat sl).take (rsaK 0x60 (keyMat sl).length)) ≤ unbe sl.inData) :
    FailsWith s sid St.operandRange (exec (.rsaDecrypt sid) s) :=
  (leaves_of_pure h (isKiln_of_slipRuns h hset) (fun _ => if_pos hle) (.inl hp)).fails (by decide)

end

/-! ## The loading of a curve (R307 to R309) -/

section
variable (h : SlipRuns s sid sl 6 0x40) (hset : csSet sl.cs ≤ 6)
include h hset

/-- Bytes of a coordinate of the curve to be loaded. -/
def curveBytes (sl : Slip) : Nat := (sl.cs.auxLen - 2) / 6

/-- The first check of the parameters that fails, with the bases that `b` gives. -/
def loadFails (sl : Slip) (b : Bytes) : Option Nat :=
  curveFails (parseCurve (curveBytes sl) sl.auxData) (mrBases b (curveBytes sl + 1))
    (mrBases (b.drop (64 * (curveBytes sl + 1))) (curveBytes sl + 1))

def curveLoadOut (sl : Slip) (b : Bytes) (t : State) : OpOut :=
  match loadFails sl b with
  | some n => { status := St.curveRejected, inline := BitVec.ofNat 64 n, approved := false }
  | none => { slotOps := newKeyOp t sl (slipParent sl) 0x7A (curveMaterial (curveBytes sl) sl.auxData), approved := false }

theorem curveLoad_leaves (hc : field sl.auxData 0 1 ≠ 0) :
    Leaves s sid sl (curveLoadOut sl (s.freeBytes (128 * (curveBytes sl + 1)))) (exec (.curveLoad sid) s) := by
  refine leaves_of_draw h (isKiln_of_slipRuns h hset) (fun t => (if_neg hc).trans ?_) (.inl hp)
  unfold draw curveLoadOut loadFails
  dsimp only [curveBytes]
  generalize curveFails _ _ _ = x
  cases x <;> rfl

theorem curveLoad_produces (hc : field sl.auxData 0 1 ≠ 0)
    (hf : loadFails sl (s.freeBytes (128 * (curveBytes sl + 1))) = none) :
    Produces s sid sl [] 0 (fun y => y.secret = none ∧ CreatesKey sl 0x7A (curveMaterial (curveBytes sl) sl.auxData) y)
      (exec (.curveLoad sid) s) :=
  (curveLoad_leaves hp h hset hc).produces fun _ => by
    simp only [curveLoadOut, hf]
    exact ⟨rfl, rfl, rfl, rfl, fun _ hsec hops => ⟨hsec, createsKey_of_newKeyOp hops⟩⟩

theorem curveLoad_rejects {i : Nat} (hc : field sl.auxData 0 1 ≠ 0)
    (hf : loadFails sl (s.freeBytes (128 * (curveBytes sl + 1))) = some i) :
    Completes s sid 0x0406 [] 0 (BitVec.ofNat 64 i) NoKey (exec (.curveLoad sid) s) := by
  have hout : ∀ t, curveLoadOut sl (s.freeBytes (128 * (curveBytes sl + 1))) t =
      { status := St.curveRejected, inline := BitVec.ofNat 64 i, approved := false } := fun _ => by simp only [curveLoadOut, hf]
  exact ((curveLoad_leaves hp h hset hc).congr fun t _ => hout t).completes_failed
    (Nat.ne_of_gt (by decide : 0 < St.curveRejected))

theorem curveLoad_fails (hc : field sl.auxData 0 1 = 0) : FailsWith s sid St.lengthMismatch (exec (.curveLoad sid) s) :=
  (leaves_of_pure h (isKiln_of_slipRuns h hset) (fun _ => if_pos hc) (.inl hp)).fails (by decide)

end

end

end Sys2Proof.Machine

open Sys2Proof Sys2Proof.Machine

/-- Settles O28: the exponent of an inline key, the range of a ciphertext, and the first check that a curve fails decide. -/
theorem rsaTransportAndCurveLoading : Obligations.RsaTransportAndCurveLoading := by
  intro s sid sl hp runs rsa p key aux n pk e goodPk hash pad k ins l msg reject c b fails
  have hbad : BadExponent sl pk ↔ ¬ goodPk := by
    rw [BadExponent, ← Bool.not_eq_true]; exact not_or.symm
  refine ⟨fun h h0 hg => rsaEncrypt_produces hp h (by omega) fun hb => hbad.mp hb hg,
    fun h h0 hg => rsaEncrypt_fails hp h (by omega) (hbad.mpr hg), ?decrypt,
    fun h h0 => rsaDecrypt_fails hp h (by omega), fun h h6 => curveLoad_produces hp h (by omega),
    fun i h h6 => curveLoad_rejects hp h (by omega), fun h h6 => curveLoad_fails hp h (by omega)⟩
  case decrypt =>
    intro h h0 hlt
    have hs : rsaSecret sl = if Config.holds (.rsaDec pad) ins = true ∧ msg.length = l then msg else reject :=
      ite_congr (by simp only [Bool.and_eq_true, beq_iff_eq]; rfl) (fun _ => rfl) fun _ => rfl
    rw [← hs]
    exact rsaDecrypt_produces hp h (by omega) hlt
end

section
/-!
SUPPORT. Class 0x7 (R301 to R303): modular arithmetic below an odd modulus, and the points of a short curve.
-/

namespace Sys2Proof.Machine

/-! ## Powers (R301) -/

/-- The exponent's bits from the least, of which the fuel bounds the count. -/
theorem powMod_eq {m : Nat} (fuel a x : Nat) (hx : x < 2 ^ fuel) : powMod m fuel a x = a ^ x % m := by
  induction fuel generalizing a x with
  | zero =>
    obtain rfl : x = 0 := by simpa using hx
    rfl
  | succ fuel ih =>
    unfold powMod
    by_cases h0 : x = 0
    · rw [if_pos h0, h0, pow_zero]
    have hhalf : x / 2 < 2 ^ fuel := by rw [pow_succ] at hx; omega
    have hsquare : powMod m fuel (a * a % m) (x / 2) = a ^ (2 * (x / 2)) % m := by
      rw [ih _ _ hhalf, ← Nat.pow_mod, pow_mul, pow_two]
    rw [if_neg h0]
    dsimp only
    rw [hsquare]
    split
    · next hodd =>
      rw [Nat.mul_mod_mod, ← pow_succ', show 2 * (x / 2) + 1 = x by omega]
    · next heven => rw [show 2 * (x / 2) = x by omega]

section
variable {s : State} {sid op : Nat} {sl : Slip} (hp : PolicyAdmits s sl)
include hp

/-! ## Modular arithmetic -/

/-- The modulus of a slip and its operands. -/
def modulusIn (sl : Slip) : Nat := unbe sl.auxData
def firstIn (sl : Slip) : Nat := unbe (sl.inData.take sl.cs.auxLen)
def secondIn (sl : Slip) : Nat := unbe (sl.inData.drop sl.cs.auxLen)

omit hp in
theorem isMod_of_slipRuns (h : SlipRuns s sid sl 7 op) (h0 : csSet sl.cs = 0) : isMod op sl = true := by
  obtain ⟨-, -, -, -, -, -, hop⟩ := h
  simp [isMod, hop, h0]

section
variable {two : Bool} {g : Nat → Nat → Nat → Except Nat Nat} (h : SlipRuns s sid sl 7 op) (h0 : csSet sl.cs = 0)
include h h0

theorem modOp_badModulus (hm : modulusIn sl < 3 ∨ modulusIn sl % 2 = 0) :
    FailsWith s sid St.paramInvalid (.next (runOp s sid 7 (isMod op) (modOp two g))) :=
  (leaves_of_pure h (isMod_of_slipRuns h h0) (fun _ => if_pos hm) (.inl hp)).fails (by decide)

variable (h3 : 3 ≤ modulusIn sl) (hodd : modulusIn sl % 2 = 1)
include h3 hodd

theorem modOp_outOfRange (hr : modulusIn sl ≤ firstIn sl ∨ (two = true ∧ modulusIn sl ≤ secondIn sl)) :
    FailsWith s sid St.operandRange (.next (runOp s sid 7 (isMod op) (modOp two g))) := by
  have hf : ∀ u, modOp two g sl u = (u, .fail St.operandRange false) := fun _ =>
    (if_neg (fun hm : modulusIn sl < 3 ∨ modulusIn sl % 2 = 0 => by omega)).trans (if_pos hr)
  exact (leaves_of_pure h (isMod_of_slipRuns h h0) hf (.inl hp)).fails (by decide)

variable (ha : firstIn sl < modulusIn sl) (hb : two = true → secondIn sl < modulusIn sl)
include ha hb

omit hp h h0 in
theorem modOp_inRange (u : State) : modOp two g sl u = match g (modulusIn sl) (firstIn sl) (secondIn sl) with
    | .ok r => (u, { out := be sl.cs.auxLen r, approved := false })
    | .error st => (u, .fail st false) :=
  (if_neg (fun hm : modulusIn sl < 3 ∨ modulusIn sl % 2 = 0 => by omega)).trans
    (if_neg fun hr => hr.elim (Nat.not_le.mpr ha) fun hr => absurd hr.2 (Nat.not_le.mpr (hb hr.1)))

theorem modOp_produces {r : Nat} (hg : g (modulusIn sl) (firstIn sl) (secondIn sl) = .ok r) :
    Produces s sid sl (be sl.cs.auxLen r) 0 NoKey (.next (runOp s sid 7 (isMod op) (modOp two g))) := by
  have hf : ∀ u, modOp two g sl u = (u, { out := be sl.cs.auxLen r, approved := false }) := fun u => by
    rw [modOp_inRange h3 hodd ha hb, hg]
  exact (leaves_of_pure h (isMod_of_slipRuns h h0) hf (.inl hp)).produces fun _ => succeeds_output ..

theorem modOp_fails {st : Nat} (hg : g (modulusIn sl) (firstIn sl) (secondIn sl) = .error st) (hst : st ≠ St.ok) :
    FailsWith s sid st (.next (runOp s sid 7 (isMod op) (modOp two g))) := by
  have hf : ∀ u, modOp two g sl u = (u, .fail st false) := fun u => by rw [modOp_inRange h3 hodd ha hb, hg]
  exact (leaves_of_pure h (isMod_of_slipRuns h h0) hf (.inl hp)).fails hst

omit h hb in
theorem modinv_produces {r : Nat} (h : SlipRuns s sid sl 7 0x04) (hr : invMod (firstIn sl) (modulusIn sl) = some r) :
    Produces s sid sl (be sl.cs.auxLen r) 0 NoKey (exec (.modinv sid) s) :=
  modOp_produces (two := false) hp h h0 h3 hodd ha nofun (by simp only [hr])

omit h hb in
theorem modinv_fails (h : SlipRuns s sid sl 7 0x04) (hr : invMod (firstIn sl) (modulusIn sl) = none) :
    FailsWith s sid St.notInvertible (exec (.modinv sid) s) :=
  modOp_fails (two := false) hp h h0 h3 hodd ha nofun (by simp only [hr]) (by decide)

omit h hb in
theorem modexp_produces (h : SlipRuns s sid sl 7 0x05) (hx : secondIn sl < 2 ^ 8192) :
    Produces s sid sl (be sl.cs.auxLen (firstIn sl ^ secondIn sl % modulusIn sl)) 0 NoKey (exec (.modexp sid) s) :=
  modOp_produces (two := false) hp h h0 h3 hodd ha nofun (congrArg Except.ok (powMod_eq 8192 _ _ hx))

end

/-! ## Points (R302) -/

omit hp in
theorem isPoint_of_slipRuns (h : SlipRuns s sid sl 7 op) (hset : IsCurveSet (csSet sl.cs)) : isPoint op sl = true := by
  obtain ⟨-, -, -, -, -, -, hop⟩ := h
  simp [isPoint, hop, hset.isShort]

/-- What a point operation answers: the point, or that an operand is no point of the curve. -/
def pointAnswer (k : Curve) : Option Point → OpOut
  | some q => pointOut k q
  | none => .fail St.pointInvalid false

omit hp in
theorem succeeds_point (k : Curve) (q : Point) : Succeeds (pointOut k q) (k.rawBytes q) (if q = none then 1 else 0) NoKey := by
  have hinl : (pointOut k q).inline = if q = none then 1 else 0 := by cases q <;> rfl
  exact ⟨rfl, rfl, rfl, hinl, fun _ hsec hops => ⟨hsec, hops⟩⟩

section
variable {f : Slip → State → State × OpOut} {g : Curve → Option Point} (h : SlipRuns s sid sl 7 op)
  (hset : IsCurveSet (csSet sl.cs)) (hf : ∀ t, f sl t = (t, pointAnswer (slipCurve t sl) (g (slipCurve t sl))))
include h hset hf

theorem point_produces {q : Point} (hg : g (slipCurve s sl) = some q) :
    Produces s sid sl ((slipCurve s sl).rawBytes q) (if q = none then 1 else 0) NoKey
      (.next (runOp s sid 7 (isPoint op) f)) := by
  have hleaves := leaves_of_curve (g := fun k => pointAnswer k (g k)) h (isPoint_of_slipRuns h hset) hf hp
  exact hleaves.produces fun _ => by simp only [hg, pointAnswer]; exact succeeds_point ..

theorem point_fails (hg : g (slipCurve s sl) = none) :
    FailsWith s sid St.pointInvalid (.next (runOp s sid 7 (isPoint op) f)) := by
  have hleaves := leaves_of_curve (g := fun k => pointAnswer k (g k)) h (isPoint_of_slipRuns h hset) hf hp
  simp only [hg, pointAnswer] at hleaves
  exact hleaves.fails (by decide)

end

/-- The sum of the two points of a slip. -/
def paddPoint (sl : Slip) (k : Curve) : Option Point := do
  let q ← k.rawPoint (sl.inData.take (2 * k.c))
  let r ← k.rawPoint (sl.inData.drop (2 * k.c))
  some (k.add (some q) (some r))

/-- The double of its one point. -/
def pdblPoint (sl : Slip) (k : Curve) : Option Point := (k.rawPoint sl.inData).map fun q => k.add (some q) (some q)

omit hp in
theorem padd_eq (t : State) : padd sl t = (t, pointAnswer (slipCurve t sl) (paddPoint sl (slipCurve t sl))) := by
  unfold padd paddPoint
  dsimp only
  cases (slipCurve t sl).rawPoint (sl.inData.take (2 * (slipCurve t sl).c)) <;>
    cases (slipCurve t sl).rawPoint (sl.inData.drop (2 * (slipCurve t sl).c)) <;> rfl

omit hp in
theorem pdbl_eq (t : State) : pdbl sl t = (t, pointAnswer (slipCurve t sl) (pdblPoint sl (slipCurve t sl))) := by
  unfold pdbl pdblPoint
  dsimp only
  cases (slipCurve t sl).rawPoint sl.inData <;> rfl

section
variable (h : SlipRuns s sid sl 7 0x10) (hset : IsCurveSet (csSet sl.cs))
include h hset

theorem padd_produces {q r : Nat × Nat}
    (hq : (slipCurve s sl).rawPoint (sl.inData.take (2 * (slipCurve s sl).c)) = some q)
    (hr : (slipCurve s sl).rawPoint (sl.inData.drop (2 * (slipCurve s sl).c)) = some r) :
    let sum := (slipCurve s sl).add (some q) (some r)
    Produces s sid sl ((slipCurve s sl).rawBytes sum) (if sum = none then 1 else 0) NoKey (exec (.padd sid) s) :=
  point_produces hp h hset padd_eq (by simp [paddPoint, hq, hr])

theorem padd_fails (hg : (slipCurve s sl).rawPoint (sl.inData.take (2 * (slipCurve s sl).c)) = none ∨
      (slipCurve s sl).rawPoint (sl.inData.drop (2 * (slipCurve s sl).c)) = none) :
    FailsWith s sid St.pointInvalid (exec (.padd sid) s) := by
  refine point_fails hp h hset padd_eq ?_
  rcases hg with hg | hg
  · simp [paddPoint, hg]
  · simp [paddPoint, hg]

end

section
variable (h : SlipRuns s sid sl 7 0x11) (hset : IsCurveSet (csSet sl.cs))
include h hset

theorem pdbl_produces {q : Nat × Nat} (hq : (slipCurve s sl).rawPoint sl.inData = some q) :
    let double := (slipCurve s sl).add (some q) (some q)
    Produces s sid sl ((slipCurve s sl).rawBytes double) (if double = none then 1 else 0) NoKey (exec (.pdbl sid) s) :=
  point_produces hp h hset pdbl_eq (by rw [pdblPoint, hq]; rfl)

theorem pdbl_fails (hq : (slipCurve s sl).rawPoint sl.inData = none) : FailsWith s sid St.pointInvalid (exec (.pdbl sid) s) :=
  point_fails hp h hset pdbl_eq (by rw [pdblPoint, hq]; rfl)

end

/-- A scalar multiplication: its factor is below n, and its base a point (R303). -/
def pmulOut (sl : Slip) (k : Curve) : OpOut :=
  if k.n ≤ unbe (sl.inData.take k.cs) then .fail St.operandRange false
  else pointAnswer k ((k.rawPoint (sl.inData.drop k.cs)).map fun q => k.mul (unbe (sl.inData.take k.cs)) (some q))

omit hp in
theorem pmul_eq (t : State) : pmul sl t = (t, pmulOut sl (slipCurve t sl)) := by
  unfold pmul pmulOut
  dsimp only
  split
  · rfl
  · cases (slipCurve t sl).rawPoint (sl.inData.drop (slipCurve t sl).cs) <;> rfl

theorem pmul_leaves (h : SlipRuns s sid sl 7 0x12) (hset : IsCurveSet (csSet sl.cs)) :
    Leaves s sid sl (fun _ => pmulOut sl (slipCurve s sl)) (exec (.pmul sid) s) :=
  leaves_of_curve h (isPoint_of_slipRuns h hset) pmul_eq hp

section
variable (h : SlipRuns s sid sl 7 0x12) (hset : IsCurveSet (csSet sl.cs))
include h hset

theorem pmul_outOfRange (he : (slipCurve s sl).n ≤ unbe (sl.inData.take (slipCurve s sl).cs)) :
    FailsWith s sid St.operandRange (exec (.pmul sid) s) :=
  ((pmul_leaves hp h hset).congr fun _ _ => if_pos he).fails (by decide)

variable (he : unbe (sl.inData.take (slipCurve s sl).cs) < (slipCurve s sl).n)
include he

theorem pmul_produces {q : Nat × Nat} (hq : (slipCurve s sl).rawPoint (sl.inData.drop (slipCurve s sl).cs) = some q) :
    let product := (slipCurve s sl).mul (unbe (sl.inData.take (slipCurve s sl).cs)) (some q)
    Produces s sid sl ((slipCurve s sl).rawBytes product) (if product = none then 1 else 0) NoKey (exec (.pmul sid) s) :=
  (pmul_leaves hp h hset).produces fun _ => by
    rw [pmulOut, if_neg (Nat.not_le.mpr he), hq]
    exact succeeds_point ..

theorem pmul_fails (hq : (slipCurve s sl).rawPoint (sl.inData.drop (slipCurve s sl).cs) = none) :
    FailsWith s sid St.pointInvalid (exec (.pmul sid) s) := by
  have hleaves := pmul_leaves hp h hset
  rw [pmulOut, if_neg (Nat.not_le.mpr he), hq] at hleaves
  exact hleaves.fails (by decide)

end

end

end Sys2Proof.Machine

open Sys2Proof Sys2Proof.Machine

/-- Settles O29: the modulus and the ranges of the operands decide, and for points whether each is on the curve. -/
theorem fieldAndPointOperationsProduceTheirResults : Obligations.FieldAndPointOperationsProduceTheirResults := by
  intro s sid sl hp runs n m a b modulus number cur short point size first second factor base
  exact ⟨fun h ⟨h0, h3, hodd⟩ ha hb => modOp_produces (two := true) hp h h0 h3 hodd ha (fun _ => hb) rfl,
    fun h ⟨h0, h3, hodd⟩ ha hb => modOp_produces (two := true) hp h h0 h3 hodd ha (fun _ => hb) rfl,
    fun h ⟨h0, h3, hodd⟩ ha hb => modOp_produces (two := true) hp h h0 h3 hodd ha (fun _ => hb) rfl,
    fun _ h ⟨h0, h3, hodd⟩ ha => modinv_produces hp h0 h3 hodd ha h, fun h ⟨h0, h3, hodd⟩ ha => modinv_fails hp h0 h3 hodd ha h,
    fun h ⟨h0, h3, hodd⟩ ha => modexp_produces hp h0 h3 hodd ha h, fun h h0 => modOp_badModulus hp h h0,
    fun h ⟨h0, h3, hodd⟩ hr => modOp_outOfRange (two := true) hp h h0 h3 hodd (hr.imp_right fun hr => ⟨rfl, hr⟩),
    fun _ _ h hset => padd_produces hp h hset, fun h hset => padd_fails hp h hset, fun _ h hset => pdbl_produces hp h hset,
    fun h hset => pdbl_fails hp h hset, fun _ h hset he => pmul_produces hp h hset he,
    fun h hset he => pmul_fails hp h hset he,
    fun h hset => pmul_outOfRange hp h hset⟩
end

section
/-!
SUPPORT. The mailbox's service of one frame (R358, R362 to R367): the branches that come before a command's body.
-/

namespace Sys2Proof.Machine

variable {s t : State} {fn : Nat} {c : CmdSpec} {body : State → Bytes → CmdRes} {a : Ans} {w : MbxWait}

theorem serve_idle (h : canServe s fn = false ∨ field (s.mbx fn).cmdWin 0 2 ≠ c.code) : serve s fn c body = s := by
  rcases h with h | h
  · exact if_pos (by simp [h])
  · exact serve_other body h

section
variable (hs : canServe s fn = true) (hc : field (s.mbx fn).cmdWin 0 2 = c.code)
include hs hc

/-- A frame in the window of a mailbox that serves is judged first by its sequence number (R364). -/
theorem serve_judged : serve s fn c body =
    if isReplay (s.mbx fn) && !again (s.mbx fn) then replayRsp s fn
    else if !hseqOk (s.mbx fn) && !again (s.mbx fn) then
      respond s fn { status := St.mbxSeqInvalid, detail := ((s.mbx fn).lastHseq + 1).toNat } false
    else match checkCmd (accept s fn) fn c (framePayload (s.mbx fn)) with
      | some a => respond (accept s fn) fn a
      | none => match body (accept s fn) (framePayload (s.mbx fn)) with
        | .done s a => respond s fn a
        | .doneThen s a after => after (respond s fn a)
        | .wait s w => s.setMbx fn { s.mbx fn with wait := w } := by
  refine (if_neg ?_).trans rfl
  simp [hs, hc]

section
variable (ha : again (s.mbx fn) = false)
include ha

theorem serve_replays (hr : isReplay (s.mbx fn) = true) : serve s fn c body = replayRsp s fn := by
  rw [serve_judged hs hc, if_pos (by simp [hr, ha])]

variable (hr : isReplay (s.mbx fn) = false)
include hr

theorem serve_outOfSequence (hq : hseqOk (s.mbx fn) = false) : serve s fn c body =
    respond s fn { status := St.mbxSeqInvalid, detail := ((s.mbx fn).lastHseq + 1).toNat } false := by
  rw [serve_judged hs hc, if_neg (by simp [hr]), if_pos (by simp [hq, ha])]

variable (hq : hseqOk (s.mbx fn) = true)
include hq

omit ha in
theorem serve_inSequence : serve s fn c body = match checkCmd (accept s fn) fn c (framePayload (s.mbx fn)) with
    | some a => respond (accept s fn) fn a
    | none => match body (accept s fn) (framePayload (s.mbx fn)) with
      | .done s a => respond s fn a
      | .doneThen s a after => after (respond s fn a)
      | .wait s w => s.setMbx fn { s.mbx fn with wait := w } := by
  rw [serve_judged hs hc, if_neg (by simp [hr]), if_neg (by simp [hq])]

omit ha in
theorem serve_refused (hk : checkCmd (accept s fn) fn c (framePayload (s.mbx fn)) = some a) :
    serve s fn c body = respond (accept s fn) fn a := by
  rw [serve_inSequence hs hc hr hq, hk]

variable (hk : checkCmd (accept s fn) fn c (framePayload (s.mbx fn)) = none)
include hk

omit ha in
theorem serve_answers (hb : body (accept s fn) (framePayload (s.mbx fn)) = .done t a) : serve s fn c body = respond t fn a := by
  rw [serve_inSequence hs hc hr hq, hk, hb]

omit ha in
theorem serve_waits (hb : body (accept s fn) (framePayload (s.mbx fn)) = .wait t w) :
    serve s fn c body = t.setMbx fn { t.mbx fn with wait := w } := by
  rw [serve_inSequence hs hc hr hq, hk, hb]

end

end

/-- A payload of the wrong length fails the first check (R367 step 2). -/
theorem checkCmd_wrongLength {p : Bytes} (hl : c.lenOk p.length = false) : checkCmd s fn c p = some (fail St.formatInvalid) :=
  if_pos (by simp [hl])

/-- A device whose entropy unit alone has failed goes on serving (R351, log 154). -/
theorem canServe_entropyFailed (hb : (s.mbx fn).busy = true) (hw : (s.mbx fn).wait = .none) (hs : s.reg.served = true)
    (hsw : s.reg.switching = false) (he : s.ent.state = .failed) (hp : s.reg.pairsFenced < 2) (hd : s.reg.dev ≠ .recovery) :
    canServe s fn = true := by
  have hdead : mbxDead s = false := Bool.eq_false_iff.mpr fun h => (mbxDead_iff.mp h).2 ⟨he, hp⟩
  simp [canServe, hb, hw, hs, hsw, hdead, hd]

theorem canServe_failed (hd : s.reg.dev = .failed) (hp : s.reg.pairsFenced = 2) : canServe s fn = false := by
  have hdead : mbxDead s = true := mbxDead_iff.mpr ⟨hd, fun h => by omega⟩
  simp [canServe, hdead]

theorem sessionOk_firstKey (hc : c.code = 0x0014) (hr : c.role = .oa) (hl : s.tmp.lcs = .provisioned ∨ s.tmp.lcs = .service)
    (ha : (s.reg.admins.any fun q => q.1 / 4 == 0) = false) : sessionOk s 0 c = true := by
  have hopen : enrolOpen s 0 c = true := by rcases hl with h | h <;> simp [enrolOpen, hc, h, ha]
  simp [sessionOk, hr, hopen]

end Sys2Proof.Machine

open Sys2Proof Sys2Proof.Machine

/-- Settles O42: the sequence number, then the checks, then the body decide; an answer leaves the window clear. -/
theorem theMailboxServesEachCommandOnce : Obligations.TheMailboxServesEachCommandOnce := by
  intro s fn c body m r p
  refine ⟨serve_idle, fun hs hc ha => ⟨serve_replays hs hc ha, serve_outOfSequence hs hc ha,
      fun hr hq hl => serve_refused hs hc hr hq (checkCmd_wrongLength hl), fun a hr hq => serve_refused hs hc hr hq,
      fun t a hr hq hk => serve_answers hs hc hr hq hk, fun t w hr hq hk => serve_waits hs hc hr hq hk⟩,
    canServe_entropyFailed, canServe_failed, sessionOk_firstKey, fun a hb => ?_, fun a hb => respond_idle hb a true,
    congrArg Mbx.lastHseq (State.setMbx_mbx_self ..), congrArg Mbx.lastFrame (State.setMbx_mbx_self ..)⟩
  have hy := respond_mbx hb a
  exact ⟨congrArg Mbx.busy hy, congrArg Mbx.cmdWin hy, congrArg Mbx.lastDseq hy, congrArg Mbx.rspWin hy,
    (congrArg Mbx.lastRsp hy).trans (congrArg Mbx.rspWin hy).symm, (congrArg (·.rspReady.flag) hy).trans rfl,
    fun f hf => respond_mbx_of_ne s hf a⟩
end

section
/-!
SUPPORT. A report whose mask resets nothing (R437, R441 to R444): the collector's own state, the audit chain, the event rings and
the messages sent are all that it moves.
-/

namespace Sys2Proof.Machine

/-- From `s` to `t` only the fault collector, the audit chain, the mailboxes and the messages sent have changed. -/
def OnlyCollector (s t : State) : Prop :=
  t = { s with flt := t.flt, folio := { s.folio with chain := t.folio.chain }, reg := { s.reg with mbx := t.reg.mbx }, out := t.out }

theorem OnlyCollector.refl (s : State) : OnlyCollector s s := rfl

theorem OnlyCollector.trans {s t u : State} (h : OnlyCollector s t) (h' : OnlyCollector t u) : OnlyCollector s u := by
  unfold OnlyCollector at *
  rw [h', h]

theorem auditAppend_only (s : State) (b : Bytes) : OnlyCollector s (auditAppend s b) := by
  unfold auditAppend
  split <;> rfl

theorem errPin_eq (s : State) : errPin s = { s with flt := (errPin s).flt } := by
  unfold errPin assertErrN
  split <;> rfl

section
variable {s : State} {r : FaultReport} (hr : (strongest (eventMask s r)).getLsbD 3 = false) (hb : ∀ t, blockReset t r = t)
include hr hb

/-- A report that resets neither the chip nor a block collects its event and at most asserts ERR_N. -/
theorem report_quiet :
    report s r = collect s r ((strongest (eventMask s r)).zeroExtend 8) false false false ∨
      report s r = errPin (collect s r ((strongest (eventMask s r)).zeroExtend 8) false false false) := by
  unfold report
  dsimp only
  rw [if_neg (Bool.eq_false_iff.mp hr), hb, ite_self]
  split
  · exact .inr rfl
  · exact .inl rfl

theorem report_mbx (f : Nat) : OnlyEvents (s.mbx f) ((report s r).mbx f) := by
  rcases report_quiet hr hb with h | h <;> rw [h]
  · exact collect_mbx ..
  · exact (collect_mbx ..).trans (.of_reg (by rw [errPin_eq]) f)

end

/-- Whether an event of a source resets the chip does not depend on the mailboxes, nor on what the event carries. -/
theorem strongest_of_resets {s t : State} {src : Nat} {r : FaultReport} (hr : resets s src = false) (hsrc : r.source = src)
    (hphys : r.phys = 0xFFFF) (hflt : t.flt = s.flt) (htmp : t.tmp = s.tmp) (hdev : t.reg.dev = s.reg.dev) (hnow : t.now = s.now) :
    (strongest (eventMask t r)).getLsbD 3 = false := by
  rw [← hr, resets, eventMask_congr (s := s) (r := { source := src }) hsrc hphys hflt htmp hdev hnow]

end Sys2Proof.Machine
end

section
/-!
SUPPORT. The registrar's information and session commands, and its administrator keys (R371 to R375).
-/

namespace Sys2Proof.Machine

section
variable {s t : State} {fn : Nat} {p : Bytes}

/-- A command that passes its checks and is answered before its last effect. -/
theorem Passes.answersThen {c : CmdSpec} {body : State → Bytes → CmdRes} {a : Ans} {after : State → State} (h : Passes s fn c p)
    (hb : body (accept s fn) p = .doneThen t a after) : (.next (serve s fn c body) : Res) = .next (after (respond t fn a)) :=
  next_congr (by rw [serve_issued body h.issued h.len h.rsv h.owns, hb])

/-! ## Information (R375) -/

theorem Issued.serves {code : Nat} {role : Role} (h : Issued s fn code role p) : canServe s fn = true := h.1

theorem Issued.code {code : Nat} {role : Role} (h : Issued s fn code role p) : field (s.mbx fn).cmdWin 0 2 = code := by
  obtain ⟨-, hc, -⟩ := h
  exact hc

theorem mbxNop_answers (hi : Issued s fn 0x0001 .any p) (hp : p = []) :
    AnswersIn (accept s fn) fn {} (exec (.mbxNop fn) s) := by
  subst hp
  change AnswersIn _ fn _ (execMbxNop fn s)
  rw [execMbxNop, hi.code, if_neg (by simp [show cmdDefined 1 = true from rfl])]
  exact Passes.answers ⟨hi, rfl, rfl, rfl⟩ rfl

theorem mbxNop_unknown {code : Nat} (hd : cmdDefined code = false) (hi : Issued s fn code .any p) :
    AnswersIn (accept s fn) fn { status := 0x0102 } (exec (.mbxNop fn) s) := by
  change AnswersIn _ fn _ (execMbxNop fn s)
  rw [execMbxNop, hi.code, if_pos (by simp [hd, hi.serves])]
  obtain ⟨-, -, -, hlen, hrsv, hseq, hrep, -⟩ := hi
  refine next_congr ?_
  simp [serveUnknown, hrep, hseq, hlen, hrsv]
  rfl

theorem devInfo_answers (hi : Issued s fn 0x0002 .any p) (hp : p = []) :
    AnswersIn (accept s fn) fn { payload := devInfo s fn } (exec (.devInfo fn) s) := by
  subst hp
  exact Passes.answers ⟨hi, rfl, rfl, rfl⟩ rfl

theorem algTable_writes (hi : Issued s fn 0x0003 .any p) (hl : p.length = 12) (hroom : algTable.length ≤ field p 8 4) :
    AnswersIn ((accept s fn).send (.dmaWrite fn (BitVec.ofNat 64 (field p 0 8)) algTable)) fn
      { payload := le 4 algTable.length } (exec (.algTable fn) s) :=
  Passes.answers ⟨hi, beq_iff_eq.mpr hl, rfl, rfl⟩ (hostWrite_fits hroom _)

theorem algTable_tooSmall (hi : Issued s fn 0x0003 .any p) (hl : p.length = 12) (hroom : field p 8 4 < algTable.length) :
    AnswersIn (accept s fn) fn { status := 0x0303, detail := algTable.length } (exec (.algTable fn) s) :=
  Passes.answers ⟨hi, beq_iff_eq.mpr hl, rfl, rfl⟩ (if_pos hroom)

/-! ## Draws on the entropy unit (R345, R349, R351) -/

section
variable {n : Nat} {k : State → Bytes → CmdRes}

theorem withRandom_ready {b : Bytes} (he : s.ent.state = .ready) (hr : sysRequest s n = (t, some b)) :
    withRandom s n k = k t b := by
  rw [withRandom, he]; simp only [hr]

theorem withRandom_starting (he : s.ent.state = .starting) : withRandom s n k = .wait s (.entropy s.now) := by
  rw [withRandom, he]

theorem withRandom_failed (he : s.ent.state = .failed) : withRandom s n k = .done s (fail St.entropyFailed) := by
  rw [withRandom, he]

end

/-- What a draw on `SYS` leaves of the accepted state. -/
theorem sysRequest_eq {n : Nat} {b : Option Bytes} (hr : sysRequest s n = (t, b)) :
    t = { s with ent := t.ent, freeCtr := t.freeCtr } := by
  have h := sysRequest_only s n
  rwa [hr] at h

section
variable (hi : Issued s fn 0x0010 .any p) (hp : p = [])
include hi hp

theorem authChallenge_passes : Passes s fn { code := 0x0010, role := .any, lenOk := lenIs 0, booting := true } p :=
  ⟨hi, by rw [hp]; rfl, rfl, rfl⟩

theorem authChallenge_answers {b : Bytes} (he : s.ent.state = .ready) (hr : sysRequest (accept s fn) 32 = (t, some b)) :
    AnswersIn (t.setMbx fn { t.mbx fn with nonce := some (b, s.now) }) fn { payload := b } (exec (.authChallenge fn) s) := by
  have hnow : t.now = s.now := (congrArg State.now (sysRequest_eq hr)).trans rfl
  rw [← hnow]
  exact (authChallenge_passes hi hp).answers (withRandom_ready he hr)

theorem authChallenge_failed (he : s.ent.state = .failed) :
    AnswersIn (accept s fn) fn { status := 0x0503 } (exec (.authChallenge fn) s) :=
  (authChallenge_passes hi hp).answers (withRandom_failed he)

theorem authChallenge_waits (he : s.ent.state = .starting) :
    WaitsIn (accept s fn) fn (.entropy s.now) (exec (.authChallenge fn) s) :=
  (authChallenge_passes hi hp).waits (withRandom_starting he)

end

theorem entropyWaitTimeout_answers {since : Nat} (hw : (s.mbx fn).wait = .entropy since) (he : s.ent.state = .starting) :
    exec (.entropyWaitTimeout fn) s = .next (respond s fn { status := 0x0502 }) := by
  change execEntropyWaitTimeout fn s = _
  simp only [execEntropyWaitTimeout, hw, he, if_true]
  exact next_congr (if_pos hw)

/-! ## Logins (R372 to R374) -/

/-- The algorithm that a login names and the length of its signature agree (R372). -/
def LoginAlg (p : Bytes) : Prop := field p 4 2 = 1 ∧ field p 6 2 = 3309 ∨ field p 4 2 = 3 ∧ field p 6 2 = 96

theorem loginAlg_iff : LoginAlg p ↔ ¬ ((field p 4 2 ≠ 1 ∨ field p 6 2 ≠ 3309) ∧ (field p 4 2 ≠ 3 ∨ field p 6 2 ≠ 96)) := by
  unfold LoginAlg; tauto

section
variable (hi : Issued s fn 0x0011 .any p) (hl : p.length = 12 + field p 6 2) (hk : field p 0 4 < 2 ^ 21) (hz : field p 8 4 = 0)
include hi hl hk hz

theorem authLogin_passes : Passes s fn { code := 0x0011, role := .any, lenOk := fun n => decide (12 ≤ n), booting := true
                                         rsvOk := fun p => decide (field p 0 4 < 2 ^ 21) && field p 8 4 == 0 && p.length == 12 + field p 6 2 } p :=
  ⟨hi, decide_eq_true (by omega), by simp only [hk, hz, decide_true]; simp [hl], rfl⟩

theorem authLogin_locked (hlock : s.now < ((accept s fn).mbx fn).lockUntil) :
    AnswersIn (accept s fn) fn
      { status := 0x0707, detail := (((accept s fn).mbx fn).lockUntil - s.now + 1249999999) / 1250000000 }
      (exec (.authLogin fn) s) := (authLogin_passes hi hl hk hz).answers (if_pos hlock)

variable (ha : LoginAlg p) (hlock : ((accept s fn).mbx fn).lockUntil ≤ s.now)
include ha hlock

theorem authLogin_fails (hok : loginOk (accept s fn) fn p = false) :
    AnswersIn (loginFailed (accept s fn) fn) fn { status := 0x0706 } (exec (.authLogin fn) s) :=
  (authLogin_passes hi hl hk hz).answers ((if_neg (Nat.not_lt.mpr hlock)).trans ((if_neg (loginAlg_iff.mp ha)).trans
    (if_pos (by simp [hok]))))

theorem authLogin_opens (hok : loginOk (accept s fn) fn p = true) (hs : (s.mbx fn).session = none)
    (he : s.ent.state = .ready) {b : Bytes} (hr : sysRequest (accept s fn) 4 = (t, some b)) :
    let id := if unle b = 0 then 1 else unle b
    AnswersIn (t.setMbx fn { t.mbx fn with
        session := some { id := BitVec.ofNat 32 id, key := field p 0 4, lastAt := s.sec }, nonce := none, fails := 0 }) fn
      { payload := le 4 id ++ le 4 900 } (exec (.authLogin fn) s) := by
  intro id
  have ht := sysRequest_eq hr
  have hsec : t.sec = s.sec := (congrArg State.sec ht).trans rfl
  have hold : (t.mbx fn).session.isSome = false := by
    rw [congrArg (State.mbx · fn) ht]
    exact (congrArg Option.isSome (accept_session s fn)).trans (by rw [hs]; rfl)
  refine (authLogin_passes hi hl hk hz).answersThen ((if_neg (Nat.not_lt.mpr hlock)).trans ((if_neg (loginAlg_iff.mp ha)).trans
    ((if_neg (by simp [hok])).trans ((withRandom_ready (s := accept s fn) he hr).trans ?_)))) (after := fun s => s)
  dsimp only
  rw [hold, ← hsec]
  rfl

end

/-- The seconds of a lock from the third failure on (R374). -/
theorem lockSeconds_third {n : Nat} (h : 3 ≤ n) : lockSeconds n = min 3600 (10 * 2 ^ min (n - 3) 9) := if_neg (by omega)

/-- The mailbox that a failed login leaves, before its report. -/
def failedLogin (s : State) (fn : Nat) : Mbx :=
  let m := s.mbx fn
  { m with
    nonce := none, fails := m.fails + 1
    lockUntil := if m.fails + 1 < 3 then m.lockUntil else s.now + lockSeconds (m.fails + 1) * 1250000000 }

theorem loginFailed_mbx (hr : resets s 0x003 = false) : OnlyEvents (failedLogin s fn) ((loginFailed s fn).mbx fn) := by
  have h := report_mbx (s := s.setMbx fn (failedLogin s fn)) (r := { source := 0x003, carrel := State.fnCarrel fn })
    (strongest_of_resets hr rfl rfl rfl rfl rfl rfl) (fun t => by simp [blockReset]) fn
  rwa [State.setMbx_mbx_self] at h

/-! ## Sessions (R373) -/

theorem authLogout_ends {se : Session} (hi : Issued s fn 0x0012 .oa p) (hp : p = []) (hs : (s.mbx fn).session = some se) :
    exec (.authLogout fn) s = .next (sessionEvent (respond (closeSession (accept s fn) fn) fn {}) fn 1) := by
  have hwas : ((accept s fn).mbx fn).session.isSome = true := by rw [accept_session, hs]; rfl
  refine Passes.answersThen ⟨hi, by rw [hp]; rfl, rfl, rfl⟩ (after := (sessionEvent · fn 1)) ?_
  simp only [hwas]
  rfl

theorem sessionCfg_sets {se : Session} (hi : Issued s fn 0x0013 .oa p) (hl : p.length = 4) (hs : (s.mbx fn).session = some se)
    (h60 : 60 ≤ field p 0 4) (hmax : field p 0 4 ≤ 3600) :
    AnswersIn ((accept s fn).setMbx fn { (accept s fn).mbx fn with session := some { se with timeout := field p 0 4 } }) fn {}
      (exec (.sessionCfg fn) s) := by
  have hs' : ((accept s fn).mbx fn).session = some se := (accept_session s fn).trans hs
  refine Passes.answers ⟨hi, beq_iff_eq.mpr hl, rfl, rfl⟩ ((if_neg (by omega)).trans ?_)
  dsimp only
  rw [hs']
  rfl

theorem sessionCfg_invalid (hi : Issued s fn 0x0013 .oa p) (hl : p.length = 4) (h : field p 0 4 < 60 ∨ 3600 < field p 0 4) :
    AnswersIn (accept s fn) fn { status := 0x0407 } (exec (.sessionCfg fn) s) :=
  Passes.answers ⟨hi, beq_iff_eq.mpr hl, rfl, rfl⟩ (if_pos h)

section
variable {se : Session} (hs : (s.mbx fn).session = some se)
include hs

theorem sessionIdleTimeout_ends (hb : (s.mbx fn).busy = false) (ht : se.lastAt + se.timeout ≤ s.sec) :
    exec (.sessionIdleTimeout fn) s = .next (sessionEvent (closeSession s fn) fn 2) := by
  change execSessionIdleTimeout fn s = _
  simp [execSessionIdleTimeout, endSession, hs, hb, ht]

theorem sessionIdleTimeout_stays (ht : s.sec < se.lastAt + se.timeout) : exec (.sessionIdleTimeout fn) s = .next s := by
  change execSessionIdleTimeout fn s = _
  simp [execSessionIdleTimeout, hs, Nat.not_le.mpr ht]

end

/-! ## Administrator keys (R371) -/

theorem unenrol_free {c pos : Nat} (h : Tab.get? s.reg.admins (4 * c + pos) = none) : unenrol s c pos = s := by
  rw [unenrol, h]

section
variable (hi : Issued s fn 0x0014 .oa p) (hl : p.length = 5) (hk : field p 0 4 < 2 ^ 21) (hpos : field p 4 1 ≤ 3)
  (ho : adminOpen s (State.fnCarrel fn) = true) (hc : slotCheck13 s (State.fnCarrel fn) (field p 0 4) = none)
include hi hl hk hpos ho hc

theorem admEnrol_enrols (hcl : adminClass (s.slot (field p 0 4)) = true)
    (hfree : Tab.get? s.reg.admins (4 * State.fnCarrel fn + field p 4 1) = none) :
    AnswersIn (archiveCarrel { accept s fn with reg := { (accept s fn).reg with
        admins := Tab.set (accept s fn).reg.admins (4 * State.fnCarrel fn + field p 4 1) (field p 0 4) } } (State.fnCarrel fn)) fn {}
      (exec (.admEnrol fn) s) := by
  have hc' : slotCheck13 (accept s fn) (State.fnCarrel fn) (field p 0 4) = none := hc
  have ho' : adminOpen (accept s fn) (State.fnCarrel fn) = true := ho
  refine Passes.answers ⟨hi, beq_iff_eq.mpr hl, decide_eq_true hk, rfl⟩ ?_
  simp only [ho', Nat.not_lt.mpr hpos, hc', accept_slot, hcl, accept_admins, hfree, unenrol_free (s := accept s fn) hfree]
  rfl

theorem admEnrol_denied (hcl : adminClass (s.slot (field p 0 4)) = false) :
    AnswersIn (accept s fn) fn { status := 0x0203 } (exec (.admEnrol fn) s) := by
  have hc' : slotCheck13 (accept s fn) (State.fnCarrel fn) (field p 0 4) = none := hc
  have ho' : adminOpen (accept s fn) (State.fnCarrel fn) = true := ho
  refine Passes.answers ⟨hi, beq_iff_eq.mpr hl, decide_eq_true hk, rfl⟩ ?_
  simp only [ho', Nat.not_lt.mpr hpos, hc', accept_slot, hcl]
  rfl

end

section
variable {k : Nat} (hi : Issued s fn 0x0015 .oa p) (hl : p.length = 1) (hpos : field p 0 1 ≤ 3)
  (ho : adminOpen s (State.fnCarrel fn) = true) (hk : Tab.get? s.reg.admins (4 * State.fnCarrel fn + field p 0 1) = some k)
include hi hl hpos ho hk

theorem admRemove_removes (h2 : 2 ≤ (enrolled s (State.fnCarrel fn)).length) :
    AnswersIn (archiveCarrel (unenrol (accept s fn) (State.fnCarrel fn) (field p 0 1)) (State.fnCarrel fn)) fn {}
      (exec (.admRemove fn) s) :=
  Passes.answers ⟨hi, beq_iff_eq.mpr hl, rfl, rfl⟩ ((if_neg (by change ¬ (!adminOpen s _) = true; simp [ho])).trans
    ((if_neg (by rw [accept_admins, hk]; simp [hpos])).trans (if_neg (by change ¬ (enrolled s _).length ≤ 1; omega))))

theorem admRemove_last (h1 : (enrolled s (State.fnCarrel fn)).length ≤ 1) :
    AnswersIn (accept s fn) fn { status := 0x0601, obj := 2, st := carrelCode (s.carrel (State.fnCarrel fn)).st }
      (exec (.admRemove fn) s) :=
  Passes.answers ⟨hi, beq_iff_eq.mpr hl, rfl, rfl⟩ ((if_neg (by change ¬ (!adminOpen s _) = true; simp [ho])).trans
    ((if_neg (by rw [accept_admins, hk]; simp [hpos])).trans (if_pos h1)))

end

end

end Sys2Proof.Machine

open Sys2Proof Sys2Proof.Machine

/-- Settles O43: each command is what its body makes of the accepted state; the report of a failed login moves only the event ring
of the mailbox. -/
theorem registrarAnswersAndSessions : Obligations.RegistrarAnswersAndSessions := by
  unfold Obligations.RegistrarAnswersAndSessions
  intro s fn p r m c is
  refine ⟨mbxNop_answers, fun _ hd hi => mbxNop_unknown hd hi, devInfo_answers, algTable_writes, algTable_tooSmall,
    fun t b hi hp he hr => authChallenge_answers hi hp he hr, authChallenge_failed, authChallenge_waits,
    fun since hw he => entropyWaitTimeout_answers hw he, fun hi hl hk hz => ⟨authLogin_locked hi hl hk hz,
      fun ha hlock hok => authLogin_fails hi hl hk hz ha hlock hok, fun t b ha hlock hok hs he hr =>
        authLogin_opens hi hl hk hz ha hlock hok ((accept_session s fn).symm.trans hs) he hr⟩, ?failed,
    fun se hi hp hs => authLogout_ends hi hp hs, fun se hi hl hs => sessionCfg_sets hi hl hs, sessionCfg_invalid,
    fun se hs hb ht => sessionIdleTimeout_ends hs hb ht, fun se hs ht => sessionIdleTimeout_stays hs ht,
    fun hi hl hk hpos ho hc hcl hfree => admEnrol_enrols hi hl hk hpos ho hc hcl hfree,
    fun hi hl hk hpos ho hc hcl => admEnrol_denied hi hl hk hpos ho hc hcl,
    fun k hi hl hpos ho hk => admRemove_removes hi hl hpos ho hk, fun k hi hl hpos ho hk => admRemove_last hi hl hpos ho hk⟩
  case failed =>
    intro y hr
    have hy : y = _ := loginFailed_mbx (fn := fn) hr
    refine ⟨congrArg Mbx.nonce hy, congrArg Mbx.fails hy, fun h => (congrArg Mbx.lockUntil hy).trans (if_pos h), fun h => ?_⟩
    refine (congrArg Mbx.lockUntil hy).trans ((if_neg (Nat.not_lt.mpr h)).trans ?_)
    rw [lockSeconds_third h]
    rfl
end

section
/-!
SUPPORT. The catalogue's commands and the commit of a deaccession (R324, R332, R334, R335, R377, R513).
-/

namespace Sys2Proof.Machine

section
variable {s t : State} {fn k n : Nat} {p host : Bytes}

theorem Issued.queue_room {code : Nat} {role : Role} (h : Issued s fn code role p) : queueFull s = false := by
  obtain ⟨-, -, -, -, -, -, -, -, -, -, -, hq⟩ := h
  exact hq

/-- A change that either nothing mirrors or nothing shares is committed at once. -/
theorem serveSync_unmirrored {c : SyncCmd} {a : Ans} (h : Passes s fn c.spec p) (hb : syncBusy s = false)
    (hu : (c.recs (accept s fn) fn p).isEmpty = true ∨ Unshared s fn) (hk : c.carrel (accept s fn) fn p = fn)
    (hc : c.check (accept s fn) fn p = none) (hcom : c.commit (accept s fn) fn p = (t, a)) :
    AnswersIn t fn a (.next (serveSync s fn c)) := by
  rcases hu with he | hu
  · rw [serveSync, if_neg (Bool.eq_false_iff.mp hb)]
    refine h.answers ?_
    simp only [syncBody, hc, if_pos he, hcom]
  · exact serveSync_committed h hu hk hc hcom

theorem adminOpen_accept (s : State) (fn c : Nat) : adminOpen (accept s fn) c = adminOpen s c := rfl
theorem inAllot_accept (s : State) (fn c n : Nat) : inAllot (accept s fn) c n = inAllot s c n := rfl
theorem slotCheck13_accept (s : State) (fn c n : Nat) : slotCheck13 (accept s fn) c n = slotCheck13 s c n := rfl
theorem syncBlocked_accept (s : State) (fn c : Nat) : syncBlocked (accept s fn) c = syncBlocked s c := rfl
theorem mirrors_accept (s : State) (fn c : Nat) : mirrors (accept s fn) c = mirrors s c := rfl

/-! ## CAT_IMPORT (R335) -/

section
variable (hi : Issued s fn 0x0401 .oa p) (hl : 80 ≤ p.length) (hf : importFormat p = true) (hb : syncBusy s = false)
include hi hl hf hb

theorem catImport_refused {a : Ans} (hplan : importPlan (accept s fn) fn p host = .error a) :
    AnswersIn (accept s fn) fn a (exec (.catImport fn host) s) := by
  change AnswersIn _ fn _ (execCatImport fn host s)
  rw [execCatImport, if_neg (Bool.eq_false_iff.mp hb)]
  exact Passes.answers ⟨hi, decide_eq_true hl, hf, rfl⟩ (by simp only [hplan])

theorem catImport_closed (ho : adminOpen s fn = false) :
    AnswersIn (accept s fn) fn (crlRejected s fn) (exec (.catImport fn host) s) :=
  catImport_refused hi hl hf hb (if_pos (by rw [adminOpen_accept, ho]; rfl))

theorem catImport_commits {line : Nat} (hplan : importPlan (accept s fn) fn p host = .ok (k, line))
    (hu : (importSlot (accept s fn) fn p host).mirrored = false ∨ Unshared s fn) :
    AnswersIn (importCommit (accept s fn) fn p host k).1 fn (importCommit (accept s fn) fn p host k).2
      (exec (.catImport fn host) s) := by
  change AnswersIn _ fn _ (execCatImport fn host s)
  rw [execCatImport, if_neg (Bool.eq_false_iff.mp hb)]
  refine Passes.answers ⟨hi, decide_eq_true hl, hf, rfl⟩ ?_
  simp only [hplan]
  by_cases hm : (importSlot (accept s fn) fn p host).mirrored = true
  · obtain ⟨-, hd, hsh⟩ := hu.resolve_left (by simp [hm])
    exact (if_neg (by simp [hm])).trans ((if_neg (by simp [syncBlocked_accept, hd])).trans (if_pos (by simp [mirrors_accept, hsh])))
  · exact if_pos (by simpa using hm)

end

/-! ## CAT_REPLACE and CAT_DEACCESSION (R332, R335) -/

/-- What a deaccession by mailbox asks of its slot, whatever replaces it. -/
def DeacReady (s : State) (fn n : Nat) : Prop :=
  inAllot s fn n = true ∧ (s.slot n).valid = true ∧ lastAdmin s fn n = false ∧ (s.slot n).deacPending = none ∧
    slotCheck13 s fn n = none ∧ 256 ≤ n

theorem deacState6_closed (ho : adminOpen s fn = false) : deacState6 s fn n = some (crlRejected s fn) := if_pos (by simp [ho])

theorem deacState6_ready (ho : adminOpen s fn = true) (hq : queueFull s = false) (hr : DeacReady s fn n) :
    deacState6 s fn n = none := by
  obtain ⟨-, -, hlast, hnone, -⟩ := hr
  simp [deacState6, ho, hlast, hq, hnone]

theorem DeacReady.not_anchor (h : DeacReady s fn n) : 256 ≤ n := by
  obtain ⟨-, -, -, -, -, hn⟩ := h
  exact hn

theorem DeacReady.accepted (h : DeacReady s fn n) : DeacReady (accept s fn) fn n := h

/-- The slot marked for its deaccession, with the host data of the command that asked for it; nobody else is to acknowledge. -/
def pendDeac (s : State) (fn n : Nat) (h : Bytes) : State :=
  (s.setMbx fn { s.mbx fn with host := h }).setSlot n
    { s.slot n with deacPending := some (some fn), deacPeer := true, deacTomb := !(s.slot n).persistent }

section
variable {recs : List SyncRec} {sync : Bool} {c : Nat}

theorem startDeac_unwritable (hper : (s.slot n).persistent = true) (ha : archiveOk s = false) :
    startDeac s fn n host recs sync c = .done s (devRejected s) := if_pos (by simp [hper, ha])

section
variable (hd : syncBlocked s c = false) (hm : mirrors s c = false)
include hd hm

theorem startDeac_waits (hper : (s.slot n).persistent = true) (ha : archiveOk s = true) :
    startDeac s fn n host recs sync c =
      .wait (queueRecord (pendDeac s fn n host) (.tombstone n (raiseGen (s.slot n) 1).ownGen)) (.deaccession n) := by
  simp [startDeac, pendDeac, hper, ha, hd, hm]

theorem startDeac_commits (hper : (s.slot n).persistent = false) :
    startDeac s fn n host recs sync c =
      .done (commitDeac (pendDeac s fn n host) fn n).1 (commitDeac (pendDeac s fn n host) fn n).2 := by
  simp [startDeac, pendDeac, hper, hd, hm]

end

end

section
variable (hi : Issued s fn 0x0402 .oa p) (hl : 80 ≤ p.length) (hf : importFormat p = true) (ha : importAlloc p = false)
  (h3 : bit (parseSeg p).flags 3 = false)
include hi hl hf ha h3

theorem catReplace_anchor (hn : importShelf p < 256) :
    AnswersIn (accept s fn) fn { status := 0x0708 } (exec (.catReplace fn host) s) :=
  next_congr (serve_denied _ hi rfl (decide_eq_true hl) (by simp [hf, ha, h3]) (decide_eq_false (Nat.not_le.mpr hn)))

theorem catReplace_passes (hn : 256 ≤ importShelf p) :
    Passes s fn { code := 0x0402, role := .oa, lenOk := fun n => decide (80 ≤ n), owns := notAnchor
                  rsvOk := fun p => importFormat p && !importAlloc p && !bit (parseSeg p).flags 3 } p :=
  ⟨hi, decide_eq_true hl, by simp [hf, ha, h3], decide_eq_true hn⟩

theorem catReplace_closed (hn : 256 ≤ importShelf p) (ho : adminOpen s fn = false) :
    AnswersIn (accept s fn) fn (crlRejected s fn) (exec (.catReplace fn host) s) :=
  (catReplace_passes hi hl hf ha h3 hn).answers (by simp only [deacState6_closed (s := accept s fn) ho]; rfl)

variable (ho : adminOpen s fn = true) (hr : DeacReady s fn (importShelf p))
  (hbad : replaceBad (accept s fn) fn (importShelf p) p (importMaterial p host) = none) (hu : Unshared s fn)
include ho hr hbad hu

theorem catReplace_waits (hper : (s.slot (importShelf p)).persistent = true) (hw : archiveOk s = true) :
    WaitsIn (queueRecord (pendDeac (accept s fn) fn (importShelf p) host)
        (.tombstone (importShelf p) (raiseGen (s.slot (importShelf p)) 1).ownGen)) fn (.deaccession (importShelf p))
      (exec (.catReplace fn host) s) := by
  refine (catReplace_passes hi hl hf ha h3 hr.not_anchor).waits ?_
  simp only [deacState6_ready (s := accept s fn) ho hi.queue_room hr.accepted, hbad]
  exact startDeac_waits (s := accept s fn) hu.2.1 hu.2.2 hper hw

theorem catReplace_commits (hper : (s.slot (importShelf p)).persistent = false) :
    let t := commitDeac (pendDeac (accept s fn) fn (importShelf p) host) fn (importShelf p)
    AnswersIn t.1 fn t.2 (exec (.catReplace fn host) s) := by
  refine (catReplace_passes hi hl hf ha h3 hr.not_anchor).answers ?_
  simp only [deacState6_ready (s := accept s fn) ho hi.queue_room hr.accepted, hbad]
  exact startDeac_commits (s := accept s fn) hu.2.1 hu.2.2 hper

end

section
variable (hi : Issued s fn 0x0403 .oa p) (hl : p.length = 4) (hv : field p 0 4 < 2 ^ 21)
include hi hl hv

omit hi hl in
theorem importShelf_of_lt : importShelf p = field p 0 4 := Nat.mod_eq_of_lt hv

theorem catDeaccession_anchor (hn : importShelf p < 256) :
    AnswersIn (accept s fn) fn { status := 0x0708 } (exec (.catDeaccessionCmd fn) s) :=
  next_congr (serve_denied _ hi rfl (beq_iff_eq.mpr hl) (decide_eq_true hv) (decide_eq_false (Nat.not_le.mpr hn)))

theorem catDeaccession_passes (hn : 256 ≤ importShelf p) :
    Passes s fn { code := 0x0403, role := .oa, lenOk := lenIs 4, owns := notAnchor, rsvOk := fun p => shelfFormat (field p 0 4) } p :=
  ⟨hi, beq_iff_eq.mpr hl, decide_eq_true hv, decide_eq_true hn⟩

theorem catDeaccession_closed (hn : 256 ≤ importShelf p) (ho : adminOpen s fn = false) :
    AnswersIn (accept s fn) fn (crlRejected s fn) (exec (.catDeaccessionCmd fn) s) :=
  (catDeaccession_passes hi hl hv hn).answers (by simp only [deacState6_closed (s := accept s fn) ho]; rfl)

variable (ho : adminOpen s fn = true) (hr : DeacReady s fn (importShelf p))
include ho hr

theorem catDeaccession_answers {a : Ans}
    (hs : ∀ recs sync, startDeac (accept s fn) fn (importShelf p) [] recs sync fn = .done t a) :
    AnswersIn t fn a (exec (.catDeaccessionCmd fn) s) := by
  have hpass := catDeaccession_passes hi hl hv hr.not_anchor
  rw [importShelf_of_lt hv] at hr hs
  obtain ⟨-, -, -, -, hc, -⟩ := id hr
  refine hpass.answers ?_
  simp only [deacState6_ready (s := accept s fn) ho hi.queue_room hr.accepted, slotCheck13_accept, hc, hs]

theorem catDeaccession_waits {w : MbxWait}
    (hs : ∀ recs sync, startDeac (accept s fn) fn (importShelf p) [] recs sync fn = .wait t w) :
    WaitsIn t fn w (exec (.catDeaccessionCmd fn) s) := by
  have hpass := catDeaccession_passes hi hl hv hr.not_anchor
  rw [importShelf_of_lt hv] at hr hs
  obtain ⟨-, -, -, -, hc, -⟩ := id hr
  refine hpass.waits ?_
  simp only [deacState6_ready (s := accept s fn) ho hi.queue_room hr.accepted, slotCheck13_accept, hc, hs]

end

/-! ## The commit and the time-out (R332, R513) -/

section
variable {f : Nat} (hp : (s.slot k).deacPending = some (some f))
include hp

theorem deaccessionCommit_commits (hw : (s.mbx f).wait = .deaccession k) (h1 : (s.slot k).deacPeer = true)
    (h2 : (s.slot k).deacTomb = true) :
    AnswersIn (commitDeac s f k).1 f (commitDeac s f k).2 (exec (.deaccessionCommit k) s) := by
  refine next_congr ?_
  simp only [tryDeac, hp, h1, h2, Bool.and_self, if_true]
  exact if_pos hw

theorem deaccessionCommit_waits (h : (s.slot k).deacPeer = false ∨ (s.slot k).deacTomb = false) :
    exec (.deaccessionCommit k) s = .next s := by
  refine next_congr ?_
  simp only [tryDeac, hp]
  exact if_neg (by rcases h with h | h <;> simp [h])

theorem tombstoneWaitTimeout_refuses (h : (s.slot k).deacTomb = false) :
    exec (.tombstoneWaitTimeout k) s =
      .next (answerWait (dropCut (cancelDeac s k) (.deaccession k)) f (.deaccession k) (folRejected s)) := by
  change execTombstoneWaitTimeout k s = _
  simp [execTombstoneWaitTimeout, h, hp]

end

theorem deaccessionCommit_none (h : (s.slot k).deacPending = none) : exec (.deaccessionCommit k) s = .next s :=
  next_congr (by simp only [tryDeac, h])

theorem tombstoneWaitTimeout_none (h : (s.slot k).deacPending = none) : exec (.tombstoneWaitTimeout k) s = .next s := by
  change execTombstoneWaitTimeout k s = _
  simp [execTombstoneWaitTimeout, h]

/-! ## CAT_SET_ATTR, CAT_QUERY, CAT_ENROL_SIGNER (R335) -/

theorem shelf_mod {v : Nat} (h : v < 2 ^ 21) : v % 2 ^ 21 = v := Nat.mod_eq_of_lt h

section
variable (hi : Issued s fn 0x0404 .oa p) (hl : p.length = 24) (hv : field p 0 4 < 2 ^ 21) (hu : field p 4 2 < 1024)
  (hg : field p 6 2 < 4) (ho : adminOpen s fn = true) (hb : syncBusy s = false) (hc : slotCheck13 s fn (field p 0 4) = none)
include hi hl hv hu hg ho hb hc

omit ho hb hc in
theorem catSetAttr_passes : Passes s fn setAttrCmd.spec p :=
  ⟨hi, beq_iff_eq.mpr hl, by simp only [setAttrCmd, shelfFormat, hv, hu, hg, decide_true, Bool.and_self], rfl⟩

omit hl hv hu hg hb in
theorem setAttrCheck_eq : setAttrCmd.check (accept s fn) fn p =
    if attrsOk s (s.slot (field p 0 4)) (withAttrs (s.slot (field p 0 4)) p) then none else some (fail St.paramInvalid) := by
  simp only [setAttrCmd, adminOpen_accept, ho, accept_queueFull, hi.queue_room, slotCheck13_accept, hc]
  simp
  rfl

theorem catSetAttr_invalid (hbad : attrsOk s (s.slot (field p 0 4)) (withAttrs (s.slot (field p 0 4)) p) = false) :
    AnswersIn (accept s fn) fn { status := 0x0407 } (exec (.catSetAttr fn) s) :=
  serveSync_refused (catSetAttr_passes hi hl hv hu hg) hb ((setAttrCheck_eq hi ho hc).trans (if_neg (by simp [hbad])))

theorem catSetAttr_sets (hok : attrsOk s (s.slot (field p 0 4)) (withAttrs (s.slot (field p 0 4)) p) = true)
    (hm : (s.slot (field p 0 4)).mirrored = false ∨ Unshared s fn) :
    AnswersIn (putAttrs (accept s fn) (field p 0 4) (withAttrs (s.slot (field p 0 4)) p)) fn {} (exec (.catSetAttr fn) s) := by
  refine serveSync_unmirrored (catSetAttr_passes hi hl hv hu hg) hb (hm.imp_left fun h => ?_) rfl
    ((setAttrCheck_eq hi ho hc).trans (if_pos hok)) rfl
  simp [setAttrCmd, h]

end

section
variable (hi : Issued s fn 0x0405 .oa p) (hl : p.length = 4) (hv : field p 0 4 < 2 ^ 21) (ho : adminOpen s fn = true)
include hi hl hv ho

theorem catQuery_answers (ha : inAllot s fn (field p 0 4) = true) :
    AnswersIn (accept s fn) fn { payload := slotBytes (s.slot (field p 0 4)) } (exec (.catQuery fn) s) :=
  Passes.answers ⟨hi, beq_iff_eq.mpr hl, decide_eq_true hv, rfl⟩
    ((if_neg (by simp [adminOpen_accept, ho])).trans (if_pos ha))

theorem catQuery_foreign (ha : inAllot s fn (field p 0 4) = false) :
    AnswersIn (accept s fn) fn { status := 0x0204 } (exec (.catQuery fn) s) :=
  Passes.answers ⟨hi, beq_iff_eq.mpr hl, decide_eq_true hv, rfl⟩
    ((if_neg (by simp [adminOpen_accept, ho])).trans (if_neg (by simp [inAllot_accept, ha])))

end

section
variable (hi : Issued s fn 0x0406 .o p) (hl : p.length = 5) (hv : field p 0 4 < 2 ^ 21) (hg : field p 4 1 < 2)
  (hc : slotCheck13 s 0 (field p 0 4) = none)
include hi hl hv hg hc

/-- A class that can sign an open-stacks image (R335). -/
def IsSignerClass (c : Nat) : Prop := c = 0x19 ∨ c = 0x1A ∨ c = 0x6D

omit hc in
theorem catEnrolSigner_passes : Passes s fn
    { code := 0x0406, role := .o, lenOk := lenIs 5
      rsvOk := fun p => shelfFormat (field p 0 4) && decide (field p 4 1 < 2) } p :=
  ⟨hi, beq_iff_eq.mpr hl, by simp only [shelfFormat, hv, hg, decide_true, Bool.and_self], rfl⟩

theorem catEnrolSigner_denied (hk : ¬ IsSignerClass (s.slot (field p 0 4)).keyClass) :
    AnswersIn (accept s fn) fn { status := 0x0203 } (exec (.catEnrolSigner fn) s) := by
  refine (catEnrolSigner_passes hi hl hv hg).answers ?_
  simp only [slotCheck13_accept, hc]
  exact (if_neg (by simp [hi.queue_room])).trans (if_pos (by simpa [IsSignerClass] using hk))

theorem catEnrolSigner_marks (hk : IsSignerClass (s.slot (field p 0 4)).keyClass) :
    let t := putAttrs (accept s fn) (field p 0 4) { s.slot (field p 0 4) with ostkSigner := bit (field p 4 1) 0 }
    AnswersIn (if signerOk t then t else retireImage t) fn {} (exec (.catEnrolSigner fn) s) := by
  refine (catEnrolSigner_passes hi hl hv hg).answers ?_
  simp only [slotCheck13_accept, hc]
  exact (if_neg (by simp [hi.queue_room])).trans (if_neg (by unfold IsSignerClass at hk; simp; tauto))

end

end

end Sys2Proof.Machine

open Sys2Proof Sys2Proof.Machine

/-- Settles O50: what a command's slot and carrel allow is read off the accepted state, and a deaccession commits at once exactly
when neither a tombstone nor the standby is to be waited for. -/
theorem catalogueCommandsTakeEffect : Obligations.CatalogueCommandsTakeEffect := by
  unfold Obligations.CatalogueCommandsTakeEffect
  intro s fn host p r is open' n shut
  refine ⟨fun hi hl hf hb => ⟨catImport_closed hi hl hf hb, fun a => catImport_refused hi hl hf hb,
      fun k line => catImport_commits hi hl hf hb⟩, ⟨?replace, ?deaccession⟩,
    fun k f hp hw => ⟨deaccessionCommit_commits hp hw, deaccessionCommit_waits hp⟩,
    fun k h => ⟨deaccessionCommit_none h, tombstoneWaitTimeout_none h⟩,
    fun k f hp h => ⟨tombstoneWaitTimeout_refuses hp h, rfl, rfl⟩, ?attrs, ?query, ?signer⟩
  case replace =>
    intro hi hl hf ha h3
    exact ⟨catReplace_anchor hi hl hf ha h3, catReplace_closed hi hl hf ha h3, fun ho hr hbad hu =>
      ⟨catReplace_waits hi hl hf ha h3 ho hr hbad hu, catReplace_commits hi hl hf ha h3 ho hr hbad hu⟩⟩
  case deaccession =>
    intro hi hl hv
    exact ⟨catDeaccession_anchor hi hl hv, catDeaccession_closed hi hl hv, fun ho hr hu =>
      ⟨fun hper ha => catDeaccession_answers hi hl hv ho hr fun _ _ => startDeac_unwritable hper ha,
        fun hper ha => catDeaccession_waits hi hl hv ho hr fun _ _ => startDeac_waits (s := r) hu.2.1 hu.2.2 hper ha,
        fun hper => catDeaccession_answers hi hl hv ho hr fun _ _ => startDeac_commits (s := r) hu.2.1 hu.2.2 hper⟩⟩
  case attrs =>
    intro hi hl hv hu hg ho hb hc
    rw [show n = field p 0 4 from shelf_mod hv] at hc ⊢
    exact ⟨catSetAttr_invalid hi hl hv hu hg ho hb hc, catSetAttr_sets hi hl hv hu hg ho hb hc⟩
  case query =>
    intro hi hl hv ho
    rw [show n = field p 0 4 from shelf_mod hv]
    exact ⟨catQuery_answers hi hl hv ho, catQuery_foreign hi hl hv ho⟩
  case signer =>
    intro hi hl hv hg hc
    rw [show n = field p 0 4 from shelf_mod hv] at hc ⊢
    have hmark := catEnrolSigner_marks hi hl hv hg hc
    exact ⟨catEnrolSigner_denied hi hl hv hg hc, fun hk hs => (congrArg (AnswersIn · fn {} _) (if_pos hs)).mp (hmark hk),
      fun hk hs => (congrArg (AnswersIn · fn {} _) (if_neg (Bool.eq_false_iff.mp hs))).mp (hmark hk)⟩
end

section
/-!
SUPPORT. The carrel commands (R393 to R404, R411, R414).
-/

namespace Sys2Proof.Machine

section
variable {s t : State} {fn c : Nat} {p : Bytes}

/-- A command of the Operator comes from the PF. -/
theorem Issued.operator {code : Nat} (h : Issued s fn code .o p) : fn = 0 := by
  obtain ⟨-, -, -, -, -, -, -, hmay | ⟨-, hrole, -⟩, -⟩ := h
  · exact hmay.1
  · exact absurd hrole nofun

/-- A command with a session on an object that the function does not own is denied (R367 step 4). -/
theorem serve_unowned {c : CmdSpec} (body : State → Bytes → CmdRes) (h : Issued s fn c.code c.role p)
    (hr : c.role = .o ∨ c.role = .oa) (hl : c.lenOk p.length = true) (hrsv : c.rsvOk p = true)
    (ho : c.owns (accept s fn) fn p = false) : serve s fn c body = respond (accept s fn) fn (fail St.roleDenied) := by
  obtain ⟨h0, hcode, hp, h2, h3, hseq, hrep, -⟩ := h
  subst hp
  have hc : checkCmd (accept s fn) fn c (framePayload (s.mbx fn)) = some (fail St.roleDenied) := by
    rcases hr with hr | hr <;> simp [checkCmd, hr, hl, hrsv, h2, h3, ho]
  unfold serve
  simp only [h0, hcode, hseq, hrep, hc, Bool.not_true, Bool.false_or, bne_self_eq_false, Bool.false_eq_true, if_false,
    Bool.false_and]

theorem bit_zero_iff {v : Nat} (h : v < 2) : bit v 0 = true ↔ v = 1 := by
  simp only [bit, pow_zero, Nat.div_one, beq_iff_eq]; omega

theorem ownsCarrel_of (t : State) (h : fn = 0 ∨ field p 0 1 = fn) : ownsCarrel t fn p = true := by
  rcases h with h | h <;> simp [ownsCarrel, h]

theorem ownsTenant_of (t : State) (h : fn = 0 ∨ field p 0 1 = fn) (h0 : field p 0 1 ≠ 0) : ownsTenant t fn p = true := by
  rw [ownsTenant, ownsCarrel_of t h]; simp [h0]

theorem ownsTenant_zero (t : State) (h0 : field p 0 1 = 0) : ownsTenant t fn p = false := by simp [ownsTenant, h0]

/-- A change that nothing shares takes effect at once, whichever carrel it changes. -/
theorem serveSync_commits {x : SyncCmd} {a : Ans} (hp : Passes s fn x.spec p) (hu : Unshared s c)
    (hk : x.carrel (accept s fn) fn p = c) (hc : x.check (accept s fn) fn p = none)
    (hcom : x.commit (accept s fn) fn p = (t, a)) : AnswersIn t fn a (.next (serveSync s fn x)) := by
  obtain ⟨hb, hd, hm⟩ := hu
  have hbody := syncBody_commit hc (by rw [hk]; exact hd) (by rw [hk]; exact hm)
  rw [hcom] at hbody
  rw [serveSync, if_neg (Bool.eq_false_iff.mp hb)]
  exact hp.answers hbody

/-! ## Creation (R393, R402, R411) -/

section
variable (hi : Issued s fn 0x0201 .o p) (hl : 516 ≤ p.length) (hf : cfgFormat p = true) (hk : p.length = 516 + field p 514 2)
include hi hl hf hk

theorem crlCreate_passes : Passes s fn createCmd.spec p :=
  ⟨hi, decide_eq_true hl, by simp only [createCmd, hf, Bool.true_and]; exact beq_iff_eq.mpr hk, rfl⟩

theorem crlCreate_refused {a : Ans} (hb : syncBusy s = false) (hc : createCmd.check (accept s fn) fn p = some a) :
    AnswersIn (accept s fn) fn a (exec (.crlCreate fn) s) := by
  change AnswersIn _ fn _ (execCrlCreate fn s)
  rw [execCrlCreate, if_neg (Bool.eq_false_iff.mp hb)]
  exact (crlCreate_passes hi hl hf hk).answers (by simp only [hc])

omit hi hl hf hk in
theorem createCheck_absent (ha : (s.carrel (field p 6 1)).st = .absent) :
    createCmd.check s fn p = createBad s (field p 6 1) p := if_neg (not_not.mpr ha)

omit hi hl hf hk in
theorem createBad_shares (hsh : sharesOk p = false) : createBad s c p = some (fail St.paramInvalid) := if_pos (by simp [hsh])

omit hi hl hf hk in
/-- The checks of a creation do not read the entropy unit. -/
theorem createBad_sysRequest {n : Nat} {b : Option Bytes} (hr : sysRequest s n = (t, b)) : createBad t c p = createBad s c p := by
  rw [sysRequest_eq hr]; rfl

omit hi hl hf hk in
/-- A draw on the entropy unit shares nothing. -/
theorem sysRequest_unshared {n : Nat} {b : Option Bytes} (hr : sysRequest (accept s fn) n = (t, b)) (hu : Unshared s c) :
    syncBlocked t c = false ∧ mirrors t c = false := by
  obtain ⟨-, hd, hm⟩ := hu
  rw [sysRequest_eq hr]
  exact ⟨hd, hm⟩

theorem crlCreate_creates {b : Bytes} (hu : Unshared s (field p 6 1)) (ha : (s.carrel (field p 6 1)).st = .absent)
    (hbad : createBad (accept s fn) (field p 6 1) p = none) (he : s.ent.state = .ready)
    (hr : sysRequest (accept s fn) 32 = (t, some b)) :
    AnswersIn (createCarrel t (field p 6 1) (p.take 512) (field p 512 2) (p.drop 516)) fn {} (exec (.crlCreate fn) s) := by
  have ha' : (t.carrel (field p 6 1)).st = .absent := by rw [sysRequest_eq hr]; exact ha
  have hc : createCmd.check (accept s fn) fn p = none := (createCheck_absent (s := accept s fn) ha).trans hbad
  have hc' : createCmd.check t fn p = none := (createCheck_absent ha').trans ((createBad_sysRequest hr).trans hbad)
  obtain ⟨hd, hm⟩ := sysRequest_unshared hr hu
  change AnswersIn _ fn _ (execCrlCreate fn s)
  rw [execCrlCreate, if_neg (Bool.eq_false_iff.mp hu.1)]
  refine (crlCreate_passes hi hl hf hk).answers ?_
  simp only [hc, withRandom_ready (s := accept s fn) he hr]
  exact syncBody_commit hc' hd hm

end

/-! ## Configuration (R393, R395) -/

section
variable (hi : Issued s fn 0x0202 .oa p) (hl : p.length = 516) (hm : field p 0 4 < 16) (hf : cfgFormat (p.drop 4) = true)
  (ho : cfgOwns (accept s fn) fn p = true) (hu : Unshared s (field p 10 1))
include hi hl hm hf ho hu

omit hu in
theorem crlConfig_passes : Passes s fn configCmd.spec p :=
  ⟨hi, beq_iff_eq.mpr hl, by simp only [configCmd, hm, hf, decide_true, Bool.and_self], ho⟩

theorem crlConfig_rejected (hst : cfgState (s.carrel (field p 10 1)).st p = false) :
    AnswersIn (accept s fn) fn (crlRejected s (field p 10 1)) (exec (.crlConfig fn) s) :=
  serveSync_refused (crlConfig_passes hi hl hm hf ho) hu.1 (if_pos (by simp [hst]))

theorem crlConfig_configures (hst : cfgState (s.carrel (field p 10 1)).st p = true)
    (hb : cfgBad (accept s fn) (field p 10 1) p = none) :
    let t := (accept s fn).setCarrel (field p 10 1) (applyCfg (accept s fn) (field p 10 1) p (s.carrel (field p 10 1)))
    AnswersIn (archiveCarrel (if grp p 2 then assignBlocks t (field p 10 1) else t) (field p 10 1)) fn {} (exec (.crlConfig fn) s) :=
  serveSync_commits (crlConfig_passes hi hl hm hf ho) hu rfl ((if_neg (by simp [hst])).trans hb) rfl

end

/-! ## Activation (R397, R404) -/

/-- The states in which a carrel can become ACTIVE (R397, R404). -/
def Activable (x : Carrel) : Prop := x.st = .configured ∨ x.st = .quiesced ∨ (x.st = .frozen ∧ x.exported = false)

theorem not_activable {x : Carrel}
    (h : x.st = .absent ∨ x.st = .active ∨ x.st = .quiescing ∨ (x.st = .frozen ∧ x.exported = true)) : ¬ Activable x := by
  rcases h with h | h | h | ⟨h, he⟩ <;> simp [Activable, *]

section
variable (hi : Issued s fn 0x0203 .oa p) (hl : p.length = 1) (ho : fn = 0 ∨ field p 0 1 = fn) (hu : Unshared s (field p 0 1))
include hi hl ho hu

omit hu in
theorem crlActivate_passes : Passes s fn activateCmd.spec p := ⟨hi, beq_iff_eq.mpr hl, rfl, ownsCarrel_of s ho⟩

theorem crlActivate_activates (h : Activable (s.carrel (field p 0 1))) :
    AnswersIn (establishStatic (takeAddresses (archiveCarrel (setCarrelState (accept s fn) (field p 0 1) .active) (field p 0 1))
      (field p 0 1)) (field p 0 1)) fn {} (exec (.crlActivate fn) s) :=
  serveSync_commits (crlActivate_passes hi hl ho) hu rfl (if_pos h) rfl

theorem crlActivate_rejected (h : ¬ Activable (s.carrel (field p 0 1))) :
    AnswersIn (accept s fn) fn (crlRejected s (field p 0 1)) (exec (.crlActivate fn) s) :=
  serveSync_refused (crlActivate_passes hi hl ho) hu.1 (if_neg h)

end

/-! ## Quiesce (R398) -/

/-- The drain of an ACTIVE carrel begun, its long operations aborted where the payload asks for it. -/
def beginDrain (s : State) (c : Nat) (long : Bool) : State :=
  let t := abortStaged (setCarrelState s c .quiescing) c
  archiveCarrel (stopBackground (if long then ((carrelSlips t c).map (·.1)).foldl abortLong t else t) c) c

section
variable (hi : Issued s fn 0x0204 .oa p) (hl : p.length = 2) (hv : field p 1 1 < 2) (ho : fn = 0 ∨ field p 0 1 = fn)
  (hu : Unshared s (field p 0 1))
include hi hl hv ho hu

omit hu in
theorem crlQuiesce_passes : Passes s fn quiesceCmd.spec p := ⟨hi, beq_iff_eq.mpr hl, decide_eq_true hv, ownsCarrel_of s ho⟩

theorem crlQuiesce_configured (hst : (s.carrel (field p 0 1)).st = .configured) :
    AnswersIn (archiveCarrel (setCarrelState (accept s fn) (field p 0 1) .quiesced) (field p 0 1)) fn {}
      (exec (.crlQuiesce fn) s) :=
  serveSync_commits (x := quiesceCmd) (crlQuiesce_passes hi hl hv ho) hu rfl (by simp [quiesceCmd, hst]) (by simp [quiesceCmd, hst])

theorem crlQuiesce_active (hst : (s.carrel (field p 0 1)).st = .active) :
    AnswersIn (beginDrain (accept s fn) (field p 0 1) (bit (field p 1 1) 0)) fn { detail := (carrelSlips s (field p 0 1)).length }
      (exec (.crlQuiesce fn) s) := by
  refine serveSync_commits (x := quiesceCmd) (crlQuiesce_passes hi hl hv ho) hu rfl (by simp [quiesceCmd, hst]) ?_
  simp only [quiesceCmd, accept_carrel, hst]
  rfl

theorem crlQuiesce_rejected (h : (s.carrel (field p 0 1)).st = .absent ∨ (s.carrel (field p 0 1)).st = .quiesced ∨
      (s.carrel (field p 0 1)).st = .frozen ∨ ((s.carrel (field p 0 1)).st = .quiescing ∧ field p 1 1 = 0)) :
    AnswersIn (accept s fn) fn (crlRejected s (field p 0 1)) (exec (.crlQuiesce fn) s) := by
  refine serveSync_refused (c := quiesceCmd) (crlQuiesce_passes hi hl hv ho) hu.1 ?_
  rcases h with h | h | h | ⟨h, h0⟩ <;> simp only [quiesceCmd, accept_carrel, h]
  case inr.inr.inr => rw [h0]; rfl
  all_goals rfl

end

theorem quiesceComplete_ends (hst : (s.carrel c).st = .quiescing) (he : carrelSlips s c = []) (hm : mirrors s c = false) :
    exec (.quiesceComplete c) s = .next (setCarrelState s c .quiesced) :=
  (if_neg (by simp [hst, he])).trans (if_neg (by simp [hm]))

theorem quiesceComplete_ignored (h : (s.carrel c).st ≠ .quiescing ∨ carrelSlips s c ≠ []) :
    exec (.quiesceComplete c) s = .next s := if_pos (h.imp_right (by simp))

/-! ## Freeze (R404) -/

section
variable (hi : Issued s fn 0x0205 .a p) (hp : p = []) (hu : Unshared s fn)
include hi hp hu

omit hu in
theorem crlFreeze_passes : Passes s fn freezeCmd.spec p := ⟨hi, by rw [hp]; rfl, rfl, rfl⟩

theorem crlFreeze_freezes (hst : (s.carrel fn).st = .quiesced) :
    let t := setCarrelState (accept s fn) fn .frozen
    AnswersIn (archiveCarrel (t.setCarrel fn { t.carrel fn with exported := false }) fn) fn {} (exec (.crlFreeze fn) s) :=
  serveSync_commits (crlFreeze_passes hi hp) hu rfl (if_pos hst) rfl

theorem crlFreeze_rejected (hst : (s.carrel fn).st ≠ .quiesced) :
    AnswersIn (accept s fn) fn (crlRejected s fn) (exec (.crlFreeze fn) s) :=
  serveSync_refused (crlFreeze_passes hi hp) hu.1 (if_neg hst)

end

/-! ## Reset (R401) -/

section
variable (hi : Issued s fn 0x0209 .oa p) (hl : p.length = 1)
include hi hl

theorem crlReset_operators (h0 : field p 0 1 = 0) (hb : syncBusy s = false) :
    AnswersIn (accept s fn) fn { status := 0x0708 } (exec (.crlReset fn) s) := by
  change AnswersIn _ fn _ (.next (serveSync s fn resetCmd))
  rw [serveSync, if_neg (Bool.eq_false_iff.mp hb)]
  exact next_congr (serve_unowned (c := resetCmd.spec) _ hi (.inr rfl) (beq_iff_eq.mpr hl) rfl (ownsTenant_zero s h0))

variable (ho : fn = 0 ∨ field p 0 1 = fn) (h0 : field p 0 1 ≠ 0) (hu : Unshared s (field p 0 1))
include ho h0 hu

omit hu in
theorem crlReset_passes : Passes s fn resetCmd.spec p := ⟨hi, beq_iff_eq.mpr hl, rfl, ownsTenant_of s ho h0⟩

theorem crlReset_resets (hst : (s.carrel (field p 0 1)).st = .quiesced)
    (hr : resetStrands (accept s fn) (field p 0 1) = false) :
    let t := resetCarrel (accept s fn) (field p 0 1)
    let u := withdrawAddresses (bumpEpoch ((resetSlots t (field p 0 1)).foldl deaccessionCommit t) (field p 0 1)) (field p 0 1)
    AnswersIn (archiveCarrel (setCarrelState u (field p 0 1) .configured) (field p 0 1)) fn {} (exec (.crlReset fn) s) :=
  serveSync_commits (crlReset_passes hi hl ho h0) hu rfl (if_pos ⟨hst, hr⟩) rfl

theorem crlReset_rejected
    (h : (s.carrel (field p 0 1)).st ≠ .quiesced ∨ resetStrands (accept s fn) (field p 0 1) = true) :
    AnswersIn (accept s fn) fn (crlRejected s (field p 0 1)) (exec (.crlReset fn) s) :=
  serveSync_refused (crlReset_passes hi hl ho h0) hu.1
    (if_neg fun ⟨hst, hr⟩ => h.elim (· hst) (by simp [hr]))

end

/-! ## Destruction and renewal of the anchor (R402, R403) -/

/-- The deaccession of an anchor that waits for its tombstone. -/
def anchorPends (t : State) (fn c : Nat) : State :=
  let a := (t.setMbx fn { t.mbx fn with host := [] }).setSlot c
    { t.slot c with deacPending := some (some fn), deacPeer := true, deacTomb := false }
  queueRecord a (.tombstone c (raiseGen (t.slot c) 1).ownGen)

theorem startDeac_anchor {recs : List SyncRec} {sync : Bool} (hd : syncBlocked t c = false) (hm : mirrors t c = false)
    (hper : (t.slot c).persistent = true) (ha : archiveOk t = true) :
    startDeac t fn c [] recs sync c = .wait (anchorPends t fn c) (.deaccession c) := by
  have htomb : anchorPends t fn c = queueRecord (pendDeac t fn c []) (.tombstone c (raiseGen (t.slot c) 1).ownGen) := by
    simp [anchorPends, pendDeac, hper]
  rw [htomb]
  exact startDeac_waits hd hm hper ha

section
variable (hi : Issued s fn 0x0208 .o p) (hl : p.length = 1)
include hi hl

theorem crlDestroy_operators (h0 : field p 0 1 = 0) : AnswersIn (accept s fn) fn { status := 0x0708 } (exec (.crlDestroy fn) s) :=
  next_congr (serve_unowned _ hi (.inl rfl) (beq_iff_eq.mpr hl) rfl (ownsTenant_zero s h0))

variable (h0 : field p 0 1 ≠ 0)
include h0

theorem crlDestroy_passes :
    Passes s fn { code := 0x0208, role := .o, lenOk := lenIs 1, owns := ownsTenant, folio := true } p :=
  ⟨hi, beq_iff_eq.mpr hl, rfl, ownsTenant_of s (.inl hi.operator) h0⟩

theorem crlDestroy_waits (hst : (s.carrel (field p 0 1)).st = .quiesced ∨ (s.carrel (field p 0 1)).st = .frozen)
    (hu : Unshared s (field p 0 1)) (hper : (s.slot (field p 0 1)).persistent = true) (ha : archiveOk s = true) :
    WaitsIn (anchorPends (accept s fn) fn (field p 0 1)) fn (.deaccession (field p 0 1)) (exec (.crlDestroy fn) s) :=
  (crlDestroy_passes hi hl h0).waits ((if_neg (by rcases hst with h | h <;> simp [h])).trans
    (startDeac_anchor (t := accept s fn) hu.2.1 hu.2.2 hper ha))

theorem crlDestroy_rejected (hq : (s.carrel (field p 0 1)).st ≠ .quiesced) (hf : (s.carrel (field p 0 1)).st ≠ .frozen) :
    AnswersIn (accept s fn) fn (crlRejected s (field p 0 1)) (exec (.crlDestroy fn) s) :=
  (crlDestroy_passes hi hl h0).answers (if_pos ⟨hq, hf⟩)

end

section
variable (hi : Issued s fn 0x020B .o p) (h6 : 6 ≤ p.length) (hz : field p 1 1 = 0) (hl : p.length = 6 + field p 4 2)
include hi h6 hz hl

theorem crlAnchorRenew_passes : Passes s fn
    { code := 0x020B, role := .o, lenOk := fun n => n == 1 || decide (6 ≤ n), folio := true
      rsvOk := fun p => p.length == 1 || (field p 1 1 == 0 && p.length == 6 + field p 4 2)
      owns := ownsCarrel } p :=
  ⟨hi, by simp [h6], by simp only [hz]; simp [hl], ownsCarrel_of s (.inl hi.operator)⟩

theorem crlAnchorRenew_rejected (hst : (s.carrel (field p 0 1)).st ≠ .quiesced) :
    AnswersIn (accept s fn) fn (crlRejected s (field p 0 1)) (exec (.crlAnchorRenew fn) s) :=
  (crlAnchorRenew_passes hi h6 hz hl).answers (if_pos (.inl hst))

theorem crlAnchorRenew_waits {b : Bytes} (hst : (s.carrel (field p 0 1)).st = .quiesced) (hk : p.drop 6 ≠ [])
    (hbad : adminKeyBad (field p 2 2) (p.drop 6) = none) (he : s.ent.state = .ready)
    (hr : sysRequest (accept s fn) 32 = (t, some b)) (hu : Unshared s (field p 0 1))
    (hper : (s.slot (field p 0 1)).persistent = true) (ha : archiveOk s = true) :
    WaitsIn (anchorPends t fn (field p 0 1)) fn (.deaccession (field p 0 1)) (exec (.crlAnchorRenew fn) s) := by
  obtain ⟨hd, hm⟩ := sysRequest_unshared hr hu
  have hper' : (t.slot (field p 0 1)).persistent = true := by rw [sysRequest_eq hr]; exact hper
  have ha' : archiveOk t = true := by rw [sysRequest_eq hr]; exact ha
  refine (crlAnchorRenew_passes hi h6 hz hl).waits ((if_neg ?_).trans ?_)
  · rw [accept_carrel, hst]
    simp [Nat.not_lt.mpr h6, hk]
  · simp only [hbad, withRandom_ready (s := accept s fn) he hr]
    exact startDeac_anchor hd hm hper' ha'

end

theorem crlStats_answers (hi : Issued s fn 0x020A .oa p) (hl : p.length = 1) (ho : fn = 0 ∨ field p 0 1 = fn) :
    AnswersIn (accept s fn) fn { payload := statsBytes (accept s fn) (field p 0 1) } (exec (.crlStats fn) s) :=
  Passes.answers ⟨hi, beq_iff_eq.mpr hl, rfl, ownsCarrel_of s ho⟩ rfl

end

end Sys2Proof.Machine

open Sys2Proof Sys2Proof.Machine

/-- Settles O47: the carrel's state decides each command; what it commits nothing shares, and a deaccession of the anchor waits for
its tombstone. -/
theorem carrelCommandsTakeEffect : Obligations.CarrelCommandsTakeEffect := by
  unfold Obligations.CarrelCommandsTakeEffect
  intro s fn p r is c st own crlBad
  refine ⟨⟨?present, ?shares, ?create⟩, ⟨?cfgBad, ?config⟩, ?activate, ?quiesce, fun k => ⟨quiesceComplete_ends,
      fun h => quiesceComplete_ignored (.inl h), fun h => quiesceComplete_ignored (.inr h)⟩,
    fun hi hp hu => ⟨crlFreeze_freezes hi hp hu, crlFreeze_rejected hi hp hu⟩,
    fun hi hl ho h0 hu => ⟨crlReset_resets hi hl ho h0 hu, crlReset_rejected hi hl ho h0 hu⟩, crlReset_operators,
    crlDestroy_operators, ⟨fun hi hl h0 => ⟨crlDestroy_waits hi hl h0, crlDestroy_rejected hi hl h0⟩, fun hi h6 hz hl =>
      ⟨fun t b hst hk hbad he hr => crlAnchorRenew_waits hi h6 hz hl hst hk hbad he hr, crlAnchorRenew_rejected hi h6 hz hl⟩⟩,
    crlStats_answers⟩
  case present => exact fun ⟨hi, hl, hf, hk, hu⟩ hst => crlCreate_refused hi hl hf hk hu.1 (if_pos hst)
  case shares =>
    exact fun ⟨hi, hl, hf, hk, hu⟩ hst hsh =>
      crlCreate_refused hi hl hf hk hu.1 ((createCheck_absent (s := r) hst).trans (createBad_shares hsh))
  case create => exact fun t b ⟨hi, hl, hf, hk, hu⟩ hst hbad he hr => crlCreate_creates hi hl hf hk hu hst hbad he hr
  case cfgBad => exact fun ⟨hi, hl, hm, hf, ho, hu⟩ hst => crlConfig_rejected hi hl hm hf ho hu hst
  case config =>
    intro ⟨hi, hl, hm, hf, ho, hu⟩ hst hb
    have h := crlConfig_configures hi hl hm hf ho hu hst hb
    exact ⟨fun h2 => by simpa only [show grp p 2 = true from h2, if_true] using h,
      fun h2 => by simpa only [show grp p 2 = false from h2, Bool.false_eq_true, if_false] using h⟩
  case activate =>
    intro hi hl ho hu
    exact ⟨crlActivate_activates hi hl ho hu, fun h => crlActivate_rejected hi hl ho hu (not_activable h)⟩
  case quiesce =>
    intro hi hl hv ho hu
    refine ⟨crlQuiesce_configured hi hl hv ho hu, fun hst => ?_, crlQuiesce_rejected hi hl hv ho hu⟩
    have h := crlQuiesce_active hi hl hv ho hu hst
    simp only [beginDrain, bit_zero_iff hv] at h
    exact h
end

section
/-!
SUPPORT. The five steps of a migration (R405 to R409).
-/

namespace Sys2Proof.Machine

/-- A command of the migration, well formed, at a phase. -/
structure MigIssued (s : State) (fn : Nat) (p : Bytes) (code phase : Nat) : Prop where
  issued : Issued s fn code .o p
  len : p.length = 44
  rsv : allZero (slice p 2 6) = true
  phase : field p 1 1 = phase

section
variable {s t : State} {fn c : Nat} {p host certs m : Bytes} {g : Migration}

theorem MigIssued.passes {code phase : Nat} (h : MigIssued s fn p code phase) : Passes s fn (migSpec code) p :=
  ⟨h.issued, beq_iff_eq.mpr h.len, h.rsv, rfl⟩

theorem MigIssued.migPhase {code phase : Nat} (h : MigIssued s fn p code phase) : migPhase s fn = phase := by
  rw [Machine.migPhase, h.issued.payload, h.phase]

theorem roomBad_small {n : Nat} (h : field p 40 4 < n) : roomBad p n = some { status := 0x0303, detail := n } := if_pos h

theorem roomBad_fits {n : Nat} (h : n ≤ field p 40 4) : roomBad p n = none := if_neg (Nat.not_lt.mpr h)

/-- The message in host memory, the migration kept. -/
def migWritten (s : State) (fn c : Nat) (p m : Bytes) (g : Migration) : State :=
  (s.setCarrel c { s.carrel c with migration := some g }).send (.dmaWrite fn (BitVec.ofNat 64 (field p 32 8)) m)

theorem migWrite_fits (h : m.length ≤ field p 40 4) :
    migWrite s fn c p m g = .done (migWritten s fn c p m g) { payload := le 4 m.length } := hostWrite_fits h _

/-! ## OFFER (R405) -/

section
variable (h : MigIssued s fn p 0x0207 1)
include h

theorem restoreOffer_answers {a : Ans} {body : State → Bytes → CmdRes}
    (he : execCrlRestoreOffer fn s = if migPhase s fn = 3 ∨ migPhase s fn = 5 then .next s
      else .next (serve s fn (migSpec 0x0207) body)) (hb : body (accept s fn) p = .done t a) :
    AnswersIn t fn a (exec (.crlRestoreOffer fn) s) := by
  change AnswersIn _ fn _ (execCrlRestoreOffer fn s)
  rw [he, h.migPhase, if_neg (by decide)]
  exact h.passes.answers hb

theorem restoreOffer_rejected (hst : (s.carrel (field p 0 1)).st ≠ .absent) :
    AnswersIn (accept s fn) fn (crlRejected s (field p 0 1)) (exec (.crlRestoreOffer fn) s) :=
  restoreOffer_answers h rfl (if_pos hst)

variable (hst : (s.carrel (field p 0 1)).st = .absent)
include hst

theorem restoreOffer_small (hr : field p 40 4 < 6419) :
    AnswersIn (accept s fn) fn { status := 0x0303, detail := 6419 } (exec (.crlRestoreOffer fn) s) := by
  refine restoreOffer_answers h rfl ((if_neg (not_not.mpr hst)).trans ((if_neg (not_not.mpr h.phase)).trans ?_))
  simp only [offerLen, roomBad_small hr]

theorem restoreOffer_offers {b : Bytes} (hr : 6419 ≤ field p 40 4) (he : s.ent.state = .ready)
    (hd : sysRequest (accept s fn) 96 = (t, some b)) :
    let m := migMessage t 1 (field p 0 1) (zeros 16) (b.take 32) (zeros 48) (kemPair 2 (b.drop 32)).1
    m.length ≤ field p 40 4 → AnswersIn (migWritten t fn (field p 0 1) p m
        { id := b.take 32, target := true, step := 1, prev := m, secrets := b.drop 32, startedAt := t.now }) fn
      { payload := le 4 m.length } (exec (.crlRestoreOffer fn) s) := by
  intro m hm
  refine restoreOffer_answers h rfl ((if_neg (not_not.mpr hst)).trans ((if_neg (not_not.mpr h.phase)).trans ?_))
  simp only [offerLen, roomBad_fits hr, withRandom_ready (s := accept s fn) he hd]
  exact migWrite_fits hm

end

/-! ## ACCEPT (R405) -/

section
variable (h : MigIssued s fn p 0x0206 2)
include h

theorem saveAccept_rejected (hst : (s.carrel (field p 0 1)).st ≠ .frozen) :
    AnswersIn (accept s fn) fn (crlRejected s (field p 0 1)) (exec (.crlSaveAccept fn host certs) s) := by
  change AnswersIn _ fn _ (execCrlSaveAccept fn host certs s)
  rw [execCrlSaveAccept, h.migPhase, if_neg (by decide)]
  exact h.passes.answers (if_pos hst)

theorem saveAccept_accepts {b : Bytes} (hst : (s.carrel (field p 0 1)).st = .frozen)
    (hbad : msgBad (accept s fn) (field p 0 1) (migInput p host) (migCerts p certs) 6419
      (msgOk (migInput p host) 1 (field p 0 1) (zeros 16) (zeros 48)) = none)
    (hg : (s.carrel (field p 0 1)).migration = none) (hr : 7987 ≤ field p 40 4) (he : s.ent.state = .ready)
    (hd : sysRequest (accept s fn) 96 = (t, some b)) :
    let msg := migInput p host
    let e := kemEnc 2 (slice msg 128 1568) (b.drop 64)
    let m := migMessage t 2 (field p 0 1) (msgSerial msg) (msgId msg) (sha384 msg) ((kemPair 2 (b.take 64)).1 ++ e.1)
    m.length ≤ field p 40 4 → AnswersIn (migWritten t fn (field p 0 1) p m
        { id := msgId msg, target := false, step := 2, peer := msgSerial msg, prev := msg ++ m, secrets := b.take 64 ++ e.2
          startedAt := t.now }) fn { payload := le 4 m.length } (exec (.crlSaveAccept fn host certs) s) := by
  intro msg e m hm
  change AnswersIn _ fn _ (execCrlSaveAccept fn host certs s)
  rw [execCrlSaveAccept, h.migPhase, if_neg (by decide)]
  refine h.passes.answers ((if_neg (not_not.mpr hst)).trans ((if_neg (not_not.mpr h.phase)).trans ?_))
  simp only [offerLen, hbad, accept_carrel, hg, Option.filter_none, acceptLen, roomBad_fits hr,
    withRandom_ready (s := accept s fn) he hd]
  exact migWrite_fits hm

end

/-! ## CONFIRM (R405) -/

section
variable (h : MigIssued s fn p 0x0207 3)
include h

theorem restoreConfirm_answers {a : Ans} {body : State → Bytes → CmdRes}
    (he : execCrlRestoreConfirm fn host certs s = if migPhase s fn ≠ 3 then .next s
      else .next (serve s fn (migSpec 0x0207) body)) (hb : body (accept s fn) p = .done t a) :
    AnswersIn t fn a (exec (.crlRestoreConfirm fn host certs) s) := by
  change AnswersIn _ fn _ (execCrlRestoreConfirm fn host certs s)
  rw [he, h.migPhase, if_neg (by decide)]
  exact h.passes.answers hb

theorem restoreConfirm_noMigration (hg : (s.carrel (field p 0 1)).migration = none) :
    AnswersIn (accept s fn) fn (crlRejected s (field p 0 1)) (exec (.crlRestoreConfirm fn host certs) s) :=
  restoreConfirm_answers h rfl (by simp only [accept_carrel, hg]; rfl)

variable (hg : (s.carrel (field p 0 1)).migration = some g)
include hg

theorem restoreConfirm_outOfStep (hstep : g.step ≠ 1) :
    AnswersIn (accept s fn) fn (crlRejected s (field p 0 1)) (exec (.crlRestoreConfirm fn host certs) s) := by
  refine restoreConfirm_answers h rfl ?_
  simp only [accept_carrel, hg]
  exact if_pos (.inr (.inr hstep))

theorem restoreConfirm_confirms {b : Bytes} (hst : (s.carrel (field p 0 1)).st = .absent) (htar : g.target = true) (hstep : g.step = 1)
    (hbad : msgBad (accept s fn) (field p 0 1) (migInput p host) (migCerts p certs) 7987
      (msgOk (migInput p host) 2 (field p 0 1) (fit 16 s.reg.serial) (sha384 g.prev) && msgId (migInput p host) == g.id) = none)
    (hr : 6419 ≤ field p 40 4) (he : s.ent.state = .ready) (hd : sysRequest (accept s fn) 32 = (t, some b)) :
    let msg := migInput p host
    let e := kemEnc 2 (slice msg 128 1568) b
    let k1 := kemDec 2 (kemPair 2 g.secrets).2 (slice msg 1696 1568)
    let m := migMessage t 3 (field p 0 1) (msgSerial msg) g.id (sha384 msg) e.1
    m.length ≤ field p 40 4 → AnswersIn (migWritten t fn (field p 0 1) p m
        { g with step := 3, peer := msgSerial msg, prev := g.prev ++ msg ++ m, secrets := k1 ++ e.2 }) fn
      { payload := le 4 m.length } (exec (.crlRestoreConfirm fn host certs) s) := by
  intro msg e k1 m hm
  refine restoreConfirm_answers h rfl ?_
  simp only [accept_carrel, hg]
  refine (if_neg (by simp [hst, htar, hstep])).trans ?_
  have hbad' : msgBad (accept s fn) (field p 0 1) (migInput p host) (migCerts p certs) acceptLen
      (msgOk (migInput p host) 2 (field p 0 1) (fit 16 (accept s fn).reg.serial) (sha384 g.prev) &&
        msgId (migInput p host) == g.id) = none := hbad
  simp only [hbad', offerLen, roomBad_fits hr, withRandom_ready (s := accept s fn) he hd]
  exact migWrite_fits hm

end

/-! ## EXPORT (R405 to R408) -/

/-- The sealed image of a FROZEN carrel under the key of its migration, once the message `m` has confirmed it. -/
def exportImage (s : State) (c : Nat) (g : Migration) (m : Bytes) : Bytes :=
  let k := migKey (g.prev ++ m) (g.secrets.drop 64 ++ kemDec 2 (kemPair 2 (g.secrets.take 64)).2 (slice m 128 1568))
  let body := imageBody s c
  let head := imageHeader s c g.id body
  let ct := aeadCrypt 2 k.1 k.2 body
  head ++ ct ++ aeadTag 2 k.1 k.2 head ct 16

section
variable (h : MigIssued s fn p 0x0206 4)
include h

theorem saveExport_answers {a : Ans} {body : State → Bytes → CmdRes}
    (he : execCrlSaveExport fn host certs s = if migPhase s fn ≠ 4 then .next s
      else .next (serve s fn (migSpec 0x0206) body)) (hb : body (accept s fn) p = .done t a) :
    AnswersIn t fn a (exec (.crlSaveExport fn host certs) s) := by
  change AnswersIn _ fn _ (execCrlSaveExport fn host certs s)
  rw [he, h.migPhase, if_neg (by decide)]
  exact h.passes.answers hb

theorem saveExport_noMigration (hg : (s.carrel (field p 0 1)).migration = none) :
    AnswersIn (accept s fn) fn (crlRejected s (field p 0 1)) (exec (.crlSaveExport fn host certs) s) :=
  saveExport_answers h rfl (by simp only [accept_carrel, hg]; rfl)

variable (hg : (s.carrel (field p 0 1)).migration = some g)
include hg

theorem saveExport_outOfStep (hstep : g.step ≠ 2) :
    AnswersIn (accept s fn) fn (crlRejected s (field p 0 1)) (exec (.crlSaveExport fn host certs) s) := by
  refine saveExport_answers h rfl ?_
  simp only [accept_carrel, hg]
  exact if_pos (.inr (.inr hstep))

variable (hst : (s.carrel (field p 0 1)).st = .frozen) (htar : g.target = false) (hstep : g.step = 2)
  (hbad : msgBad (accept s fn) (field p 0 1) (migInput p host) (migCerts p certs) 6419
    (msgOk (migInput p host) 3 (field p 0 1) (fit 16 s.reg.serial) (sha384 (g.prev.drop 6419)) && msgId (migInput p host) == g.id &&
      msgSerial (migInput p host) == g.peer) = none)
include hst htar hstep hbad

/-- An image that passed its checks is answered by the room that its image is given. -/
theorem saveExport_ends {a : Ans}
    (hend : (match roomBad p (exportImage (accept s fn) (field p 0 1) g (migInput p host)).length with
      | some a => CmdRes.done (accept s fn) a
      | none => .done ((archiveCarrel ((accept s fn).setCarrel (field p 0 1) { s.carrel (field p 0 1) with
            exported := true, migration := some { g with step := 4, prev := g.prev ++ migInput p host } }) (field p 0 1)).send
            (.dmaWrite fn (BitVec.ofNat 64 (field p 32 8)) (exportImage (accept s fn) (field p 0 1) g (migInput p host))))
          { payload := le 4 (exportImage (accept s fn) (field p 0 1) g (migInput p host)).length }) = .done t a) :
    AnswersIn t fn a (exec (.crlSaveExport fn host certs) s) := by
  refine saveExport_answers h rfl ?_
  simp only [accept_carrel, hg]
  refine (if_neg (by simp [hst, htar, hstep])).trans ?_
  have hbad' : msgBad (accept s fn) (field p 0 1) (migInput p host) (migCerts p certs) offerLen
      (msgOk (migInput p host) 3 (field p 0 1) (fit 16 (accept s fn).reg.serial) (sha384 (g.prev.drop offerLen)) &&
        msgId (migInput p host) == g.id && msgSerial (migInput p host) == g.peer) = none := hbad
  simp only [hbad']
  exact hend

theorem saveExport_small (hr : field p 40 4 < (exportImage (accept s fn) (field p 0 1) g (migInput p host)).length) :
    AnswersIn (accept s fn) fn
      { status := 0x0303, detail := (exportImage (accept s fn) (field p 0 1) g (migInput p host)).length }
      (exec (.crlSaveExport fn host certs) s) :=
  saveExport_ends h hg hst htar hstep hbad (by rw [roomBad_small hr])

theorem saveExport_exports (hr : (exportImage (accept s fn) (field p 0 1) g (migInput p host)).length ≤ field p 40 4) :
    AnswersIn ((archiveCarrel ((accept s fn).setCarrel (field p 0 1) { s.carrel (field p 0 1) with
        exported := true, migration := some { g with step := 4, prev := g.prev ++ migInput p host } }) (field p 0 1)).send
        (.dmaWrite fn (BitVec.ofNat 64 (field p 32 8)) (exportImage (accept s fn) (field p 0 1) g (migInput p host)))) fn
      { payload := le 4 (exportImage (accept s fn) (field p 0 1) g (migInput p host)).length }
      (exec (.crlSaveExport fn host certs) s) :=
  saveExport_ends h hg hst htar hstep hbad (by rw [roomBad_fits hr])

end

/-! ## IMPORT (R409) -/

/-- The accepted state with the image that the command reads. -/
def importing (s : State) (fn : Nat) (host : Bytes) : State := (accept s fn).setMbx fn { (accept s fn).mbx fn with host := host }

theorem importing_carrel (s : State) (fn : Nat) (host : Bytes) (c : Nat) : (importing s fn host).carrel c = s.carrel c := rfl

theorem importing_host (s : State) (fn : Nat) (host : Bytes) : ((importing s fn host).mbx fn).host = host :=
  congrArg Mbx.host (State.setMbx_mbx_self ..)

theorem importImage_opened (hg : (s.carrel (field p 0 1)).migration = some g) (htar : g.target = true) (hstep : g.step = 3) :
    importImage (importing s fn host) fn p = some (g, openImage g (migInput p host)) := by
  simp [importImage, importing_carrel, importing_host, hg, htar, hstep]

theorem importImage_none (hg : (s.carrel (field p 0 1)).migration = none) : importImage (importing s fn host) fn p = none := by
  simp [importImage, importing_carrel, hg]

section
variable (h : MigIssued s fn p 0x0207 5) (hu : Unshared s (field p 0 1))
include h hu

theorem restoreImport_answers {a : Ans} (hb : syncBody importCarrelCmd (importing s fn host) fn p = .done t a) :
    AnswersIn t fn a (exec (.crlRestoreImport fn host certs) s) := by
  change AnswersIn _ fn _ (execCrlRestoreImport fn host certs s)
  rw [execCrlRestoreImport, h.migPhase, if_neg (by simp [hu.1])]
  exact Passes.answers (c := importCarrelCmd.spec) ⟨h.issued, beq_iff_eq.mpr h.len, h.rsv, rfl⟩ hb

theorem restoreImport_present (hst : (s.carrel (field p 0 1)).st ≠ .absent) :
    AnswersIn (importing s fn host) fn (crlRejected s (field p 0 1)) (exec (.crlRestoreImport fn host certs) s) :=
  restoreImport_answers h hu (syncBody_refused (if_pos hst))

theorem restoreImport_noMigration (hg : (s.carrel (field p 0 1)).migration = none) :
    AnswersIn (importing s fn host) fn (crlRejected s (field p 0 1)) (exec (.crlRestoreImport fn host certs) s) := by
  refine restoreImport_answers h hu (syncBody_refused ?_)
  simp only [importCarrelCmd, importImage_none hg]
  exact ite_self _

variable (hst : (s.carrel (field p 0 1)).st = .absent) (hg : (s.carrel (field p 0 1)).migration = some g) (htar : g.target = true)
  (hstep : g.step = 3)
include hst hg htar hstep

theorem restoreImport_unopened (ho : openImage g (migInput p host) = none) :
    AnswersIn (importing s fn host) fn { status := 0x0405 } (exec (.crlRestoreImport fn host certs) s) := by
  refine restoreImport_answers h hu (syncBody_refused ?_)
  simp only [importCarrelCmd, importImage_opened hg htar hstep, ho]
  exact if_neg (not_not.mpr hst)

theorem restoreImport_installs {i : Image} (ho : openImage g (migInput p host) = some i)
    (hbad : imageBad (importing s fn host) (field p 0 1) g i = none) :
    AnswersIn (installImage (importing s fn host) (field p 0 1) i).1 fn
      { payload := zeros 4, detail := (installImage (importing s fn host) (field p 0 1) i).2 }
      (exec (.crlRestoreImport fn host certs) s) := by
  have hcheck : importCarrelCmd.check (importing s fn host) fn p = none := by
    simp only [importCarrelCmd, importImage_opened hg htar hstep, ho]
    exact (if_neg (not_not.mpr hst)).trans hbad
  refine restoreImport_answers h hu ((syncBody_commit hcheck hu.2.1 hu.2.2).trans ?_)
  simp only [importCarrelCmd, importImage_opened hg htar hstep, ho]
  rfl

end

end

end Sys2Proof.Machine

open Sys2Proof Sys2Proof.Machine

/-- Settles O48: each step reads the migration that the steps before it have left in the carrel, and writes the next. -/
theorem migrationTakesItsSteps : Obligations.MigrationTakesItsSteps := by
  unfold Obligations.MigrationTakesItsSteps
  intro s fn host certs p r c phase room save restore msg cs crlBad written
  have hsave : ∀ {k}, save → phase = k → MigIssued s fn p 0x0206 k := fun ⟨hi, hl, hr⟩ hk => ⟨hi, hl, hr, hk⟩
  have hrestore : ∀ {k}, restore → phase = k → MigIssued s fn p 0x0207 k := fun ⟨hi, hl, hr⟩ hk => ⟨hi, hl, hr, hk⟩
  refine ⟨?offer, ?accept, ?confirm, ?exporting, ?installing, fun _ => rfl⟩
  case offer =>
    intro hc hk
    have h := hrestore hc hk
    exact ⟨restoreOffer_rejected h, restoreOffer_small h, fun t b hst hr he hd => restoreOffer_offers h hst hr he hd⟩
  case accept =>
    intro hc hk
    have h := hsave hc hk
    exact ⟨saveAccept_rejected h, fun t b hst hbad hg hr he hd => saveAccept_accepts h hst hbad hg hr he hd⟩
  case confirm =>
    intro hc hk
    have h := hrestore hc hk
    exact ⟨restoreConfirm_noMigration h, fun g hg => restoreConfirm_outOfStep h hg,
      fun g t b hg hst htar hstep hbad hr he hd => restoreConfirm_confirms h hg hst htar hstep hbad hr he hd⟩
  case exporting =>
    intro hc hk
    have h := hsave hc hk
    exact ⟨saveExport_noMigration h, fun g hg => saveExport_outOfStep h hg, fun g hg hst htar hstep hbad =>
      ⟨saveExport_small h hg hst htar hstep hbad, saveExport_exports h hg hst htar hstep hbad⟩⟩
  case installing =>
    intro hc hk hu
    have h := hrestore hc hk
    exact ⟨restoreImport_present h hu, restoreImport_noMigration h hu, fun g hst hg htar hstep =>
      ⟨restoreImport_unopened h hu hst hg htar hstep, fun i => restoreImport_installs h hu hst hg htar hstep⟩⟩
end

section
/-!
SUPPORT. The mirror's commands: pairing, unpairing, arbitration, rehoming (R420, R430 to R433, R238).
-/

namespace Sys2Proof.Machine

section
variable {s : State} {fn c : Nat} {p : Bytes}

/-! ## Pairing and rejoining (R420, R432) -/

/-- `MIR_PAIR` in the window, with this value of `REJOIN`. -/
structure PairIssued (s : State) (fn : Nat) (p : Bytes) (rejoin : Bool) : Prop where
  issued : Issued s fn 0x0601 .o p
  len : p.length = 17
  rejoin : field p 16 1 = if rejoin then 1 else 0

theorem PairIssued.passes {b : Bool} (h : PairIssued s fn p b) : Passes s fn pairSpec p :=
  ⟨h.issued, beq_iff_eq.mpr h.len, decide_eq_true (by rw [h.rejoin]; split <;> decide), rfl⟩

theorem PairIssued.rejoinIs {b : Bool} (h : PairIssued s fn p b) (x : Bool) : rejoinIs s fn x = (b == x) := by
  rw [Machine.rejoinIs, h.issued.payload, h.rejoin]
  cases b <;> cases x <;> rfl

/-- The life-cycle states in which a device pairs (R420). -/
def LcsPairs (s : State) : Prop := s.tmp.lcs = .provisioned ∨ s.tmp.lcs = .service

theorem lcsPairs_iff : lcsPairs s = true ↔ LcsPairs s := by simp [lcsPairs, LcsPairs]

/-- The pairing begun with the peer that the payload names. -/
def pairStarted (s : State) (fn : Nat) (p : Bytes) (st : PairState) : State :=
  setPair { accept s fn with mirror := { s.mirror with peerSerial := p.take 16, copied := false } } st

theorem mirPair_ignored (h : PairIssued s fn p true) : exec (.mirPair fn) s = .next s := if_pos (by rw [h.rejoinIs]; rfl)

theorem mirPairRejoin_ignored (h : PairIssued s fn p false) : exec (.mirPairRejoin fn) s = .next s :=
  if_pos (by rw [h.rejoinIs]; rfl)

section
variable (h : PairIssued s fn p false)
include h

theorem mirPair_starts (hst : s.mirror.state = .unpaired) (hl : LcsPairs s) :
    WaitsIn (pairStarted s fn p .pairing) fn .pairing (exec (.mirPair fn) s) := by
  have hl' : lcsPairs (accept s fn) = true := lcsPairs_iff.mpr hl
  change WaitsIn _ fn _ (execMirPair fn s)
  rw [execMirPair, h.rejoinIs, if_neg (by decide)]
  exact h.passes.waits (if_neg (by simp [hst, hl']))

theorem mirPair_rejected (hbad : s.mirror.state ≠ .unpaired ∨ ¬ LcsPairs s) :
    AnswersIn (accept s fn) fn (pairRejected s) (exec (.mirPair fn) s) := by
  have hl' : lcsPairs (accept s fn) = true ↔ LcsPairs s := lcsPairs_iff
  change AnswersIn _ fn _ (execMirPair fn s)
  rw [execMirPair, h.rejoinIs, if_neg (by decide)]
  refine h.passes.answers (if_pos ?_)
  rcases hbad with hbad | hbad
  · simp [hbad]
  · simp [mt hl'.mp hbad]

end

section
variable (h : PairIssued s fn p true)
include h

theorem mirPairRejoin_starts (hst : s.mirror.state = .unpaired ∨ s.mirror.state = .degraded ∨ s.mirror.state = .solo)
    (hl : LcsPairs s) : WaitsIn (pairStarted s fn p .rejoining) fn .pairing (exec (.mirPairRejoin fn) s) := by
  have hl' : lcsPairs (accept s fn) = true := lcsPairs_iff.mpr hl
  change WaitsIn _ fn _ (execMirPairRejoin fn s)
  rw [execMirPairRejoin, h.rejoinIs, if_neg (by decide)]
  exact h.passes.waits (if_neg (by rcases hst with hst | hst | hst <;> simp [hst, hl']))

theorem mirPairRejoin_rejected (hbad : s.mirror.state = .paired ∨ s.mirror.state = .pairing ∨ s.mirror.state = .rejoining ∨
    ¬ LcsPairs s) : AnswersIn (accept s fn) fn (pairRejected s) (exec (.mirPairRejoin fn) s) := by
  have hl' : lcsPairs (accept s fn) = true ↔ LcsPairs s := lcsPairs_iff
  change AnswersIn _ fn _ (execMirPairRejoin fn s)
  rw [execMirPairRejoin, h.rejoinIs, if_neg (by decide)]
  refine h.passes.answers (if_pos ?_)
  rcases hbad with hbad | hbad | hbad | hbad
  · simp [hbad]
  · simp [hbad]
  · simp [hbad]
  · simp [mt hl'.mp hbad]

end

/-! ## The end of a pairing (R420, R238) -/

/-- The exchange of a pairing can end: one is under way and its copies are not out. -/
def Exchanging (s : State) : Prop := (s.mirror.state = .pairing ∨ s.mirror.state = .rejoining) ∧ s.mirror.copied = false

theorem pairingComplete_ignored (x : PairResult)
    (h : (s.mirror.state ≠ .pairing ∧ s.mirror.state ≠ .rejoining) ∨ s.mirror.copied = true) :
    exec (.pairingComplete x) s = .next s := if_pos h

theorem failPairing_rejected : failPairing s pairRejected =
    answerAll (setPair s .unpaired) .pairing { status := 0x0601, obj := 5, st := 0 } := by
  have hst : pairRejected (setPair s .unpaired) = { status := 0x0601, obj := 5, st := 0 } := by
    rw [pairRejected, setPair_state]; rfl
  rw [← hst]
  rfl

section
variable (h : Exchanging s)
include h

theorem pairingComplete_exchanging (x : PairResult) :
    exec (.pairingComplete x) s = match x with
      | .signatureFailed => .next (failPairing s fun _ => fail St.signatureInvalid)
      | .serialMismatch | .peerLifeCycle => .next (failPairing s pairRejected)
      | .done cs ceils =>
        if s.mirror.state = .pairing ∧ cs.any (fun c => (s.carrel c.carrel).st != .absent) then .next (failPairing s pairRejected)
        else .next (completePairing s cs ceils) := by
  obtain ⟨hst, hc⟩ := h
  refine (if_neg ?_).trans (by cases x <;> rfl)
  rcases hst with hst | hst <;> simp [hst, hc]

theorem pairingComplete_held {cs : List PeerCarrel} {cl : List (Nat × Nat)} (hp : s.mirror.state = .pairing)
    (hx : ∃ x ∈ cs, (s.carrel x.carrel).st ≠ .absent) :
    exec (.pairingComplete (.done cs cl)) s =
      .next (answerAll (setPair s .unpaired) .pairing { status := 0x0601, obj := 5, st := 0 }) := by
  rw [pairingComplete_exchanging h, ← failPairing_rejected]
  refine if_pos ⟨hp, ?_⟩
  simpa only [List.any_eq_true, bne_iff_ne] using hx

/-- The state once the exchange has succeeded, before anything is sent. -/
def exchanged (s : State) : State :=
  { s with mirror := { s.mirror with
    linkUp := true, linkKeys := true, keyedAt := s.now, resigned := false, ours := [], batches := [], copied := true } }

theorem pairingComplete_pairs (hr : raising s = false) (hh : homedHere s = []) :
    let u := (exchanged s).send (.carrelCopy [] (ceilings (exchanged s)))
    exec (.pairingComplete (.done [] [])) s =
      .next (answerAll (setPair { u with mirror := { u.mirror with copied := false } } .paired) .pairing
        { detail := pairCode .paired }) := by
  intro u
  have hcopies : sendCopies (exchanged s) = u := by
    have hh' : homedHere (exchanged s) = [] := hh
    rw [sendCopies, hh', List.map_nil]
  have hr' : raising u = false := hr
  have hst : (u.mirror.state == .pairing || u.mirror.state == .rejoining) = true := by
    have heq : u.mirror.state = s.mirror.state := rfl
    rcases h.1 with hs | hs <;> rw [heq, hs] <;> rfl
  rw [pairingComplete_exchanging h]
  refine (if_neg (by simp)).trans (congrArg Host.Outcome.next ?_)
  change finishPairing (sendCopies (exchanged s)) = _
  rw [hcopies, finishPairing, if_pos]
  simp only [hst, hr']
  rfl

end

/-! ## Unpairing (R432) -/

theorem endMirroring_unpaired (s : State) : (endMirroring s).mirror.state = .unpaired := setPair_state ..

section
variable (hi : Issued s fn 0x0602 .o p) (hl : p.length = 0)
include hi hl

theorem mirUnpair_rejected (h : s.mirror.state = .unpaired ∨ s.mirror.state = .pairing ∨ s.mirror.state = .rejoining) :
    AnswersIn (accept s fn) fn (pairRejected s) (exec (.mirUnpair fn) s) :=
  Passes.answers ⟨hi, beq_iff_eq.mpr hl, rfl, rfl⟩ (if_pos (by rcases h with h | h | h <;> simp [h]))

theorem mirUnpair_ends (h : s.mirror.state = .paired ∨ s.mirror.state = .degraded ∨ s.mirror.state = .solo) :
    AnswersIn (endMirroring ((homedPeer (accept s fn)).foldl destroyCopy (accept s fn))) fn { detail := (homedPeer s).length }
      (exec (.mirUnpair fn) s) :=
  Passes.answers ⟨hi, beq_iff_eq.mpr hl, rfl, rfl⟩ (if_neg (by rcases h with h | h | h <;> simp [h]))

end

/-! ## Arbitration (R430) -/

section
variable (hi : Issued s fn 0x0603 .o p) (hl : p.length = 64) (hk : bit (field p 0 1) 0 = false) (hy : bit (field p 32 1) 0 = false)
include hi hl hk hy

theorem mirArbitrate_passes : Passes s fn { code := 0x0603, role := .o, lenOk := lenIs 64
                                            rsvOk := fun p => !bit (field p 0 1) 0 && !bit (field p 32 1) 0 } p :=
  ⟨hi, beq_iff_eq.mpr hl, by simp [hk, hy], rfl⟩

theorem mirArbitrate_rejected (h : s.mirror.state ≠ .degraded) :
    AnswersIn (accept s fn) fn (pairRejected s) (exec (.mirArbitrate fn) s) :=
  (mirArbitrate_passes hi hl hk hy).answers (if_pos h)

variable (h : s.mirror.state = .degraded)
include h

theorem mirArbitrate_absent (ha : ∃ k ∈ mapCarrels p 0 ++ mapCarrels p 32, (s.carrel k).st = .absent) :
    AnswersIn (accept s fn) fn { status := 0x0407 } (exec (.mirArbitrate fn) s) :=
  (mirArbitrate_passes hi hl hk hy).answers ((if_neg (not_not.mpr h)).trans
    (if_pos (by simpa only [List.any_eq_true, beq_iff_eq, accept_carrel] using ha)))

theorem mirArbitrate_soloes (ha : ∀ k ∈ mapCarrels p 0 ++ mapCarrels p 32, (s.carrel k).st ≠ .absent) :
    let taken := if canTakeover s then (mapCarrels p 0).filter fun k => homeOf s k == .peer else []
    AnswersIn (setPair (taken.foldl keepCarrel ((mapCarrels p 32).foldl yieldCarrel (accept s fn))) .solo) fn
      { detail := taken.length } (exec (.mirArbitrate fn) s) :=
  (mirArbitrate_passes hi hl hk hy).answers ((if_neg (not_not.mpr h)).trans
    (if_neg (by simpa only [List.any_eq_true, beq_iff_eq, accept_carrel, not_exists, not_and] using ha)))

end

theorem yieldCarrel_elsewhere (h : homeOf s c ≠ .here) : yieldCarrel s c = s := if_neg h

theorem keepCarrel_elsewhere (h : homeOf s c ≠ .peer) : keepCarrel s c = s := if_neg h

/-! ## Rehoming (R431) -/

section
variable (hi : Issued s fn 0x0604 .o p) (hl : p.length = 1)
include hi hl

theorem mirRehome_rejected (h : s.mirror.state ≠ .paired) :
    AnswersIn (accept s fn) fn (pairRejected s) (exec (.mirRehome fn) s) :=
  Passes.answers ⟨hi, beq_iff_eq.mpr hl, rfl, rfl⟩ (if_pos h)

variable (h : s.mirror.state = .paired)
include h

theorem mirRehome_invalid (hc : field p 0 1 = 0 ∨ (s.carrel (field p 0 1)).st = .absent ∨ homeOf s (field p 0 1) ≠ .here) :
    AnswersIn (accept s fn) fn { status := 0x0407 } (exec (.mirRehome fn) s) :=
  Passes.answers ⟨hi, beq_iff_eq.mpr hl, rfl, rfl⟩ ((if_neg (not_not.mpr h)).trans (if_pos hc))

theorem mirRehome_waits (h0 : field p 0 1 ≠ 0) (ha : (s.carrel (field p 0 1)).st ≠ .absent) (hh : homeOf s (field p 0 1) = .here) :
    WaitsIn (discardStaged (accept s fn) (field p 0 1)) fn (.rehome (field p 0 1) (unstarted s (field p 0 1)).length)
      (exec (.mirRehome fn) s) :=
  Passes.waits ⟨hi, beq_iff_eq.mpr hl, rfl, rfl⟩ ((if_neg (not_not.mpr h)).trans
    (if_neg fun hbad => hbad.elim h0 fun hbad => hbad.elim ha (· hh)))

end

theorem rehomeTakeover_takes (h : s.mirror.state = .paired) (hh : homeOf s c = .peer) (ha : (s.carrel c).st ≠ .absent)
    (ht : canTakeover s = true) : exec (.rehomeTakeover c) s = .next (takeCarrel s c) := if_pos ⟨h, hh, ha, ht⟩

theorem rehomeTakeover_ignored (h : s.mirror.state ≠ .paired ∨ homeOf s c ≠ .peer) : exec (.rehomeTakeover c) s = .next s :=
  if_neg fun ⟨h1, h2, _⟩ => h.elim (· h1) (· h2)

theorem mirStatus_answers (hi : Issued s fn 0x0605 .o p) (hl : p.length = 0) :
    AnswersIn (accept s fn) fn { payload := mirStatus (accept s fn) } (exec (.mirStatus fn) s) :=
  Passes.answers ⟨hi, beq_iff_eq.mpr hl, rfl, rfl⟩ rfl

end

end Sys2Proof.Machine

open Sys2Proof Sys2Proof.Machine

/-- Settles O51: the pair's state decides each command; the end of a pairing depends on its result alone while the exchange is
under way. -/
theorem mirrorCommandsTakeEffect : Obligations.MirrorCommandsTakeEffect := by
  unfold Obligations.MirrorCommandsTakeEffect
  intro s fn p r is m pairBad start lcsOk c
  refine ⟨?pair, ?rejoin, fun x => pairingComplete_ignored x, ?complete,
    fun ⟨hi, hl⟩ => ⟨mirUnpair_rejected hi hl, mirUnpair_ends hi hl, endMirroring_unpaired s⟩,
    fun ⟨hi, hl⟩ hk hy => ⟨mirArbitrate_rejected hi hl hk hy, mirArbitrate_absent hi hl hk hy, mirArbitrate_soloes hi hl hk hy⟩,
    yieldCarrel_elsewhere, keepCarrel_elsewhere,
    fun ⟨hi, hl⟩ => ⟨mirRehome_rejected hi hl, mirRehome_invalid hi hl, mirRehome_waits hi hl⟩,
    fun k => ⟨rehomeTakeover_takes, rehomeTakeover_ignored⟩, fun ⟨hi, hl⟩ => mirStatus_answers hi hl⟩
  case pair =>
    intro ⟨hi, hl⟩ hz
    have h : PairIssued s fn p false := ⟨hi, hl, hz⟩
    exact ⟨mirPair_starts h, mirPair_rejected h, mirPairRejoin_ignored h⟩
  case rejoin =>
    intro ⟨hi, hl⟩ hz
    have h : PairIssued s fn p true := ⟨hi, hl, hz⟩
    exact ⟨mirPairRejoin_starts h, mirPairRejoin_rejected h, mirPair_ignored h⟩
  case complete =>
    intro hst hc
    have h : Exchanging s := ⟨hst, hc⟩
    have hend : ∀ x, _ := pairingComplete_exchanging h
    exact ⟨⟨hend .signatureFailed, (hend .serialMismatch).trans (congrArg _ failPairing_rejected),
      (hend .peerLifeCycle).trans (congrArg _ failPairing_rejected), fun cs cl hp hx => pairingComplete_held h hp hx⟩,
      pairingComplete_pairs h⟩
end

section
/-!
SUPPORT. Power, clocks and the shed stages (R452 to R465, R417, R224).
-/

namespace Sys2Proof.Machine

section
variable {s : State} {n cause : Nat}

/-! ## Entering and leaving a stage (R459 to R461) -/

theorem shed_unpowered (h : s.cel.mainPower = false) (n cause : Nat) : shed s n cause = s := if_pos (by simp [h])

section
variable (h : s.cel.mainPower = true)
include h

theorem shed_booting (hb : s.boot.stage < 13) (n cause : Nat) : shed s n cause = holdBoot s n cause :=
  (if_neg (by simp [h])).trans (if_pos hb)

theorem shed_ready (hb : 13 ≤ s.boot.stage) (n cause : Nat) :
    shed s n cause = ([1, 2, 3, 4].filter fun k => decide (k ≤ n)).foldl (enterStage cause) s :=
  (if_neg (by simp [h])).trans (if_neg (Nat.not_lt.mpr hb))

end

theorem enterStage_inForce (h : n ≤ s.cel.stage) : enterStage cause s n = s := if_pos (.inl h)

theorem enterStage_enters (h0 : s.cel.stage = 0) (hb : 13 ≤ s.boot.stage) (h1 : 1 ≤ n) :
    enterStage cause s n =
      let k := countShed { s.cel with stage := n, cause := cause, shedEntered := s.cel.shedEntered.hit } n
      shedReport (noteDev s (stageActions { s with cel := { k with warn := k.warn || bit cause 0 } } n)) n cause false :=
  if_neg (by omega)

theorem shedStageExit_idle (h : s.cel.stage = 0 ∨ 4 ≤ s.cel.stage) : exec .shedStageExit s = .next s := if_pos h

/-- The cellar one stage lower: the warning of its cause ends, and that of the lowest stage altogether. -/
def celBelow (c : Cellar) : Cellar :=
  { c with
    stage := c.stage - 1, warn := c.warn && !(bit c.cause 0) && c.stage != 1, cause := if c.stage = 1 then 0 else c.cause }

theorem shedStageExit_leaves (h1 : 1 ≤ s.cel.stage) (h3 : s.cel.stage ≤ 3) :
    exec .shedStageExit s =
      let t := { s with cel := celBelow s.cel }
      .next (shedReport (noteDev s (if s.cel.stage = 3 then servePages (forceOctets t) else t)) s.cel.stage s.cel.cause true) :=
  if_neg (by omega)

/-! ## Shed stage S4 (R462, R464) -/

theorem s4Abandon_idle (h : s.cel.stage ≠ 4 ∨ s.cel.s4Abandoned = true) : exec .s4Abandon s = .next s := if_pos h

theorem Tab.mapVals_id {α : Type} (t : Tab α) {f : Nat → α → α} (hf : ∀ k x, f k x = x) : Tab.mapVals t f = t := by
  unfold Tab.mapVals
  simp [hf]

/-- With no slip there is none to abort. -/
theorem abortSlips_none (h : s.hop.slips = []) (which : Slip → Bool) (status : Nat) : abortSlips s which status = s := by
  unfold abortSlips
  rw [h]
  change ({ s with hop := { s.hop with slips := Tab.mapVals s.hop.slips _, hoppers := Tab.mapVals s.hop.hoppers _ } } : State) = s
  rw [Tab.mapVals_id s.hop.hoppers, Tab.mapVals_id s.hop.slips]
  · exact fun _ _ => rfl
  · intro _ x
    cases x.openChain <;> rfl

theorem s4Abandon_ends (h4 : s.cel.stage = 4) (ha : s.cel.s4Abandoned = false) (hs : s.hop.slips = []) (hp : s.pipes.pages = []) :
    exec .s4Abandon s = .next { s with
      mirror := { s.mirror with waits := s.mirror.waits.filter fun w => match w.2 with
        | .chain _ => false
        | _ => true }
      cel := { s.cel with s4Abandoned := true } } := by
  refine (if_neg (by simp [h4, ha])).trans ?_
  simp only [hs, List.filter_nil, List.map_nil, List.foldl_nil, List.dedup_nil, abortSlips_none hs, busyPages, hp] <;> rfl

theorem s4FlushDone_idle (h : s.cel.stage ≠ 4 ∨ s.cel.s4Abandoned = false ∨ s.cel.s4Done = true) :
    exec .s4FlushDone s = .next s := if_pos h

/-- An octet whose PLL has stopped. -/
def octetOff (o : Octet) : Octet := { o with state := .off, portUp := 0, laneLock := 0 }

/-- A hopper whose held return slips are lost with QDR. -/
def hopperLost (h : Hopper) : Hopper := { h with held := [], statusPending := 0 }

/-- What the end of the flush makes of a device that has resigned: nothing in flight, no slot readable, every octet `OFF`. -/
def s4Flushed (u : State) : State :=
  { u with
    hop := { u.hop with slips := [], carries := [], hoppers := Tab.mapVals u.hop.hoppers fun _ => hopperLost }
    cat := { u.cat with slots := [], archivePending := [], tombstones := [] }
    qdr := { u.qdr with guardKeys := false }
    ports := { u.ports with octets := Tab.mapVals u.ports.octets fun _ => octetOff }
    cel := { u.cel with s4Done := true, stopped := [0, 1, 2, 3, 4, 5, 7] } }

theorem s4FlushDone_ends (h4 : s.cel.stage = 4) (ha : s.cel.s4Abandoned = true) (hd : s.cel.s4Done = false) :
    exec .s4FlushDone s = .next (s4Flushed (resign ([0, 1, 2, 3].foldl anchorS4 (archiveFlush s)))) := if_neg (by simp [h4, ha, hd])

theorem Tab.exists_of_get?_mapVals {α : Type} {t : Tab α} {f : Nat → α → α} {k : Nat} {y : α}
    (h : Tab.get? (Tab.mapVals t f) k = some y) : ∃ x, f k x = y := by
  rw [Tab.get?_mapVals] at h
  obtain ⟨x, -, hx⟩ := Option.map_eq_some_iff.mp h
  exact ⟨x, hx⟩

theorem s4Flushed_octets {u : State} {k : Nat} {o : Octet} (h : Tab.get? (s4Flushed u).ports.octets k = some o) :
    o.state = .off ∧ o.portUp = 0 ∧ o.laneLock = 0 := by
  obtain ⟨y, rfl⟩ := Tab.exists_of_get?_mapVals (t := u.ports.octets) (f := fun _ => octetOff) h
  exact ⟨rfl, rfl, rfl⟩

theorem s4Flushed_held {u : State} {k : Nat} {x : Hopper} (h : Tab.get? (s4Flushed u).hop.hoppers k = some x) : x.held = [] := by
  obtain ⟨y, rfl⟩ := Tab.exists_of_get?_mapVals (t := u.hop.hoppers) (f := fun _ => hopperLost) h
  rfl

theorem s4Restart_resets (h : s.cel.s4Done = true) :
    exec .s4Restart s = .next (chipReset { s with cel := { s.cel with warn := false } }) := next_congr (if_pos h)

theorem s4Restart_idle (h : s.cel.s4Done = false) : exec .s4Restart s = .next s :=
  next_congr (if_neg (by simp [h]))

/-! ## Main power and the cellar's supply (R452 to R454, R463, R464) -/

theorem mainPowerLoss_again (h : s.cel.mainPower = false) (b : Bool) : exec (.mainPowerLoss b) s = .next s := if_pos (by simp [h])

/-- The cellar alone, on VBAT, out of the state in which main power was lost. -/
def cellarOnly (s : State) : State :=
  let t := chipReset s
  { t with
    reg := { t.reg with dev := .cellarOnly }
    mirror := { t.mirror with hbOut := false }
    cel := { t.cel with mainPower := false, onVbat := true, ranVbat := true, warn := false } }

/-- A loss of power leaves the cellar as it is; one that was not warned of can tear an OTP group. -/
theorem mainPowerLoss_cellarOnly (h : s.cel.mainPower = true) (b : Bool) :
    ∃ u, exec (.mainPowerLoss b) s = .next (cellarOnly u) ∧ u.cel = s.cel ∧ (b = true → u = s) := by
  refine ⟨_, if_neg (by simp [h]), ?_, fun hb => if_neg (by simp [hb])⟩
  split <;> rfl

theorem mainPowerReturn_resets (h : s.cel.mainPower = false) :
    exec .mainPowerReturn s = .next (chipReset { s with cel := { s.cel with mainPower := true } }) := if_neg (by simp [h])

theorem mainPowerReturn_idle (h : s.cel.mainPower = true) : exec .mainPowerReturn s = .next s := if_pos h

theorem celVbatLow_unpowered (h : s.cel.mainPower = false) : exec .celVbatLow s = .next s := if_pos (by simp [h])

theorem celVbatLow_reports (h : s.cel.mainPower = true) :
    ∃ mv : BitVec 12, mv.toNat < 2600 ∧
      exec .celVbatLow s = .next (reportSrc { s with cel := { s.cel with vbatLow := s.cel.vbatLow.hit, vbatMv := mv } } 0x043) := by
  refine ⟨_, ?_, if_neg (by simp [h])⟩
  have hlt := Nat.mod_lt (Config.freeNat 161 [s.sec]) (show 0 < 2600 by decide)
  rw [BitVec.toNat_ofNat, Nat.mod_eq_of_lt (by omega)]
  exact hlt

theorem celXtalFail_again (h : s.cel.xtalOk = false) : exec .celXtalFail s = .next s := if_pos (by simp [h])

theorem celXtalFail_fails (h : s.cel.xtalOk = true) :
    exec .celXtalFail s =
      let t := { s with cel := { s.cel with xtalOk := false, xtalFail := s.cel.xtalFail.hit } }
      .next (if s.cel.mainPower then reportSrc t 0x044 else t) := if_neg (by simp [h])

/-! ## Clocks (R455 to R457, R465) -/

theorem pllUnlock_idle (h : pllIdle s n = true) : exec (.pllUnlock n) s = .next s := if_pos h

section
variable (h : pllIdle s n = false)
include h

theorem pllUnlock_chipReset (hr : resets s 0x041 = true) :
    exec (.pllUnlock n) s = .next (reportSrc s 0x041 0xFF (BitVec.ofNat 32 n)) := (if_neg (by simp [h])).trans (if_pos hr)

theorem pllUnlock_acts (hr : resets s 0x041 = false) :
    exec (.pllUnlock n) s = .next (pllEffect (reportSrc s 0x041 0xFF (BitVec.ofNat 32 n)) n) :=
  (if_neg (by simp [h])).trans (if_neg (by simp [hr]))

end

theorem pllEffect_infrastructure (h : 5 ≤ n) : pllEffect s n = chipReset s := if_pos h

theorem pllEffect_engine (h : n < 5) : pllEffect s n = pllLost s n := if_neg (Nat.not_le.mpr h)

theorem pllRelock_stopped (h : 4 ≤ s.cel.stage) : exec (.pllRelock n) s = .next s := if_pos h

theorem pllRelock_relocks (h : s.cel.stage < 4) :
    exec (.pllRelock n) s = .next (servePages { s with
      hop := { s.hop with slips := Tab.mapVals s.hop.slips fun _ sl => if sl.pllWait = some n then { sl with pllWait := none } else sl }
      cel := { s.cel with unlocked := s.cel.unlocked.filter (· != n) } }) := if_neg (Nat.not_le.mpr h)

theorem refclkLoss_reports (h : resets s 0x042 = true ∨ 7 < n) :
    exec (.refclkLoss n) s = .next (reportSrc s 0x042 0xFF (BitVec.ofNat 32 n)) := if_pos h

theorem refclkLoss_downs (hr : resets s 0x042 = false) (hn : n ≤ 7) :
    exec (.refclkLoss n) s =
      .next (((List.range 64).map (64 * n + ·)).foldl portDown (reportSrc s 0x042 0xFF (BitVec.ofNat 32 n))) :=
  if_neg (by simp [hr, hn])

end

end Sys2Proof.Machine

open Sys2Proof Sys2Proof.Machine

/-- Settles O56: the stage in force, main power and the boot's stage decide what a condition does; what a loss of power leaves is a
chip reset that keeps the cellar. -/
theorem powerAndShedStagesTakeEffect : Obligations.PowerAndShedStagesTakeEffect := by
  unfold Obligations.PowerAndShedStagesTakeEffect
  intro s n cause c
  refine ⟨?unpowered, ?booting, ⟨rfl, rfl⟩, ?ready, enterStage_inForce, fun h0 hb h1 _ => enterStage_enters h0 hb h1,
    shedStageExit_idle, ?leave, ?leave3, s4Abandon_idle, s4Abandon_ends, s4FlushDone_idle,
    fun h4 ha hd => ⟨_, s4FlushDone_ends h4 ha hd, rfl, rfl, rfl, rfl, rfl, rfl, fun k o => s4Flushed_octets, fun k x => s4Flushed_held⟩,
    s4Restart_resets,
    s4Restart_idle, fun b h => mainPowerLoss_again h b, ?loss, mainPowerReturn_resets, mainPowerReturn_idle, rfl, rfl,
    celVbatLow_unpowered, celVbatLow_reports, celXtalFail_again, ?xtal, rfl, pllUnlock_idle, ?unlock, pllRelock_stopped,
    pllRelock_relocks, refclkLoss_reports, refclkLoss_downs⟩
  case unpowered =>
    intro h
    have hs := fun k => (shed_unpowered h k cause)
    exact ⟨next_congr (hs 1), next_congr (hs 2), next_congr (hs 3), next_congr (hs 4)⟩
  case booting =>
    intro h hb
    have hs := fun k => (shed_booting h hb k cause)
    exact ⟨next_congr (hs 1), next_congr (hs 2), next_congr (hs 3), next_congr (hs 4)⟩
  case ready =>
    intro h hb e1 e2 e3
    have hs := fun k => (shed_ready h hb k cause)
    exact ⟨next_congr (hs 1), next_congr (hs 2), next_congr (hs 3), next_congr (hs 4)⟩
  case leave =>
    intro (h : s.cel.stage = 1 ∨ s.cel.stage = 2)
    refine (shedStageExit_leaves (by omega) (by omega)).trans ?_
    dsimp only
    rw [if_neg (by omega)]
    rfl
  case leave3 =>
    intro (h : s.cel.stage = 3)
    refine (shedStageExit_leaves (by omega) (by omega)).trans ?_
    have hbelow : celBelow s.cel = { c with stage := 2, warn := c.warn && !(bit c.cause 0) && true, cause := c.cause } := by
      simp [celBelow, h, c]
    dsimp only
    rw [if_pos h, hbelow, h]
  case loss =>
    intro b h
    obtain ⟨u, hu, hcel, hb⟩ := mainPowerLoss_cellarOnly h b
    refine ⟨_, hu, rfl, rfl, rfl, rfl, rfl, rfl, (congrArg Cellar.devSec hcel :), (congrArg Cellar.cellarKey hcel :), fun hw => ?_⟩
    rw [hb hw]
    rfl
  case xtal =>
    intro h t
    exact ⟨fun hm => (celXtalFail_fails h).trans (next_congr (if_pos hm)),
      fun hm => (celXtalFail_fails h).trans (next_congr (if_neg (by simp [show s.cel.mainPower = false from hm])))⟩
  case unlock =>
    intro h t
    exact ⟨pllUnlock_chipReset h, fun hr h5 => (pllUnlock_acts h hr).trans (next_congr (pllEffect_infrastructure h5)),
      fun hr h5 => (pllUnlock_acts h hr).trans (next_congr (pllEffect_engine h5))⟩
end

section
/-!
SUPPORT. Tamper response, life-cycle transitions and debug grants (R472 to R493, R540).
-/

namespace Sys2Proof.Machine

section
variable {s t : State} {fn n : Nat} {p host : Bytes}

/-! ## What the ends of sessions and the answers to commands leave alone -/

/-- From `s` to `t` only the mailboxes, the pages and the messages sent have changed. -/
def OnlySessions (s t : State) : Prop :=
  t = { s with reg := { s.reg with mbx := t.reg.mbx }, pipes := t.pipes, out := t.out }

theorem OnlySessions.trans {u : State} (h : OnlySessions s t) (h' : OnlySessions t u) : OnlySessions s u := by
  unfold OnlySessions at *
  rw [h', h]

theorem endSession_only (s : State) (fn cause : Nat) : OnlySessions s (endSession s fn cause) := by
  unfold endSession
  split
  · rfl
  · refine OnlySessions.trans (t := closeSession s fn) rfl ?_
    rw [sessionEvent, OnlySessions, queueEvent_only (closeSession s fn)]

theorem endSessions_only (s : State) (cause : Nat) : OnlySessions s (endSessions s cause) := by
  unfold endSessions
  generalize Tab.keys s.reg.mbx = l
  induction l generalizing s with
  | nil => rfl
  | cons f l ih => exact (endSession_only s f cause).trans (ih _)

theorem respond_only (s : State) (fn : Nat) (a : Ans) : OnlyCollector s (respond s fn a) := by
  unfold respond
  extract_lets m dseq r s1 s2
  split
  · exact .refl s
  · exact (auditAppend_only s (mbxAudit fn m a dseq)).trans rfl

theorem answerWait_only (s : State) (fn : Nat) (w : MbxWait) (a : Ans) : OnlyCollector s (answerWait s fn w a) := by
  unfold answerWait
  split
  · exact respond_only ..
  · exact .refl s

/-- Forcing octets down or up moves nothing but the ports. -/
theorem forceOctets_only (s : State) : { forceOctets s with ports := s.ports } = s := by
  have hone : ∀ (t : State) (n : Nat), ({ forceOctet t n with ports := s.ports } : State) = { t with ports := s.ports } := by
    intro t n
    unfold forceOctet
    dsimp only
    split
    · rfl
    · split
      · split <;> rfl
      · split <;> rfl
  exact foldl_keeps (fun t => ({ t with ports := s.ports } : State)) hone (List.range 64) s

/-! ## The tamper response (R472 to R480, R540) -/

/-- What a detection on main power leaves: the cellar's key gone, the output asserted, the cause and the evidence recorded, the
fault log erased, the chip reset. -/
structure TamperAnswered (s t : State) (src detail : Nat) (inLimits : Bool) : Prop where
  cellarKey : t.cel.cellarKey = false
  outN : t.tmp.outN = true
  responded : t.tmp.responded = true
  cause : t.tmp.cause = BitVec.ofNat 64 (src % 256 + 2 ^ 8 * (detail % 256) + 2 ^ 24 * (s.sec % 2 ^ 40))
  evidence : t.tmp.evidence = if inLimits then min (s.tmp.evidence + 1) 1024 else s.tmp.evidence
  pendingEv : inLimits = false → t.tmp.pendingEv = true
  booting : t.reg.dev = .booting
  log : t.flt.log = []
  hop : t.hop = State.reset.hop
  slots : t.cat.slots = []

theorem assertOut_asserts (x : Tamper) (now : Nat) : (assertOut x now).outN = true := by
  unfold assertOut
  split
  · assumption
  · rfl

theorem assertOut_evidence (x : Tamper) (now : Nat) : (assertOut x now).evidence = x.evidence := by
  unfold assertOut; split <;> rfl

/-- The tamper unit once a detection has been answered. -/
def tamperRecord (s : State) (src detail : Nat) (inLimits : Bool) : Tamper :=
  let x := { assertOut s.tmp s.now with cause := tmpCause s src detail false, responded := true }
  if inLimits then addEvidence x else { x with pendingEv := true }

theorem tmpCause_powered (s : State) (src detail : Nat) :
    tmpCause s src detail false = BitVec.ofNat 64 (src % 256 + 2 ^ 8 * (detail % 256) + 2 ^ 24 * (s.sec % 2 ^ 40)) := by
  simp [tmpCause, b2n]

theorem tamperMain_answers (hr : s.tmp.responded = false) (src detail : Nat) (inLimits : Bool) :
    TamperAnswered s (tamperMain s src detail inLimits) src detail inLimits := by
  have hes := endSessions_only s 6
  have htmp : (tamperMain s src detail inLimits).tmp = (chipReset { s with tmp := tamperRecord s src detail inLimits }).tmp := by
    rw [tamperMain, if_neg (by simp [hr]), hes]; rfl
  rw [tamperMain, if_neg (by simp [hr])] at htmp ⊢
  refine ⟨rfl, ?_, ?_, ?_, ?_, fun hl => ?_, rfl, rfl, rfl, rfl⟩ <;> rw [htmp]
  · cases inLimits <;> exact assertOut_asserts ..
  · cases inLimits <;> rfl
  · cases inLimits <;> exact tmpCause_powered ..
  · cases inLimits
    · exact assertOut_evidence ..
    · exact congrArg (fun k => min (k + 1) 1024) (assertOut_evidence ..)
  · rw [hl]; rfl

/-- What a detection on VBAT leaves (R477). -/
def tamperedOnVbat (s : State) (src detail : Nat) : State :=
  { s with
    tmp := { assertOut s.tmp s.now with cause := tmpCause s src detail true, responded := true, pendingEv := true }
    cel := { s.cel with cellarKey := false } }

section
variable (ha : s.tmp.lcs ≠ .blank) (hp : s.cel.mainPower = true)
include ha

omit hp in
theorem armed_of : armed s = true := by simp [armed, ha]

include hp

theorem tmpShield_main (n : Nat) : exec (.tmpShield n) s = .next (tamperMain s 0x080 n true) :=
  (if_neg (by simp [armed_of ha])).trans (next_congr (if_pos hp))

theorem tmpTemp_main (n : Nat) : exec (.tmpTemp n) s = .next (tamperMain s 0x083 n false) :=
  next_congr (if_pos (by simp [armed_of ha, hp]))

theorem tmpClock_main (n : Nat) : exec (.tmpClock n) s = .next (tamperMain s 0x084 n true) :=
  next_congr (if_pos (by simp [armed_of ha, hp]))

theorem tmpGlitch_main (n : Nat) : exec (.tmpGlitch n) s = .next (tamperMain s 0x085 n true) :=
  next_congr (if_pos (by simp [armed_of ha, hp]))

theorem tmpRail_main (h : n.testBit 8 = true ∨ mayFall s = false) : exec (.tmpRail n) s = .next (tamperMain s 0x082 n false) :=
  next_congr (if_pos (by rcases h with h | h <;> simp [armed_of ha, hp, h]))

end

theorem tmpRail_falling (h8 : n.testBit 8 = false) (hf : mayFall s = true) : exec (.tmpRail n) s = .next s :=
  next_congr (if_neg (by simp [h8, hf]))

theorem tmpLoop_main (hl : loopLive s n = true) (hp : s.cel.mainPower = true) :
    exec (.tmpLoop n) s = .next (tamperMain s 0x081 n true) := (if_neg (by simp [hl])).trans (next_congr (if_pos hp))

section
variable (hp : s.cel.mainPower = false) (hr : s.tmp.responded = false)
include hp hr

theorem tmpShield_vbat (ha : s.tmp.lcs ≠ .blank) (n : Nat) : exec (.tmpShield n) s = .next (tamperedOnVbat s 0x080 n) :=
  (if_neg (by simp [armed_of ha])).trans (next_congr ((if_neg (by simp [hp])).trans (if_neg (by simp [hr]))))

theorem tmpLoop_vbat (hl : loopLive s n = true) : exec (.tmpLoop n) s = .next (tamperedOnVbat s 0x081 n) :=
  (if_neg (by simp [hl])).trans (next_congr ((if_neg (by simp [hp])).trans (if_neg (by simp [hr]))))

end

theorem tmpShield_blank (h : s.tmp.lcs = .blank) (n : Nat) : exec (.tmpShield n) s = .next s := if_pos (by simp [armed, h])

theorem tmpLoop_dead (h : loopLive s n = false) : exec (.tmpLoop n) s = .next s := if_pos (by simp [h])

/-! ## The shield's streams and the output (R473, R476) -/

theorem shieldReseed_reseeds (hp : s.cel.mainPower = true) (he : s.ent.state = .ready) (hl : (drbg s 0).live = true)
    (hd : reseedDue s 0 = false) :
    ∃ t, exec .shieldReseed s = .next t ∧ t.tmp.reseeds = s.tmp.reseeds + 1 ∧ (drbg t 0).requests = (drbg s 0).requests + 1 := by
  have hdue : (drbg s 0).reseedDue = false := by
    simp only [reseedDue, Bool.or_eq_false_iff] at hd
    exact hd.1.1
  refine ⟨{ setDrbg s 0 { drbg s 0 with requests := (drbg s 0).requests + 1 } with
    tmp := { s.tmp with reseeds := s.tmp.reseeds + 1 } }, ?_, rfl, ?_⟩
  · refine (if_neg (by simp [hp, he, hl])).trans ?_
    simp only [hd, Bool.false_eq_true, if_false, hdue]
    rfl
  · exact congrArg Drbg.requests (drbg_setDrbg_self s 0 _)

theorem shieldReseed_unpowered (h : s.cel.mainPower = false) : exec .shieldReseed s = .next s := if_pos (.inl h)

theorem tamperOutRelease_releases (ho : s.tmp.outN = true) (hr : s.tmp.responded = false) (hb : 6 ≤ s.boot.stage)
    (ht : 125000000 ≤ s.now - s.tmp.outSince) :
    exec .tamperOutRelease s = .next { s with tmp := { s.tmp with outN := false } } := if_pos ⟨ho, hr, hb, ht⟩

theorem tamperOutRelease_early (ht : s.now - s.tmp.outSince < 125000000) : exec .tamperOutRelease s = .next s :=
  if_neg fun ⟨_, _, _, h⟩ => absurd h (Nat.not_le.mpr ht)

/-! ## Life-cycle transitions (R485, R486) -/

/-- The measurements that `LCS_TRANSITION` takes of the supply and the die. -/
def measured (s : State) (mv : BitVec 12) (temp : BitVec 8) : State :=
  { s with cel := { s.cel with vbatMv := mv }, boot := { s.boot with dieTemp := temp } }

theorem Issued.measured {code : Nat} {role : Role} (h : Issued s fn code role p) (mv : BitVec 12) (temp : BitVec 8) :
    Issued (measured s mv temp) fn code role p := h

section
variable {x : Lcs} {mv : BitVec 12} {temp : BitVec 8}
  (hi : Issued s fn 0x0110 .o p) (hl : p.length = 20) (hv : field p 1 1 < 2) (hz : field p 3 1 = 0)
  (hx : lcsOf (field p 0 1) = some x)
include hi hl hv hz hx

omit hx in
theorem lcsTransition_passes : Passes (measured s mv temp) fn
    { code := 0x0110, role := .o, lenOk := lenIs 20, rsvOk := fun p => decide (field p 1 1 < 2) && field p 3 1 == 0
      returned := true, s23 := false } p :=
  ⟨hi.measured mv temp, beq_iff_eq.mpr hl, by simp only [hv, hz, decide_true]; rfl, rfl⟩

theorem lcsTransition_rejected (ha : lcsAccepts s x = false) (ok : Bool) :
    AnswersIn (accept (measured s mv temp) fn) fn (lcsRejected s) (exec (.lcsTransition fn ok mv temp) s) := by
  have ha' : lcsAccepts (accept (measured s mv temp) fn) x = false := ha
  refine (lcsTransition_passes hi hl hv hz).answers ?_
  rw [hx]
  exact if_pos (by rw [ha']; rfl)

/-- The tamper unit with a transition to `x` begun by `fn`. -/
def lcsBegun (t : Tamper) (fn : Nat) (p : Bytes) (x : Lcs) : Tamper :=
  { t with
    busy := true, lcsTarget := some x, groups := lcsCode x - lcsCode t.lcs, lcsFn := some fn, halted := false
    loopMask := if x = .service then BitVec.ofNat 8 (field p 2 1) else t.loopMask }

theorem lcsTransition_begins (hb : s.tmp.busy = false)
    (hc : ∀ q ∈ s.carrels, q.1 = 0 ∨ (q.2.st ≠ .active ∧ q.2.st ≠ .quiescing)) (hmv : 2600 ≤ mv.toNat)
    (hw : s.cel.warn = false) (h0 : 0 ≤ temp.toInt) (h85 : temp.toInt ≤ 85)
    (hconf : x = .returned ∨ x = .scrap → bit (field p 1 1) 0 = true) (hs : slice p 4 16 = fit 16 s.reg.serial)
    (ha : lcsAccepts s x = true) :
    WaitsIn { accept (measured s mv temp) fn with tmp := lcsBegun s.tmp fn p x } fn .lcs
      (exec (.lcsTransition fn true mv temp) s) := by
  have ha' : lcsAccepts (accept (measured s mv temp) fn) x = true := ha
  have hb' : (accept (measured s mv temp) fn).tmp.busy = false := hb
  have hbusy : busyCarrel (accept (measured s mv temp) fn) = none := by
    rw [busyCarrel, Option.map_eq_none_iff, List.find?_eq_none]
    intro q hq
    rcases hc q hq with h | ⟨h1, h2⟩ <;> simp [*]
  have hstage : s.cel.stage = 0 := by
    obtain ⟨-, -, -, -, -, -, -, -, -, h, -⟩ := hi
    exact h
  have hmargin : lcsMargins (accept (measured s mv temp) fn) true = 0 := by
    change b2n (!true) + 2 * b2n (decide (mv.toNat < 2600)) + 4 * b2n (s.cel.warn || s.cel.stage != 0) +
      8 * b2n (decide (temp.toInt < 0) || decide (85 < temp.toInt)) = 0
    rw [hw, hstage, decide_eq_false (Nat.not_lt.mpr hmv), decide_eq_false (not_lt.mpr h0), decide_eq_false (not_lt.mpr h85)]
    rfl
  refine (lcsTransition_passes hi hl hv hz).waits ?_
  simp only [hx, ha', hb', hbusy, hmargin]
  refine (if_neg (by decide)).trans ((if_neg (by decide)).trans ((if_neg ?_).trans rfl))
  rintro (⟨hx', hbit⟩ | hne)
  · rw [hconf hx'] at hbit
    exact absurd hbit (by decide)
  · exact hne hs

end

theorem lcsGroupDone_idle (h : s.tmp.busy = false) : exec .lcsGroupDone s = .next s := if_pos (.inl h)

section
variable (hb : s.tmp.busy = true)
include hb

theorem lcsGroupDone_goesOn (hg : 2 ≤ s.tmp.groups) (hh : s.tmp.halted = false) (hw : s.cel.warn = false) :
    ∃ t, exec .lcsGroupDone s = .next t ∧ t.tmp.lcs = lcsNext s.tmp.lcs ∧ t.tmp.groups = s.tmp.groups - 1 ∧ t.tmp.busy = true ∧
      t = { s with tmp := t.tmp } := by
  refine ⟨_, (if_neg (by simp [hb]; omega)).trans (if_pos ⟨?_, hh, hw⟩), rfl, rfl, hb, rfl⟩
  change s.tmp.groups - 1 ≠ 0
  omega

theorem lcsGroupDone_ends (hg : s.tmp.groups = 1) (hf : s.tmp.lcsFn ≠ none) :
    ∃ t, exec .lcsGroupDone s = .next t ∧ t.tmp.lcs = lcsNext s.tmp.lcs ∧ t.tmp.busy = false ∧ t.reg.dev = .booting := by
  obtain ⟨f, hf⟩ := Option.ne_none_iff_exists'.mp hf
  have hlast : s.tmp.groups - 1 = 0 := by omega
  refine ⟨_, (if_neg (by simp [hb, hg])).trans ((if_neg fun h => h.1 hlast).trans (by simp only [hf]; rfl)), ?_, ?_, rfl⟩
  · change (endSessions (answerWait _ f _ _) 6).tmp.lcs = _
    rw [endSessions_only (answerWait _ f _ _), answerWait_only]
  · change (endSessions (answerWait _ f _ _) 6).tmp.busy = _
    rw [endSessions_only (answerWait _ f _ _), answerWait_only]

end

/-! ## Debug grants (R489 to R493) -/

theorem dbgNonce_answers {q : Bytes} (hi : Issued s fn 0x0810 .d p) (hp : p = []) (hn : nonApprovedHere s fn = false)
    (he : s.ent.state = .ready) (hr : sysRequest (accept s fn) 32 = (t, some q)) :
    AnswersIn { t with tmp := { t.tmp with nonce := some (q, t.now), nonceUsed := false } } fn { payload := q }
      (exec (.dbgNonce fn) s) :=
  Passes.answers ⟨hi, by rw [hp]; rfl, rfl, rfl⟩ ((if_neg (by change ¬ nonApprovedHere s fn = true; simp [hn])).trans
    (withRandom_ready (s := accept s fn) he hr))

/-- The grant that `DBG_GRANT` reads. -/
def grantRead (p host : Bytes) : Bytes := fit (field p 8 4) host

/-- The rights that a grant names. -/
def grantRights (b : Bytes) : BitVec 9 := BitVec.ofNat 9 (field b 56 8)

/-- The tamper unit with a grant in force. -/
def granting (s : State) (b : Bytes) : State :=
  { s with tmp := { s.tmp with
    rights := grantRights b, grantActive := true, expiry := BitVec.ofNat 64 (s.sec + field b 64 4), nonceUsed := true } }

section
variable (hi : Issued s fn 0x0811 .d p) (hl : p.length = 13) (hv : field p 12 1 < 2) (hn : nonApprovedHere s fn = false)
include hi hl hv hn

omit hn in
theorem dbgGrant_passes : Passes s fn
    { code := 0x0811, role := .d, lenOk := lenIs 13, rsvOk := fun p => decide (field p 12 1 < 2), returned := true } p :=
  ⟨hi, beq_iff_eq.mpr hl, decide_eq_true hv, rfl⟩

theorem dbgGrant_malformed (hf : grantFormatOk s (grantRead p host) = false) :
    AnswersIn (accept s fn) fn { status := 0x0101 } (exec (.dbgGrant fn host) s) := by
  have hn' : nonApprovedHere (accept s fn) fn = false := hn
  have hf' : grantFormatOk (accept s fn) (grantRead p host) = false := hf
  exact (dbgGrant_passes hi hl hv).answers ((if_neg (by simp [hn'])).trans (if_pos (by rw [← grantRead, hf']; rfl)))

theorem dbgGrant_grants (hf : grantFormatOk s (grantRead p host) = true) (hq : grantNonceOk s (grantRead p host) = true)
    (hg : grantSigOk s (grantRead p host) = true) (hlc : s.tmp.lcs = .provisioned ∨ s.tmp.lcs = .service)
    (hr : reaching (grantRights (grantRead p host)) = false) :
    AnswersIn (forceOctets (granting (accept s fn) (grantRead p host))) fn
      { payload := le 8 (grantRights (grantRead p host)).toNat ++ le 8 (s.sec + field (grantRead p host) 64 4) }
      (exec (.dbgGrant fn host) s) := by
  have hn' : nonApprovedHere (accept s fn) fn = false := hn
  have hf' : grantFormatOk (accept s fn) (grantRead p host) = true := hf
  have hq' : grantNonceOk (accept s fn) (grantRead p host) = true := hq
  have hg' : grantSigOk (accept s fn) (grantRead p host) = true := hg
  have hlive : ((accept s fn).tmp.lcs == .provisioned || (accept s fn).tmp.lcs == .service ||
      (accept s fn).tmp.lcs == .returned) = true := by
    rcases hlc with h | h <;> simp [h]
  refine (dbgGrant_passes hi hl hv).answers ?_
  dsimp only
  rw [← grantRead, ← grantRights]
  simp only [hn', hf', hq', hg', hlive, hr]
  simp only [Bool.false_and, Bool.false_eq_true, Bool.not_true, if_false, applyGrant]
  rw [← grantRights, hr]
  rfl

end

theorem dbgEnd_ends (hi : Issued s fn 0x0812 .od p) (hp : p = []) (hn : nonApprovedHere s fn = false) :
    exec (.dbgEnd fn) s = .next (endGrant (respond (accept s fn) fn {})) :=
  Passes.answersThen ⟨hi, by rw [hp]; rfl, rfl, rfl⟩ (if_neg (by change ¬ nonApprovedHere s fn = true; simp [hn]))

/-! ## The end of a grant (R493) -/

theorem grantExpiry_inactive (h : s.tmp.grantActive = false) : exec .grantExpiry s = .next s := next_congr (if_neg (by simp [h]))

section
variable (ha : s.tmp.grantActive = true)
include ha

theorem grantExpiry_expires (he : s.tmp.expiry.toNat ≤ s.sec) : exec .grantExpiry s = .next (endGrant s) :=
  next_congr (if_pos (by simp [ha, he]))

/-- The grant's rights and its trace records gone. -/
def grantGone (s : State) : State :=
  { s with
    tmp := { s.tmp with grantActive := false, rights := 0, expiry := 0 }
    tuns := { s.tuns with tuns := Tab.mapVals s.tuns.tuns fun _ x => { x with trace := [] } } }

theorem endGrant_eq :
    endGrant s = if reaching s.tmp.rights then chipReset (grantGone s) else forceOctets (grantGone s) := if_neg (by simp [ha])

omit ha in
theorem grantGone_trace (s : State) (i : Nat) : ((grantGone s).tun i).trace = [] := by
  simp only [State.tun, grantGone, Tab.getD, Tab.get?_mapVals]
  cases Tab.get? s.tuns.tuns i <;> rfl

theorem endGrant_soft (hr : reaching s.tmp.rights = false) :
    (endGrant s).tmp.grantActive = false ∧ (endGrant s).tmp.rights = 0 ∧ (endGrant s).cat = s.cat ∧
      ∀ i, ((endGrant s).tun i).trace = [] := by
  have heq : endGrant s = forceOctets (grantGone s) := (endGrant_eq ha).trans (if_neg (by simp [hr]))
  have hfr := forceOctets_only (grantGone s)
  rw [heq]
  generalize forceOctets (grantGone s) = u at hfr ⊢
  exact ⟨congrArg (·.tmp.grantActive) hfr, congrArg (·.tmp.rights) hfr, congrArg (·.cat) hfr,
    fun i => (congrArg (fun u => (State.tun u i).trace) hfr).trans (grantGone_trace s i)⟩

theorem endGrant_hard (hr : reaching s.tmp.rights = true) :
    (endGrant s).reg.dev = .booting ∧ (endGrant s).tmp.grantActive = false := by
  rw [(endGrant_eq ha).trans (if_pos hr)]
  exact ⟨rfl, rfl⟩

end

end

end Sys2Proof.Machine

open Sys2Proof Sys2Proof.Machine

/-- Settles O46: a detection is recorded before the chip resets; a transition and a grant pass the checks that their state meets,
and the sessions that end with them leave the tamper unit alone. -/
theorem tamperAndLifeCycleTakeEffect : Obligations.TamperAndLifeCycleTakeEffect := by
  unfold Obligations.TamperAndLifeCycleTakeEffect
  intro s fn n p host r is fires onVbat b rights debug
  have hfires : ∀ {i src detail lim}, (s.tmp.lcs ≠ .blank → s.cel.mainPower = true →
      exec i s = .next (tamperMain s src detail lim)) → fires i src detail lim := by
    intro i src detail lim h ha hp hr
    have y := tamperMain_answers hr src detail lim
    exact ⟨_, h ha hp, y.cellarKey, y.outN, y.responded, y.cause, y.evidence, y.pendingEv, y.booting, y.log, y.hop, y.slots⟩
  refine ⟨hfires fun ha hp => tmpShield_main ha hp n, fun hl => hfires fun _ hp => tmpLoop_main hl hp, ?rail, ?falling,
    hfires fun ha hp => tmpTemp_main ha hp n, hfires fun ha hp => tmpClock_main ha hp n,
    hfires fun ha hp => tmpGlitch_main ha hp n, fun ha hp hr => tmpShield_vbat hp hr ha n, fun hl _ hp hr => tmpLoop_vbat hp hr hl,
    fun h => tmpShield_blank h n, tmpLoop_dead, shieldReseed_reseeds, shieldReseed_unpowered, tamperOutRelease_releases,
    tamperOutRelease_early, ?begins, ?rejected, lcsGroupDone_goesOn, lcsGroupDone_ends, lcsGroupDone_idle,
    fun t q hi hp hn he hr => dbgNonce_answers hi hp hn he hr, fun ⟨hi, hl, hv, hn⟩ => dbgGrant_malformed hi hl hv hn,
    fun ⟨hi, hl, hv, hn⟩ => dbgGrant_grants hi hl hv hn, dbgEnd_ends, ?soft, ?hard, grantExpiry_inactive⟩
  case rail =>
    intro h
    refine hfires fun ha hp => tmpRail_main ha hp ?_
    rcases h with ⟨h1, h2⟩ | ⟨hd, hs⟩
    · exact .inl (by rw [Nat.testBit_eq_decide_div_mod_eq]; simp; omega)
    · exact .inr (by simp [mayFall, hd, hs])
  case falling =>
    intro hn hf
    refine tmpRail_falling (Nat.testBit_lt_two_pow hn) ?_
    rcases hf with h | h <;> simp [mayFall, h]
  case begins =>
    intro t mv temp hi hl hv hz hx hb hc hmv hw h0 h85 hconf hs ha
    exact ⟨_, lcsTransition_begins hi hl hv hz hx hb hc hmv hw h0 h85 hconf hs ha, rfl, rfl, rfl, rfl,
      congrArg Mbx.wait (State.setMbx_mbx_self ..)⟩
  case rejected =>
    intro t mv temp ok hi hl hv hz hx ha
    have hbusy : ((accept (measured s mv temp) fn).mbx fn).busy = true := by
      have hc : canServe (measured s mv temp) fn = true := (hi.measured mv temp).serves
      simp only [canServe, Bool.and_eq_true] at hc
      obtain ⟨⟨⟨⟨⟨hb, -⟩, -⟩, -⟩, -⟩, -⟩ := hc
      exact (accept_busy ..).trans hb
    refine ⟨_, lcsTransition_rejected hi hl hv hz hx ha ok, ?_, ?_, ?_⟩
    · rw [respond_only]; rfl
    · rw [respond_mbx hbusy]
    · rw [respond_mbx hbusy]
      have hd : ((accept (measured s mv temp) fn).mbx fn).lastDseq = (s.mbx fn).lastDseq :=
        (congrArg Mbx.lastDseq (State.setMbx_mbx_self ..)).trans rfl
      dsimp only
      rw [hd]
      rfl
  case soft =>
    intro ha he hr
    exact ⟨_, grantExpiry_expires ha he, endGrant_soft ha hr⟩
  case hard =>
    intro ha he hr
    exact ⟨_, grantExpiry_expires ha he, endGrant_hard ha hr⟩
end

section
/-!
SUPPORT. Folio's slots: insertion, identification, mounting, reconciliation, records and anchors (R496 to R508, R513, R240).
-/

namespace Sys2Proof.Machine

section
variable {s : State} {n : Nat}

/-! ## Insertion and removal (R499, R513) -/

theorem cartridgeInsert_ignored (h : 4 ≤ n ∨ (s.folSlot n).present = true) : exec (.cartridgeInsert n) s = .next s := if_pos h

theorem cartridgeInsert_identifies (hn : n < 4) (hp : (s.folSlot n).present = false) :
    exec (.cartridgeInsert n) s = .next ((s.setFolSlot n { s.folSlot n with
      state := .identifying, present := true, inserted := (s.folSlot n).inserted.hit, insertedAt := s.now, polls := 0, records := []
      highSeq := 0, anchorHigh := 0, anchorAt := none, tenure := 0, stale := false, adopt := false }).send (.folioCmd n 0)) :=
  if_neg (by simp [hp, hn])

theorem cartridgeRemove_ignored (h : 4 ≤ n ∨ (s.folSlot n).present = false) : exec (.cartridgeRemove n) s = .next s := if_pos h

/-- The slot without its cartridge. -/
def slotEmptied (s : State) (n : Nat) : State :=
  s.setFolSlot n
    { inserted := (s.folSlot n).inserted, removed := (s.folSlot n).removed.hit, ioErr := (s.folSlot n).ioErr }

section
variable (hn : n < 4) (hp : (s.folSlot n).present = true)
include hn hp

theorem cartridgeRemove_anchoring (ha : (s.folSlot n).anchoring = true) :
    exec (.cartridgeRemove n) s = .next (settleQueue (folEvent (reportSrc (slotEmptied s n) 0x1F3 0xFF 0xFFFF_FFFF#32) n 2)) := by
  refine (if_neg (by simp [hp, hn])).trans (next_congr ?_)
  rw [if_pos ha]
  rfl

theorem cartridgeRemove_idle (ha : (s.folSlot n).anchoring = false) (hw : (s.folSlot n).writing = none) :
    exec (.cartridgeRemove n) s = .next (settleQueue (folEvent (slotEmptied s n) n 2)) := by
  refine (if_neg (by simp [hp, hn])).trans (next_congr ?_)
  rw [if_neg (by simp [ha]), if_neg (by simp [hw])]
  rfl

end

/-! ## Identification (R496) -/

theorem cmd1Poll_ignored (h : (s.folSlot n).state ≠ .identifying) (ready : Bool) : exec (.cmd1Poll n ready) s = .next s := if_pos h

section
variable (h : (s.folSlot n).state = .identifying)
include h

theorem cmd1Poll_ready : exec (.cmd1Poll n true) s = .next (s.send (.folioCmd n 1)) := (if_neg (not_not.mpr h)).trans (if_pos rfl)

theorem cmd1Poll_again (hp : (s.folSlot n).polls < 99) :
    exec (.cmd1Poll n false) s =
      .next ((s.send (.folioCmd n 1)).setFolSlot n { s.folSlot n with polls := (s.folSlot n).polls + 1 }) :=
  (if_neg (not_not.mpr h)).trans ((if_neg Bool.false_ne_true).trans (if_neg (by omega)))

theorem cmd1Poll_fails (hp : 99 ≤ (s.folSlot n).polls) :
    exec (.cmd1Poll n false) s = .next (idFails (s.send (.folioCmd n 1)) n 2) :=
  (if_neg (not_not.mpr h)).trans ((if_neg Bool.false_ne_true).trans (if_pos (by omega)))

end

/-! ## Mounting (R502, R505) -/

theorem mount_ignored (x : MountInfo) (h : (s.folSlot n).state ≠ .identifying ∨ s.boot.stage < 8) :
    exec (.mount n x) s = .next s := if_pos h

/-- The slot with what mounting has read of its cartridge, before its anchor is judged. -/
def mountedSlot (f : FolSlot) (x : MountInfo) : FolSlot :=
  { f with
    capacity := x.secCount, rpmbCnt := BitVec.ofNat 32 x.counter, life := x.life, width := x.width
    timing := x.timing, tenure := 0, stale := false, adopt := false, anchorAt := none, anchoring := false }

/-- The slot with the cartridge's anchor. -/
def anchoredSlot (f : FolSlot) (x : MountInfo) : FolSlot := { mountedSlot f x with tenure := x.tenure, anchorHigh := x.highSeq }

/-- The records of a cartridge: those it held when it was last read, unless it is new here (log 82). -/
def journalOf (f : FolSlot) (x : MountInfo) : List FolRecord := if f.records = [] then x.records.map fromRaw else f.records

/-- The state in which an identified cartridge is judged. -/
def mounting (s : State) (n : Nat) (x : MountInfo) : State := s.setFolSlot n (mountedSlot (s.folSlot n) x)

section
variable {x : MountInfo} (h : (s.folSlot n).state = .identifying) (hb : 8 ≤ s.boot.stage)
include h hb

theorem mount_idFails (hx : x.idFail ≠ 0) : exec (.mount n x) s = .next (idFails (mounting s n x) n x.idFail) :=
  (if_neg (by simp [h, hb])).trans (if_pos hx)

variable (hx : x.idFail = 0)
include hx

theorem mount_small (hs : x.secCount.toNat < 67108864) : exec (.mount n x) s = .next (idFails (mounting s n x) n 4) :=
  (if_neg (by simp [h, hb])).trans ((if_neg (not_not.mpr hx)).trans (if_pos hs))

variable (hs : 67108864 ≤ x.secCount.toNat)
include hs

theorem mount_judged :
    exec (.mount n x) s = match x.rpmb with
      | .keyNotProgrammed =>
        if s.tmp.lcs = .factory ∨ s.tmp.lcs = .provisioned ∨ s.tmp.lcs = .service then
          .next (beginReconcile ((mounting s n x).setFolSlot n { mountedSlot (s.folSlot n) x with adopt := true, anchorHigh := 0 }) n [])
        else .next (folSettles (mounting s n x) n .foreign)
      | .macFails => .next (reportSrc (folSettles (mounting s n x) n .foreign) 0x1F6 0xFF (BitVec.ofNat 32 n))
      | .ok => match classify s x with
        | .current => .next (beginReconcile ((mounting s n x).setFolSlot n
            { anchoredSlot (s.folSlot n) x with adopt := x.ancSlot != n }) n (journalOf (s.folSlot n) x))
        | .shadowLost => .next (beginReconcile
            ((ledgerRaise (mounting s n x) (288 + x.ancSlot) (x.tenure * 2 ^ 32 + x.counter)).setFolSlot n
              { anchoredSlot (s.folSlot n) x with adopt := x.ancSlot != n }) n (journalOf (s.folSlot n) x))
        | .stale => .next (reportSrc (beginReconcile ((mounting s n x).setFolSlot n
            { anchoredSlot (s.folSlot n) x with stale := true, adopt := true }) n (journalOf (s.folSlot n) x))
            0x1F7 0xFF (BitVec.ofNat 32 n))
        | .inconsistent => .next (reportSrc (folSettles (mounting s n x) n .foreign) 0x1F9 0xFF (BitVec.ofNat 32 n)) := by
  have hrs : journalOf (s.folSlot n) x =
      if (mountedSlot (s.folSlot n) x).records.isEmpty then x.records.map fromRaw else (s.folSlot n).records := by
    rw [journalOf]
    exact ite_congr (propext (List.isEmpty_iff (l := (s.folSlot n).records)).symm) (fun _ => rfl) fun _ => rfl
  rw [hrs]
  refine (if_neg (by simp [h, hb])).trans ((if_neg (not_not.mpr hx)).trans ((if_neg (Nat.not_lt.mpr hs)).trans ?_))
  cases x.rpmb <;> rfl

end

/-! ## The classes (R505) -/

section
variable {x : MountInfo}

theorem classify_foreign (h : x.serial ≠ s.reg.serial) : classify s x = .inconsistent := if_pos (.inl h)

section
variable (h : x.serial = s.reg.serial) (h4 : x.ancSlot < 4)
include h h4

theorem classify_stale (ht : x.tenure < shadow s x.ancSlot / 2 ^ 32) : classify s x = .stale :=
  (if_neg (by simp [h, h4])).trans (if_pos ht)

theorem classify_ahead (ht : shadow s x.ancSlot / 2 ^ 32 < x.tenure) : classify s x = .inconsistent :=
  (if_neg (by simp [h, h4])).trans ((if_neg (by omega)).trans ((if_neg (by omega)).trans (if_neg (by omega))))

variable (ht : x.tenure = shadow s x.ancSlot / 2 ^ 32)
include ht

theorem classify_current (hc : x.counter = shadow s x.ancSlot % 2 ^ 32) : classify s x = .current :=
  (if_neg (by simp [h, h4])).trans ((if_neg (by omega)).trans (if_pos ⟨ht, hc⟩))

theorem classify_shadowLost (hc : x.counter = shadow s x.ancSlot % 2 ^ 32 + 1) : classify s x = .shadowLost :=
  (if_neg (by simp [h, h4])).trans ((if_neg (by omega)).trans ((if_neg (by omega)).trans (if_pos ⟨ht, hc⟩)))

theorem classify_inconsistent (h0 : x.counter ≠ shadow s x.ancSlot % 2 ^ 32) (h1 : x.counter ≠ shadow s x.ancSlot % 2 ^ 32 + 1) :
    classify s x = .inconsistent :=
  (if_neg (by simp [h, h4])).trans ((if_neg (by omega)).trans ((if_neg fun hc => h0 hc.2).trans (if_neg fun hc => h1 hc.2)))

end

end

/-! ## Reconciliation (R508) -/

theorem reconcileComplete_waits (h : (s.folSlot n).state ≠ .reconciling ∨ mayAdopt s (s.folSlot n) = false) :
    exec (.reconcileComplete n) s = .next s := if_pos h

section
variable (h : (s.folSlot n).state = .reconciling) (ha : mayAdopt s (s.folSlot n) = true)
include h ha

theorem reconcileComplete_worn (hw : worn (s.folSlot n) = true) :
    exec (.reconcileComplete n) s = .next (folSettles s n .readOnly) := (if_neg (by simp [h, ha])).trans (if_pos hw)

theorem reconcileComplete_mounts (hw : worn (s.folSlot n) = false) :
    let all := s.folio.queue.foldl (fun l r => insertRec r l) (archiveUnion s)
    let g := writeAll ((standing all).filter fun r => decide (highOf (s.folSlot n).records < r.seq)) (s.folSlot n)
    let h := { g with
      rpmbCnt := g.rpmbCnt + 1, anchorHigh := g.highSeq, anchorAt := some s.now
      tenure := if g.adopt then shadow s n / 2 ^ 32 + 1 else g.tenure, adopt := false, stale := false }
    exec (.reconcileComplete n) s =
      .next (settleQueue (folSettles (writeShadow ((s.send (.rpmbWrite n h.highSeq)).setFolSlot n h) n) n .mounted)) :=
  (if_neg (by simp [h, ha])).trans (if_neg (by simp [hw]))

end

/-! ## Records (R506) -/

theorem recordOnFolio_none (h : (s.folSlot n).writing = none) : exec (.recordOnFolio n) s = .next s := by
  change execRecordOnFolio n s = _
  simp only [execRecordOnFolio, h]

theorem recordOnFolio_whole {k : Nat} (h : (s.folSlot n).writing = some k) :
    let rs := (s.folSlot n).records.map fun r => if r.seq = k then { r with copyB := true } else r
    exec (.recordOnFolio n) s =
      .next (settleQueue (s.setFolSlot n { s.folSlot n with records := rs, writing := none, highSeq := highOf rs })) := by
  change execRecordOnFolio n s = _
  simp only [execRecordOnFolio, h]

theorem recordCopyADone_writes {r : FolRecord} (hm : (s.folSlot n).state = .mounted) (hw : (s.folSlot n).writing = none)
    (hr : nextRec s (s.folSlot n) = some r) :
    exec (.recordCopyADone n) s = .next (s.setFolSlot n { s.folSlot n with
      records := insertRec { r with copyA := true, copyB := false } ((s.folSlot n).records.filter fun x => x.seq != r.seq)
      writing := some r.seq }) := by
  change execRecordCopyADone n s = _
  simp only [execRecordCopyADone, hm, hw, hr]

theorem recordCopyADone_idle (h : (s.folSlot n).state ≠ .mounted ∨ (s.folSlot n).writing.isSome = true ∨
    nextRec s (s.folSlot n) = none) : exec (.recordCopyADone n) s = .next s := by
  change execRecordCopyADone n s = _
  unfold execRecordCopyADone
  dsimp only
  split
  · next r hm hw hr => simp [hm, hw, hr] at h
  · rfl

/-! ## Anchors and marks (R504, R240, R507) -/

theorem anchorWrite_writes (hm : (s.folSlot n).state = .mounted) (ha : (s.folSlot n).anchoring = false)
    (hh : (s.folSlot n).anchorHigh < (s.folSlot n).highSeq) (h0 : s.cel.stage = 0)
    (hd : (s.folSlot n).anchorAt = none ∨ ∃ at', (s.folSlot n).anchorAt = some at' ∧ 1250000000 ≤ s.now - at') :
    exec (.anchorWrite n) s = .next ((s.setFolSlot n { s.folSlot n with
      anchoring := true, anchorAt := some s.now, anchorHigh := (s.folSlot n).highSeq }).send (.rpmbWrite n (s.folSlot n).highSeq)) := by
  refine if_pos ⟨hm, ha, hh, ?_, h0⟩
  rcases hd with hd | ⟨at', hd, ht⟩
  · rw [hd]
  · rw [hd]; exact decide_eq_true ht

theorem anchorWrite_stays (h : (s.folSlot n).highSeq ≤ (s.folSlot n).anchorHigh ∨ s.cel.stage ≠ 0) :
    exec (.anchorWrite n) s = .next s :=
  if_neg fun ⟨_, _, hh, _, h0⟩ => h.elim (fun h => absurd hh (Nat.not_lt.mpr h)) (· h0)

theorem anchorWrite_early {at' : Nat} (h : (s.folSlot n).anchorAt = some at') (ht : s.now - at' < 1250000000) :
    exec (.anchorWrite n) s = .next s := by
  refine if_neg fun ⟨_, _, _, hd, _⟩ => ?_
  rw [h] at hd
  exact absurd (of_decide_eq_true hd) (Nat.not_le.mpr ht)

theorem anchorWriteDone_idle (h : (s.folSlot n).anchoring = false) : exec (.anchorWriteDone n) s = .next s := if_pos h

theorem anchorWriteDone_raises (h : (s.folSlot n).anchoring = true)
    (hw : worn { s.folSlot n with rpmbCnt := (s.folSlot n).rpmbCnt + 1 } = false) :
    exec (.anchorWriteDone n) s =
      .next (ledgerRaise (s.setFolSlot n { s.folSlot n with anchoring := false, rpmbCnt := (s.folSlot n).rpmbCnt + 1 }) (288 + n)
        ((s.folSlot n).tenure * 2 ^ 32 + ((s.folSlot n).rpmbCnt + 1).toNat)) := by
  have hw' : worn { s.folSlot n with anchoring := false, rpmbCnt := (s.folSlot n).rpmbCnt + 1 } = false := hw
  refine (if_neg (by simp [h])).trans (next_congr ?_)
  rw [if_neg (Bool.eq_false_iff.mp hw'), writeShadow, State.setFolSlot_folSlot_self]

theorem devsecMark_marks (hb : 9 ≤ s.boot.stage) (hw : s.boot.waiting = false) (hq : queueFull s = false) :
    exec .devsecMark s = .next (queueRecord s (.devSec s.cel.devSec)) := if_neg (by simp [hb, hw, hq])

theorem devsecMark_waits (h : s.boot.stage < 9 ∨ s.boot.waiting = true ∨ queueFull s = true) :
    exec .devsecMark s = .next s := if_pos h

/-! ## Errors, tuning, wear (R497 to R499) -/

section
variable (h : folReads (s.folSlot n) = false)
include h

theorem folIoErr_unread : exec (.folIoErr n) s = .next s := if_pos h

theorem retune_unread (ok : Bool) : exec (.retune n ok) s = .next s := if_neg (by simp [h])

theorem lifeCheck_unread (life : W32) : exec (.lifeCheck n life) s = .next s := if_pos h

end

section
variable (h : folReads (s.folSlot n) = true)
include h

theorem folIoErr_reports : exec (.folIoErr n) s =
    .next (settleQueue (reportSrc (s.setFolSlot n { s.folSlot n with ioErr := (s.folSlot n).ioErr.hit }) 0x1F1 0xFF
      (BitVec.ofNat 32 n))) := if_neg (by simp [h])

theorem retune_drops (ht : (s.folSlot n).timing = 2) :
    exec (.retune n false) s = .next (s.setFolSlot n { s.folSlot n with timing := 1 }) := if_pos ⟨h, ht, rfl⟩

theorem lifeCheck_checks (life : W32) :
    exec (.lifeCheck n life) s = .next (settleQueue (checkWear (s.setFolSlot n { s.folSlot n with life := life }) n)) :=
  if_neg (by simp [h])

end

theorem retune_passes (s : State) (n : Nat) : exec (.retune n true) s = .next s := if_neg (by simp)

/-! ## Abandonment (R508) -/

theorem folArchiveAbandoned_abandons (h9 : s.boot.stage = 9) (hw : s.boot.waiting = true) (ha : s.folio.abandoned = false) :
    exec .folArchiveAbandoned s = .next (abandonArchive s) := if_neg (by simp [h9, hw, ha])

theorem folArchiveAbandoned_ignored (h : s.boot.stage ≠ 9 ∨ s.boot.waiting = false ∨ s.folio.abandoned = true) :
    exec .folArchiveAbandoned s = .next s := if_pos h

end

end Sys2Proof.Machine

open Sys2Proof Sys2Proof.Machine

/-- Settles O54: each event of a slot is decided by the slot's own state, and a mounted cartridge by its RPMB and its class. -/
theorem folioSlotsTakeEffect : Obligations.FolioSlotsTakeEffect := by
  unfold Obligations.FolioSlotsTakeEffect
  intro s n f num
  refine ⟨cartridgeInsert_ignored, cartridgeInsert_identifies, cartridgeRemove_ignored,
    fun hn hp => ⟨cartridgeRemove_anchoring hn hp, cartridgeRemove_idle hn hp⟩, fun ready h => cmd1Poll_ignored h ready,
    fun h => ⟨cmd1Poll_ready h, cmd1Poll_again h, cmd1Poll_fails h⟩, fun x => mount_ignored x, ?mount,
    fun x => classify_foreign, fun x h h4 => ⟨classify_stale h h4, classify_ahead h h4, classify_current h h4,
      classify_shadowLost h h4, classify_inconsistent h h4⟩, reconcileComplete_waits, reconcileComplete_worn,
    reconcileComplete_mounts, recordOnFolio_none, fun r => recordCopyADone_writes, recordCopyADone_idle,
    fun k => recordOnFolio_whole, anchorWrite_writes, anchorWrite_stays, fun at' => anchorWrite_early, anchorWriteDone_idle,
    anchorWriteDone_raises, devsecMark_marks, devsecMark_waits,
    fun h => ⟨folIoErr_unread h, retune_unread h, lifeCheck_unread h⟩,
    fun h => ⟨folIoErr_reports h, retune_drops h, retune_passes s n, lifeCheck_checks h⟩,
    fun h9 hw ha => ⟨_, folArchiveAbandoned_abandons h9 hw ha, rfl, rfl, rfl⟩, folArchiveAbandoned_ignored⟩
  case mount =>
    intro x hst hb g t rs h
    refine ⟨mount_idFails hst hb, mount_small hst hb, fun hx hs => ?_⟩
    have hj := mount_judged hst hb hx hs
    refine ⟨fun hr => ?_, fun hr hl => ?_, fun hr hc => ?_, fun hr hc => ?_, fun hr hc => ?_, fun hr hc => ?_⟩ <;> rw [hr] at hj
    · exact hj
    · exact hj.trans (if_pos hl)
    all_goals
      rw [hc] at hj
      exact hj
end

section
/-!
SUPPORT. Power-on reset and the boot stages: when a stage begins, and what it does where nothing of it fails (R541 to R543 and the
rules they lead to).
-/

namespace Sys2Proof.Machine

/-! ## Reset and the boot's hold (R541, R543) -/

section
variable {s : State}

theorem porN_unpowered (h : s.cel.mainPower = false) (release paired : Bool) : exec (.porN release paired) s = .next s :=
  if_pos (by simp [h])

theorem porN_asserts (h : s.cel.mainPower = true) (paired : Bool) : exec (.porN false paired) s = .next (porReset s) :=
  (if_neg (by simp [h])).trans (if_neg Bool.false_ne_true)

theorem porN_releases (h : s.cel.mainPower = true) (paired : Bool) :
    exec (.porN true paired) s = .next (porRelease s paired) := (if_neg (by simp [h])).trans (if_pos rfl)

theorem porRelease_booting (h : s.reg.dev = .off) (paired : Bool) : porRelease s paired = { s with
    reg := { s.reg with dev := .booting }, mirror := { s.mirror with hbOut := true }, qdr := { s.qdr with paired := paired } } :=
  if_pos h

theorem porRelease_running (h : s.reg.dev ≠ .off) (paired : Bool) : porRelease s paired = s := if_neg h

theorem bootHoldEnd_restarts (h : s.boot.shedHold = true) :
    exec .bootHoldEnd s = .next (chipReset { s with cel := { s.cel with warn := false } }) := if_pos h

theorem bootHoldEnd_unheld (h : s.boot.shedHold = false) : exec .bootHoldEnd s = .next s := if_neg (by simp [h])

theorem bootDieTempReached_releases (h : s.boot.coldWait = true) : exec .bootDieTempReached s =
    .next { s with boot := { s.boot with coldWait := false, waiting := false, dieTemp := 0 } } := if_pos h

theorem bootDieTempReached_warm (h : s.boot.coldWait = false) : exec .bootDieTempReached s = .next s := if_neg (by simp [h])

end

/-! ## When a stage begins -/

/-- Stage `n` is done and nothing holds the boot: its life cycle goes on to READY and its evidence is not full. -/
def StageDone (s : State) (n : Nat) : Prop :=
  s.reg.dev = .booting ∧ s.boot.stage = n ∧ s.boot.shedHold = false ∧ s.boot.coldWait = false ∧ s.cel.mainPower = true ∧
    (s.tmp.lcs = .factory ∨ s.tmp.lcs = .provisioned ∨ s.tmp.lcs = .service ∨ s.tmp.lcs = .returned) ∧ s.tmp.evidence < 1024

theorem StageDone.bootAt {s : State} {n : Nat} (h : StageDone s n) : Machine.bootAt s n = true := by
  obtain ⟨hdev, hstage, hshed, hcold, hpower, hlcs, hev⟩ := h
  have hends : bootEnds s = false := by
    unfold bootEnds
    obtain h | h | h | h := hlcs <;> rw [h]
  have hfull : evidenceEnds s = false := by simp [evidenceEnds, hev]
  simp [Machine.bootAt, hdev, hstage, hshed, hcold, hpower, hends, hfull]

theorem bootAt_of_held {s : State} (h : s.reg.dev ≠ .booting ∨ s.boot.shedHold = true ∨ s.boot.coldWait = true ∨
    s.cel.mainPower = false) (n : Nat) : bootAt s n = false := by
  obtain h | h | h | h := h <;> simp [bootAt, h]

theorem bootAt_of_stage_ne {s : State} {n : Nat} (h : s.boot.stage ≠ n) : bootAt s n = false := by simp [bootAt, h]

/-- The boot of a device in SCRAP, INVALID or BLANK ends with stage 5 (R484). -/
theorem bootAt_of_bootEnds {s : State} {n : Nat} (hn : 5 ≤ n) (h : s.tmp.lcs = .scrap ∨ s.tmp.lcs = .invalid ∨ s.tmp.lcs = .blank) :
    bootAt s n = false := by
  have hends : bootEnds s = true := by
    unfold bootEnds
    obtain h | h | h := h <;> rw [h]
  simp [bootAt, hn, hends]

/-- The boot of a device in SERVICE whose evidence is full ends with stage 6 (R480). -/
theorem bootAt_of_evidenceEnds {s : State} {n : Nat} (hn : 6 ≤ n) (hl : s.tmp.lcs = .service) (he : 1024 ≤ s.tmp.evidence) :
    bootAt s n = false := by
  have hfull : evidenceEnds s = true := by simp [evidenceEnds, hl, he]
  simp [bootAt, hn, hfull]

theorem inStage_of_booting {s : State} {n : Nat} (hdev : s.reg.dev = .booting) (hstage : s.boot.stage = n) (f : State → State) :
    inStage n s f = f s := if_pos ⟨hdev, hstage⟩

theorem inStage_bootTo {s : State} (hdev : s.reg.dev = .booting) (n : Nat) (f : State → State) :
    inStage n (bootTo s n) f = f (bootTo s n) := if_pos ⟨hdev, rfl⟩

/-! ### A stage whose place the boot has not reached begins nothing -/

section
variable {s : State}

theorem bootStage3_waits (h : bootAt s 2 = false) (r) : exec (.bootStage3 r) s = .next s := if_pos (by simp [h])
theorem bootStage4_waits (h : bootAt s 3 = false) (r) : exec (.bootStage4 r) s = .next s := if_pos (by simp [h])
theorem bootStage5_waits (h : bootAt s 4 = false) (r) : exec (.bootStage5 r) s = .next s := if_pos (by simp [h])
theorem bootStage6_waits (h : bootAt s 5 = false) : exec .bootStage6 s = .next s := if_pos (by simp [h])
theorem bootStage7_waits (h : bootAt s 6 = false) (r) : exec (.bootStage7 r) s = .next s := if_pos (by simp [h])
theorem bootStage8_waits (h : bootAt s 7 = false) (r) : exec (.bootStage8 r) s = .next s := if_pos (by simp [h])
theorem bootStage9_waits (h8 : bootAt s 8 = false) (h9 : bootAt s 9 = false) (r) : exec (.bootStage9 r) s = .next s :=
  if_pos (by simp [h8, h9])
theorem bootStage10_waits (h : bootAt s 9 = false) (r) : exec (.bootStage10 r) s = .next s := if_pos (by simp [h])
theorem bootStage10_awaitsRestore (h : s.boot.waiting = true) (r) : exec (.bootStage10 r) s = .next s := if_pos (by simp [h])
theorem bootStage11_waits (h : bootAt s 10 = false) : exec .bootStage11 s = .next s := next_congr (if_neg (by simp [h]))
theorem bootStage12_waits (h : bootAt s 11 = false) : exec .bootStage12 s = .next s := if_pos (by simp [h])
theorem bootStage13_waits (h : bootAt s 12 = false) : exec .bootStage13 s = .next s := if_pos (by simp [h])

end

/-! ## Stages 3 and 4 -/

section
variable {s : State}

/-- Stage 3 entered: the die temperature read, and the boot waiting below 0 °C. -/
def dieRead (s : State) (r : Stage3) : State :=
  let cold := decide (r.dieTemp.toInt < 0)
  { s with boot := { s.boot with stage := 3, dieTemp := r.dieTemp, coldWait := cold, waiting := cold } }

theorem bootStage3_passes {r : Stage3} (h : StageDone s 2) (hp : r.pllsLocked = true) (hr : r.romOk = true) :
    exec (.bootStage3 r) s = .next (stage3Folio (dieRead s r) r) :=
  (if_neg (by simp [h.bootAt])).trans (if_neg (by simp [hp, hr]))

theorem bootStage3_fails {r : Stage3} (h : StageDone s 2) (hf : r.pllsLocked = false ∨ r.romOk = false) :
    exec (.bootStage3 r) s = .next (failDevice (dieRead s r)) :=
  (if_neg (by simp [h.bootAt])).trans (if_pos (by obtain h | h := hf <;> simp [h]))

theorem toRecovery_dev (s : State) : (toRecovery s).reg.dev = .recovery := by
  rw [toRecovery, noteDev_only]

theorem trialAt_none {r : Registrar} (h : r.trial = .none) : trialAt r = r := by rw [trialAt, h]

theorem bootImage_noTrial (h : s.reg.trial = .none) (x : FwImage) : bootImage s x = x := by rw [bootImage, h]

section
variable {r : Stage4} (h : StageDone s 3) (ht : s.reg.trial = .none)
include h ht

theorem bootStage4_noImage (hi : r.image = none) : exec (.bootStage4 r) s = .next (toRecovery (bootTo s 4)) := by
  refine (if_neg (by simp [h.bootAt])).trans ?_
  rw [trialAt_none ht, hi]

/-- With no trial the image is that of the bank booted; what follows turns on its version. -/
theorem bootStage4_image {x : FwImage} (hi : r.image = some x) : exec (.bootStage4 r) s =
    if x.version < ctrFinal s 0 then .next (toRecovery (bootTo s 4))
    else .next (setDresA { (bootTo s 4) with reg := { s.reg with running := x, activeBank := x, aliasKeys := true } } 1 x.measure) := by
  have ht' : (bootTo s 4).reg.trial = .none := ht
  have hbank : (bootTo s 4).reg.trial ≠ .running := by rw [ht']; decide
  refine (if_neg (by simp [h.bootAt])).trans ?_
  rw [trialAt_none ht, hi]
  dsimp only
  rw [bootImage_noTrial ht', if_neg hbank]
  rfl

end
end

/-! ## Stage 5 -/

theorem counter_unlisted {s : State} (h : s.ledger.counters = []) (n : Nat) : counter s n = freshCounter n := by
  rw [counter, h]; rfl

/-- With no counter listed and no bad cell, stage 5 loads the defaults and the mailbox is served. -/
theorem bootStage5_serves {s : State} {r : Stage5} (h : StageDone s 4) (hb : r.badCells = []) (hc : s.ledger.counters = [])
    (hl : s.tmp.lcs ≠ .returned) : exec (.bootStage5 r) s =
      .next { (loadDefaults (bootTo s 5)) with reg := { s.reg with served := true } } := by
  obtain ⟨hdev, hstage, -, -, -, hlcs, -⟩ := id h
  have hmark : markBad (loadDefaults (bootTo s 5)) r.badCells = loadDefaults (bootTo s 5) := by rw [hb]; rfl
  have hkeys : Tab.keys (loadDefaults (bootTo s 5)).ledger.counters = [] := congrArg Tab.keys hc
  have hlost : (counter (loadDefaults (bootTo s 5)) 0).lost = false :=
    congrArg Counter.lost (counter_unlisted (s := loadDefaults (bootTo s 5)) hc 0)
  have herase : ((loadDefaults (bootTo s 5)).tmp.lcs == .returned || (loadDefaults (bootTo s 5)).tmp.lcs == .scrap ||
      (loadDefaults (bootTo s 5)).tmp.lcs == .invalid) = false := by
    change (s.tmp.lcs == .returned || s.tmp.lcs == .scrap || s.tmp.lcs == .invalid) = false
    obtain h | h | h | h := hlcs <;> simp_all
  refine (if_neg (by simp [h.bootAt])).trans ?_
  rw [hmark, hkeys, List.foldl_nil, hlost, herase, if_neg Bool.false_ne_true]
  exact next_congr (inStage_of_booting (s := loadDefaults (bootTo s 5)) hdev rfl _)

/-! ## Stage 6 -/

/-- Stage 6 entered with the pending evidence counted. -/
def evidenceCounted (s : State) : State := { bootTo s 6 with tmp := { addEvidence s.tmp with pendingEv := false } }

section
variable {s : State} (h : StageDone s 5) (hr : s.tmp.responded = false)
include h hr

theorem bootStage6_quiet (hp : s.tmp.pendingEv = false) (hk : s.cel.cellarKey = true) :
    exec .bootStage6 s = .next (bootTo s 6) := by
  obtain ⟨hdev, -, -, -, -, -, hev⟩ := id h
  have hrec : reconcileEvidence (bootTo s 6) = bootTo s 6 :=
    (if_neg (by rw [show (bootTo s 6).tmp.pendingEv = false from hp]; decide)).trans
      (if_neg (by rw [show (bootTo s 6).cel.cellarKey = true from hk]; simp))
  have hlog : logResponse (bootTo s 6) = bootTo s 6 := if_neg (by rw [show (bootTo s 6).tmp.responded = false from hr]; decide)
  refine (if_neg (by simp [h.bootAt])).trans (next_congr ?_)
  rw [hrec, inStage_bootTo hdev, hlog, inStage_bootTo hdev]
  exact if_neg (Nat.not_le.mpr hev)

/-- The evidence that a response has left pending is counted (R481). -/
theorem bootStage6_counts (hp : s.tmp.pendingEv = true) (he : s.tmp.evidence < 1023) :
    exec .bootStage6 s = .next (evidenceCounted s) := by
  have hdev : (evidenceCounted s).reg.dev = .booting := h.1
  have hstage : (evidenceCounted s).boot.stage = 6 := rfl
  have hrec : reconcileEvidence (bootTo s 6) = evidenceCounted s := if_pos hp
  have hlog : logResponse (evidenceCounted s) = evidenceCounted s :=
    if_neg (by rw [show (evidenceCounted s).tmp.responded = false from hr]; decide)
  refine (if_neg (by simp [h.bootAt])).trans (next_congr ?_)
  rw [hrec, inStage_of_booting hdev hstage, hlog, inStage_of_booting hdev hstage]
  exact if_neg (show ¬ 1024 ≤ min (s.tmp.evidence + 1) 1024 by omega)

end

/-! ## Stage 7: the entropy unit (R348) -/

theorem startSources_reg (s : State) : (startSources s).reg = s.reg := by
  unfold startSources
  exact foldl_keeps State.reg (fun _ _ => by rfl) _ _
theorem startSources_boot (s : State) : (startSources s).boot = s.boot := by
  unfold startSources
  exact foldl_keeps State.boot (fun _ _ => by rfl) _ _
theorem startSources_cel (s : State) : (startSources s).cel = s.cel := by
  unfold startSources
  exact foldl_keeps State.cel (fun _ _ => by rfl) _ _

theorem entEvent_cel (s : State) : (entEvent s).cel = s.cel := by rw [entEvent_only]

theorem entEvent_entState (s : State) : (entEvent s).ent.state = s.ent.state := by rw [entEvent_only]

theorem instantiate_cel (s : State) : (instantiate s).cel = s.cel := by
  refine (entEvent_cel _).trans ((foldl_keeps State.cel (fun _ _ => ?_) _ _).trans rfl)
  split <;> rfl

theorem instantiate_ready (s : State) : (instantiate s).ent.state = .ready := by
  refine (entEvent_entState _).trans ((foldl_keeps (fun t => t.ent.state) (fun _ _ => ?_) _ _).trans rfl)
  split <;> rfl

theorem renewKey_kept {s : State} (h : s.cel.cellarKey = true) : renewKey s = s := if_pos h

theorem bootStage7_starts {s : State} {r : Stage7} (h : StageDone s 6) (hk : r.katOk = true) (hf : r.failed = [])
    (hc : s.cel.cellarKey = true) : exec (.bootStage7 r) s =
      .next (noteDev (startSources (bootTo s 7)) (instantiate (startSources (bootTo s 7)))) := by
  have hdev : (startSources (bootTo s 7)).reg.dev = .booting := (congrArg Registrar.dev (startSources_reg _)).trans h.1
  have hstage : (startSources (bootTo s 7)).boot.stage = 7 := congrArg Boot.stage (startSources_boot _)
  have hkey : (noteDev (startSources (bootTo s 7)) (instantiate (startSources (bootTo s 7)))).cel.cellarKey = true := by
    rw [noteDev_only]
    change (instantiate (startSources (bootTo s 7))).cel.cellarKey = true
    rw [instantiate_cel, startSources_cel]
    exact hc
  refine (if_neg (by simp [h.bootAt])).trans (next_congr ?_)
  rw [if_pos hk, hf, List.foldl_nil, inStage_of_booting hdev hstage, renewKey_kept hkey]

/-! ## Stage 8: the QDR channels (R517) -/

theorem bootStage8_katFails {s : State} {r : Stage8} (h : StageDone s 7) (hk : r.katOk = false) :
    exec (.bootStage8 r) s = .next (failDevice (bootTo s 8)) :=
  (if_neg (by simp [h.bootAt])).trans (if_pos (by simp [hk]))

theorem passing_all {r : Stage8} (hp : ∀ k, k < 8 → channelPasses r k = true) :
    (List.range 8).filter (channelPasses r) = List.range 8 :=
  List.filter_eq_self.mpr fun k hk => hp k (List.mem_range.mp hk)

theorem qdrGone_allPass (paired : Bool) : qdrGone paired (List.range 8) = false := by cases paired <;> decide

theorem bootStage8_trains {s : State} {r : Stage8} (h : StageDone s 7) (hk : r.katOk = true)
    (hp : ∀ k, k < 8 → channelPasses r k = true) : exec (.bootStage8 r) s =
      .next { (bootTo s 8) with qdr := { s.qdr with
        trained := true, chOk := 0xFF, eyes := (List.range 8).map fun k => (k, eyeOf r k), guardKeys := true } } := by
  have hnone : ((List.range 8).filter fun k => !(List.range 8).contains k) = [] := by decide
  refine (if_neg (by simp [h.bootAt])).trans ((if_neg (by simp [hk])).trans (next_congr ?_))
  rw [passing_all hp, hnone, List.foldl_nil]
  exact (inStage_of_booting (by exact h.1) (by rfl) _).trans (if_neg (Bool.eq_false_iff.mp (qdrGone_allPass _)))

/-! ## Stage 9: the archive (R334, R412, R508) -/

theorem bootStage9_awaits {s : State} {r : Stage9} (h : StageDone s 8) (hm : r.modes = []) (hr : mayRestore s = false)
    (hw : s.boot.waiting = false) :
    exec (.bootStage9 r) s = .next { s with boot := { s.boot with stage := 9, waiting := true } } := by
  have hset : setModes (bootTo s 9) r.modes = bootTo s 9 := by rw [hm]; rfl
  have hw' : (bootTo s 9).boot.waiting = false := hw
  refine (if_neg (by simp [h.bootAt])).trans (next_congr ?_)
  rw [hset, if_neg (by simp [hw']), inStage_bootTo h.1]
  exact if_neg (Bool.eq_false_iff.mp hr)

theorem restoreDevSec_nil (s : State) : restoreDevSec s [] = s := by
  unfold restoreDevSec
  exact if_neg (Nat.not_lt_zero _)

theorem reloadImage_unmarked {s : State} (h : markedImage s = none) : reloadImage s = s := by rw [reloadImage, h]

/-- An empty archive restores nothing; the sequence numbers begin at 1. -/
theorem restore_empty {s : State} (ha : archiveUnion s = []) (ho : orphans s = []) (hm : markedImage s = none)
    (hdev : s.reg.dev = .booting) (hstage : s.boot.stage = 9) :
    restore s = { s with folio := { s.folio with nextSeq := max s.folio.nextSeq 1 } } := by
  have ho' : orphans { s with folio := { s.folio with nextSeq := max s.folio.nextSeq 1 } } = [] := ho
  rw [restore, ha]
  change inStage 9 (restoreDevSec ((orphans { s with folio := { s.folio with nextSeq := max s.folio.nextSeq 1 } }).foldl emptySlot
    { s with folio := { s.folio with nextSeq := max s.folio.nextSeq 1 } }) []) reloadImage = _
  rw [ho', List.foldl_nil, restoreDevSec_nil]
  exact (inStage_of_booting (by exact hdev) (by exact hstage) _).trans (reloadImage_unmarked hm)

theorem bootStage9_restores {s : State} {r : Stage9} (h : StageDone s 8) (hm : r.modes = []) (hr : mayRestore s = true)
    (ha : archiveUnion s = []) (ho : orphans s = []) (hi : markedImage s = none) : exec (.bootStage9 r) s =
      .next (ensureAnchor { s with
        boot := { s.boot with stage := 9, waiting := false }, folio := { s.folio with nextSeq := max s.folio.nextSeq 1 } }) := by
  have hset : setModes (bootTo s 9) r.modes = bootTo s 9 := by rw [hm]; rfl
  have hr' : mayRestore (bootTo s 9) = true := hr
  have hres : restore (bootTo s 9) = { (bootTo s 9) with folio := { s.folio with nextSeq := max s.folio.nextSeq 1 } } :=
    restore_empty (s := bootTo s 9) ha ho hi h.1 rfl
  refine (if_neg (by simp [h.bootAt])).trans (next_congr ?_)
  rw [hset, if_neg (by simp [hr']), inStage_bootTo h.1, if_pos hr', hres]
  exact inStage_of_booting (by exact h.1) (by rfl) _

theorem ensureAnchor_kept {s : State} (h : (s.slot 0).valid = true) : ensureAnchor s = s := if_pos h

/-! ## Stages 10 to 13 -/

theorem bootStage10_assigns {s : State} {r : Stage10} (h : StageDone s 9) (hw : s.boot.waiting = false) (hf : r.failed = []) :
    let t := [EngineType.tun, .floor, .pipe, .kiln].foldl assignIndices (bootTo s 10)
    exec (.bootStage10 r) s = .next { t with tuns := { t.tuns with
      store := (t.reg.running.words.zipIdx).foldl (fun m p => Tab.set m p.2 p.1) t.tuns.store } } := by
  intro t
  refine (if_neg (by simp [h.bootAt, hw])).trans (next_congr ?_)
  rw [hf, List.filter_nil, List.foldl_nil]
  exact inStage_bootTo h.1 10 _

theorem bootStage11_passes {s : State} (h : StageDone s 10) : exec .bootStage11 s = .next (bootTo s 11) :=
  next_congr (if_pos h.bootAt)

theorem bootStage12_returned {s : State} (h : StageDone s 11) (hl : s.tmp.lcs = .returned) :
    exec .bootStage12 s = .next (bootTo s 12) := (if_neg (by simp [h.bootAt])).trans (if_pos hl)

theorem bootStage12_octets {s : State} (h : StageDone s 11) (hl : s.tmp.lcs ≠ .returned) : exec .bootStage12 s =
    .next { (bootTo s 12) with ports := { s.ports with
      octets := Tab.mapVals s.ports.configured fun _ o => freshOctet (bootTo s 12) o } } :=
  (if_neg (by simp [h.bootAt])).trans (if_neg hl)

/-- READY entered at stage 13, before the trial's end and the preserved events. -/
def readied (s : State) : State := { bootTo s 13 with reg := { s.reg with dev := .ready } }

theorem bootStage13_readies {s : State} (h : StageDone s 12) :
    exec .bootStage13 s = .next (endTrial (preservedEvents (noteDev s (readied s)))) := if_neg (by simp [h.bootAt])

theorem preservedEvents_nil {s : State} (h : s.flt.log = []) : preservedEvents s = s := by rw [preservedEvents, h]; rfl

theorem endTrial_none {s : State} (ht : s.reg.trial = .none) (hr : s.reg.trialReverted = false) : endTrial s = s := by
  rw [endTrial, ht]
  exact if_neg (by simp [hr])

theorem bootStage13_ready {s : State} (h : StageDone s 12) (ht : s.reg.trial = .none) (hr : s.reg.trialReverted = false)
    (hlog : s.flt.log = []) : ∃ t, exec .bootStage13 s = .next t ∧ t.reg.dev = .ready ∧ t.boot.stage = 13 := by
  have hone := noteDev_only s (readied s)
  have hlog' : (noteDev s (readied s)).flt.log = [] := by rw [hone]; exact hlog
  have ht' : (noteDev s (readied s)).reg.trial = .none := by rw [hone]; exact ht
  have hr' : (noteDev s (readied s)).reg.trialReverted = false := by rw [hone]; exact hr
  refine ⟨_, bootStage13_readies h, ?_⟩
  rw [preservedEvents_nil hlog', endTrial_none ht' hr', hone]
  exact ⟨rfl, rfl⟩

end Sys2Proof.Machine

open Sys2Proof Sys2Proof.Machine

/-- Settles O41: each stage is decided by whether the boot has reached its place, then by what it finds. -/
theorem bootStagesTakeTheirEffect : Obligations.BootStagesTakeTheirEffect := by
  unfold Obligations.BootStagesTakeTheirEffect
  intro s r3 r4 r5 r7 r8 r9 r10 b at' stg
  refine ⟨fun release paired h => porN_unpowered h release paired,
    fun h paired => ⟨_, porN_asserts h paired, rfl, rfl, rfl, rfl, rfl, rfl, rfl, rfl, rfl, rfl, rfl⟩,
    fun h hd paired => (porN_releases h paired).trans (next_congr (porRelease_booting hd paired)),
    fun h hd paired => (porN_releases h paired).trans (next_congr (porRelease_running hd paired)),
    bootHoldEnd_restarts, bootHoldEnd_unheld, fun h => ?held, fun h => bootStage4_waits (bootAt_of_stage_ne h) r4,
    fun h => bootStage13_waits (bootAt_of_stage_ne h), fun h _ => bootStage6_waits (bootAt_of_bootEnds (Nat.le_refl 5) h),
    fun hl he _ => bootStage7_waits (bootAt_of_evidenceEnds (Nat.le_refl 6) hl he) r7,
    fun h => ⟨bootStage3_passes h, bootStage3_fails h⟩, bootDieTempReached_releases, bootDieTempReached_warm,
    fun h ht => ⟨fun hi => ⟨bootStage4_noImage h ht hi, toRecovery_dev _⟩,
      fun x hi hv => (bootStage4_image h ht hi).trans (if_pos hv),
      fun x hi hv => (bootStage4_image h ht hi).trans (if_neg (Nat.not_lt.mpr hv))⟩,
    fun h hb hc hl => ?stage5, fun h hp hr hk => bootStage6_quiet h hr hp hk, fun h hp hr he => bootStage6_counts h hr hp he,
    fun h hk hf hc => ⟨bootStage7_starts h hk hf hc, instantiate_ready _⟩, bootStage8_katFails, bootStage8_trains,
    bootStage9_awaits, bootStage9_restores, ensureAnchor_kept, fun _ hw => bootStage10_awaitsRestore hw r10,
    bootStage10_assigns, bootStage11_passes, bootStage12_returned, bootStage12_octets, bootStage13_readies, bootStage13_ready⟩
  case held =>
    have hat := bootAt_of_held h
    exact ⟨bootStage3_waits (hat 2) r3, bootStage4_waits (hat 3) r4, bootStage5_waits (hat 4) r5, bootStage6_waits (hat 5),
      bootStage7_waits (hat 6) r7, bootStage8_waits (hat 7) r8, bootStage9_waits (hat 8) (hat 9) r9,
      bootStage10_waits (hat 9) r10, bootStage11_waits (hat 10), bootStage12_waits (hat 11), bootStage13_waits (hat 12)⟩
  case stage5 =>
    refine (bootStage5_serves h hb hc hl).trans ?_
    rw [hc]
    rfl
end
